-- ==== Sys2Proof/Word.lean ====
section
/-! DEFINITION. The word types of the BX9 and their plainest arithmetic (spec/00_scope.md R6, R7). -/

namespace Sys2Proof

/-- A byte, bits [7:0]. -/
abbrev Byte := BitVec 8
/-- A node number (R19). -/
abbrev Node := BitVec 16
/-- A 32-bit sequence, epoch or count. -/
abbrev Word32 := BitVec 32
/-- A 64-bit general register, seed or sequence. -/
abbrev Word64 := BitVec 64
/-- The 256 bytes of a tile; byte `b` is bits `[8b + 7 : 8b]` (R6, R125). -/
abbrev Block := BitVec 2048

/-- A tile and the sidecar that travels with it (R125). -/
structure Tile where
  data : Block
  crc : Word32
  deriving DecidableEq, Repr

/-- Node number 0xFFFF, never assigned (R19). -/
def noNode : Node := 0xFFFF

/-- Bits `[lo + w - 1 : lo]` of a number, as a number (R7). -/
def bitsOf (v lo w : Nat) : Nat := (v >>> lo) % 2 ^ w

/-- Bit `i` of a number. -/
def bitOf (v i : Nat) : Bool := v.testBit i

end Sys2Proof
end

