-- ==== Sys2Proof/Syntax.lean ====
section
/-! DEFINITION. The commands of the BX9 with their operands: one constructor of `Instr` per row of
spec/opcode_table.json. The operand records come first: the Phioc transaction (R350 to R353), the frame
and the link message (R342, R346), the operand fields of a core instruction (R213, R214), the
certificate (R386), the images and the charter (R372, R424 to R432), and the bodies of the management
messages (R384). -/

namespace Sys2Proof

/-! ## Phioc transactions -/

/-- The forwarding extension (R351). -/
structure FwdExt where
  homeEpoch : Word32
  hopBack : Nat
  fwdFrom : Node
  deriving DecidableEq, Repr

/-- The collective extension (R352). -/
structure CollExt where
  collId : BitVec 48
  generation : Word32
  chunk : Nat
  isPartial : Bool
  deriving DecidableEq, Repr

/-- A trailer: its length in bytes, its value (byte `b` at bits `[8b + 7 : 8b]`), and the CRC-32C that
follows it (R353). Length 0: no trailer. -/
structure Trailer where
  len : Nat
  val : Nat
  crc : Word32
  deriving DecidableEq, Repr

/-- A holder as a PULL_STATE response moves it, with its HOLDER_STATE (R33, R54, R56). -/
structure PullHolder where
  node : Node
  hstate : Nat
  caching : Bool
  part : Nat
  agent : Option Nat
  pins : BitVec 8
  deriving DecidableEq, Repr, Inhabited

/-- A layer record as a PULL_STATE response moves it (R106). -/
structure PullLayer where
  version : Nat
  sealEvent : Nat
  tilesWritten : Nat
  code : Nat
  writer : Nat
  deriving DecidableEq, Repr, Inhabited

/-- The extent's own state as a PULL_STATE response moves it (R54, R56): mode, owner, the deadline of its notices,
versions, lease, holders, layers, and the backing at the old home. -/
structure PullExt where
  mode : Nat
  deadline : Word32
  owner : Nat
  latest : Nat
  openV : Nat
  leasePart : Nat
  leaseValid : Bool
  holders : List PullHolder
  layers : List PullLayer
  modules : List Node
  base : Nat
  deriving DecidableEq, Repr, Inhabited

/-- The content of a copy record (R115). -/
inductive CopyContent where
  | zero | poison | sinter (loc : Nat)
  deriving DecidableEq, Repr, Inhabited

/-- A tile's state as a PULL_STATE response moves it (R54): directory entry (R64), poison and zero marks,
version-index records with their content, and the data. -/
structure PullTile where
  tile : Nat
  dstate : Nat
  owner : Nat
  ptrs : List Nat
  groups : Option (BitVec 64)
  poison : Bool
  zero : Bool
  backVersion : Option Nat
  copies : List (Nat × CopyContent × Option Tile)
  data : Option Tile
  deriving DecidableEq, Repr, Inhabited

/-- A ledger entry as a PULL_STATE response moves it (R54, R96). -/
structure PullEntry where
  src : Node
  sub : Nat
  tag : BitVec 16
  aseq : Word32
  status : Byte
  result : BitVec 128
  aop : Nat
  size : Nat
  slot : Nat
  deriving DecidableEq, Repr, Inhabited

/-- The device-defined body of a PULL_STATE response (R353). -/
structure PullBody where
  ext : Option PullExt
  tiles : List PullTile
  ledger : List PullEntry
  deriving DecidableEq, Repr, Inhabited

/-- What an unpredictable result makes of the memory, queues and items of one partition (R10): contents of its tiles by slot and
tile, of its resident tiles by key, of slots of its descriptor and completion rings by queue and index, queues of it that
halt, items of it that end with a status by core and context; and the status and counts with which a command ends. -/
structure Wild where
  tiles : List (Nat × Nat × Block)
  resident : List (Nat × Block)
  ring : List (Nat × Nat × BitVec 512)
  cq : List (Nat × Nat × BitVec 256)
  halts : List Nat
  ends : List (Nat × Nat × Byte)
  status : Byte
  detail : Word32
  done : Nat
  failed : Nat
  unrec : Nat
  deriving DecidableEq, Repr, Inhabited

/-- A transaction: the base header of R350, its extension, its data tiles and its trailer;
`body` is the device-defined body of a PULL_STATE response, and `targets` names the holders that an INVALIDATE on the
geyser is for (R76; how the tree carries them is not stated, DESIGN CHOICE, log entry 36). `strip` is set only inside the
device: the strip of the core whose tile mover sends the request (R187). `resv` and `extResv` are the reserved bits as
received. -/
structure Tx where
  dst : Node
  src : Node
  flowSeq : Word32
  offset : BitVec 48
  tag : BitVec 16
  mapEpoch : BitVec 16
  version : Word32
  op : Byte
  status : Byte
  length : Nat
  cls : Nat
  hop : Nat
  ptag : Nat
  colour : Nat
  mark : Bool
  resp : Bool
  ext : Bool
  flowStart : Bool
  engine : Bool
  qual : BitVec 3
  origin : Node
  fwd : Option FwdExt
  coll : Option CollExt
  tiles : List Tile
  trailer : Trailer
  body : Option PullBody
  targets : List Node := []
  strip : Option Nat := none
  resv : BitVec 16 := 0
  extResv : BitVec 206 := 0
  deriving DecidableEq, Repr

/-- A link message (R346): HELLO, SET_WIDTH, DOWN. -/
inductive LinkMsg where
  | hello (node : Node) (kind : Nat) (port : Nat)
  | setWidth (mask : BitVec 4) (fromSeq : BitVec 12)
  | down (reason : Nat)
  | other (word : BitVec 256)
  deriving DecidableEq, Repr

/-- A transaction's share of a DATA body: `skip` of its bytes lie in bodies before, and `last` says that its last byte lies in
this one (R343). -/
structure TxPart where
  tx : Tx
  skip : Nat := 0
  last : Bool
  deriving DecidableEq, Repr

/-- The body of a frame, by TYPE (R342, R343). -/
inductive FrameBody where
  | data (parts : List TxPart)
  | idle
  | link (m : LinkMsg)
  deriving DecidableEq, Repr

/-- A frame (R342): `decodes` says that all four codewords decoded, and `pad` is what its body holds after the transactions,
up to the zeros at its end. The electrical lanes are not modelled. -/
structure Frame where
  decodes : Bool
  fcrc : BitVec 24
  sync : Byte
  crTotal : Byte
  crClass : Nat
  first : BitVec 10
  ack : BitVec 12
  seq : BitVec 12
  nak : Bool
  body : FrameBody
  pad : List Byte := []
  deriving DecidableEq, Repr

/-- Which part of a spindle lane did not complete a turn (R338). -/
inductive LanePart where
  | middle (j : Nat)
  | input (lane : Nat)
  | output (lane : Nat)
  deriving DecidableEq, Repr

/-! ## Core instructions -/

/-- A context of a logical core (R21, R180). -/
structure CtxId where
  core : Nat
  ctx : Nat
  deriving DecidableEq, Repr

/-- The guard and the operand fields of a core instruction (R213, R214). -/
structure Ops where
  pneg : Bool
  pred : Nat
  d : Nat
  a : Nat
  b : Nat
  c : Nat
  f : Byte
  i : BitVec 20
  deriving DecidableEq, Repr

/-- What another home answered to a tile operation of a context (R225, R231). -/
structure RemoteAnswer where
  status : Byte
  tiles : List Tile
  result : BitVec 128
  deriving DecidableEq, Repr

/-! ## Images and the charter -/

/-- The signing block of an image (R372), field by field; `signature` and `modulus` as numbers,
big-endian integers of 384 bytes under PKCS #1. -/
structure SigningBlock where
  magic : Word32
  type : Byte
  keySlot : Byte
  svn : Nat
  version : Word32
  length : Nat
  sha : BitVec 256
  modulus : Nat
  exponent : Nat
  signature : Nat
  resv06 : BitVec 16 := 0
  resv18 : BitVec 64 := 0
  resv40 : BitVec 512 := 0
  resv204 : BitVec 992 := 0
  deriving DecidableEq, Repr

/-- A limit entry of the caldera (R324). -/
structure Limit where
  reserve : Nat
  cap : Nat
  quota : Nat
  deriving DecidableEq, Repr

/-- A meter entry (R328). -/
structure MeterEntry where
  pir : Nat
  cir : Nat
  pbs : Nat
  cbs : Nat
  profG : Nat
  profY : Nat
  profR : Nat
  colourAware : Bool
  enable : Bool
  deriving DecidableEq, Repr

/-- A random early detection profile (R330). -/
structure Profile where
  minTh : Nat
  maxTh : Nat
  maxP : Nat
  deriving DecidableEq, Repr

/-- The roles of a port (R14); `none` leaves the port unused. -/
inductive PortRole where
  | unused | host | memory | trunk
  deriving DecidableEq, Repr

/-- A PORTS record of the charter (R429, R14, R17). -/
structure PortCfg where
  role : PortRole
  owner : Option Nat
  shares : List Nat
  bundle : Bool
  neighbour : Option Node
  deriving DecidableEq, Repr

/-- A GROUPS record of the charter (R130, R415, R429). -/
structure GroupCfg where
  group : Nat
  modules : List Node
  k : Nat
  m : Nat
  moduleGib : Nat
  rebuildRate : Nat
  claimEpoch : Nat
  partner : Option Node
  receiver : Nat
  deriving DecidableEq, Repr

/-- A grant of backing, in GiB of a group's data space (R431). -/
structure Grant where
  group : Nat
  first : Nat
  len : Nat
  deriving DecidableEq, Repr

/-- A REACH entry (R432). -/
structure Reach where
  owner : Nat
  hold : Bool
  write : Bool
  lease : Bool
  cache : Bool
  deriving DecidableEq, Repr

/-- A partition template (R430, R431). -/
structure Template where
  partition : Nat
  autostart : Bool
  omitSlots : Bool
  modes : BitVec 4
  coresMin : Nat
  coresMax : Nat
  channelsMin : Nat
  channelsMax : Nat
  queueBase : Nat
  queueCount : Nat
  groupQuota : Nat
  watchdog : Nat
  dirLog2 : Nat
  ledgerK : Nat
  vindexMib : Nat
  sinterGib : Nat
  sinterGroup : Nat
  journalMib : Nat
  kernelMib : Nat
  fwMib : Nat
  queueMib : Nat
  cacheGib : Nat
  mirrorA : Nat
  mirrorB : Nat
  supKeys : List (BitVec 256)
  grants : List Grant
  resident : List (Nat × Nat)
  reach : List Reach
  deriving DecidableEq, Repr

/-- The DEVICE section (R429). -/
structure DeviceCfg where
  nodeRanges : List (Nat × Nat)
  vddMv : Nat
  powerCapW : Nat
  leaseMs : Nat
  holdWindowUs : Nat
  holdMarks : Nat
  sampleLog2 : Nat
  weights : List Nat
  scrubDays : Nat
  sinterWarnPct : Nat
  recallMin : Nat
  recallMax : Nat
  removalMs : Nat
  deriving DecidableEq, Repr

/-- The KEYS section (R429). -/
structure KeysCfg where
  fmKeys : List (BitVec 256)
  quorum : List (Nat × Nat)
  quorumK : Nat
  kernelKey : Option (BitVec 256)
  signedKernels : Bool
  revokeVendor : BitVec 4
  revokeOwner : BitVec 4
  deriving DecidableEq, Repr

/-- One partition's records of the partitioned sections (R429). -/
structure PartCfg where
  ports : List (Nat × PortCfg)
  limits : List (Nat × Nat × Limit)
  quota : Nat
  meters : List (Nat × Nat × MeterEntry)
  template : Option Template
  deriving DecidableEq, Repr

/-- A charter: its image's bytes, and what its header and its sections hold (R427 to R432). `fieldsOk` carries what checks 3
and 4 of R433 find of fields whose byte layout the manual does not give (log entry 165). -/
structure Charter where
  bytes : List Byte
  magic : Word32
  format : Byte
  node : Node
  serial : Word64
  compiler : BitVec 16
  fieldsOk : Bool
  device : DeviceCfg
  keys : KeysCfg
  sharedPorts : List (Nat × PortCfg)
  profiles : List Profile
  groups : List GroupCfg
  retired : List Nat
  parts : List PartCfg
  deriving DecidableEq, Repr

/-- What an image slot holds before its signing block (R424, R425). -/
inductive Content where
  | rtpFw
  | engineFw (engine : Nat)
  | charter (c : Charter)
  deriving DecidableEq, Repr

/-- An image in a flash slot (R425): the count L, the digest of its bytes, what they hold, and the
signing block that follows. -/
structure Image where
  count : Nat
  digest : BitVec 256
  content : Content
  block : SigningBlock
  deriving DecidableEq, Repr

/-- The image slots of the flash map (R424); `e` numbers engines as R158 does. -/
inductive FlashSlot where
  | identity
  | rtp (b : Bool)
  | charter (b : Bool)
  | engine (e : Nat) (b : Bool)
  deriving DecidableEq, Repr

/-- What was programmed into the package before power rose: flash slots, the identity certificate's
bytes, and fuses blown at provisioning (R371, R424). -/
structure Board where
  slots : List (FlashSlot × Image)
  identity : List Byte
  fuses : BitVec 4096
  deriving DecidableEq, Repr

/-- What the tests of steps 7 to 9 of the start sequence find (R435, R437, R438): failing channels,
physical cores, middles, banks, ports that train with the peer's HELLO, and modules by their answer to
the claim. -/
structure StartTests where
  badChannels : List Nat
  badCores : List Nat
  deadMiddles : List Nat
  badBanks : List Nat
  peers : List (Nat × Node × Nat)
  silentModules : List Node
  refusingModules : List Node
  claimRecords : List (Nat × Node × Nat)
  deriving DecidableEq, Repr

/-! ## Certificates -/

/-- A quorum certificate (R386). `len` is the body and signature bytes received. -/
structure Cert where
  len : Nat
  magic : Word32
  kind : Byte
  signers : Byte
  device : Node
  target : Node
  leaseMs : Word32
  certSeq : Word64
  bootNonce : Word64
  challenge : Word64
  charterSha : BitVec 256
  sigs : List Nat
  resv0A : BitVec 16 := 0
  resv48 : BitVec 448 := 0
  deriving DecidableEq, Repr

/-! ## Management messages -/

/-- What every management request carries (R381): the session it arrives on, REQ_ID, PARTITION, and
whether LENGTH fits the message. -/
structure Mgmt where
  sess : Nat
  reqId : Word32
  part : Nat
  lenOk : Bool
  deriving DecidableEq, Repr

/-- A holder as ATTACH and GROW name it (R36). -/
structure HolderSpec where
  node : Node
  caching : Bool
  part : Nat
  deriving DecidableEq, Repr

/-- The operations on extents that a batch may hold (R35, R38, R111, R46). -/
inductive ExtentOp where
  | attach (slot mode owner group base : Nat) (holders : List HolderSpec)
  | grow (slot : Nat) (holders : List HolderSpec)
  | notice (slot : Nat) (holders : List Node) (deadline : Word32)
  | cancel (slot : Nat) (holders : List Node)
  | force (slot : Nat) (holders : List Node) (release : Bool)
  | release (slot : Nat)
  | rehomeIn (slot : Nat) (srcNode : Node) (srcSlot : Nat) (homeEpoch : Word32) (group base : Nat)
  | rehomeOut (slot : Nat) (dstNode : Node) (dstSlot : Nat) (homeEpoch : Word32)
  | rehomeFinish (slot : Nat)
  | readExtent (slot : Nat)
  | grantLease (slot part : Nat)
  | revokeLease (slot : Nat)
  | discardOpen (slot : Nat)
  | setRecallTimeout (ms : Nat)
  deriving DecidableEq, Repr

/-- Resources named by PART_COMPOSE, PART_GROW and PART_SHRINK (R365): logical cores, channels in
channel-list order, host- or memory-facing ports, and shares of shared ports. -/
structure Resources where
  cores : List Nat
  channels : List Nat
  ports : List Nat
  shares : List Nat
  deriving DecidableEq, Repr

/-- A resource that can scrub (R366). -/
inductive Resource where
  | core (c : Nat)
  | channel (c : Nat)
  | port (p : Nat)
  deriving DecidableEq, Repr

/-- A kernel image (R233, R234): header fields, code words, digest, and the key and signature of a
signed image. `length` is the number of bytes received. -/
structure KernelImage where
  magic : Word32
  format : Byte
  codeInstrs : Nat
  entry : Nat
  slots : Nat
  maxCtx : Nat
  idempotent : Bool
  signed : Bool
  itemBudget : Word32
  kversion : Word32
  length : Nat
  code : List Word64
  digest : BitVec 256
  modulus : Nat
  exponent : Nat
  signature : Nat
  resv : BitVec 364 := 0
  deriving DecidableEq, Repr

/-- A child entry of a collective group (R250). -/
structure Child where
  type : Nat
  port : Nat
  node : Node
  memberLo : Nat
  memberHi : Nat
  deriving DecidableEq, Repr

/-- A group entry as GROUP_REGISTER gives it (R249). -/
structure GroupEntry where
  collId : BitVec 48
  generation : Word32
  parentNode : Node
  parentPort : Nat
  chunks : Nat
  members : Nat
  source : Nat
  fanIn : Nat
  window : Nat
  inFspec : Byte
  outFspec : Byte
  genTimeout : Nat
  kind : Nat
  op : Nat
  role : Nat
  partition : Nat
  deriving DecidableEq, Repr

/-- A routing table entry (R356). -/
structure Route where
  ports : List Nat
  valid : BitVec 4
  kind : Nat
  deriving DecidableEq, Repr

/-- A counter's control word (R448). -/
structure Control where
  event : Nat
  master : Nat
  masterKind : Nat
  slotLo : Nat
  slotHi : Nat
  addrEn : Bool
  classes : Byte
  priv : BitVec 4
  part : Nat
  partEn : Bool
  enable : Bool
  deriving DecidableEq, Repr

/-- What COUNTER_CONFIG asks (R448, R458, R459). -/
inductive CounterCfg where
  | program (type lo hi idx : Nat) (ctl : Control)
  | portWindow (log2 : Nat)
  | supervisorWindow (ms : Nat)
  deriving DecidableEq, Repr

/-- What TRACE_CONFIG asks (R463, R465): types on, CELL selection, snapshot period, rate cap. -/
structure TraceCfg where
  types : List Nat
  cellLanes : List Nat
  cellClasses : Byte
  cellLog2 : Nat
  snapLog2 : Nat
  rateGbps : Nat
  deriving DecidableEq, Repr

/-- Which data FLASH_WRITE carries (R442): a whole image file for the slot's start, or other bytes. -/
inductive FlashData where
  | image (i : Image)
  | bytes (offset : Nat) (data : List Byte)
  deriving DecidableEq, Repr

/-- The unit of a partition that faulted (R396, R409). -/
inductive PartUnit where
  | homeAgent | directory | ledgerKeeper | versionKeeper
  deriving DecidableEq, Repr

/-- A mirrored structure of R146 whose lost copy is written again. -/
inductive Mirror where
  | extentMap | groupTable | routing
  | ledger (p : Nat) | dirtyLog (p : Nat) | versionIndex (p : Nat) | journal (p : Nat)
  | attachLists (p : Nat) | bitmaps (p : Nat)
  deriving DecidableEq, Repr

/-- What happens to a mirrored structure (R146): a new copy is complete, or one of its two copies fails a check. -/
inductive MirrorNews where
  | complete (m : Mirror)
  | failing (m : Mirror) (copy : Nat)
  deriving DecidableEq, Repr

/-- What becomes of a chunk whose fold runs (R259, R337): all is folded, with the answers of other homes to its DEST writes, or
a contribution of a child, held in the caldera, fails its check as the item reads it. -/
inductive ChunkNews where
  | folded (ans : List RemoteAnswer)
  | heldFails (child : Nat)
  deriving DecidableEq, Repr

/-! ## The commands -/

/-- The steps of the BX9: one constructor per row of spec/opcode_table.json, in its order. -/
inductive Instr where
  /-- RD_TILE (R30). -/
  | rdTile (port : Nat) (tx : Tx)
  /-- WR_TILE (R81). -/
  | wrTile (port : Nat) (tx : Tx)
  /-- WR_PARTIAL (R127). -/
  | wrPartial (port : Nat) (tx : Tx)
  /-- ATOMIC (R99). -/
  | atomic (port : Nat) (tx : Tx)
  /-- ATOMIC_ACK (R91). -/
  | atomicAck (port : Nat) (tx : Tx)
  /-- FENCE (R82). -/
  | fence (port : Nat) (tx : Tx)
  /-- RD_SHARED (R68). -/
  | rdShared (port : Nat) (tx : Tx)
  /-- RD_OWN (R68). -/
  | rdOwn (port : Nat) (tx : Tx)
  /-- UPGRADE (R68). -/
  | upgrade (port : Nat) (tx : Tx)
  /-- MARK_DIRTY (R68). -/
  | markDirty (port : Nat) (tx : Tx)
  /-- WB_DIRTY (R68). -/
  | wbDirty (port : Nat) (tx : Tx)
  /-- EVICT_CLEAN (R68). -/
  | evictClean (port : Nat) (tx : Tx)
  /-- RECALL_ACK (R69). -/
  | recallAck (port : Nat) (tx : Tx)
  /-- RECALL_DATA (R68). -/
  | recallData (port : Nat) (tx : Tx)
  /-- INVALIDATE (R76). -/
  | invalidate (port : Nat) (tx : Tx)
  /-- INVALIDATE_RESPONSE (R76). -/
  | invalidateResponse (port : Nat) (tx : Tx)
  /-- SNAP_OPEN (R107). -/
  | snapOpen (port : Nat) (tx : Tx)
  /-- SNAP_CLOSE (R110). -/
  | snapClose (port : Nat) (tx : Tx)
  /-- PUBLISH (R108). -/
  | publish (port : Nat) (tx : Tx)
  /-- PUBLISH_SEAL (R108). -/
  | publishSeal (slot : Nat)
  /-- CMD_PUSH (R153). -/
  | cmdPush (port : Nat) (tx : Tx)
  /-- DOORBELL (R156). -/
  | doorbell (port : Nat) (tx : Tx)
  /-- RD_WINDOW (R153). -/
  | rdWindow (port : Nat) (tx : Tx)
  /-- CONTRIBUTE (R253). -/
  | contribute (port : Nat) (tx : Tx)
  /-- CONTRIBUTE_RESPONSE (R254). -/
  | contributeResponse (port : Nat) (tx : Tx)
  /-- COLL_RESULT (R260). -/
  | collResult (port : Nat) (tx : Tx)
  /-- COLL_STATUS (R261). -/
  | collStatus (port : Nat) (tx : Tx)
  /-- MODULE_STATUS (R138). -/
  | moduleStatus (port : Nat) (tx : Tx)
  /-- MODULE_RESPONSE (R133). -/
  | moduleResponse (port : Nat) (tx : Tx)
  /-- PULL_STATE (R54). -/
  | pullState (port : Nat) (tx : Tx)
  /-- PULL_STATE_RESPONSE (R54). -/
  | pullStateResponse (port : Nat) (tx : Tx)
  /-- YIELD (R55). -/
  | yieldMsg (port : Nat) (tx : Tx)
  /-- TRANSIT_FORWARD (R357). -/
  | transitForward (port : Nat) (tx : Tx)
  /-- UNDEFINED_OP (R355). -/
  | undefinedOp (port : Nat) (tx : Tx)
  /-- FLOW_GAP_LOSS (R361). -/
  | flowGapLoss (src : Node) (cls : Nat)
  /-- FRAME_RECEIVE (R344). -/
  | frameReceive (port : Nat) (fr : Frame)
  /-- FRAME_TRANSMIT (R343). -/
  | frameTransmit (port : Nat)
  /-- REPLAY_TIMEOUT (R344). -/
  | replayTimeout (port : Nat)
  /-- HELLO (R347). -/
  | hello (port : Nat) (node : Node) (kind : Nat)
  /-- SET_WIDTH (R348). -/
  | setWidth (port : Nat) (mask : BitVec 4) (fromSeq : BitVec 12)
  /-- DOWN (R349). -/
  | linkDown (port : Nat) (reason : Nat)
  /-- LANE_FAULT (R348). -/
  | laneFault (port : Nat) (lane : Nat)
  /-- PORT_FAULT (R349). -/
  | portFault (port : Nat)
  /-- PORT_RETRAIN (R347). -/
  | portRetrain (port : Nat)
  /-- EGRESS_SEND (R321). -/
  | egressSend (lane : Nat)
  /-- SPINDLE_TURN (R318). -/
  | spindleTurn (bad : List Nat)
  /-- SPINDLE_TURN_TIMEOUT (R338). -/
  | spindleTurnTimeout (parts : List LanePart)
  /-- METER_REFILL (R329). -/
  | meterRefill
  /-- HOLD_WINDOW_END (R334). -/
  | holdWindowEnd
  /-- QUEUE_SAMPLE (R335). -/
  | queueSample
  /-- RECALL_TIMEOUT (R70). -/
  | recallTimeout (slot tile : Nat)
  /-- INVALIDATE_TIMEOUT (R77). -/
  | invalidateTimeout (id : Nat)
  /-- WAITING_REQUEST_SERVE (R69). -/
  | waitingRequestServe (slot tile : Nat)
  /-- LEDGER_SPACE_RESUME (R95). -/
  | ledgerSpaceResume (part : Nat)
  /-- JOURNAL_SPACE_RESUME (R134). -/
  | journalSpaceResume (part : Nat)
  /-- SINTER_SPACE_RESUME (R120). -/
  | sinterSpaceResume (part : Nat)
  /-- EPOCH_RETIRE_TIMEOUT (R50). -/
  | epochRetireTimeout
  /-- BATCH_INSTALL_RESUME (R50). -/
  | batchInstallResume
  /-- REVOKE_STOP_TIMER (R44). -/
  | revokeStopTimer (id : Nat)
  /-- REVOKE_QUIESCENT (R45). -/
  | revokeQuiescent (id : Nat)
  /-- DISCARD_RESTORE (R113). -/
  | discardRestore (slot : Nat)
  /-- VERSION_SWEEP (R118). -/
  | versionSweep (slot : Nat)
  /-- REHOME_PULL (R54). -/
  | rehomePull (slot : Nat)
  /-- INTENT_CLEAR (R137). -/
  | intentClear (group region : Nat)
  /-- OWNERSHIP_BITMAP_CLEAR (R416). -/
  | ownershipBitmapClear (slot region : Nat)
  /-- MODULE_LOST (R138). -/
  | moduleLost (node : Node)
  /-- REBUILD_ROW (R141). -/
  | rebuildRow (group : Nat)
  /-- PATROL_SCRUB (R144). -/
  | patrolScrub (group row : Nat)
  /-- MIRROR_RESILVER (R146). -/
  | mirrorResilver (news : MirrorNews)
  /-- HBM_SCRUB (R437). -/
  | hbmScrub (channel : Nat) (ok : Bool)
  /-- ITEM_DISPATCH (R162). -/
  | itemDispatch (part : Nat)
  /-- ITEM_COMPLETE (R165). -/
  | itemComplete (x : CtxId) (ans : List RemoteAnswer)
  /-- EVENT_DELIVER (R177). -/
  | eventDeliver (host : Node)
  /-- REDUCE_RUN (R258). -/
  | reduceRun (queue : Nat)
  /-- REDUCE_FROM (R258). -/
  | reduceFrom (queue : Nat)
  /-- REDUCE_ABORT (R264). -/
  | reduceAbort (queue : Nat)
  /-- CHUNK_COMMIT (R259, R337). -/
  | chunkCommit (collId : BitVec 48) (chunk : Nat) (news : ChunkNews)
  /-- GENERATION_TIMEOUT (R264). -/
  | generationTimeout (collId : BitVec 48)
  /-- ROWS (R273). -/
  | rows (queue : Nat)
  /-- KV (R276). -/
  | kv (queue : Nat)
  /-- DISPATCH (R279). -/
  | dispatch (queue : Nat)
  /-- COMBINE (R280). -/
  | combine (queue : Nat)
  /-- COPY (R284). -/
  | copy (queue : Nat)
  /-- FILL (R284). -/
  | fill (queue : Nat)
  /-- CONVERT (R284). -/
  | convert (queue : Nat)
  /-- PUBLISH_COPY (R286). -/
  | publishCopy (queue : Nat)
  /-- PUBLISH_COPY_SEAL (R287). -/
  | publishCopySeal (queue : Nat) (cmdSeq : Word32) (ans : List RemoteAnswer)
  /-- REBUILD (R289). -/
  | rebuild (queue : Nat)
  /-- SCAN (R299). -/
  | scan (queue : Nat)
  /-- TOPK (R301). -/
  | topk (queue : Nat)
  /-- SCORE (R306). -/
  | score (queue : Nat)
  /-- ATTEND (R308). -/
  | attend (queue : Nat)
  /-- APPLY_RUN (R239). -/
  | applyRun (queue : Nat)
  /-- ADD (R216). -/
  | add (x : CtxId) (o : Ops)
  /-- SUB (R216). -/
  | sub (x : CtxId) (o : Ops)
  /-- MUL (R216). -/
  | mul (x : CtxId) (o : Ops)
  /-- MULHU (R216). -/
  | mulhu (x : CtxId) (o : Ops)
  /-- DIVU (R216). -/
  | divu (x : CtxId) (o : Ops)
  /-- REMU (R216). -/
  | remu (x : CtxId) (o : Ops)
  /-- AND (R216). -/
  | andR (x : CtxId) (o : Ops)
  /-- OR (R216). -/
  | orR (x : CtxId) (o : Ops)
  /-- XOR (R216). -/
  | xor (x : CtxId) (o : Ops)
  /-- SHL (R216). -/
  | shl (x : CtxId) (o : Ops)
  /-- SHR (R216). -/
  | shr (x : CtxId) (o : Ops)
  /-- SAR (R216). -/
  | sar (x : CtxId) (o : Ops)
  /-- MIN_S (R216). -/
  | minS (x : CtxId) (o : Ops)
  /-- MAX_S (R216). -/
  | maxS (x : CtxId) (o : Ops)
  /-- ADDI (R216). -/
  | addi (x : CtxId) (o : Ops)
  /-- ANDI (R216). -/
  | andi (x : CtxId) (o : Ops)
  /-- ORI (R216). -/
  | ori (x : CtxId) (o : Ops)
  /-- XORI (R216). -/
  | xori (x : CtxId) (o : Ops)
  /-- SHLI (R216). -/
  | shli (x : CtxId) (o : Ops)
  /-- SHRI (R216). -/
  | shri (x : CtxId) (o : Ops)
  /-- MOVI (R216). -/
  | movi (x : CtxId) (o : Ops)
  /-- SETP_EQ (R216). -/
  | setpEq (x : CtxId) (o : Ops)
  /-- SETP_NE (R216). -/
  | setpNe (x : CtxId) (o : Ops)
  /-- SETP_LT_S (R216). -/
  | setpLtS (x : CtxId) (o : Ops)
  /-- SETP_LT_U (R216). -/
  | setpLtU (x : CtxId) (o : Ops)
  /-- SETP_GE_S (R216). -/
  | setpGeS (x : CtxId) (o : Ops)
  /-- SETP_GE_U (R216). -/
  | setpGeU (x : CtxId) (o : Ops)
  /-- SETPI_EQ (R216). -/
  | setpiEq (x : CtxId) (o : Ops)
  /-- SETPI_LT_S (R216). -/
  | setpiLtS (x : CtxId) (o : Ops)
  /-- PAND (R216). -/
  | pand (x : CtxId) (o : Ops)
  /-- POR (R216). -/
  | por (x : CtxId) (o : Ops)
  /-- PNOT (R216). -/
  | pnot (x : CtxId) (o : Ops)
  /-- BR (R217). -/
  | branch (x : CtxId) (o : Ops)
  /-- LOOP (R217). -/
  | loop (x : CtxId) (o : Ops)
  /-- CALL (R217). -/
  | callR (x : CtxId) (o : Ops)
  /-- RET (R217). -/
  | ret (x : CtxId) (o : Ops)
  /-- JR (R217). -/
  | jr (x : CtxId) (o : Ops)
  /-- TLD (R218). -/
  | tld (x : CtxId) (o : Ops)
  /-- TST (R218). -/
  | tst (x : CtxId) (o : Ops)
  /-- TATOM (R231). -/
  | tatom (x : CtxId) (o : Ops)
  /-- TCPY (R218). -/
  | tcpy (x : CtxId) (o : Ops)
  /-- TZERO (R218). -/
  | tzero (x : CtxId) (o : Ops)
  /-- LDS (R218). -/
  | lds (x : CtxId) (o : Ops)
  /-- STS (R218). -/
  | sts (x : CtxId) (o : Ops)
  /-- VLD (R218). -/
  | vld (x : CtxId) (o : Ops)
  /-- VST (R218). -/
  | vst (x : CtxId) (o : Ops)
  /-- TILE_OP_COMPLETE (R227). -/
  | tileOpComplete (x : CtxId) (entry : Nat) (ans : Option RemoteAnswer)
  /-- TATOM_RESEND (R231). -/
  | tatomResend (home : Node) (tag : BitVec 16)
  /-- LACQ (R229). -/
  | lacq (x : CtxId) (o : Ops)
  /-- LREL (R229). -/
  | lrel (x : CtxId) (o : Ops)
  /-- LZERO (R219). -/
  | lzero (x : CtxId) (o : Ops)
  /-- LPASS (R191). -/
  | lpass (x : CtxId) (o : Ops)
  /-- LRD (R219). -/
  | lrd (x : CtxId) (o : Ops)
  /-- LWR (R219). -/
  | lwr (x : CtxId) (o : Ops)
  /-- LST (R219). -/
  | lst (x : CtxId) (o : Ops)
  /-- LLD (R219). -/
  | lld (x : CtxId) (o : Ops)
  /-- LSYNC (R219). -/
  | lsync (x : CtxId) (o : Ops)
  /-- LATHE_OP_COMPLETE (R229). -/
  | latheOpComplete (core : Nat)
  /-- VADD (R220). -/
  | vadd (x : CtxId) (o : Ops)
  /-- VSUB (R220). -/
  | vsub (x : CtxId) (o : Ops)
  /-- VMUL (R220). -/
  | vmul (x : CtxId) (o : Ops)
  /-- VFMA (R220). -/
  | vfma (x : CtxId) (o : Ops)
  /-- VMIN (R220). -/
  | vmin (x : CtxId) (o : Ops)
  /-- VMAX (R220). -/
  | vmax (x : CtxId) (o : Ops)
  /-- VSFU (R205). -/
  | vsfu (x : CtxId) (o : Ops)
  /-- VCVT (R220). -/
  | vcvt (x : CtxId) (o : Ops)
  /-- VRSUM (R220). -/
  | vrsum (x : CtxId) (o : Ops)
  /-- VRMAX (R220). -/
  | vrmax (x : CtxId) (o : Ops)
  /-- VBCAST (R220). -/
  | vbcast (x : CtxId) (o : Ops)
  /-- WAIT (R221). -/
  | wait (x : CtxId) (o : Ops)
  /-- WAITALL (R221). -/
  | waitall (x : CtxId) (o : Ops)
  /-- SYNC_FENCE (R221). -/
  | syncFence (x : CtxId) (o : Ops)
  /-- SYNC_YIELD (R221). -/
  | syncYield (x : CtxId) (o : Ops)
  /-- SYS (R222). -/
  | sys (x : CtxId) (o : Ops)
  /-- SEED (R221). -/
  | seed (x : CtxId) (o : Ops)
  /-- FCLR (R221). -/
  | fclr (x : CtxId) (o : Ops)
  /-- FAIL (R221). -/
  | failItem (x : CtxId) (o : Ops)
  /-- END (R242). -/
  | endItem (x : CtxId) (o : Ops)
  /-- ITEM_BUDGET_EXCEEDED (R242). -/
  | itemBudgetExceeded (x : CtxId)
  /-- CORE_FAULT (R401). -/
  | coreFault (phys check : Nat)
  /-- CORE_HANG (R403). -/
  | coreHang (phys : Nat)
  /-- PATTERN_SWEEP (R413). -/
  | patternSweep (phys : Nat) (ok : Bool)
  /-- SENTINEL_TRIP (R410). -/
  | sentinelTrip (strip : Nat)
  /-- JUNCTION_DRAG (R410). -/
  | junctionDrag (strip : Nat) (mC : Nat)
  /-- DRAG_EXIT (R410). -/
  | dragExit (strip : Nat) (mC : Nat)
  /-- POWER_ESTIMATE (R469). -/
  | powerEstimate (watts : Nat)
  /-- POWER_LIMITED (R182). -/
  | powerLimited
  /-- POWER_RELEASED (R182). -/
  | powerReleased
  /-- PARTITION_UNIT_FAULT (R409). -/
  | partitionUnitFault (part : Nat) (u : PartUnit)
  /-- CHANNEL_FAULT (R399). -/
  | channelFault (channel : Nat)
  /-- FIELD_ISOLATED (R400). -/
  | fieldIsolated (field : Nat)
  /-- RTP_SWITCHOVER (R369). -/
  | rtpSwitchover
  /-- RESOURCE_SCRUB_DONE (R366). -/
  | resourceScrubDone (r : Resource)
  /-- REMOVAL_TIMEOUT (R367). -/
  | removalTimeout (part : Nat)
  /-- LEASE_EXPIRY (R389). -/
  | leaseExpiry
  /-- POWER_GOOD (R434). -/
  | powerGood (board : Option Board) (pair0Ok pair1Ok : Bool)
  /-- COOLANT_OK_ASSERT (R434). -/
  | coolantOkAssert (t : StartTests)
  /-- START_WAIT (R435). -/
  | startWait
  /-- POWER_DOWN (R471). -/
  | powerDown
  /-- RAIL_FAULT (R472). -/
  | railFault (rail : Nat)
  /-- VR_ALERT (R469). -/
  | vrAlert
  /-- COOLANT_LOST (R476). -/
  | coolantLost
  /-- COOLANT_RESTORED (R476). -/
  | coolantRestored
  /-- COOLANT_FENCE (R476). -/
  | coolantFence
  /-- THERMAL_TRIP (R480). -/
  | thermalTrip
  /-- STACK_HOT (R479). -/
  | stackHot (stack : Nat)
  /-- REFCLK_SYS_LOSS (R474). -/
  | refclkSysLoss
  /-- REFCLK_FIELD_LOSS (R474). -/
  | refclkFieldLoss (field : Nat)
  /-- REFCLK_MGMT_LOSS (R474). -/
  | refclkMgmtLoss
  /-- SESSION_OPEN (R380). -/
  | sessionOpen (key : BitVec 256)
  /-- SESSION_CLOSE (R465). -/
  | sessionClose (sess : Nat)
  /-- MGMT_RESERVED_CODE (R382). -/
  | mgmtReservedCode (h : Mgmt) (code : Nat)
  /-- ATTEST (R378). -/
  | attest (h : Mgmt) (nonce : BitVec 256)
  /-- IDENTITY_CERT (R377). -/
  | identityCert (h : Mgmt)
  /-- LEASE_CHALLENGE (R386). -/
  | leaseChallenge (h : Mgmt)
  /-- COMMIT_SVN (R376). -/
  | commitSvn (h : Mgmt) (type : Nat) (blows : Bool)
  /-- EXPEL_NODE (R388). -/
  | expelNode (h : Mgmt) (cert : Cert)
  /-- READMIT_NODE (R388). -/
  | readmitNode (h : Mgmt) (cert : Cert)
  /-- FENCE_DEVICE (R388). -/
  | fenceDevice (h : Mgmt) (cert : Cert)
  /-- RENEW_LEASE (R388). -/
  | renewLease (h : Mgmt) (cert : Cert)
  /-- TAKEOVER (R418). -/
  | takeover (h : Mgmt) (cert : Cert) (silent refusing : List Node)
  /-- FLASH_WRITE (R442). -/
  | flashWrite (h : Mgmt) (slot : FlashSlot) (data : FlashData)
  /-- FLASH_ACTIVATE (R445). -/
  | flashActivate (h : Mgmt) (kind : Nat) (slotB : Bool)
  /-- ENGINE_FW_UPDATE (R443). -/
  | engineFwUpdate (h : Mgmt) (engine : Nat) (slotB : Bool) (parts : BitVec 16) (all : Bool)
  /-- PART_COMPOSE (R365). -/
  | partCompose (h : Mgmt) (part : Nat) (r : Resources)
  /-- PART_GROW (R365). -/
  | partGrow (h : Mgmt) (part : Nat) (r : Resources)
  /-- PART_SHRINK (R367). -/
  | partShrink (h : Mgmt) (part : Nat) (r : Resources)
  /-- PART_RESET (R409). -/
  | partReset (h : Mgmt) (part : Nat)
  /-- PART_DISSOLVE (R365). -/
  | partDissolve (h : Mgmt) (part : Nat)
  /-- PART_READ (R365). -/
  | partRead (h : Mgmt) (part : Nat)
  /-- ATTACH (R35). -/
  | attach (h : Mgmt) (slot mode owner group base : Nat) (holders : List HolderSpec)
  /-- GROW (R35). -/
  | grow (h : Mgmt) (slot : Nat) (holders : List HolderSpec)
  /-- REVOKE_NOTICE (R40). -/
  | revokeNotice (h : Mgmt) (slot : Nat) (holders : List Node) (deadline : Word32)
  /-- REVOKE_CANCEL (R35). -/
  | revokeCancel (h : Mgmt) (slot : Nat) (holders : List Node)
  /-- REVOKE_FORCE (R41). -/
  | revokeForce (h : Mgmt) (slot : Nat) (holders : List Node) (toFree : Bool)
  /-- RELEASE (R35). -/
  | releaseExt (h : Mgmt) (slot : Nat)
  /-- REHOME_IN (R35). -/
  | rehomeIn (h : Mgmt) (slot : Nat) (srcNode : Node) (srcSlot : Nat) (homeEpoch : Word32) (group base : Nat)
  /-- REHOME_OUT (R53). -/
  | rehomeOut (h : Mgmt) (slot : Nat) (dstNode : Node) (dstSlot : Nat) (homeEpoch : Word32)
  /-- REHOME_FINISH (R52). -/
  | rehomeFinish (h : Mgmt) (slot : Nat)
  /-- READ_EXTENT (R32). -/
  | readExtent (h : Mgmt) (slot : Nat)
  /-- BATCH (R38). -/
  | batch (h : Mgmt) (ops : List ExtentOp)
  /-- GRANT_LEASE (R111). -/
  | grantLease (h : Mgmt) (slot part : Nat)
  /-- REVOKE_LEASE (R112). -/
  | revokeLease (h : Mgmt) (slot : Nat)
  /-- DISCARD_OPEN (R113). -/
  | discardOpen (h : Mgmt) (slot : Nat)
  /-- RESET_SOURCE (R98). -/
  | resetSource (h : Mgmt) (src : Node)
  /-- SET_RECALL_TIMEOUT (R46). -/
  | setRecallTimeout (h : Mgmt) (ms : Nat)
  /-- READ_GROUP (R130). -/
  | readGroup (h : Mgmt) (group : Nat)
  /-- REPLACE_MODULE (R141). -/
  | replaceModule (h : Mgmt) (group pos : Nat) (node : Node)
  /-- QUEUE_CREATE (R150). -/
  | queueCreate (h : Mgmt) (queue engine depth : Nat) (submitter : Node) (prio : Nat)
  /-- QUEUE_DESTROY (R150). -/
  | queueDestroy (h : Mgmt) (queue : Nat)
  /-- KERNEL_LOAD (R486). -/
  | kernelLoad (h : Mgmt) (handle : Nat) (image : KernelImage)
  /-- KERNEL_UNLOAD (R235). -/
  | kernelUnload (h : Mgmt) (handle : Nat)
  /-- KERNEL_LIST (R235). -/
  | kernelList (h : Mgmt)
  /-- GROUP_REGISTER (R248). -/
  | groupRegister (h : Mgmt) (e : GroupEntry) (children : List Child)
  /-- GROUP_RELEASE (R248). -/
  | groupRelease (h : Mgmt) (collId : BitVec 48)
  /-- GROUP_READ (R248). -/
  | groupRead (h : Mgmt) (collId : BitVec 48)
  /-- ROUTE_SET (R356). -/
  | routeSet (h : Mgmt) (routes : List (Node × Route))
  /-- ROUTE_READ (R356). -/
  | routeRead (h : Mgmt) (nodes : List Node)
  /-- PORT_RESET (R347). -/
  | portReset (h : Mgmt) (port : Nat)
  /-- COUNTER_CONFIG (R448). -/
  | counterConfig (h : Mgmt) (cfg : CounterCfg)
  /-- COUNTER_READ (R454). -/
  | counterRead (h : Mgmt) (scope : List (Nat × Nat × Nat)) (silent : List (Nat × Nat))
  /-- TRACE_CONFIG (R465). -/
  | traceConfig (h : Mgmt) (cfg : TraceCfg)
  /-- SAMPLE_CONFIG (R460). -/
  | sampleConfig (h : Mgmt) (engine part n : Nat) (seed : Word32) (enable : Bool)
  /-- EVENT_SUBSCRIBE (R385). -/
  | eventSubscribe (h : Mgmt)
  /-- EVENT_READ (R385). -/
  | eventRead (h : Mgmt) (start : Nat)
  /-- PORT_WINDOW_END (R458). -/
  | portWindowEnd
  /-- SUPERVISOR_WINDOW_END (R459). -/
  | supervisorWindowEnd
  /-- TRACE_SNAPSHOT (R463). -/
  | traceSnapshot (sess : Nat)
  /-- FUMAROLE_EXPORT (R465). -/
  | fumaroleExport (sess : Nat)
  /-- PARTITION_RESET_COMPLETE (R409). -/
  | partitionResetComplete (part : Nat) (unitOk : Bool)
  /-- CORE_RETURN_TO_SERVICE (R401). -/
  | coreReturnToService (phys : Nat) (ok : Bool)
  /-- MARKED_REGION_RESYNC (R137). -/
  | markedRegionResync (group region : Nat)
  /-- RESERVED_OPCODE_COMMAND (R159). -/
  | reservedOpcodeCommand (queue : Nat)
  /-- CERT_SUBMIT_RESERVED_KIND (R387). -/
  | certSubmitReservedKind (h : Mgmt) (cert : Cert)
  /-- COOLANT_OK_FALL_BEFORE_READY (R481). -/
  | coolantOkFallBeforeReady
  /-- RAIL_IN_RANGE (R435). -/
  | railInRange
  /-- CODE_FETCH_COMPLETE (R237). -/
  | codeFetchComplete (core : Nat) (part handle : Nat)
  deriving DecidableEq, Repr

end Sys2Proof
end

