-- ==== Sys2Proof/Decode.lean ====
section
/-! DEFINITION. The command that a word spells by the bits of spec/opcode_table.json (no row of the table gives bits, so
no word spells a command), and the words of a core's code: the fields of R213 and R214, the operations of R216 to R221,
and the word that spells an instruction. -/

namespace Sys2Proof

/-- The command spelt by a word: none, since the table gives no row any bits. -/
def decodeTableWord (_nbits _w : Nat) : Option Instr := none

/-! ## Words of code (R213, R214) -/

/-- CLASS of a word. -/
def wClass (w : Word64) : Nat := bitsOf w.toNat 60 4

/-- OP of a word. -/
def wOp (w : Word64) : Nat := bitsOf w.toNat 48 8

/-- The guard and the operand fields of a word. -/
def wOps (w : Word64) : Ops :=
  let v := w.toNat
  { pneg := bitOf v 59, pred := bitsOf v 56 3, d := bitsOf v 43 5, a := bitsOf v 38 5, b := bitsOf v 33 5, c := bitsOf v 28 5,
    f := BitVec.ofNat 8 (bitsOf v 20 8), i := BitVec.ofNat 20 (bitsOf v 0 20) }

/-- The operations of the scalar class (R216). -/
def scalarOf (x : CtxId) (o : Ops) (op : Nat) : Option Instr :=
  match op with
  | 0x00 => some (.add x o)
  | 0x01 => some (.sub x o)
  | 0x02 => some (.mul x o)
  | 0x03 => some (.mulhu x o)
  | 0x04 => some (.divu x o)
  | 0x05 => some (.remu x o)
  | 0x06 => some (.andR x o)
  | 0x07 => some (.orR x o)
  | 0x08 => some (.xor x o)
  | 0x09 => some (.shl x o)
  | 0x0A => some (.shr x o)
  | 0x0B => some (.sar x o)
  | 0x0C => some (.minS x o)
  | 0x0D => some (.maxS x o)
  | 0x10 => some (.addi x o)
  | 0x11 => some (.andi x o)
  | 0x12 => some (.ori x o)
  | 0x13 => some (.xori x o)
  | 0x14 => some (.shli x o)
  | 0x15 => some (.shri x o)
  | 0x16 => some (.movi x o)
  | 0x20 => some (.setpEq x o)
  | 0x21 => some (.setpNe x o)
  | 0x22 => some (.setpLtS x o)
  | 0x23 => some (.setpLtU x o)
  | 0x24 => some (.setpGeS x o)
  | 0x25 => some (.setpGeU x o)
  | 0x26 => some (.setpiEq x o)
  | 0x27 => some (.setpiLtS x o)
  | 0x28 => some (.pand x o)
  | 0x29 => some (.por x o)
  | 0x2A => some (.pnot x o)
  | _ => none

/-- The operations of the branch class (R217). -/
def branchOf (x : CtxId) (o : Ops) (op : Nat) : Option Instr :=
  match op with
  | 0x00 => some (.branch x o)
  | 0x01 => some (.loop x o)
  | 0x02 => some (.callR x o)
  | 0x03 => some (.ret x o)
  | 0x04 => some (.jr x o)
  | _ => none

/-- The operations of the tile memory class (R218). -/
def tileOf (x : CtxId) (o : Ops) (op : Nat) : Option Instr :=
  match op with
  | 0x00 => some (.tld x o)
  | 0x01 => some (.tst x o)
  | 0x02 => some (.tatom x o)
  | 0x03 => some (.tcpy x o)
  | 0x04 => some (.tzero x o)
  | 0x08 => some (.lds x o)
  | 0x09 => some (.sts x o)
  | 0x0A => some (.vld x o)
  | 0x0B => some (.vst x o)
  | _ => none

/-- The operations of the lathe class (R219). -/
def latheOf (x : CtxId) (o : Ops) (op : Nat) : Option Instr :=
  match op with
  | 0x00 => some (.lacq x o)
  | 0x01 => some (.lrel x o)
  | 0x02 => some (.lzero x o)
  | 0x03 => some (.lpass x o)
  | 0x04 => some (.lrd x o)
  | 0x05 => some (.lwr x o)
  | 0x06 => some (.lst x o)
  | 0x07 => some (.lld x o)
  | 0x08 => some (.lsync x o)
  | _ => none

/-- The operations of the vector class (R220). -/
def vectorOf (x : CtxId) (o : Ops) (op : Nat) : Option Instr :=
  match op with
  | 0x00 => some (.vadd x o)
  | 0x01 => some (.vsub x o)
  | 0x02 => some (.vmul x o)
  | 0x03 => some (.vfma x o)
  | 0x04 => some (.vmin x o)
  | 0x05 => some (.vmax x o)
  | 0x06 => some (.vsfu x o)
  | 0x07 => some (.vcvt x o)
  | 0x08 => some (.vrsum x o)
  | 0x09 => some (.vrmax x o)
  | 0x0A => some (.vbcast x o)
  | _ => none

/-- The operations of the sync class (R221). -/
def syncOf (x : CtxId) (o : Ops) (op : Nat) : Option Instr :=
  match op with
  | 0x00 => some (.wait x o)
  | 0x01 => some (.waitall x o)
  | 0x02 => some (.syncFence x o)
  | 0x03 => some (.syncYield x o)
  | _ => none

/-- The operations of the system class (R221). -/
def systemOf (x : CtxId) (o : Ops) (op : Nat) : Option Instr :=
  match op with
  | 0x00 => some (.sys x o)
  | 0x01 => some (.seed x o)
  | 0x02 => some (.fclr x o)
  | 0x03 => some (.failItem x o)
  | 0x04 => some (.endItem x o)
  | _ => none

/-- The instruction that a word of code is when a context comes to it; none: its CLASS or OP is reserved (R215). -/
def insnOf (w : Word64) (x : CtxId) : Option Instr :=
  match wClass w with
  | 0 => scalarOf x (wOps w) (wOp w)
  | 1 => branchOf x (wOps w) (wOp w)
  | 2 => tileOf x (wOps w) (wOp w)
  | 3 => latheOf x (wOps w) (wOp w)
  | 4 => vectorOf x (wOps w) (wOp w)
  | 5 => syncOf x (wOps w) (wOp w)
  | 6 => systemOf x (wOps w) (wOp w)
  | _ => none

/-- The word of a CLASS and OP with a guard and operand fields. -/
def insnWord (cls op : Nat) (o : Ops) : Word64 :=
  BitVec.ofNat 64 (cls * 2 ^ 60 + (if o.pneg then 2 ^ 59 else 0) + o.pred * 2 ^ 56 + op * 2 ^ 48 + o.d * 2 ^ 43 + o.a * 2 ^ 38 +
    o.b * 2 ^ 33 + o.c * 2 ^ 28 + o.f.toNat * 2 ^ 20 + o.i.toNat)

/-- The word that spells an instruction of a core; none: the command is none. -/
def encodeInsn (c : Instr) : Option Word64 :=
  match c with
  | .add _ o => some (insnWord 0 0x00 o)
  | .sub _ o => some (insnWord 0 0x01 o)
  | .mul _ o => some (insnWord 0 0x02 o)
  | .mulhu _ o => some (insnWord 0 0x03 o)
  | .divu _ o => some (insnWord 0 0x04 o)
  | .remu _ o => some (insnWord 0 0x05 o)
  | .andR _ o => some (insnWord 0 0x06 o)
  | .orR _ o => some (insnWord 0 0x07 o)
  | .xor _ o => some (insnWord 0 0x08 o)
  | .shl _ o => some (insnWord 0 0x09 o)
  | .shr _ o => some (insnWord 0 0x0A o)
  | .sar _ o => some (insnWord 0 0x0B o)
  | .minS _ o => some (insnWord 0 0x0C o)
  | .maxS _ o => some (insnWord 0 0x0D o)
  | .addi _ o => some (insnWord 0 0x10 o)
  | .andi _ o => some (insnWord 0 0x11 o)
  | .ori _ o => some (insnWord 0 0x12 o)
  | .xori _ o => some (insnWord 0 0x13 o)
  | .shli _ o => some (insnWord 0 0x14 o)
  | .shri _ o => some (insnWord 0 0x15 o)
  | .movi _ o => some (insnWord 0 0x16 o)
  | .setpEq _ o => some (insnWord 0 0x20 o)
  | .setpNe _ o => some (insnWord 0 0x21 o)
  | .setpLtS _ o => some (insnWord 0 0x22 o)
  | .setpLtU _ o => some (insnWord 0 0x23 o)
  | .setpGeS _ o => some (insnWord 0 0x24 o)
  | .setpGeU _ o => some (insnWord 0 0x25 o)
  | .setpiEq _ o => some (insnWord 0 0x26 o)
  | .setpiLtS _ o => some (insnWord 0 0x27 o)
  | .pand _ o => some (insnWord 0 0x28 o)
  | .por _ o => some (insnWord 0 0x29 o)
  | .pnot _ o => some (insnWord 0 0x2A o)
  | .branch _ o => some (insnWord 1 0x00 o)
  | .loop _ o => some (insnWord 1 0x01 o)
  | .callR _ o => some (insnWord 1 0x02 o)
  | .ret _ o => some (insnWord 1 0x03 o)
  | .jr _ o => some (insnWord 1 0x04 o)
  | .tld _ o => some (insnWord 2 0x00 o)
  | .tst _ o => some (insnWord 2 0x01 o)
  | .tatom _ o => some (insnWord 2 0x02 o)
  | .tcpy _ o => some (insnWord 2 0x03 o)
  | .tzero _ o => some (insnWord 2 0x04 o)
  | .lds _ o => some (insnWord 2 0x08 o)
  | .sts _ o => some (insnWord 2 0x09 o)
  | .vld _ o => some (insnWord 2 0x0A o)
  | .vst _ o => some (insnWord 2 0x0B o)
  | .lacq _ o => some (insnWord 3 0x00 o)
  | .lrel _ o => some (insnWord 3 0x01 o)
  | .lzero _ o => some (insnWord 3 0x02 o)
  | .lpass _ o => some (insnWord 3 0x03 o)
  | .lrd _ o => some (insnWord 3 0x04 o)
  | .lwr _ o => some (insnWord 3 0x05 o)
  | .lst _ o => some (insnWord 3 0x06 o)
  | .lld _ o => some (insnWord 3 0x07 o)
  | .lsync _ o => some (insnWord 3 0x08 o)
  | .vadd _ o => some (insnWord 4 0x00 o)
  | .vsub _ o => some (insnWord 4 0x01 o)
  | .vmul _ o => some (insnWord 4 0x02 o)
  | .vfma _ o => some (insnWord 4 0x03 o)
  | .vmin _ o => some (insnWord 4 0x04 o)
  | .vmax _ o => some (insnWord 4 0x05 o)
  | .vsfu _ o => some (insnWord 4 0x06 o)
  | .vcvt _ o => some (insnWord 4 0x07 o)
  | .vrsum _ o => some (insnWord 4 0x08 o)
  | .vrmax _ o => some (insnWord 4 0x09 o)
  | .vbcast _ o => some (insnWord 4 0x0A o)
  | .wait _ o => some (insnWord 5 0x00 o)
  | .waitall _ o => some (insnWord 5 0x01 o)
  | .syncFence _ o => some (insnWord 5 0x02 o)
  | .syncYield _ o => some (insnWord 5 0x03 o)
  | .sys _ o => some (insnWord 6 0x00 o)
  | .seed _ o => some (insnWord 6 0x01 o)
  | .fclr _ o => some (insnWord 6 0x02 o)
  | .failItem _ o => some (insnWord 6 0x03 o)
  | .endItem _ o => some (insnWord 6 0x04 o)
  | _ => none

end Sys2Proof
end

