-- ==== Sys2Proof/Config.lean ====
section
/-! DEFINITION. What an implementation fixes and the free values: constants with no body, so that nothing
proved depends on a value the manual does not give. Values that are fresh at each use are applied to the
counter `State.free`; values that depend on operands only are applied to the operands (R185). -/

namespace Sys2Proof.Config

/-- A fresh 64-bit value: BOOT_NONCE, CHALLENGE (R386), contents read before written (R180, R211). -/
opaque freeWord : Nat → Word64

/-- A fresh block: a vector register or a slot read before it is written (R180, R211). -/
opaque freeBlock : Nat → Block

/-- The special-function unit's result for function `f` (0 RCP to 7 TANH) on a binary32 operand;
`Machine.sfuWithin` keeps it within the accuracy of R205. -/
opaque sfu : Nat → Word32 → Word32

/-- The data-space tile index at which a partition's sinter area begins in its stripe group (R119). -/
opaque sinterBase : Nat → Nat

/-- The hash of SLOT and TILE that indexes the directory area (R66). -/
opaque dirHash : Nat → Nat → Nat

/-- The draw of random early detection, in 2^24ths (R331). -/
opaque redDraw : Nat → Nat

/-- Journal records that an area of so many MiB holds, beyond the 256 per MiB that always fit (R133). -/
opaque journalRecords : Nat → Nat

/-- The hash that keeps a flow of a ×8 bundle on one of its lanes (R316). -/
opaque bundleHash : Node → Nat → Nat

/-- The RSA modulus and private exponent that R377 derives from DEVICE_SEED. -/
opaque identityKey : BitVec 256 → Nat × Nat

/-- What comes of a command or item that the manual calls unpredictable, fresh at each use; `Machine.unpredictable` confines it to
the issuing partition (R9, R10, R161). -/
opaque unpredictable : Nat → Wild

/-- The salt of a signature the device makes (R372, R378). -/
opaque pssSalt : Nat → BitVec 256

/-- The caldera bank that a newly allocated cell slot lies in (R323). -/
opaque bankOf : Nat → Nat

/-- The strip or HBM lane, less 192, of the unit that serves or issues a transaction (R316, R322). -/
opaque unitLane : Tx → Nat

/-- The core of its strip, or the channel of its stack, that a transaction to an internal unit is for (R322). -/
opaque unitTarget : Tx → Nat

/-- The bytes of the device-defined body of a PULL_STATE response (R353). -/
opaque pullOctets : PullBody → List Nat

/-- Which of a partition's unmirrored areas lie in part on the channel at a position of the list they were placed on: bit 0
the directory, 1 queue rings, 2 the kernel area (R364, R399). -/
opaque areaAt : Nat → Nat → BitVec 3

/-- The Common Criteria (0) and FIPS 140-3 (1) certificate identifiers of this stepping, 32 bytes (R378). -/
opaque certId : Nat → BitVec 256

/-- What the pool metadata of a group of another home holds: intent-marked regions (R137) and lost tiles (R144), by
data-space index. -/
opaque intentRecord : Node → Nat → List Nat
opaque lossRecord : Node → Nat → List Nat

/-- HBM placement of a structure, in 4 KiB units (R32, R249). -/
opaque placement : Nat → Word32

/-- Scratchpad slots that an engine's firmware needs for a context (R180), and its instructions (R237). -/
opaque fwSlots : Nat → Nat
opaque fwInstrs : Nat → Nat

/-- Whether a tile that a failing item wrote holds the new content rather than the old (R164), fresh at each
use. -/
opaque itemKeeps : Nat → Bool

/-- The current map epoch of another home, as a forwarding device knows it (R53), fresh at each use. -/
opaque remoteEpoch : Node → Nat → BitVec 16

/-- The extent record that another home wrote to the pool metadata of its group (R416, R419). -/
opaque extentRecord : Node → Nat → PullExt

/-- A tile's version-index records and poison mark that another home wrote to the pool metadata (R123, R419). -/
opaque tileRecord : Node → Nat → Nat → PullTile

/-- Whether another home's ownership bitmap marks a region (R416, R419). -/
opaque ownRecord : Node → Nat → Nat → Bool

end Sys2Proof.Config
end

