-- ==== Sys2Proof/Machine/State.lean ====
section
/-! DEFINITION. The state of the BX9 as plain data, its stops, and the state right after reset.
Tables are lists of (key, value) pairs in one canonical form, keys strictly rising; a key that is not
listed holds the structure's empty value (R422: every structure starts empty). Reset is the device
before PWRGD rises (R434 step 1). -/

namespace Sys2Proof.Machine

/-- A table: (key, value) pairs with strictly rising keys. -/
abbrev Table (α : Type) := List (Nat × α)

/-! ## Statuses -/

/-- The status codes (R11). -/
inductive St where
  | ok | part | state | opcode | noAccess | revoked | mapStale | poison | fenced | killed | aborted
  | domainReset | checksum | lost | versionSpace | outcomeUnknown | homeLost
  deriving DecidableEq, Repr

/-! ## Extents (chapter 2) -/

/-- Access modes (R32). -/
inductive Mode where
  | priv | coherent | sharedRead | versioned
  deriving DecidableEq, Repr

/-- Lifecycle states (R34). -/
inductive ExtState where
  | free | active | noticed | draining | migrating | arriving
  deriving DecidableEq, Repr

/-- HOLDER_STATE (R33). -/
inductive HolderState where
  | attached | noticed | forced
  deriving DecidableEq, Repr

/-- An attach-list entry (R33), with the partition the holder was named with (R36), its agent index
(R60) and its byte of the pin masks (R105). -/
structure Holder where
  node : Node
  hstate : HolderState
  caching : Bool
  part : Nat
  agent : Option Nat
  pins : BitVec 8
  deriving DecidableEq, Repr

/-- Layer states (R106). -/
inductive LayerState where
  | free | opened | sealed | discarding
  deriving DecidableEq, Repr

/-- A layer record (R106). -/
structure Layer where
  version : Nat
  sealEvent : Nat
  tilesWritten : Nat
  state : LayerState
  writer : Nat
  deriving DecidableEq, Repr

/-- Who asked for a PUBLISH that waits for the open layer to drain (R108, R287). -/
inductive Publisher where
  | host (port : Nat) (tx : Tx)
  | sealItem (queue : Nat) (cmdSeq : Word32)
  deriving DecidableEq, Repr

/-- An extent map entry (R32) with its attach list, the tiles produced since attach (R31), its layer
records (R105), the publication that waits, whether an ARRIVING entry has its own state from the old home, whether its backing
differs from that at the old home (R54), the lost home that its state was taken from without its ledger (R100, R419), and
the agent indices that expelled hosts have left and entries may still name (R60, R72). ATTACH_COUNT is the list's length, LIVE_LAYERS the
number of layer records not FREE, PIN_COUNT the number of holders whose mask has the bit, and
POISON_PRESENT whether a poison mark lies in the slot. -/
structure Extent where
  homeEpoch : Word32
  latest : Nat
  openV : Nat
  vindexRoot : Word32
  attachList : Word32
  deadline : Word32
  mapEpoch : BitVec 16
  fwdNode : Node
  fwdSlot : Nat
  group : Nat
  base : Nat
  leasePart : Nat
  leaseValid : Bool
  owner : Nat
  state : ExtState
  mode : Mode
  disposition : Bool
  zeroPending : Bool
  holders : List Holder
  touched : Table Unit
  layers : List Layer
  publishing : Option Publisher
  known : Bool
  differs : Bool := false
  lostFrom : Option Node := none
  dead : List Nat := []
  deriving DecidableEq, Repr

/-- A REVOKE_FORCE that has not reached its REVOKE_DONE (R41 to R45, R484). -/
structure Force where
  id : Nat
  slot : Nat
  holders : List Node
  toFree : Bool
  seq : Nat
  stopped : Bool
  poisoned : List (Node × Nat)
  deriving DecidableEq, Repr

/-- An INVALIDATE that awaits answers (R76, R77), or an extent-wide one of R43. `branches` names the holders that each
switch of the geyser below this device stands for; `up` is the INVALIDATE from the switch above that this device
replicates. -/
structure Inval where
  id : Nat
  slot : Nat
  tile : Nat
  count : Nat
  whole : Bool
  writer : Option (Nat × Tx)
  force : Option Nat
  waiting : List Node
  answered : Nat
  branches : List (Node × List Node) := []
  up : Option Tx := none
  deriving DecidableEq, Repr

/-- The extent map and its epochs. `handed` and `pulled` hold tile keys under rehoming (R54),
`pulledSrc` the sources whose ledger entries have been pulled from an old home, `adopted` the slots that
take their state from pool metadata (R419); a tile handed over stands with the state that it was handed over with. `asked`,
with the class, and `askedSrc` name what has been asked for and not answered, `held` the tiles that have come and wait for space before they can be taken. -/
structure ExtMap where
  entries : Table Extent
  copyA : Bool
  copyB : Bool
  mapEpoch : BitVec 16
  older : Option (BitVec 16)
  forces : List Force
  invals : List Inval
  nextId : Nat
  recallMs : Nat
  handed : Table PullTile
  pulled : Table Unit
  pulledSrc : List (Node × Node × Nat)
  adopted : Table Unit
  asked : Table Nat
  askedSrc : List (Node × Node × Nat)
  held : List (Nat × PullTile)
  deriving DecidableEq, Repr

/-! ## Requests at the home -/

/-- Why a request waits at the home. An INVALIDATE waits for the stores before it on its flow (R78); PULL_STATE waits for
the atomics of the source it names, or for the seal of its extent (R54). -/
inductive Wait where
  | tile (slot tile : Nat)
  | ledger (p : Nat)
  | journal (p : Nat)
  | sinter (p : Nat)
  | publish (slot : Nat)
  | fence (src : Node)
  | dirSet (p : Nat)
  | pending (src : Node) (sub : Nat) (tag : BitVec 16)
  | region (group region : Nat)
  | pull (slot tile : Nat)
  | stores (src : Node) (cls : Nat)
  | ledgerOf (src : Node) (sub : Nat)
  | sealing (slot : Nat)
  deriving DecidableEq, Repr

/-- A request that waits, in arrival order (R69, R82, R95, R108, R120, R134, R137). -/
structure Parked where
  id : Nat
  port : Nat
  tx : Tx
  why : Wait
  deriving DecidableEq, Repr

/-- A recall sent and not yet answered (R68). -/
structure Recall where
  node : Node
  agent : Nat
  tag : BitVec 16
  inv : Bool
  deriving DecidableEq, Repr

/-- What the recalls of a BUSY tile are for; `drain`: the item that wanted the tile has ended. -/
inductive Purpose where
  | request (id port : Nat) (tx : Tx)
  | item (x : CtxId)
  | drain
  | evict
  | force (id : Nat)
  | expel
  deriving DecidableEq, Repr

/-- A BUSY tile (R64, R68): its outstanding recalls and the data they have returned; `toI`: its entry goes to I when they
have been answered (R72). -/
structure Busy where
  slot : Nat
  tile : Nat
  why : Purpose
  recalls : List Recall
  data : Option Tile
  toI : Bool := false
  deriving DecidableEq, Repr

/-- A flow as the destination keeps it (R361). -/
structure Flow where
  src : Node
  cls : Nat
  expected : Word32
  held : List (Nat × Tx)
  gap : Bool
  deriving DecidableEq, Repr

/-- The request window of a destination home and class (R333): W, the unmarked completions in a row, and how many requests
issued before the last halving have no response yet. -/
structure ReqWindow where
  w : Nat
  good : Nat
  old : Nat
  deriving DecidableEq, Repr

/-- Requests at the home: flows received, the next FLOW_SEQ sent per destination × 8 + class (R361,
R362), waiting requests and BUSY tiles; and of this device's own requests the windows, per destination × 8 + class, with the
pulls that they hold back (R333). -/
structure HomeSt where
  flows : List Flow
  sentFlow : Table Word32
  parked : List Parked
  busy : List Busy
  nextId : Nat
  nextTag : BitVec 16
  windows : Table ReqWindow
  heldPulls : List Tx
  deriving DecidableEq, Repr

/-! ## Directory (chapter 3) -/

/-- Directory states (R64). -/
inductive DState where
  | i | s | e | m | o
  deriving DecidableEq, Repr

/-- The sharer field (R64, R65): exact agents, or marked groups. -/
inductive Sharers where
  | ptrs (l : List Nat)
  | groups (g : BitVec 64)
  deriving DecidableEq, Repr

/-- A directory entry (R64). SLOT and TILE are its key; BUSY and WAITING are the home's lists; POISON
is the tile's poison mark; `seq` orders entries by their grant (R66). -/
structure DirEntry where
  state : DState
  owner : Nat
  sharers : Sharers
  seq : Nat
  deriving DecidableEq, Repr

/-- The directory, the dirty-holder log (R67), the poison marks of the pool metadata (R71), and the
regions of the ownership bitmap (R416). Keys are slot × 2^22 + tile, regions slot × 2^16 + tile / 64. -/
structure DirSt where
  entries : Table DirEntry
  log : Table Node
  poison : Table Unit
  own : Table Unit
  nextSeq : Nat
  deriving DecidableEq, Repr

/-! ## Ledger (chapter 4) -/

/-- A ledger entry that is not FREE (R96). `sub` is 0 for a host source and 1 + tag[15:12] for an
engine source (R231); `done` distinguishes DONE from PENDING; `area` is the owning partition (R94); `doomed`: the entry is
freed when its atomic completes (R97); `old`: the old home that it was pulled from (R54, R100). -/
structure LEntry where
  src : Node
  sub : Nat
  tag : BitVec 16
  aseq : Word32
  status : St
  result : BitVec 128
  aop : Nat
  size : Nat
  done : Bool
  slot : Nat
  area : Nat
  doomed : Bool := false
  old : Option Node := none
  deriving DecidableEq, Repr

/-- The atomic ledger (R94), and the acknowledgements processed per source (R91). -/
structure LedgerSt where
  entries : List LEntry
  acks : List (Node × Nat × Word32)
  deriving DecidableEq, Repr

/-! ## Versioned extents (chapter 5) -/

/-- A copy record (R115). -/
structure Copy where
  til : Nat
  content : CopyContent
  deriving DecidableEq, Repr

/-- A head record and its chain (R114, R115), ascending in UNTIL. -/
structure Head where
  backVersion : Nat
  copies : List Copy
  deriving DecidableEq, Repr

/-- The version index (R114, R115) keyed slot × 2^22 + tile, the sinter tiles in use keyed
partition × 2^40 + index (R119), whose content lies in the pool, and the armed warnings of R121. -/
structure VersSt where
  heads : Table Head
  sinter : Table Unit
  lowPosted : Table Unit
  fullPosted : Table Unit
  deriving DecidableEq, Repr

/-! ## Pool (chapter 6) -/

/-- Group states (R130). -/
inductive GState where
  | unused | optimal | degraded | rebuilding | failed
  deriving DecidableEq, Repr

/-- A stripe group table entry (R130), with its claim (R145, R439), the replacements held (R141), the next row and the
positions of a re-forming pass (R144), and whether it left REBUILDING through another loss (R289). -/
structure Group where
  modules : List Node
  lost : BitVec 18
  rebuildPos : Nat
  cursor : Nat
  gib : Nat
  k : Nat
  m : Nat
  state : GState
  rate : Nat
  replaced : List Nat
  pass : Option Nat
  passPos : List Nat
  up : Bool
  claimEpoch : Nat
  partner : Option Node
  receiver : Nat
  broken : Bool := false
  deriving DecidableEq, Repr

/-- A home-cache tile (R133). -/
structure Line where
  tile : Tile
  dirty : Bool
  deriving DecidableEq, Repr

/-- A stripe journal record (R133): the tile with its place and home-cache key, and the parity difference still to be applied
(none: parity is formed from the row). `full` with `txn`: the full-row form and its transaction (R135); `after` names the record
that must reach the pool first (R122), `cls` the class of its requests, `started` whether its commit has begun. -/
structure JRec where
  id : Nat
  part : Nat
  key : Nat
  group : Nat
  row : Nat
  col : Nat
  tile : Tile
  time : Nat
  diff : Option Block
  full : Bool
  txn : Nat
  after : Option Nat
  cls : Nat
  started : Bool
  deriving DecidableEq, Repr

/-- What an outstanding module request does: the commit of some records; the read of a unit, for the tile of an extent where
one is named, charged to a partition; a claim, by a takeover or at start; a rewrite. -/
inductive ModKind where
  | commit (recs : List Nat)
  | read (own : Option (Nat × Nat)) (part group row col : Nat)
  | claim (group : Nat) (takeover : Bool)
  | rewrite (part : Nat)
  deriving DecidableEq, Repr

/-- A request to a pool module that awaits its response (R138). -/
structure ModReq where
  tag : BitVec 16
  node : Node
  unit : Nat
  kind : ModKind
  deriving DecidableEq, Repr

/-- What the pool metadata area of a partnered group holds of an extent that had its home here before the last
start (R122, R416, R440): its record, version records with the sinter tiles they name, poison and ownership
marks by tile and region. -/
structure MetaRec where
  ext : Extent
  heads : Table Head
  sinter : Table Unit
  poison : Table Unit
  own : Table Unit
  deriving DecidableEq, Repr

/-- The pool: group table (two mirrored copies), module contents as the device has written them (keyed
node × 2^40 + unit), home cache (keyed slot × 2^22 + tile, or 2^60 + sinter key), journal, intent bitmap and regions awaiting
resync (keyed group × 2^40 + region), repaired rows (group × 2^40 + row), loss map (group × 2^50 +
data-space index), outstanding requests, the armed JOURNAL_FULL of R134, the extent records of an earlier
start, and the groups' claim records: node and epoch (R439). -/
structure PoolSt where
  groups : Table Group
  copyA : Bool
  copyB : Bool
  units : Table Tile
  cache : Table Line
  journal : List JRec
  intent : Table Unit
  resync : Table Unit
  repaired : Table Unit
  loss : Table Unit
  reqs : List ModReq
  nextTag : BitVec 16
  nextRec : Nat
  fullPosted : Table Unit
  records : Table MetaRec
  claims : Table (Node × Nat)
  deriving DecidableEq, Repr

/-! ## Queues (chapter 7) -/

/-- Queue states (R157). -/
inductive QState where
  | unassigned | active | halted | reset | disabled
  deriving DecidableEq, Repr

/-- A failure-area entry (R169). -/
structure FailEntry where
  item : Nat
  status : St
  detail : Word32
  deriving DecidableEq, Repr

/-- An item that runs: its context and the epoch of its dispatch (R49). -/
structure Run where
  item : Nat
  x : CtxId
  epoch : BitVec 16
  replay : Nat
  deriving DecidableEq, Repr

/-- A TATOM record of an item (R232). -/
structure TatomRec where
  addr : Word64
  aop : Nat
  status : Option St
  result : BitVec 128
  deriving DecidableEq, Repr

/-- The end of a command (R167, R170): the failure entries dealt with, whether the count of a SCAN has been, a write at another
home that awaits its response, and whether that is an entry, and the entries that could not be written. -/
structure EndSt where
  next : Nat
  counted : Bool
  owed : Option (Node × BitVec 16 × Bool)
  lost : Nat
  deriving DecidableEq, Repr

/-- A command that has been read and has not completed (R158 to R170). `reads` and `writes` are the slots
of this home that its descriptor names; a kernel may name any (`anySlot`). `next` is the next item in
index order, `again` holds items awaiting replay, `faults` the core faults per item, `tatoms` the
dispatch records of R232, `lastStrip` the strip of the last item placed (R290), `packed` and `selected`
the counts of R299, `sealing` whether the seal item waits for its drain (R287), `wild` whether its sources and destinations
overlap (R161), `ending` how far its end has come. -/
structure Cmd where
  seq : Word32
  desc : BitVec 512
  reads : List Nat
  writes : List Nat
  anySlot : Bool
  n : Nat
  next : Nat
  again : List Nat
  done : Nat
  failed : Nat
  fails : List FailEntry
  runs : List Run
  faults : Table Nat
  tatoms : List (Nat × List TatomRec)
  image : Option KernelImage
  fw : Nat
  forced : Bool
  lastStrip : Nat
  packed : Nat
  selected : Nat
  sealing : Bool
  wild : Bool
  ending : Option EndSt := none
  deriving DecidableEq, Repr

/-- A queue (R149, R153, R157); `unread` names the ring slots that have been pushed to and whose descriptor has not been read
(R154). -/
structure Queue where
  part : Nat
  engine : Nat
  submitter : Node
  depthLog2 : Nat
  prio : Nat
  tail : Word32
  head : Word32
  cqHead : Word32
  haltSeq : Word32
  state : QState
  written : Word32
  ring : Table (BitVec 512)
  cq : Table (BitVec 256)
  cmds : List Cmd
  unread : Table Unit := []
  deriving DecidableEq, Repr

/-- The queues and the dispatchers (R162): the last queue served per partition × 4 + priority. -/
structure QueueSt where
  queues : Table Queue
  lastServed : Table Nat
  deriving DecidableEq, Repr

/-! ## Cores and kernels (chapters 8, 9) -/

/-- The space of a tile operation's address (R223). -/
inductive Space where
  | global | resident
  deriving DecidableEq, Repr

/-- An asynchronous operation (R218, R226). A TATOM's `tag` and `aseq` are those of its source (R231), `idx` its
index among the item's TATOMs. -/
inductive AsyncOp where
  | load (space : Space) (addr : Word64) (slot count : Nat)
  | store (space : Space) (addr : Word64) (slot count : Nat)
  | atomic (addr : Word64) (aop size : Nat) (v cmp : Word64) (tag : BitVec 16) (aseq : Word32) (idx : Nat)
  | copy (src dst count : Nat)
  | zero (dst count : Nat)
  | lathe
  deriving DecidableEq, Repr

/-- A token entry in use (R226): `wild` says that an instruction has touched its slots in the way R228 leaves
unpredictable, `sent` names the other home that its request has gone to, `done` holds a TATOM's result once it has
completed, `again` says that its tiles are being read once more (R128), `since` the place of a TATOM among those that wait
for space in a ledger of this home (R95). -/
structure Token where
  serial : Nat
  op : AsyncOp
  pc : Nat
  wild : Bool
  sent : Option Node
  done : Option (BitVec 128)
  again : Bool := false
  since : Option Nat := none
  deriving DecidableEq, Repr

/-- Why a context cannot issue (R212): the waiting instruction; one that found no free token entry, no room in the
lathe queue or no room in the window of its TATOM's source; END; code or arguments that have not arrived. -/
inductive CtxWait where
  | wait (o : Ops)
  | waitall
  | fence (node : Node)
  | lacq
  | lrd (o : Ops)
  | lwr (o : Ops)
  | lsync (n : Nat)
  | token
  | room
  | window (home : Node)
  | ending
  | code
  | args
  deriving DecidableEq, Repr

/-- A queued lathe operation (R219, R229); a store keeps the seed it was issued with (R185, R200). -/
inductive LatheOp where
  | zero
  | pass (k a b sa sb m : Nat) (fa fb : Byte)
  | store (rows slot scale : Nat) (f : Byte) (entry : Nat) (seed : Word64)
  | load (rows slot : Nat)
  deriving DecidableEq, Repr

/-- An entry of the lathe queue, `wild` as in `Token`; `dead`: its item has ended before it (R229). -/
structure LatheEntry where
  op : LatheOp
  wild : Bool
  dead : Bool := false
  deriving DecidableEq, Repr

/-- The item a context runs; `coll` is the group of a REDUCE fold item, which belongs to no command (R255). -/
structure Item where
  part : Nat
  coll : Option (BitVec 48)
  queue : Nat
  cmdSeq : Word32
  index : Nat
  engine : Nat
  deriving DecidableEq, Repr

/-- A context (R211): registers g0 to g31, predicates (bit i is p_i), vector registers and slots
written by this item (an unlisted one is unpredictable until read), token table, seed, flags, wait. -/
structure Ctx where
  item : Item
  pc : Nat
  g : Vector Word64 32
  p : Byte
  vt : Table Block
  tokens : Table Token
  nextSerial : Nat
  seed : Word64
  of : Bool
  uf : Bool
  nv : Bool
  slots : Table Tile
  slotCount : Nat
  wait : Option CtxWait
  failing : Option (St × Word32)
  issued : Nat
  replay : Nat
  epoch : BitVec 16
  tatomCount : Nat
  deriving DecidableEq, Repr

/-- A logical core (R21, R179): its physical core (none: ABSENT, R209), the accumulator rows, the
lathe's holder, whether the holder has released it while its queue drains, requests and queue (R229), the images of its
instruction store (R237), its contexts, the context that issued last (R212), and whether it is being removed (R367) or recovered
(R401). -/
structure Core where
  phys : Option Nat
  part : Option Nat
  scrubbing : Bool
  removing : Bool
  recovering : Bool
  acc : Table Block
  holder : Option Nat
  releasing : Bool
  waiters : List Nat
  latheQ : List LatheEntry
  istore : List (Nat × Nat)
  ctxs : Table Ctx
  last : Nat
  deriving DecidableEq, Repr

/-- A physical core (R207, R411). -/
structure Phys where
  working : Bool
  retired : Bool
  faultBands : BitVec 23
  quarantine : BitVec 23
  deriving DecidableEq, Repr

/-- A kernel handle (R234, R235). -/
structure Kernel where
  current : Option KernelImage
  retiring : List KernelImage
  deriving DecidableEq, Repr

/-- A resident segment (R224): its partition, size in tiles. -/
structure Segment where
  part : Nat
  tiles : Nat
  deriving DecidableEq, Repr

/-- A TATOM sent and not yet covered by an acknowledgement (R231), with the item that issued it (R232) and what its request
is formed from when it is sent again: the operation, submitter, epoch and version. -/
structure SentAtomic where
  aseq : Word32
  tag : BitVec 16
  done : Bool
  queue : Nat
  cmdSeq : Word32
  item : Nat
  idx : Nat
  op : AsyncOp
  sub : Node
  epoch : BitVec 16
  wv : Nat
  deriving DecidableEq, Repr

/-- The device's own atomic source of one partition at one home (R231). -/
structure EngineSource where
  nextTag : Nat
  nextAseq : Word32
  outstanding : List SentAtomic
  deriving DecidableEq, Repr

/-- Cores, kernels (keyed partition × 64 + handle), resident segments (keyed by channel) with their
tiles (channel × 2^32 + index), and engine sources (partition × 2^16 + home). -/
structure CoreSt where
  cores : Table Core
  phys : Table Phys
  kernels : Table Kernel
  segments : Table Segment
  resident : Table Tile
  sources : Table EngineSource
  deriving DecidableEq, Repr

/-! ## REDUCE (chapter 10) -/

/-- A contribution held (R253): the child's position, its elements in the accumulator format, and the
response owed, or the FROM item that made it. -/
structure Contribution where
  child : Nat
  elems : List Word32
  owed : Option (Nat × Tx)
  deriving DecidableEq, Repr

/-- A chunk in progress (R252, R253): contributions in acceptance order, the context of its fold item and that
item's core faults (R255, R263). -/
structure Chunk where
  chunk : Nat
  held : List Contribution
  x : Option CtxId
  faults : Nat
  deriving DecidableEq, Repr

/-- A RUN or FROM command of the current generation (R258, R259). -/
structure RedCmd where
  queue : Nat
  cmdSeq : Word32
  member : Nat
  desc : BitVec 512
  deriving DecidableEq, Repr

/-- A collective group at this switch (R249, R250). `running` distinguishes RUNNING from IDLE. -/
structure CGroup where
  e : GroupEntry
  children : List Child
  running : Bool
  chunks : List Chunk
  committed : Table Unit
  run : Option RedCmd
  froms : List RedCmd
  results : List Nat
  childListAddr : Word32
  deriving DecidableEq, Repr

/-! ## Switch core (chapter 13) -/

/-- A link of a stored cell into an output queue (R322, R323): the output lane, the pair sequence once the
input has assigned it, and on a FIRST cell the transaction. -/
structure Link where
  out : Nat
  seq : Option Nat
  tx : Option Tx
  deriving DecidableEq, Repr

/-- A cell in the switch core (R322): its header fields, the caldera slot and bank that hold it, whether the
slot comes from shared space (R325), its packet, and its links: several for a geyser cell until stage 1. -/
structure Cell where
  sidecar : Word32
  inLane : Nat
  cls : Nat
  part : Nat
  colour : Nat
  mark : Bool
  first : Bool
  last : Bool
  ncells : Nat
  mcast : Bool
  target : Nat
  arrival : Nat
  slot : Nat
  bank : Nat
  shared : Bool
  packet : Nat
  links : List Link
  deriving DecidableEq, Repr

/-- An account of the caldera (R324, R325): slots promised by credit and slots in use, and how many of each are
shared. -/
structure Account where
  promised : Nat
  promisedShared : Nat
  used : Nat
  usedShared : Nat
  deriving DecidableEq, Repr

/-- A packet of which a fabric ingress or a source still keeps a copy (R336): copies that have not passed the
egress check, its cells, and the retention account (port × 8 + class) of a fabric ingress. -/
structure Packet where
  left : Nat
  cells : Nat
  retain : Option Nat
  deriving DecidableEq, Repr

/-- Credit that is not returned yet (R326, R334): `held` for a HELD meter, else for a partition above QUOTA. -/
structure Withheld where
  port : Nat
  cls : Nat
  part : Nat
  cells : Nat
  held : Bool
  deriving DecidableEq, Repr

/-- A meter's state (R329, R334): its buckets in thousandths of a byte, those it would have were it not HELD, red
bytes of this and the last window, red bytes it would have coloured in this window, HELD. -/
structure Meter where
  tc : Nat
  tp : Nat
  wtc : Nat
  wtp : Nat
  red : Nat
  lastRed : Nat
  wouldRed : Nat
  held : Bool
  deriving DecidableEq, Repr

/-- Depth and delay samples of an output queue (R335). -/
structure Sample where
  lastDepth : Nat
  maxDepth : Nat
  lastDelay : Nat
  maxDelay : Nat
  deriving DecidableEq, Repr

/-- The switch core: turn number, dead middles, lane faults, whether it has stopped (R339); cells held at
inputs (by lane), queued at middles (middle × 384 + output) and in egress buffers (by output lane); next
sequences sent, received and taken by egress per pair ((in × 384 + out) × 8 + class); the deficit round robin of
R327 per (middle × 384 + output) × 8 + class, class 0 for the class served last; caldera accounts (lane × 8 +
class), shared cells by partition, cells by bank, banks retired, outputs left of a geyser slot, next slot; packets
kept and retention cells (port × 8 + class); credit withheld; meters ((port × 16 + partition) × 8 + class);
marked packets sent per port × 8 + class in this and the last window; samples (output lane × 8 + class); FIRST
cells seen at stage 2. -/
structure SpindleSt where
  turn : Nat
  dead : List Nat
  badLanes : List Nat
  stopped : Bool
  inputs : Table (List Cell)
  mids : Table (List Cell)
  egress : Table (List Cell)
  sentSeq : Table Nat
  recvSeq : Table Nat
  takenSeq : Table Nat
  deficit : Table Nat
  accounts : Table Account
  partUse : Table Nat
  bankUse : Table Nat
  badBanks : List Nat
  slotRefs : Table Nat
  nextSlot : Nat
  packets : Table Packet
  nextPacket : Nat
  retention : Table Nat
  withheld : List Withheld
  meters : Table Meter
  marks : Table (Nat × Nat)
  samples : Table Sample
  firstCells : Nat
  redHeld : List Tx
  deriving DecidableEq, Repr

/-! ## Ports (chapter 14) -/

/-- A fabric port: its configuration in force (R14, R18), whether it is UP or trains, its peer (node, kind, port),
and the link layer (R342 to R349): lanes in use each way, next SEQ, last SEQ accepted, last ACK received, NAK sent,
last NAK acted on, frames retained, to be replayed and sent last, link messages to send; credit granted by the peer
with the last CR_TOTAL of each class, and used; credit given to the peer and used by it; the class reported next;
transactions to send, the one begun with its bytes left, whether one is part received; transactions refused,
discarded and duplicate; whether the port has been removed from its partition (R25). -/
structure Port where
  cfg : PortCfg
  up : Bool
  training : Bool
  peer : Option (Node × Nat × Nat)
  txLanes : BitVec 4
  rxLanes : BitVec 4
  txSeq : BitVec 12
  rxLast : BitVec 12
  acked : BitVec 12
  nakOut : Bool
  nakSeen : Option (BitVec 12)
  retained : List Frame
  replay : List Frame
  lastSent : Option Frame
  linkQ : List LinkMsg
  granted : List Nat
  grantedLow : List Byte
  used : List Nat
  given : List Nat
  taken : List Nat
  rotate : Nat
  sendQ : List Tx
  sending : Option (Tx × Nat)
  receiving : Bool
  rejects : Nat
  discards : Nat
  dups : Nat
  removed : Bool
  deriving DecidableEq, Repr

/-- A port that is down: no credit, nothing sent or received (R345). -/
def Port.down (c : PortCfg) : Port :=
  { cfg := c, up := false, training := false, peer := none, txLanes := 15, rxLanes := 15, txSeq := 0, rxLast := 4095,
    acked := 4095, nakOut := false, nakSeen := none, retained := [], replay := [], lastSent := none, linkQ := [],
    granted := List.replicate 8 0, grantedLow := List.replicate 8 0, used := List.replicate 8 0,
    given := List.replicate 8 0, taken := List.replicate 8 0, rotate := 0, sendQ := [], sending := none,
    receiving := false, rejects := 0, discards := 0, dups := 0, removed := false }

/-- Ports 0 to 191 and the routing table in two copies (R356). -/
structure PortSt where
  ports : Table Port
  routes : Table Route
  copyA : Bool
  copyB : Bool
  deriving DecidableEq, Repr

/-! ## Partitions (chapter 15) -/

/-- Partition states (R364). -/
inductive PState where
  | empty | active | resetting
  deriving DecidableEq, Repr

/-- An engine firmware image that a partition holds: VERSION, digest, SVN. -/
structure FwImage where
  version : Nat
  digest : BitVec 256
  svn : Nat
  deriving DecidableEq, Repr

/-- A partition. `applied` is the record of the charter it applies (R444) with that charter's VERSION,
`deferred` whether a newer record did not fit (R446), `fw` each engine's current image and
`fwRetiring` the retiring ones, `keeperFailed` whether a reset ended without a working keeper (R398), `channels` the
channel list (R431), `mirrors` the channels of the two mirror copies, `placing` and `placedOn` the placement of the areas in
force and the channels it was made on (R399), `unitFault` whether a keeper's fault began the reset, `ringLost` whether a completion ring lay on a retired
channel (R172). -/
structure Part where
  state : PState
  stalled : Bool
  keeperFailed : Bool
  applied : Option PartCfg
  charterVersion : Word32
  deferred : Bool
  cores : List Nat
  channels : List Nat
  ports : List Nat
  shares : List Nat
  fw : Table FwImage
  fwRetiring : Table FwImage
  mirrors : Nat × Nat
  placing : Nat
  placedOn : List Nat
  unitFault : Bool
  ringLost : Bool
  deriving DecidableEq, Repr

/-- A channel of the 512 (R21, R364, R399). -/
structure Channel where
  retired : Bool
  scrubbing : Bool
  part : Option Nat
  removing : Bool
  deriving DecidableEq, Repr

/-- Partitions, channels, ports that scrub with the partition that they leave, and the working units of the keeper pool
of R398. -/
structure PartSt where
  parts : Table Part
  channels : Table Channel
  portScrub : Table Nat
  keepers : Nat
  degraded : List Mirror
  deriving DecidableEq, Repr

/-! ## Management (chapter 15) -/

/-- Session kinds (R380); `recovery` is a session of the recovery state (R375). -/
inductive SessKind where
  | fm | supervisor (p : Nat) | recovery
  deriving DecidableEq, Repr

/-- A message that the device sends a client (R381): the fields of its header but LENGTH, KIND 1 in a response and 2 in an
event, and the body's values in the order its rule lists them. -/
structure Reply where
  sess : Nat
  reqId : Word32
  code : Nat
  status : St
  evSeq : Nat
  body : List Nat
  part : Nat := 0
  kind : Nat := 1
  deriving DecidableEq, Repr

/-- A fumarole record (R462, R463): its header's fields, and its body as 64-bit words, the low one first; an event's as its fields
(log entry 168). -/
structure FumRec where
  type : Nat
  source : Nat
  time : Nat
  more : Bool
  body : List Nat
  deriving DecidableEq, Repr

/-- A fumarole sink (R465): its records with their FSEQ, records dropped since the last LOSS, and the tephra samples
that it has taken, by event sequence and physical core × 4 + context. -/
structure Sink where
  cfg : TraceCfg
  fseq : Word32
  buffer : List (Word32 × FumRec)
  bytes : Nat
  losses : Nat
  taken : List (Nat × Nat)
  deriving DecidableEq, Repr

/-- A session (R380, R383, R385). -/
structure Session where
  kind : SessKind
  key : BitVec 256
  subscribed : Bool
  readUpTo : Nat
  log : List Reply
  sink : Option Sink
  deriving DecidableEq, Repr

/-- The events of the manual that reach management (R385). -/
inductive Ev where
  | extentForced | revokeDone | domainReset | domainUp | layerPublished | layerDiscarded
  | leaseGranted | leaseLost | queueDisabled | eventsLost | tileChecksum | moduleLost | rebuildDone
  | groupReformed | rowUnrebuilt | journalFull | mirrorDegraded | mirrorRestored | versionSpaceLow
  | versionSpaceFull | invalidateUnanswered | coreFault | coreHang | coreRetired | coreAbsent
  | coreQuarantined | dragEnter | dragExit | tephraReady | channelRetired | fieldIsolated | partStalled
  | partUp | partDown | collAborted | certAccepted | deviceFenced | rtpSwitchover | fuseFault
  | meterHeld | meterReleased | calderaBankRetired | spindleFailed | portMismatch | portUp | portDown
  | laneShed | routeLoop | groupClaimRefused | takeoverDone | rehomeDone | deviceReady | startWait
  | startPartFailed | engineFwMissing | charterActivated | charterStaged | charterDeferred
  | powerLimited | powerReleased | coolantLost | coolantRestored | railFault
  deriving DecidableEq, Repr

/-- An event as management holds it (R385): sequence, name, partition concerned, values. -/
structure Event where
  seq : Nat
  name : Ev
  part : Option Nat
  args : List Nat
  deriving DecidableEq, Repr

/-- An event held for a host (R175 to R177). -/
structure HostEvent where
  seq : Nat
  code : Nat
  part : Nat
  slot : Nat
  arg : Word32
  epoch : BitVec 16
  deriving DecidableEq, Repr

/-- A management operation that waits: a batch for an epoch (R50), a compose or grow for a scrub
(R366), a shrink for its removals (R367). -/
inductive MgmtWait where
  | batch (h : Mgmt) (code : Nat) (ops : List ExtentOp)
  | compose (h : Mgmt) (part : Nat) (r : Resources)
  | grow (h : Mgmt) (part : Nat) (r : Resources)
  | shrink (h : Mgmt) (part : Nat) (r : Resources)
  deriving DecidableEq, Repr

/-- Sessions, events and waiting operations. -/
structure MgmtSt where
  sessions : Table Session
  eventSeq : Nat
  events : List Event
  eventsLost : Nat
  hostEvents : Table (List HostEvent)
  waiting : List MgmtWait
  deriving DecidableEq, Repr

/-! ## Root of trust, charter, start (chapters 15, 17) -/

/-- Phases of the start sequence (R434, R435, R375). -/
inductive Phase where
  | off | dark | recovery | waitCoolant | ready | failed | tripped
  deriving DecidableEq, Repr

/-- The RTP, its images and certificates. `pairOk` holds which lockstep pairs work, `tests` what the tests of a start that
a rail holds at step 6 will find. -/
structure BootSt where
  phase : Phase
  fuses : BitVec 4096
  flash : List (FlashSlot × Image)
  identity : List Byte
  fwSlots : BitVec 7
  rtpFw : Option Image
  charter : Option Charter
  charterImage : Option Image
  engineFw : Table Image
  staged : Option Image
  activePair : Nat
  pairOk : Bool × Bool
  bootNonce : Word64
  challenge : Word64
  certSeq : Option Word64
  fenced : Bool
  leaseMs : Option Nat
  expelled : List Node
  takenOver : List (Node × Nat)
  tests : Option StartTests
  deriving DecidableEq, Repr

/-! ## Physical (chapter 19) -/

/-- A strip: whether its sentinels or junction, and whether the RTP, hold it in drag mode (R182, R183, R410), its junction
in milli-°C, and when drag mode began. -/
structure Drag where
  own : Bool
  rtp : Bool
  junction : Nat
  since : Nat
  deriving DecidableEq, Repr

/-- Pins, rails, clocks, temperatures and power (R469 to R481, R182), and the isolated fields (R400). `coolantFell` holds
the VDD_CORE set point from before COOLANT_OK fell (R476). -/
structure PhysSt where
  pwrgd : Bool
  coolantOk : Bool
  coolantFell : Option Nat
  faultN : Bool
  thermtripN : Bool
  railsOk : Bool
  vddMv : Nat
  watts : Nat
  limiting : Bool
  hold : Bool
  strips : Table Drag
  stackHot : BitVec 16
  refSys : Bool
  refField : BitVec 8
  refMgmt : Bool
  isolated : BitVec 8
  deriving DecidableEq, Repr

/-! ## Observation (chapter 18) -/

/-- A programmable counter (R448, R451). -/
structure Counter where
  ctl : Control
  value : BitVec 48
  wrapped : Bool
  latched : BitVec 48
  deriving DecidableEq, Repr

/-- A tephra sample (R407). -/
structure Tephra where
  seq : Nat
  phys : Nat
  core : Nat
  ctx : Nat
  part : Nat
  cause : Nat
  queue : Nat
  cmdSeq : Word32
  item : Nat
  pc : Nat
  engine : Nat
  tokens : Word32
  flags : BitVec 3
  reach : Nat
  unreadable : Word64
  tiles : List Tile
  deriving DecidableEq, Repr

/-- A sampling configuration (R460). -/
structure SampleCfg where
  n : Nat
  seed : Word32
  enable : Bool
  deriving DecidableEq, Repr

/-- Counters keyed (type × 4096 + block) × 32 + index, fixed counters likewise with their value and
WRAPPED bit, latched supervisor values of the fixed ones, the snapshot count, the windows, bytes of the
running port window (port × 2 + direction), sampling by partition × 8 + engine, and the tephra buffers
of the field stewards. -/
structure ObsSt where
  counters : Table Counter
  fixed : Table (BitVec 48 × Bool)
  fixedLatched : Table (BitVec 48)
  snapSeq : Nat
  windowLog2 : Nat
  supWindowMs : Nat
  supWindowEnd : Nat
  winBytes : Table Nat
  sampling : Table SampleCfg
  tephra : List Tephra
  deriving DecidableEq, Repr

/-! ## The state -/

/-- Reasons the machine stops: the manual gives every command an effect, so there are none. -/
inductive Fault where
  deriving DecidableEq, Repr

/-- Reasons a command has no meaning. -/
inductive Refusal where
  /-- Raised by an arm of exec whose row has no meaning yet. Safe: nothing is claimed of it. -/
  | notModelled (mnemonic : String)
  deriving DecidableEq, Repr

/-- The state of the BX9: the queue of waiting commands, the reference timer (R452), the counter of free
values, what has left the device, and one part per chapter. -/
structure State where
  pending : List Instr
  timer : Word64
  free : Nat
  out : List Tx
  replies : List Reply
  boot : BootSt
  phys : PhysSt
  mgmt : MgmtSt
  parts : PartSt
  ext : ExtMap
  home : HomeSt
  dir : DirSt
  ledger : LedgerSt
  vers : VersSt
  pool : PoolSt
  queues : QueueSt
  cores : CoreSt
  groups : Table CGroup
  spindle : SpindleSt
  ports : PortSt
  obs : ObsSt
  deriving DecidableEq, Repr

/-- The extent map with every slot FREE (R440) and the recall timeout of R46 without a charter. -/
def ExtMap.reset : ExtMap :=
  { entries := [], copyA := true, copyB := true, mapEpoch := 0, older := none, forces := [],
    invals := [], nextId := 0, recallMs := 5, handed := [], pulled := [], pulledSrc := [],
    adopted := [], asked := [], askedSrc := [], held := [] }

/-- No request at the home. -/
def HomeSt.reset : HomeSt :=
  { flows := [], sentFlow := [], parked := [], busy := [], nextId := 0, nextTag := 0, windows := [], heldPulls := [] }

/-- The directory empty. -/
def DirSt.reset : DirSt := { entries := [], log := [], poison := [], own := [], nextSeq := 0 }

/-- The ledger empty. -/
def LedgerSt.reset : LedgerSt := { entries := [], acks := [] }

/-- The version index empty. -/
def VersSt.reset : VersSt := { heads := [], sinter := [], lowPosted := [], fullPosted := [] }

/-- No group known, nothing cached, nothing journalled. -/
def PoolSt.reset : PoolSt :=
  { groups := [], copyA := true, copyB := true, units := [], cache := [], journal := [], intent := [],
    resync := [], repaired := [], loss := [], reqs := [], nextTag := 0, nextRec := 0,
    fullPosted := [], records := [], claims := [] }

/-- Every queue UNASSIGNED. -/
def QueueSt.reset : QueueSt := { queues := [], lastServed := [] }

/-- No core known, no kernel, no segment. -/
def CoreSt.reset : CoreSt :=
  { cores := [], phys := [], kernels := [], segments := [], resident := [], sources := [] }

/-- The switch core empty, every middle and bank working. -/
def SpindleSt.reset : SpindleSt :=
  { turn := 0, dead := [], badLanes := [], stopped := false, inputs := [], mids := [], egress := [], sentSeq := [],
    recvSeq := [], takenSeq := [], deficit := [], accounts := [], partUse := [], bankUse := [], badBanks := [],
    slotRefs := [], nextSlot := 0, packets := [], nextPacket := 0, retention := [], withheld := [], meters := [],
    marks := [], samples := [], firstCells := 0, redHeld := [] }

/-- No port configured, every route UNREACHABLE. -/
def PortSt.reset : PortSt := { ports := [], routes := [], copyA := true, copyB := true }

/-- Every partition EMPTY; 20 keepers (R398). -/
def PartSt.reset : PartSt :=
  { parts := [], channels := [], portScrub := [], keepers := 20, degraded := [] }

/-- No session, no event; the event sequence starts from 1 (R434 step 5). -/
def MgmtSt.reset : MgmtSt :=
  { sessions := [], eventSeq := 1, events := [], eventsLost := 0, hostEvents := [], waiting := [] }

/-- The RTP before power: flash erased and no fuse blown (DESIGN CHOICE, log entry 3). -/
def BootSt.reset : BootSt :=
  { phase := .off, fuses := 0, flash := [], identity := [], fwSlots := 0, rtpFw := none,
    charter := none, charterImage := none, engineFw := [], staged := none, activePair := 0,
    pairOk := (true, true), bootNonce := 0, challenge := 0, certSeq := none, fenced := false,
    leaseMs := none, expelled := [], takenOver := [], tests := none }

/-- Pins low, clocks and rails as the tray gives them (DESIGN CHOICE, log entry 2); VDD_CORE at 0.70 V
(R469). -/
def PhysSt.reset : PhysSt :=
  { pwrgd := false, coolantOk := false, coolantFell := none, faultN := false, thermtripN := false,
    railsOk := true, vddMv := 700, watts := 0, limiting := false, hold := false, strips := [],
    stackHot := 0, refSys := true, refField := 0xFF, refMgmt := true, isolated := 0 }

/-- No counter programmed; the default windows of R458 and R459. -/
def ObsSt.reset : ObsSt :=
  { counters := [], fixed := [], fixedLatched := [], snapSeq := 0, windowLog2 := 20, supWindowMs := 10,
    supWindowEnd := 0, winBytes := [], sampling := [], tephra := [] }

/-- The machine right after reset: the device before PWRGD rises (R422, R434). -/
def State.reset : State :=
  { pending := [], timer := 0, free := 0, out := [], replies := [],
    boot := .reset, phys := .reset, mgmt := .reset, parts := .reset, ext := .reset, home := .reset,
    dir := .reset, ledger := .reset, vers := .reset, pool := .reset, queues := .reset,
    cores := .reset, groups := [], spindle := .reset, ports := .reset, obs := .reset }

end Sys2Proof.Machine
end

