-- ==== Sys2Proof/Machine/Table.lean ====
section
/-! DEFINITION. Tables: reading, writing and removing entries of a list of (key, value) pairs whose keys
rise strictly. -/

namespace Sys2Proof.Machine

/-- The value listed at a key. -/
def tget {α : Type} : Table α → Nat → Option α
  | [], _ => none
  | (k, v) :: t, n => if k = n then some v else tget t n

/-- The value at a key, or the structure's empty value. -/
def tgetD {α : Type} (t : Table α) (n : Nat) (d : α) : α := (tget t n).getD d

/-- Whether a key is listed. -/
def thas {α : Type} (t : Table α) (n : Nat) : Bool := (tget t n).isSome

/-- Write a key, keeping the order. -/
def tset {α : Type} : Table α → Nat → α → Table α
  | [], n, x => [(n, x)]
  | (k, v) :: t, n, x =>
    if n < k then (n, x) :: (k, v) :: t
    else if n = k then (n, x) :: t
    else (k, v) :: tset t n x

/-- Remove a key. -/
def tdel {α : Type} (t : Table α) (n : Nat) : Table α := t.filter (fun p => p.1 != n)

/-- Remove the keys that a test names. -/
def tdrop {α : Type} (t : Table α) (bad : Nat → Bool) : Table α := t.filter (fun p => !bad p.1)

/-- Change the value at a listed key. -/
def tmod {α : Type} (t : Table α) (n : Nat) (f : α → α) : Table α :=
  t.map (fun p => if p.1 = n then (p.1, f p.2) else p)

/-- Change the value at a key that may be unlisted. -/
def tupd {α : Type} (t : Table α) (n : Nat) (d : α) (f : α → α) : Table α :=
  tset t n (f (tgetD t n d))

/-- Keys rise strictly: the canonical form of a table. -/
def Table.wf {α : Type} : Table α → Bool
  | [] => true
  | [_] => true
  | (a, _) :: (b, y) :: t => decide (a < b) && Table.wf ((b, y) :: t)

/-- Replace the n-th element of a list. -/
def lset {α : Type} : List α → Nat → α → List α
  | [], _, _ => []
  | _ :: t, 0, x => x :: t
  | h :: t, n + 1, x => h :: lset t n x

/-- The first element that a test accepts, and the list without it. -/
def takeFirst {α : Type} (p : α → Bool) : List α → Option (α × List α)
  | [] => none
  | h :: t => if p h then some (h, t) else
    match takeFirst p t with
    | none => none
    | some (x, r) => some (x, h :: r)

end Sys2Proof.Machine
end

