-- ==== Sys2Proof/Machine/Bits.lean ====
section
/-! DEFINITION. Bit fields, bytes of tiles, the tile checksum (R125 to R127), the field arithmetic of the
stripe (R132), addresses (R29) and status codes (R11). -/

namespace Sys2Proof.Machine

/-- Field `[hi:lo]` of a word (R7). -/
def fld {w : Nat} (v : BitVec w) (hi lo : Nat) : Nat := (v.toNat >>> lo) % 2 ^ (hi + 1 - lo)

/-- Place a number at bit `lo` of a word under construction. -/
def put (v lo : Nat) : Nat := v <<< lo

/-! ## Statuses -/

/-- The value of a status (R11). -/
def stCode : St → Byte
  | .ok => 0x00 | .part => 0x01 | .state => 0x02 | .opcode => 0x03 | .noAccess => 0x04
  | .revoked => 0x05 | .mapStale => 0x06 | .poison => 0x07 | .fenced => 0x08 | .killed => 0x09
  | .aborted => 0x0A | .domainReset => 0x0B | .checksum => 0x0C | .lost => 0x0D
  | .versionSpace => 0x0E | .outcomeUnknown => 0x0F | .homeLost => 0x10

/-- A status received in a byte; a reserved value is treated as ST_HOME_LOST (R12). -/
def stOf (b : Byte) : St :=
  match b.toNat with
  | 0 => .ok | 1 => .part | 2 => .state | 3 => .opcode | 4 => .noAccess | 5 => .revoked
  | 6 => .mapStale | 7 => .poison | 8 => .fenced | 9 => .killed | 10 => .aborted
  | 11 => .domainReset | 12 => .checksum | 13 => .lost | 14 => .versionSpace
  | 15 => .outcomeUnknown | _ => .homeLost

/-! ## Bytes of a tile -/

/-- Byte `i` of a block. -/
def byteAt (d : Block) (i : Nat) : Byte := BitVec.ofNat 8 (d.toNat >>> (8 * i))

/-- `n` bytes from byte `i`, as a little-endian number (R6). -/
def bytesAt (d : Block) (i n : Nat) : Nat := (d.toNat >>> (8 * i)) % 2 ^ (8 * n)

/-- Replace `n` bytes from byte `i`. -/
def setBytes (d : Block) (i n v : Nat) : Block :=
  let m := (2 ^ (8 * n) - 1) <<< (8 * i)
  BitVec.ofNat 2048 ((d.toNat ^^^ (d.toNat &&& m)) ||| ((v % 2 ^ (8 * n)) <<< (8 * i)))

/-- A byte mask of 256 bits widened to the bits it covers (R353). -/
def widenMask : Nat → Nat → Nat
  | 0, _ => 0
  | n + 1, m => (if m.testBit n then 0xFF <<< (8 * n) else 0) ||| widenMask n m

/-- The bytes of `new` where the mask is set, those of `old` elsewhere. -/
def mergeMask (old new : Block) (mask : BitVec 256) : Block :=
  let m := BitVec.ofNat 2048 (widenMask 256 mask.toNat)
  (old &&& ~~~m) ||| (new &&& m)

/-! ## CRC-32C (R125) -/

/-- `n` bits of a value, bit 0 first, through the reflected CRC-32C register `c`. -/
def crcBits : Nat → Nat → Nat → Nat
  | 0, _, c => c
  | n + 1, v, c =>
    if (c + v) % 2 = 1 then crcBits n (v / 2) ((c / 2) ^^^ 0x82F63B78) else crcBits n (v / 2) (c / 2)

/-- CRC-32C of `n` bytes (R125). -/
def crc32c (n v : Nat) : Word32 := BitVec.ofNat 32 (crcBits (8 * n) v 0xFFFFFFFF ^^^ 0xFFFFFFFF)

/-- crc_raw of R127: zero initial value, no final XOR. -/
def crcRaw (n v : Nat) : Word32 := BitVec.ofNat 32 (crcBits (8 * n) v 0)

/-- A tile with the sidecar its producer computes (R126). -/
def mkTile (d : Block) : Tile := { data := d, crc := crc32c 256 d.toNat }

/-- The sidecar check (R128). -/
def tileOk (t : Tile) : Bool := t.crc == crc32c 256 t.data.toNat

/-- The zero tile with its valid sidecar (R31): CRC-32C of 256 zero bytes is 0xB872_B190. -/
def zeroTile : Tile := { data := 0, crc := 0xB872B190 }

/-- A change smaller than the tile updates the sidecar incrementally (R127). -/
def changeTile (t : Tile) (new : Block) : Tile :=
  { data := new, crc := t.crc ^^^ crcRaw 256 (t.data ^^^ new).toNat }

/-! ## GF(2^8) over every byte at once (R132) -/

/-- Every byte times g = 0x02 modulo 0x11D. -/
def gfTwice (d : Block) : Block :=
  let ones := BitVec.ofNat 2048 ((2 ^ 2048 - 1) / 255)
  let low := ((d &&& (ones * 127)) <<< 1)
  let high := (d >>> 7) &&& ones
  low ^^^ (high * 0x1D)

/-- Every byte times g^n. -/
def gfPow : Nat → Block → Block
  | 0, d => d
  | n + 1, d => gfPow n (gfTwice d)

/-- Every byte divided by g^n (g has order 255). -/
def gfUnpow (n : Nat) (d : Block) : Block := gfPow (255 - n % 255) d

/-- g^n as a byte value. -/
def gfExp : Nat → Nat
  | 0 => 1
  | n + 1 => let x := 2 * gfExp n; if 256 ≤ x then x ^^^ 0x11D else x

/-- The discrete logarithm of a nonzero byte, searched downward from `n`. -/
def gfLog : Nat → Nat → Nat
  | 0, _ => 0
  | n + 1, x => if gfExp n = x then n else gfLog n x

/-! ## Addresses (R29) -/

/-- NODE of a global address. -/
def aNode (a : Word64) : Node := BitVec.ofNat 16 (a.toNat >>> 48)
/-- SLOT of a global address. -/
def aSlot (a : Word64) : Nat := fld a 47 30
/-- TILE of a global address. -/
def aTile (a : Word64) : Nat := fld a 29 8
/-- BYTE of a global address. -/
def aByte (a : Word64) : Nat := fld a 7 0

/-- SLOT of a transaction's offset. -/
def oSlot (o : BitVec 48) : Nat := fld o 47 30
/-- TILE of a transaction's offset. -/
def oTile (o : BitVec 48) : Nat := fld o 29 8
/-- BYTE of a transaction's offset. -/
def oByte (o : BitVec 48) : Nat := fld o 7 0

/-- An offset from its parts. -/
def mkOffset (slot tile byte : Nat) : BitVec 48 :=
  BitVec.ofNat 48 (slot * 2 ^ 30 + tile * 2 ^ 8 + byte)

/-- The key of a tile in the tables of the home. -/
def tkey (slot tile : Nat) : Nat := slot * 2 ^ 22 + tile

/-- Slot of a tile key. -/
def keySlot (k : Nat) : Nat := k / 2 ^ 22

/-- Tile of a tile key. -/
def keyTile (k : Nat) : Nat := k % 2 ^ 22

/-- Serial order of 32-bit sequences (chapter 4): `a` precedes `b`. -/
def precedes (a b : Word32) : Bool := let d := (b - a).toNat; decide (1 ≤ d ∧ d < 2 ^ 31)

/-- Ceiling division. -/
def cdiv (a b : Nat) : Nat := (a + b - 1) / b

/-! ## Layouts (R6) -/

/-- A value in the bits [hi:lo] of a layout. -/
def inBits (v hi lo : Nat) : Nat := put (v % 2 ^ (hi + 1 - lo)) lo

/-- A number's 64-bit words, the low one first. -/
def words (n v : Nat) : List Nat := (List.range n).map (fun i => v / 2 ^ (64 * i) % 2 ^ 64)

/-- The bytes of a little-endian field (R6). -/
def leBytes (n v : Nat) : List Nat := (List.range n).map (fun i => (v / 256 ^ i) % 256)

end Sys2Proof.Machine
end

