-- ==== Sys2Proof/Machine/Numbers.lean ====
section
/-! DEFINITION. Number formats, exact values, rounding and conversion (R192 to R203), binary32 arithmetic
(R87, R205) and the layouts of elements and scales (R197, R198, R230). -/

namespace Sys2Proof.Machine

/-- An exact value: NaN, an infinity, or (−1)^neg × m × 2^e. -/
inductive FVal where
  | nan
  | inf (neg : Bool)
  | fin (neg : Bool) (m : Nat) (e : Int)
  deriving DecidableEq, Repr

/-! ## FSPEC (R192, R193) -/

/-- FMT of a format specifier. -/
def fsFmt (f : Byte) : Nat := f.toNat % 16
/-- SCALED of a format specifier. -/
def fsScaled (f : Byte) : Bool := f.getLsbD 7
/-- OVF of a format specifier. -/
def fsOvf (f : Byte) : Bool := f.getLsbD 6
/-- ROUND of a format specifier. -/
def fsRound (f : Byte) : Nat := (f.toNat / 16) % 4

/-- A defined FMT with a permitted SCALED (R193). -/
def fsFmtOk (f : Byte) : Bool :=
  decide (fsFmt f ≤ 10) && (!fsScaled f || (decide (3 ≤ fsFmt f) && decide (fsFmt f ≤ 9)))

/-- No reserved value in any field of a format specifier (R193). -/
def fsOk (f : Byte) : Bool := fsFmtOk f && decide (fsRound f ≤ 1)

/-- Bits per element (R193). -/
def fmtBits (fmt : Nat) : Nat :=
  match fmt with
  | 0 => 32 | 1 => 16 | 2 => 16 | 3 => 8 | 4 => 8 | 5 => 6 | 6 => 6 | 7 => 4 | 8 => 8 | 9 => 4 | _ => 32

/-- Elements per tile (R193). -/
def fmtPerTile (fmt : Nat) : Nat :=
  match fmt with
  | 0 => 64 | 1 => 128 | 2 => 128 | 3 => 256 | 4 => 256 | 5 => 320 | 6 => 320 | 7 => 512 | 8 => 256
  | 9 => 512 | _ => 64

/-- FMT 8, 9 and 0xA are integers (R196). -/
def fmtInt (fmt : Nat) : Bool := decide (8 ≤ fmt)

/-- Mantissa width, exponent width and bias of a floating-point format (R194). -/
def fmtShape (fmt : Nat) : Nat × Nat × Int :=
  match fmt with
  | 0 => (23, 8, 127) | 1 => (7, 8, 127) | 2 => (10, 5, 15) | 3 => (3, 4, 7) | 4 => (2, 5, 15)
  | 5 => (2, 3, 3) | 6 => (3, 2, 1) | _ => (1, 2, 1)

/-- Formats with infinities (R194). -/
def fmtHasInf (fmt : Nat) : Bool := fmt == 0 || fmt == 1 || fmt == 2 || fmt == 4

/-- The canonical NaN of a format that has one (R195). -/
def fmtNan (fmt : Nat) : Option Nat :=
  match fmt with
  | 0 => some 0x7FC00000 | 1 => some 0x7FC0 | 2 => some 0x7E00 | 3 => some 0x7F | 4 => some 0x7E
  | _ => none

/-- The code of the largest finite magnitude (R195, R196). -/
def fmtMax (fmt : Nat) : Nat :=
  match fmt with
  | 0 => 0x7F7FFFFF | 1 => 0x7F7F | 2 => 0x7BFF | 3 => 0x7E | 4 => 0x7B | 5 => 0x1F | 6 => 0x1F
  | 7 => 0x7 | 8 => 127 | 9 => 7 | _ => 2147483647

/-- The code of +infinity. -/
def fmtInfCode (fmt : Nat) : Nat :=
  match fmt with
  | 0 => 0x7F800000 | 1 => 0x7F80 | 2 => 0x7C00 | _ => 0x7C

/-- The largest exponent E of R202. -/
def fmtBlockExp (fmt : Nat) : Int :=
  match fmt with
  | 7 => 2 | 6 => 2 | 9 => 2 | 5 => 4 | 8 => 6 | 3 => 8 | _ => 15

/-! ## Decoding (R194 to R196) -/

/-- The value of a code. -/
def decodeFmt (fmt code : Nat) : FVal :=
  let w := fmtBits fmt
  let c := code % 2 ^ w
  if fmtInt fmt then
    if c < 2 ^ (w - 1) then .fin false c 0 else .fin true (2 ^ w - c) 0
  else
    let (mb, eb, bias) := fmtShape fmt
    let neg := c.testBit (w - 1)
    let e := (c / 2 ^ mb) % 2 ^ eb
    let m := c % 2 ^ mb
    if e = 2 ^ eb - 1 ∧ fmtHasInf fmt then (if m = 0 then .inf neg else .nan)
    else if fmt = 3 ∧ e = 15 ∧ m = 7 then .nan
    else if e = 0 then .fin neg m (1 - bias - mb)
    else .fin neg (2 ^ mb + m) ((e : Int) - bias - mb)

/-- Multiply by 2^k. -/
def fscale (v : FVal) (k : Int) : FVal :=
  match v with
  | .fin s m e => .fin s m (e + k)
  | x => x

/-- An element of a block with scale `s` (R197). -/
def applyScale (s : Nat) (v : FVal) : FVal :=
  if s = 0xFF then .nan else fscale v ((s : Int) - 127)

/-! ## Exact arithmetic -/

/-- Exact negation. -/
def fneg : FVal → FVal
  | .nan => .nan
  | .inf s => .inf (!s)
  | .fin s m e => .fin (!s) m e

/-- Exact product; an infinity times zero is NaN (R191). -/
def fmul : FVal → FVal → FVal
  | .nan, _ => .nan
  | _, .nan => .nan
  | .inf s, .inf t => .inf (s != t)
  | .inf s, .fin t m _ => if m = 0 then .nan else .inf (s != t)
  | .fin t m _, .inf s => if m = 0 then .nan else .inf (s != t)
  | .fin s m e, .fin t n f => .fin (s != t) (m * n) (e + f)

/-- The signed significand at exponent `e0`, for `e0 ≤ e`. -/
def alignTo (s : Bool) (m : Nat) (e e0 : Int) : Int :=
  let v : Nat := m * 2 ^ (e - e0).toNat
  if s then -(v : Int) else v

/-- Exact sum; a zero sum is +0 unless both operands are −0. -/
def fadd : FVal → FVal → FVal
  | .nan, _ => .nan
  | _, .nan => .nan
  | .inf s, .inf t => if s = t then .inf s else .nan
  | .inf s, .fin _ _ _ => .inf s
  | .fin _ _ _, .inf s => .inf s
  | .fin s m e, .fin t n f =>
    let e0 := min e f
    let z := alignTo s m e e0 + alignTo t n f e0
    if z = 0 then .fin (s && t && decide (m = 0) && decide (n = 0)) 0 0
    else .fin (decide (z < 0)) z.natAbs e0

/-! ## Rounding (R199, R200) -/

/-- ⌊log2 (num / den)⌋ for positive num and den. -/
def ratLog2 (num den : Nat) : Int :=
  let k : Int := (Nat.log2 num : Int) - (Nat.log2 den : Int)
  let ok : Bool := if 0 ≤ k then decide (den * 2 ^ k.toNat ≤ num) else decide (den ≤ num * 2 ^ (-k).toNat)
  if ok then k else k - 1

/-- Round num / den × 2^e to a multiple of 2^q: nearest-even, or stochastic with draw `r` (R200).
Answers the multiple and whether it is inexact. -/
def roundAt (num den : Nat) (e q : Int) (r : Option Nat) : Nat × Bool :=
  let sh := e - q
  let n := if 0 ≤ sh then num * 2 ^ sh.toNat else num
  let d := if 0 ≤ sh then den else den * 2 ^ (-sh).toNat
  let s := n / d
  let rem := n % d
  let up : Bool :=
    match r with
    | none => decide (d < 2 * rem) || (decide (2 * rem = d) && decide (s % 2 = 1))
    | some x => decide (x < rem * 2 ^ 24 / d)
  (if up then s + 1 else s, decide (rem ≠ 0))

/-- The 24-bit draw of R200 for element `n` under a seed. -/
def srDraw (seed : Word64) (n : Nat) : Nat :=
  let z0 : Word64 := seed + BitVec.ofNat 64 (n + 1) * 0x9E3779B97F4A7C15
  let z1 : Word64 := (z0 ^^^ (z0 >>> 30)) * 0xBF58476D1CE4E5B9
  let z2 : Word64 := (z1 ^^^ (z1 >>> 27)) * 0x94D049BB133111EB
  let z3 : Word64 := z2 ^^^ (z2 >>> 31)
  (z3 >>> 40).toNat

/-- The result of a conversion: the code, the flags it sets (R203), and whether its block must carry
scale 0xFF (R201). -/
structure Conv where
  code : Nat
  of : Bool
  uf : Bool
  nv : Bool
  blockNan : Bool
  deriving DecidableEq, Repr

/-- A conversion that sets nothing. -/
def Conv.pure (code : Nat) : Conv := { code := code, of := false, uf := false, nv := false, blockNan := false }

/-- The sign bit of a format. -/
def signBit (fmt : Nat) (neg : Bool) : Nat := if neg then 2 ^ (fmtBits fmt - 1) else 0

/-- Saturation of a magnitude too large (R201). -/
def saturate (fmt : Nat) (neg : Bool) : Conv :=
  let c := if fmtInt fmt then (if neg then 2 ^ (fmtBits fmt - 1) else fmtMax fmt)
           else signBit fmt neg + fmtMax fmt
  { Conv.pure c with of := true }

/-- Finite overflow under R201. -/
def overflow (f : Byte) (neg : Bool) : Conv :=
  let fmt := fsFmt f
  if fmt = 0 then Conv.pure (signBit 0 neg + fmtInfCode 0)
  else if fsOvf f then
    match fmtNan fmt with
    | some c => { Conv.pure c with nv := true }
    | none => if fsScaled f then { Conv.pure 0 with nv := true, blockNan := true } else saturate fmt neg
  else saturate fmt neg

/-- Convert num / den × 2^e with a sign into a format (R199 to R201); `r` is the stochastic draw. -/
def convertRat (f : Byte) (neg : Bool) (num den : Nat) (e : Int) (r : Option Nat) : Conv :=
  let fmt := fsFmt f
  let r' := if fmt = 0 ∨ fmt = 10 then none else r
  if num = 0 then Conv.pure (if fmtInt fmt then 0 else signBit fmt neg)
  else if fmtInt fmt then
    let (s, _) := roundAt num den e 0 r'
    let lim := if neg then 2 ^ (fmtBits fmt - 1) else fmtMax fmt
    if lim < s then overflow f neg
    else Conv.pure (if neg then (2 ^ fmtBits fmt - s) % 2 ^ fmtBits fmt else s)
  else
    let (mb, _, bias) := fmtShape fmt
    let emin : Int := 1 - bias
    let l := ratLog2 num den + e
    let top := max l emin
    let (s, inex) := roundAt num den e (top - mb) r'
    let code := (top - emin).toNat * 2 ^ mb + s
    if fmtMax fmt < code then overflow f neg
    else { Conv.pure (signBit fmt neg + code) with uf := inex && decide (code < 2 ^ mb) }

/-- Convert a value into a format (R201). -/
def convert (f : Byte) (v : FVal) (r : Option Nat) : Conv :=
  let fmt := fsFmt f
  match v with
  | .nan =>
    match fmtNan fmt with
    | some c => Conv.pure c
    | none => if fsScaled f then { Conv.pure 0 with blockNan := true } else { Conv.pure 0 with nv := true }
  | .inf s => if fmtHasInf fmt then Conv.pure (signBit fmt s + fmtInfCode fmt) else overflow f s
  | .fin s m e => convertRat f s m 1 e r

/-- ⌊log2⌋ of the largest finite magnitude of a block, if any is nonzero. -/
def blockLog2 : List FVal → Option Int
  | [] => none
  | .fin _ m e :: t =>
    if m = 0 then blockLog2 t else
    let l := ratLog2 m 1 + e
    match blockLog2 t with
    | none => some l
    | some x => some (max l x)
  | _ :: t => blockLog2 t

/-- The scale of a block (R202). -/
def blockScale (fmt : Nat) (vs : List FVal) : Nat :=
  if vs.any (fun v => v == .nan) then 0xFF
  else match blockLog2 vs with
    | none => 0x7F
    | some l => (min (max (l - fmtBlockExp fmt + 127) 0) 254).toNat

/-- The draw for element `n` when ROUND selects stochastic rounding. -/
def drawFor (f : Byte) (seed : Word64) (n : Nat) : Option Nat :=
  if fsRound f = 1 then some (srDraw seed n) else none

/-- Number a list from `n`. -/
def numberFrom {α : Type} : Nat → List α → List (Nat × α)
  | _, [] => []
  | n, x :: t => (n, x) :: numberFrom (n + 1) t

/-- Convert one block into a block-scaled format (R202): scale, codes, flags. -/
def convertBlock (f : Byte) (seed : Word64) (n0 : Nat) (vs : List FVal) : Nat × List Nat × Conv :=
  let fmt := fsFmt f
  let s := blockScale fmt vs
  let fill := (fmtNan fmt).getD 0
  if s = 0xFF then (0xFF, vs.map (fun _ => fill), Conv.pure 0)
  else
    let cs := (numberFrom n0 vs).map (fun p => convert f (fscale p.2 (127 - (s : Int))) (drawFor f seed p.1))
    let flags : Conv := { code := 0, of := cs.any (·.of), uf := cs.any (·.uf), nv := cs.any (·.nv),
                          blockNan := cs.any (·.blockNan) }
    if flags.blockNan then (0xFF, vs.map (fun _ => fill), { flags with nv := true })
    else (s, cs.map (·.code), flags)

/-- Cut a list into runs of `n`, with fuel. -/
def runsOf {α : Type} (n : Nat) : Nat → List α → List (List α)
  | 0, _ => []
  | k + 1, l => if l.isEmpty then [] else l.take n :: runsOf n k (l.drop n)

/-- A converted operand: codes, scales (empty when unscaled), and the flags set. -/
structure Converted where
  codes : List Nat
  scales : List Nat
  of : Bool
  uf : Bool
  nv : Bool
  deriving DecidableEq, Repr

/-- Convert a whole operand whose first element has index `n0` (R199 to R202). -/
def convertAll (f : Byte) (seed : Word64) (n0 : Nat) (vs : List FVal) : Converted :=
  if fsScaled f then
    let bs := (numberFrom 0 (runsOf 32 vs.length vs)).map (fun p => convertBlock f seed (n0 + 32 * p.1) p.2)
    { codes := (bs.map (fun b => b.2.1)).flatten, scales := bs.map (fun b => b.1),
      of := bs.any (fun b => b.2.2.of), uf := bs.any (fun b => b.2.2.uf), nv := bs.any (fun b => b.2.2.nv) }
  else
    let cs := (numberFrom n0 vs).map (fun p => convert f p.2 (drawFor f seed p.1))
    { codes := cs.map (·.code), scales := [], of := cs.any (·.of), uf := cs.any (·.uf), nv := cs.any (·.nv) }

/-! ## binary32 (R87, R199, R205) -/

/-- The value of a binary32 word. -/
def f32 (w : Word32) : FVal := decodeFmt 0 w.toNat

/-- Round a value to binary32. -/
def to32 (v : FVal) : Word32 := BitVec.ofNat 32 (convert 0 v none).code

/-- binary32 addition. -/
def f32add (a b : Word32) : Word32 := to32 (fadd (f32 a) (f32 b))
/-- binary32 subtraction. -/
def f32sub (a b : Word32) : Word32 := to32 (fadd (f32 a) (fneg (f32 b)))
/-- binary32 multiplication. -/
def f32mul (a b : Word32) : Word32 := to32 (fmul (f32 a) (f32 b))
/-- binary32 fused multiply-add a × b + c, rounded once. -/
def f32fma (a b c : Word32) : Word32 := to32 (fadd (fmul (f32 a) (f32 b)) (f32 c))

/-- a divided by a positive count, correctly rounded (R273). -/
def f32divNat (a : Word32) (n : Nat) : Word32 :=
  match f32 a with
  | .fin s m e => BitVec.ofNat 32 (convertRat 0 s m n e none).code
  | v => to32 v

/-- The order of R87 on a format's codes: −0 below +0. -/
def orderKey (fmt code : Nat) : Int :=
  let w := fmtBits fmt
  let mag : Nat := code % 2 ^ (w - 1)
  if code.testBit (w - 1) then -(mag : Int) - 1 else mag

/-- MIN or MAX of two codes of one floating-point format under R87. -/
def fminmax (fmt : Nat) (big : Bool) (a b : Nat) : Nat :=
  let na := decodeFmt fmt a == .nan
  let nb := decodeFmt fmt b == .nan
  if na && nb then (fmtNan fmt).getD 0
  else if na then b
  else if nb then a
  else if big then (if orderKey fmt a < orderKey fmt b then b else a)
  else (if orderKey fmt b < orderKey fmt a then b else a)

/-- MIN_F32. -/
def f32min (a b : Word32) : Word32 := BitVec.ofNat 32 (fminmax 0 false a.toNat b.toNat)
/-- MAX_F32. -/
def f32max (a b : Word32) : Word32 := BitVec.ofNat 32 (fminmax 0 true a.toNat b.toNat)

/-- The canonical binary32 NaN. -/
def nan32 : Word32 := 0x7FC00000

/-- Canonical NaN for any NaN. -/
def canon32 (w : Word32) : Word32 := if f32 w = .nan then nan32 else w

/-! ## The reach of R205

R205 bounds the error of a special function and does not give its bits. A function is evaluated here to
2^−fxBits, far below any binary32 ulp, as an integer multiple of 2^−fxBits. -/

/-- Fraction bits of the evaluation. -/
def fxBits : Nat := 320

/-- One, as a multiple of 2^−fxBits. -/
def fxOne : Int := (2 ^ fxBits : Nat)

/-- ⌊√n⌋ below 2^k plus `r`, bit by bit. -/
def isqrtLoop : Nat → Nat → Nat → Nat
  | 0, _, r => r
  | k + 1, n, r => isqrtLoop k n (if (r + 2 ^ k) * (r + 2 ^ k) ≤ n then r + 2 ^ k else r)

/-- ⌊√n⌋ for n below 2^800. -/
def isqrt (n : Nat) : Nat := isqrtLoop 400 n 0

/-- The sum of p, p·t²/3, p·t⁴/5 and on, with alternating signs when `alt`: 2^fxBits times atanh t or atan t from p = t. -/
def arcLoop (alt : Bool) (t : Int) : Nat → Int → Int → Int → Int
  | 0, _, _, acc => acc
  | k + 1, n, p, acc =>
    let q := p * t / fxOne * t / fxOne
    arcLoop alt t k (n + 2) (if alt then -q else q) (acc + p / n)

/-- The natural logarithm of 2, as 2 atanh 1/3. -/
def fxLn2 : Int := 2 * arcLoop false (fxOne / 3) 110 1 (fxOne / 3) 0

/-- π, as 16 atan 1/5 − 4 atan 1/239. -/
def fxPi : Int :=
  16 * arcLoop true (fxOne / 5) 80 1 (fxOne / 5) 0 - 4 * arcLoop true (fxOne / 239) 40 1 (fxOne / 239) 0

/-- The power series of the exponential from its term `p` of index `n` on. -/
def expLoop (r : Int) : Nat → Int → Int → Int → Int
  | 0, _, _, acc => acc
  | k + 1, n, p, acc => expLoop r k (n + 1) (p * r / fxOne / n) (acc + p)

/-- e^r for 0 ≤ r < 1. -/
def fxExp (r : Int) : Int := expLoop r 80 1 fxOne 0

/-- The power series of the sine from its term `p` of degree `n` on. -/
def sinLoop (z : Int) : Nat → Int → Int → Int → Int
  | 0, _, _, acc => acc
  | k + 1, n, p, acc => sinLoop z k (n + 2) (-(p * z / fxOne * z / fxOne) / ((n + 1) * (n + 2))) (acc + p)

/-- 2^n times a nonnegative value. -/
def fxShift (v : Int) (n : Int) : Int := if 0 ≤ n then v * (2 ^ n.toNat : Nat) else v / (2 ^ (-n).toNat : Nat)

/-- 2^x. -/
def fxExp2 (x : Int) : Int := if x < -(256 * fxOne) then 0 else fxShift (fxExp (x % fxOne * fxLn2 / fxOne)) (x / fxOne)

/-- log2 (m × 2^e) for m > 0. -/
def fxLog2 (m : Nat) (e : Int) : Int :=
  let l := Nat.log2 m
  let t : Int := ((m - 2 ^ l) * 2 ^ fxBits / (m + 2 ^ l) : Nat)
  (l + e) * fxOne + 2 * arcLoop false t 110 1 t 0 * fxOne / fxLn2

/-- sin πx. -/
def fxSinPi (x : Int) : Int :=
  let z := x % (2 * fxOne)
  let h := if fxOne ≤ z then z - fxOne else z
  let a := fxPi * (if fxOne < 2 * h then fxOne - h else h) / fxOne
  let v := sinLoop a 64 1 a 0
  if fxOne ≤ z then -v else v

/-- tanh x for x ≥ 0. -/
def fxTanh (x : Int) : Int :=
  if 64 * fxOne ≤ x then fxOne
  else
    let y := fxShift (fxExp (2 * x % fxLn2)) (2 * x / fxLn2)
    (y - fxOne) * fxOne / (y + fxOne)

/-- The function `fn` of R205 of (−1)^s × m × 2^e, a finite operand for which its table states no result. -/
def sfuReal (fn : Nat) (s : Bool) (m : Nat) (e : Int) : Int :=
  let f : Int := fxBits
  let x := alignTo s m e (-f)
  match fn with
  | 0 => let r : Int := (2 ^ (f - e).toNat / m : Nat); if s then -r else r
  | 1 => isqrt (m * 2 ^ (e + 2 * f).toNat)
  | 2 => isqrt (2 ^ (2 * f - e).toNat / m)
  | 3 => fxExp2 x
  | 4 => fxLog2 m e
  | 5 => fxSinPi x
  | 6 => fxSinPi (x + fxOne / 2)
  | _ => let r := fxTanh x.natAbs; if s then -r else r

/-- The ulps within which R205 holds a function. -/
def sfuUlps (fn : Nat) : Nat :=
  match fn with
  | 0 => 1 | 1 => 1 | 7 => 3 | _ => 2

/-- One ulp of binary32 at `y`. -/
def fxUlp (y : Int) : Nat :=
  let f : Int := fxBits
  let l : Int := if y = 0 then -126 else min (max (Nat.log2 y.natAbs - f) (-126)) 127
  2 ^ (l - 23 + f).toNat

/-- Whether `w` lies within the bound of R205 from `y`, the value of function `fn` at `x`. An infinity
stands for the first magnitude beyond binary32, and 2^−40 ulp are granted for the evaluation. -/
def sfuNear (fn : Nat) (x : FVal) (y : Int) (w : Word32) : Bool :=
  let d : Option Int :=
    match f32 w with
    | .nan => none
    | .inf s => some (alignTo s 1 128 (-(fxBits : Int)) - y)
    | .fin s m e => some (alignTo s m e (-(fxBits : Int)) - y)
  let unit : Bool :=
    match x with
    | .fin false m e => fn == 4 && decide (m ≠ 0) &&
        (decide (ratLog2 m 1 + e = -1) || decide (ratLog2 m 1 + e = 0) || fxLog2 m e == fxOne)
    | _ => false
  match d with
  | none => false
  | some d => decide (d.natAbs * 2 ^ 40 ≤ (sfuUlps fn * 2 ^ 40 + 1) * fxUlp y)
      || (unit && decide (d.natAbs ≤ 2 ^ (fxBits - 22)))

/-- The free result of function `fn` at `x`, kept within the bound of R205 from the value `y`: a free value
outside the bound gives place to the nearest binary32 value. -/
def sfuWithin (fn : Nat) (x : Word32) (y : Int) : Word32 :=
  let w := canon32 (Config.sfu fn x)
  if sfuNear fn (f32 x) y w then w else to32 (.fin (decide (y < 0)) y.natAbs (-(fxBits : Int)))

/-- The special-function unit (R205): the special results of its table, the limits of IEEE 754 at the
infinities for which the table states none (DEDUCED, log entry 145), else a free result within the bound. Functions:
0 RCP, 1 SQRT, 2 RSQRT, 3 EXP2, 4 LOG2, 5 SINPI, 6 COSPI, 7 TANH. -/
def sfu (fn : Nat) (x : Word32) : Word32 :=
  match fn, f32 x with
  | _, .nan => nan32
  | 0, .inf s => if s then 0x80000000 else 0
  | 1, .inf s => if s then nan32 else 0x7F800000
  | 2, .inf s => if s then nan32 else sfuWithin 2 x 0
  | 3, .inf s => if s then sfuWithin 3 x 0 else 0x7F800000
  | 4, .inf s => if s then nan32 else 0x7F800000
  | 5, .inf _ => nan32
  | 6, .inf _ => nan32
  | _, .inf s => sfuWithin fn x (if s then -fxOne else fxOne)
  | 0, .fin s m e => if m = 0 then (if s then 0xFF800000 else 0x7F800000) else sfuWithin 0 x (sfuReal 0 s m e)
  | 1, .fin s m e => if s then (if m = 0 then x else nan32) else sfuWithin 1 x (sfuReal 1 s m e)
  | 2, .fin s m e =>
    if m = 0 then (if s then 0xFF800000 else 0x7F800000) else if s then nan32 else sfuWithin 2 x (sfuReal 2 s m e)
  | 3, .fin s m e =>
    if !s && decide (m ≠ 0) && decide (7 ≤ ratLog2 m 1 + e) then 0x7F800000 else sfuWithin 3 x (sfuReal 3 s m e)
  | 4, .fin s m e => if m = 0 then 0xFF800000 else if s then nan32 else sfuWithin 4 x (sfuReal 4 s m e)
  | _, .fin s m e => sfuWithin fn x (sfuReal fn s m e)

/-! ## Elements in tiles (R198) -/

/-- The code of element `n` of a tile. -/
def elemAt (fmt : Nat) (d : Block) (n : Nat) : Nat :=
  match fmtBits fmt with
  | 6 => (d.toNat >>> (24 * (n / 4) + 6 * (n % 4))) % 64
  | w => (d.toNat >>> (w * n)) % 2 ^ w

/-- The bit at which element `n` starts. -/
def elemBit (fmt n : Nat) : Nat :=
  match fmtBits fmt with
  | 6 => 24 * (n / 4) + 6 * (n % 4)
  | w => w * n

/-- The bit at which element `n` of a run of tiles starts. -/
def runBit (fmt n : Nat) : Nat := 2048 * (n / fmtPerTile fmt) + elemBit fmt (n % fmtPerTile fmt)

/-- Bytes that `n` elements take from the first byte of a run of tiles. -/
def runBytes (fmt n : Nat) : Nat :=
  let r := n % fmtPerTile fmt
  256 * (n / fmtPerTile fmt) + (if fmtBits fmt = 6 then 3 * ((r + 3) / 4) else (fmtBits fmt * r + 7) / 8)

/-- The first `n` elements of a run of tiles. -/
def runElems (fmt v n : Nat) : List Nat := (List.range n).map (fun k => (v >>> runBit fmt k) % 2 ^ fmtBits fmt)

/-- Codes laid out as a run of tiles. -/
def packRun (fmt : Nat) (codes : List Nat) : Nat :=
  (numberFrom 0 codes).foldl (fun acc p => acc ||| (p.2 <<< runBit fmt p.1)) 0

/-- Bytes as one little-endian number (R6). -/
def packNat (w : Nat) (vs : List Nat) : Nat := (numberFrom 0 vs).foldl (fun acc p => acc ||| (p.2 <<< (w * p.1))) 0

/-- The tile whose elements from 0 are the codes given. -/
def packElems (fmt : Nat) (codes : List Nat) : Block :=
  BitVec.ofNat 2048 ((numberFrom 0 codes).foldl (fun acc p => acc ||| (p.2 <<< elemBit fmt p.1)) 0)

/-- A tile of which only the first `n` elements are given: the rest holds those of `v` (log entry 32). -/
def padWith (fmt n : Nat) (b v : Block) : Block :=
  if n = fmtPerTile fmt then b
  else
    let w := elemBit fmt n
    let top := if fmtBits fmt = 6 then 1920 else 2048
    let m := BitVec.ofNat 2048 ((2 ^ (top - w) - 1) * 2 ^ w)
    (b &&& ~~~m) ||| (v &&& m)

/-- The elements of a tile. -/
def elemsOf (fmt : Nat) (d : Block) : List Nat := (List.range (fmtPerTile fmt)).map (elemAt fmt d)

/-- Codes packed into whole tiles, from the first. -/
def packTiles (fmt : Nat) (codes : List Nat) : List Block :=
  (runsOf (fmtPerTile fmt) codes.length codes).map (packElems fmt)

/-- Bytes packed into whole blocks. -/
def packBytes (bs : List Nat) : List Block :=
  (runsOf 256 bs.length bs).map (fun l =>
    BitVec.ofNat 2048 ((numberFrom 0 l).foldl (fun acc p => acc ||| (p.2 <<< (8 * p.1))) 0))

/-- Decode a run of codes under an FSPEC with the scale of each block of 32 (R197). -/
def decodeAll (f : Byte) (codes : List Nat) (scales : List Nat) : List FVal :=
  (numberFrom 0 codes).map (fun p =>
    let v := decodeFmt (fsFmt f) p.2
    if fsScaled f then applyScale (scales.getD (p.1 / 32) 0x7F) v else v)

/-! ## The lathe (R189 to R191) -/

/-- Operand pairings that R189 allows. -/
def pairOk (fa fb : Byte) : Bool :=
  let a := fsFmt fa
  let b := fsFmt fb
  let narrow (x : Nat) : Bool := decide (3 ≤ x) && decide (x ≤ 9)
  fsFmtOk fa && fsFmtOk fb && ((narrow a && narrow b) || (a == b && (a == 1 || a == 2)))

/-- An accumulator word in the course of a pass: whether its roundings were inexact below the smallest normal, and whether
it became a NaN from operands that are not (R203). -/
structure LatheSum where
  word : Word32
  uf : Bool
  nv : Bool
  deriving DecidableEq, Repr

/-- An exact sum of zero is +0 in the lathe (R191). -/
def plusZero : FVal → FVal
  | .fin s m e => if m = 0 then .fin false 0 0 else .fin s m e
  | v => v

/-- A sum rounded into the accumulator word; `fresh`: no operand is a NaN. -/
def roundSum (fresh : Bool) (uf : Bool) (v : FVal) (c : LatheSum) : LatheSum :=
  let r := convert 0 (plusZero v) none
  { word := BitVec.ofNat 32 r.code, uf := c.uf || uf || r.uf, nv := c.nv || (fresh && decide (v = .nan)) }

/-- One run of 32 products: summed exactly, scaled, rounded to binary32, added to C (R191). -/
def latheRun (c : LatheSum) (as bs : List FVal) (sa sb : Nat) : LatheSum :=
  let sum := (as.zip bs).foldl (fun acc p => fadd acc (fmul p.1 p.2)) (.fin false 0 0)
  let v := if sa = 0xFF ∨ sb = 0xFF then .nan else fscale sum ((sa : Int) + sb - 254)
  let fresh := sa != 0xFF && sb != 0xFF && !as.contains .nan && !bs.contains .nan && f32 c.word != .nan
  let r := convert 0 v none
  roundSum fresh r.uf (fadd (f32 c.word) (f32 (BitVec.ofNat 32 r.code))) c

/-- A fused multiply-add of 16-bit operands (R191). -/
def latheFma (c : LatheSum) (p : FVal × FVal) : LatheSum :=
  roundSum (p.1 != .nan && p.2 != .nan && f32 c.word != .nan) false (fadd (fmul p.1 p.2) (f32 c.word)) c

/-- One accumulator word of a pass: row of A and column of B over K, with the block scales of each run. -/
def latheSum (narrow : Bool) (c : Word32) (as bs : List FVal) (sas sbs : List Nat) : LatheSum :=
  let c0 : LatheSum := { word := c, uf := false, nv := false }
  if narrow then
    (numberFrom 0 ((runsOf 32 as.length as).zip (runsOf 32 bs.length bs))).foldl
      (fun acc p => latheRun acc p.2.1 p.2.2 (sas.getD p.1 0x7F) (sbs.getD p.1 0x7F)) c0
  else (as.zip bs).foldl latheFma c0

/-- The word that a pass leaves. -/
def latheWord (narrow : Bool) (c : Word32) (as bs : List FVal) (sas sbs : List Nat) : Word32 := (latheSum narrow c as bs sas sbs).word

end Sys2Proof.Machine
end

