-- ==== Sys2Proof/Machine/Ops.lean ====
section
/-! DEFINITION. Shared operations: the charter in force, ports and partitions, reach (R432), events to
management and to hosts (R175 to R177, R385), transactions sent and answers (R354), counters (R449). -/

namespace Sys2Proof.Machine

/-- What every command answers. -/
abbrev Out := Host.Outcome State Fault Refusal

/-- One nanosecond on the reference timer while the device is powered and its clock is present (R452, R473; DESIGN CHOICE,
log entry 6). -/
def tick (s : State) : State := if s.phys.pwrgd && s.phys.refSys then { s with timer := s.timer + 1 } else s

/-- Whether the data hierarchy is powered and runs: after step 6 of the start, up to a thermal trip (R434, R480). -/
def dataUp (s : State) : Bool :=
  match s.boot.phase with
  | .ready => true
  | .failed => true
  | _ => false

/-! ## The charter in force -/

/-- This device's node number (R19, R428). -/
def myNode (s : State) : Node :=
  match s.boot.charter with
  | some c => c.node
  | none => noNode

/-- The state of a partition (R364); an unlisted one is EMPTY. -/
def partState (s : State) (p : Nat) : PState :=
  match tget s.parts.parts p with
  | some x => x.state
  | none => .empty

/-- The charter record that a partition applies (R444). -/
def applied (s : State) (p : Nat) : Option PartCfg :=
  match tget s.parts.parts p with
  | some x => x.applied
  | none => none

/-- The template that a partition applies (R430). -/
def templateOf (s : State) (p : Nat) : Option Template :=
  match applied s p with
  | some c => c.template
  | none => none

/-- Change a listed partition. -/
def modPart (p : Nat) (f : Part → Part) (s : State) : State :=
  { s with parts := { s.parts with parts := tmod s.parts.parts p f } }

/-- A REACH grant of partition `q` for extents owned by `p` (R432). -/
def grants (s : State) (q p : Nat) (bit : Reach → Bool) : Bool :=
  q == p || match templateOf s q with
    | some t => t.reach.any (fun r => r.owner == p && r.hold && bit r)
    | none => false

/-- Whether partition `q` may reach extents owned by `p` (R432). -/
def mayReach (s : State) (q p : Nat) : Bool := grants s q p (fun r => r.hold)

/-! ## Ports -/

/-- A port by its number. -/
def portOf (s : State) (n : Nat) : Option Port := tget s.ports.ports n

/-- Change a listed port. -/
def modPort (n : Nat) (f : Port → Port) (s : State) : State :=
  { s with ports := { s.ports with ports := tmod s.ports.ports n f } }

/-- Whether a port's own link is UP. -/
def linkUp (s : State) (n : Nat) : Bool :=
  match portOf s n with
  | some p => p.up
  | none => false

/-- The other port of a pair (R17). -/
def sibling (n : Nat) : Nat := if n % 2 = 0 then n + 1 else n - 1

/-- Whether a port is a half of a bundle. -/
def bundled (s : State) (n : Nat) : Bool :=
  match portOf s n with
  | some p => p.cfg.bundle
  | none => false

/-- The links of a port: both of a bundle (R17). -/
def halves (s : State) (n : Nat) : List Nat := if bundled s n then [n / 2 * 2, n / 2 * 2 + 1] else [n]

/-- Whether a port is UP: a bundle while one of its two links is (R349). -/
def portUp (s : State) (n : Nat) : Bool := linkUp s n || (bundled s n && linkUp s (sibling n))

/-- The role of a port (R14). -/
def portRole (s : State) (n : Nat) : PortRole :=
  match portOf s n with
  | some p => p.cfg.role
  | none => .unused

/-- The partition of a request (R15, R16): the binding of a host-facing port, the tag of a trunk whose
partition has a share. A port removed from its partition binds none (R25). -/
def bindPart (s : State) (port : Nat) (tx : Tx) : Option Nat :=
  match portOf s port with
  | none => none
  | some p =>
    match p.cfg.role with
    | .host => if p.removed then none else p.cfg.owner
    | .trunk => if p.cfg.shares.contains tx.ptag then some tx.ptag else none
    | .memory => none
    | .unused => none

/-- The partition that a module's request is charged to (R14, R325): the owner of the tile that is read, committed or
rewritten; what the device does of itself is charged to partition 0 (DESIGN CHOICE, log entry 155). -/
def moduleTag (s : State) : ModKind → Nat
  | .read _ p _ _ _ => p
  | .commit ids => ((s.pool.journal.find? (fun r => ids.contains r.id)).map (·.part)).getD 0
  | .rewrite p => p
  | .claim _ _ => 0

/-- The partition that a transaction from a port carries, whatever its header says: a host-facing port's own (R15), that of the
extent being served on a memory-facing one (R14); on a trunk its tag (R16). -/
def portTag (s : State) (port : Nat) (tx : Tx) : Nat :=
  match portOf s port with
  | some p => match p.cfg.role with
    | .host => p.cfg.owner.getD 0
    | .memory => match s.pool.reqs.find? (fun q => q.tag == tx.tag && q.node == tx.src) with
      | some q => moduleTag s q.kind
      | none => p.cfg.owner.getD 0
    | .trunk => tx.ptag
    | .unused => tx.ptag
  | none => tx.ptag

/-! ## Routing (R356 to R359) -/

/-- The port that a transaction addresses: a bundle by its even port (R17). -/
def canonPort (s : State) (n : Nat) : Nat :=
  match portOf s n with
  | some p => if p.cfg.bundle then n / 2 * 2 else n
  | none => n

/-- The hash of R357: CRC-32C of SRC (ORIGIN for engine requests), DST and CLASS. -/
def routeHash (tx : Tx) : Nat :=
  let from_ := if tx.engine then tx.origin else tx.src
  (crc32c 5 (from_.toNat + put tx.dst.toNat 16 + put tx.cls 32)).toNat

/-- The first slot from `k` that is VALID with a port UP. -/
def pickSlot (s : State) (r : Route) : Nat → Nat → Option Nat
  | 0, _ => none
  | n + 1, k =>
    let p := r.ports.getD (k % 4) 255
    if r.valid.getLsbD (k % 4) && portUp s p then some p else pickSlot s r n (k + 1)

/-- The port that a transaction leaves by (R357); none is unreachable (R358). -/
def routePort (s : State) (tx : Tx) : Option Nat :=
  if tx.dst = noNode then none
  else match tget s.ports.routes tx.dst.toNat with
    | some r => if r.kind = 1 then pickSlot s r 4 (routeHash tx % 4) else none
    | none => none

/-- Whether this device is a transaction's destination. -/
def isSelf (s : State) (n : Node) : Bool :=
  n ≠ noNode && (n == myNode s || match tget s.ports.routes n.toNat with | some r => r.kind == 2 | none => false)

/-- Whether a destination is reachable (R358, R359); EVENT and COMPLETION are held until a path exists. -/
def reachable (s : State) (tx : Tx) : Bool :=
  isSelf s tx.dst || (decide (tx.hop < 1023) && (routePort s tx).isSome)

/-! ## Counters (R447 to R451) -/

/-- An occurrence with the values it carries (R449, R450). `priv` 0 DEVICE, 1 FIRMWARE, 2 KERNEL, 3 HOST. -/
structure Occ where
  type : Nat
  block : Nat
  event : Nat
  n : Nat
  priv : Option Nat
  cls : Option Nat
  part : Option Nat
  node : Option Node
  port : Option Nat
  slot : Option Nat
  deriving DecidableEq, Repr

/-- An occurrence that carries nothing. -/
def Occ.bare (type block event n : Nat) : Occ :=
  { type := type, block := block, event := event, n := n, priv := none, cls := none, part := none,
    node := none, port := none, slot := none }

/-- Whether an occurrence passes every filter of a control word that is turned on (R449). PRIV and CLASS
bind an occurrence only where its event carries them. -/
def passes (c : Control) (o : Occ) : Bool :=
  c.enable && c.event == o.event &&
  (match o.priv with | some p => c.priv.getLsbD p | none => true) &&
  (match o.cls with | some k => c.classes.getLsbD k | none => true) &&
  (!c.partEn || o.part == some c.part) &&
  (match c.masterKind with
   | 0 => true
   | 1 => (match o.node with | some n => n.toNat == c.master | none => false)
   | _ => o.port == some c.master) &&
  (!c.addrEn || match o.slot with
    | some sl => decide (c.slotLo ≤ sl) && decide (sl ≤ c.slotHi)
    | none => false)

/-- Add to a 48-bit counter, noting a wrap (R451). -/
def addWrap (v : BitVec 48) (w : Bool) (n : Nat) : BitVec 48 × Bool :=
  (v + BitVec.ofNat 48 n, w || decide (2 ^ 48 ≤ v.toNat + n))

/-- The key of a counter. -/
def ckey (type block idx : Nat) : Nat := (type * 4096 + block) * 32 + idx

/-- Count an occurrence on every programmable counter of its block that lets it pass (R449). -/
def occur (o : Occ) (s : State) : State :=
  { s with obs := { s.obs with counters := s.obs.counters.map (fun p =>
      if p.1 / 32 = o.type * 4096 + o.block ∧ passes p.2.ctl o then
        let v := addWrap p.2.value p.2.wrapped o.n
        (p.1, { p.2 with value := v.1, wrapped := v.2 })
      else p) } }

/-- The strip of a physical core. -/
def physStrip (p : Nat) : Nat := p / 36

/-- The field of a physical core. -/
def physField (p : Nat) : Nat := p / 288

/-- Add to a fixed counter (R447). -/
def bump (type block idx n : Nat) (s : State) : State :=
  { s with obs := { s.obs with fixed := tupd s.obs.fixed (ckey type block idx) (0, false) (fun v => addWrap v.1 v.2 n) } }

/-- Set a reading. -/
def reading (type block idx v : Nat) (s : State) : State :=
  { s with obs := { s.obs with fixed := tset s.obs.fixed (ckey type block idx) (BitVec.ofNat 48 v, false) } }

/-! ## Fumarole records (R462 to R465) -/

/-- Bytes that a record takes of a sink's buffer: the header and its body. -/
def fumBytes (r : FumRec) : Nat := 16 + 8 * r.body.length

/-- Form a record for a sink that has its type on, TAG by its own configuration (R463, R465): a full 64 MiB buffer drops
it, its FSEQ consumed. -/
def sinkPut (r : FumRec) (k : Sink) : Sink :=
  if r.type = 1 ∨ k.cfg.types.contains r.type then
    if 67108864 < k.bytes + fumBytes r then
      { k with fseq := k.fseq + 1, losses := k.losses + 1 }
    else { k with fseq := k.fseq + 1, buffer := k.buffer ++ [(k.fseq, r)], bytes := k.bytes + fumBytes r }
  else k

/-- Form a record for every sink that has its type on (R463). -/
def fumarole (type source : Nat) (body : List Nat) (s : State) : State :=
  let r : FumRec := { type := type, source := source, time := s.timer.toNat, more := false, body := body }
  { s with mgmt := { s.mgmt with sessions := s.mgmt.sessions.map (fun p =>
      (p.1, match p.2.sink with
        | some k => { p.2 with sink := some (sinkPut r k) }
        | none => p.2)) } }

/-! ## Events (R175 to R177, R385) -/

/-- Whether an event reaches a session: every event the fabric manager, those of its partition a
supervisor (R385). -/
def evFor (e : Event) (k : SessKind) : Bool :=
  match k with
  | .fm => true
  | .supervisor p => e.part == some p
  | .recovery => false

/-- Hold an event for management: the last 65,536 are held, and one pushed out before every subscriber has
read it counts in EVENTS_LOST; each subscribed session is sent it (R384, R385). -/
def holdEvent (e : Event) (m : MgmtSt) : MgmtSt :=
  let evs := m.events ++ [e]
  let old := evs.head?
  if evs.length ≤ 65536 then { m with events := evs }
  else
    let unread := match old with
      | some x => m.sessions.any (fun p => p.2.subscribed && evFor x p.2.kind && decide (p.2.readUpTo ≤ x.seq))
      | none => false
    { m with events := evs.drop 1, eventsLost := if unread then m.eventsLost + 1 else m.eventsLost }

/-- The EVENT messages of code 0x0090 that an event sends to subscribed sessions (R384, R385). -/
def eventMsgs (e : Event) (m : MgmtSt) : List Reply :=
  (m.sessions.filter (fun p => p.2.subscribed && evFor e p.2.kind)).map (fun p =>
    { sess := p.1, reqId := 0, code := 0x90, status := .ok, evSeq := e.seq, body := e.args, part := e.part.getD 0, kind := 2 })

/-- Hold an event for a host, at most 65,536; past that the oldest gives way to EVENTS_LOST, which stands for it, or the second
oldest is folded into an EVENTS_LOST that is the oldest (R177). -/
def holdHost (h : HostEvent) (l : List HostEvent) : List HostEvent × Bool :=
  if l.length < 65536 then (l ++ [h], false)
  else match l with
    | [] => ([h], false)
    | o :: t =>
      let lost (arg : Word32) (of : HostEvent) : HostEvent := { of with code := 0x0B, slot := 0, arg := arg, epoch := h.epoch }
      if o.code = 0x0B then match t with
        | o2 :: r => (lost (o.arg + 1) o2 :: (r ++ [h]), true)
        | [] => ([o, h], true)
      else (lost 1 o :: (t ++ [h]), true)

/-- Post an event to management under the next device event sequence. -/
def post (n : Ev) (p : Option Nat) (args : List Nat) (s : State) : State :=
  let e : Event := { seq := s.mgmt.eventSeq, name := n, part := p, args := args }
  fumarole 6 8 (e.seq :: args) { s with
    replies := s.replies ++ eventMsgs e s.mgmt,
    mgmt := holdEvent e { s.mgmt with eventSeq := s.mgmt.eventSeq + 1 } }

/-- Post one event to one host under a sequence already taken; EVENTS_LOST names the host to the fabric
manager (R177). -/
def postHost (seq code p slot : Nat) (h : Node) (arg : Word32) (s : State) : State :=
  let e : HostEvent := { seq := seq, code := code, part := p, slot := slot, arg := arg, epoch := s.ext.mapEpoch }
  let r := holdHost e (tgetD s.mgmt.hostEvents h.toNat [])
  let s' : State := { s with mgmt := { s.mgmt with hostEvents := tset s.mgmt.hostEvents h.toNat r.1 } }
  if r.2 then post .eventsLost (some p) [h.toNat] s' else s'

/-- Post one event to the fabric manager and to hosts under one sequence. -/
def postAll (n : Ev) (p : Nat) (args : List Nat) (code slot : Nat) (hosts : List Node) (arg : Node → Word32)
    (s : State) : State :=
  let q := s.mgmt.eventSeq
  hosts.foldl (fun t h => postHost q code p slot h (arg h) t) (post n (some p) args s)

/-- Post one event to hosts alone, under one sequence. -/
def postHosts (p code slot : Nat) (hosts : List Node) (arg : Word32) (s : State) : State :=
  let q := s.mgmt.eventSeq
  hosts.foldl (fun t h => postHost q code p slot h arg t) { s with mgmt := { s.mgmt with eventSeq := q + 1 } }

/-! ## Sending (R354, R361) -/

/-- A blank transaction from this device. -/
def blankTx (s : State) : Tx :=
  { dst := noNode, src := myNode s, flowSeq := 0, offset := 0, tag := 0, mapEpoch := 0, version := 0,
    op := 0, status := 0, length := 0, cls := 0, hop := 0, ptag := 0, colour := 0, mark := false,
    resp := false, ext := false, flowStart := false, engine := false, qual := 0, origin := 0,
    fwd := none, coll := none, tiles := [], trailer := { len := 0, val := 0, crc := 0 }, body := none }

/-- A trailer with its CRC (R353). -/
def mkTrailer (len val : Nat) : Trailer := { len := len, val := val, crc := crc32c len val }

/-- Send a transaction of this device: it takes the next FLOW_SEQ of its destination and class, and the
first of a flow carries FLOW_START (R361, R362). -/
def send (tx : Tx) (s : State) : State :=
  let k := tx.dst.toNat * 8 + tx.cls
  let f := tget s.home.sentFlow k
  let q := f.getD 0
  { s with
    out := s.out ++ [{ tx with src := myNode s, flowSeq := q, flowStart := f.isNone }],
    home := { s.home with sentFlow := tset s.home.sentFlow k (q + 1) } }

/-- Send a request of an engine on behalf of a submitter, which stays its SRC: the flow is that of its ORIGIN (R354, R361). -/
def sendEngine (tx : Tx) (s : State) : State :=
  let k := tx.dst.toNat * 8 + tx.cls
  let f := tget s.home.sentFlow k
  let q := f.getD 0
  { s with
    out := s.out ++ [{ tx with origin := myNode s, engine := true, flowSeq := q, flowStart := f.isNone }],
    home := { s.home with sentFlow := tset s.home.sentFlow k (q + 1) } }

/-- The response to a request (R353, R354): same OP, TAG and class, to SRC or ORIGIN; a marked request is
answered marked (R332). -/
def answerTx (s : State) (tx : Tx) (st : St) : Tx :=
  { blankTx s with
    dst := if tx.engine then tx.origin else tx.src, offset := tx.offset, tag := tx.tag,
    op := tx.op, status := stCode st, cls := tx.cls, ptag := tx.ptag, mark := tx.mark, resp := true,
    ext := tx.coll.isSome, coll := tx.coll }

/-- The op of the answer that a coherence request gets when it is granted is a grant; a failure is a
response of the same op, and WB_DIRTY is answered by WB_ACK (R353, R485). -/
def answer (tx : Tx) (st : St) (s : State) : State := send (answerTx s tx st) s

/-- Answer with data tiles. -/
def answerTiles (tx : Tx) (ts : List Tile) (s : State) : State :=
  send { answerTx s tx .ok with tiles := ts, length := ts.length } s

/-- Answer with a VERSION value. -/
def answerVersion (tx : Tx) (st : St) (v : Word32) (s : State) : State :=
  send { answerTx s tx st with version := v } s

/-- A fresh free value's index (R10). -/
def takeFree (s : State) : Nat × State := (s.free, { s with free := s.free + 1 })

/-! ## Extents -/

/-- The entry of a slot; an unlisted slot is FREE. -/
def extOf (s : State) (slot : Nat) : Option Extent := tget s.ext.entries slot

/-- Write the entry of a slot. -/
def setExt (slot : Nat) (e : Extent) (s : State) : State :=
  { s with ext := { s.ext with entries := tset s.ext.entries slot e } }

/-- An entry notes the map epoch under which it changes (R32). -/
def noted (s : State) (e : Extent) : Extent := { e with mapEpoch := s.ext.mapEpoch }

/-- Change the entry of a listed slot. -/
def modExt (slot : Nat) (f : Extent → Extent) (s : State) : State :=
  { s with ext := { s.ext with entries := tmod s.ext.entries slot f } }

/-- The owner of a slot, 0 if it is FREE. -/
def ownerOf (s : State) (slot : Nat) : Nat :=
  match extOf s slot with
  | some e => e.owner
  | none => 0

/-- The holder entry of a node. -/
def holderOf (e : Extent) (n : Node) : Option Holder := e.holders.find? (fun h => h.node == n)

/-- Every holder of the extents of a partition, once each (R73). -/
def holdersOfPart (s : State) (p : Nat) : List Node :=
  ((s.ext.entries.filter (fun x => x.2.owner == p)).map (fun x => x.2.holders.map (·.node))).flatten.eraseDups

/-- The host's agent index in an extent (R60). -/
def agentOf (e : Extent) (n : Node) : Option Nat :=
  match holderOf e n with
  | some h => h.agent
  | none => none

/-- The node of an agent index. -/
def nodeOfAgent (e : Extent) (a : Nat) : Option Node :=
  match e.holders.find? (fun h => h.agent == some a) with
  | some h => some h.node
  | none => none

/-- Whether a layer with this version is live and sealed (R105). -/
def sealedLive (e : Extent) (v : Nat) : Bool := e.layers.any (fun l => l.version == v && l.state == .sealed)

/-- Whether the open layer exists and is OPEN (R106). -/
def layerOpen (e : Extent) : Bool := e.openV ≠ 0 && e.layers.any (fun l => l.version == e.openV && l.state == .opened)

/-- The index of the record of a version. -/
def layerIdx (e : Extent) (v : Nat) : Option Nat := e.layers.findIdx? (fun l => l.version == v && l.state ≠ .free)

/-- Whether a holder pins a version. -/
def pinsV (e : Extent) (h : Holder) (v : Nat) : Bool :=
  match layerIdx e v with
  | some i => h.pins.getLsbD i
  | none => false

/-- Whether requests to an extent complete with ST_DOMAIN_RESET: its partition is being reset (R73), or is COHERENT with no
working keeper left (R398). -/
def domainDown (s : State) (e : Extent) : Bool :=
  partState s e.owner == .resetting || (e.mode == .coherent && match tget s.parts.parts e.owner with
    | some p => p.keeperFailed
    | none => false)

/-- A lease holder (chapter 5): the partition of its request holds the lease. -/
def leaseHolder (e : Extent) (part : Nat) : Bool := e.leaseValid && e.leasePart == part

end Sys2Proof.Machine
end

