-- ==== Sys2Proof/Machine/Pool.lean ====
section
/-! DEFINITION. The pool: where a tile lies in its stripe group (R131), parity (R132), degraded reads and
repair (R136, R142, R144), the home cache and the stripe journal (R133, R134), commits (R135, R139). -/

namespace Sys2Proof.Machine

/-! ## Layout (R131) -/

/-- A stripe group table entry. -/
def groupOf (s : State) (gi : Nat) : Option Group := tget s.pool.groups gi

/-- Change a listed group. -/
def modGroup (gi : Nat) (f : Group → Group) (s : State) : State :=
  { s with pool := { s.pool with groups := tmod s.pool.groups gi f } }

/-- Rows per module (R130). -/
def rowsOf (g : Group) : Nat := g.gib * 4194304

/-- Positions of a group. -/
def widthOf (g : Group) : Nat := g.k + g.m

/-- The data-space tile index (R131). -/
def dIndex (base tile : Nat) : Nat := base * 4194304 + tile

/-- The position of a column in a row (R131). -/
def posOf (g : Group) (row col : Nat) : Nat := (col + row) % widthOf g

/-- The column at a position of a row. -/
def colAt (g : Group) (row pos : Nat) : Nat := (pos + widthOf g - row % widthOf g) % widthOf g

/-- The module at a position. -/
def modAt (g : Group) (pos : Nat) : Node := g.modules.getD pos noNode

/-- The key of a unit of a module. -/
def ukey (n : Node) (unit : Nat) : Nat := n.toNat * 2 ^ 40 + unit

/-- The key of a row of a group. -/
def rowKey (gi row : Nat) : Nat := gi * 2 ^ 40 + row

/-- The key of a 4,096-row region (R137). -/
def regionKey (gi row : Nat) : Nat := gi * 2 ^ 40 + row / 4096

/-- The key of a data-space tile in the loss map (R144). -/
def lossKey (gi d : Nat) : Nat := gi * 2 ^ 50 + d

/-! ## Units -/

/-- What a module holds at a unit index. A unit never written by this device reads as the zero tile
(DESIGN CHOICE, log entry 5). -/
def storedUnit (s : State) (n : Node) (unit : Nat) : Tile := tgetD s.pool.units (ukey n unit) zeroTile

/-- Write a unit, keeping unlisted what reads as zero. -/
def setUnit (n : Node) (unit : Nat) (t : Tile) (s : State) : State :=
  let us := if t = zeroTile then tdel s.pool.units (ukey n unit) else tset s.pool.units (ukey n unit) t
  { s with pool := { s.pool with units := us } }

/-- Whether a position is missing in a row (R140, R141, R144): lost, and neither rebuilt nor re-formed there. -/
def isMissing (s : State) (gi : Nat) (g : Group) (row pos : Nat) : Bool :=
  if g.lost = 0 then false
  else
    let formed := match g.pass with
      | some p => g.passPos.contains pos && decide (row < p)
      | none => false
    let rebuilt := g.replaced.contains pos && pos == g.rebuildPos &&
      (decide (row < g.cursor) || thas s.pool.repaired (rowKey gi row))
    g.lost.getLsbD pos && !(formed || rebuilt)

/-- How many positions are missing in a row. -/
def missingCount (s : State) (gi : Nat) (g : Group) (row : Nat) : Nat :=
  ((List.range (widthOf g)).filter (isMissing s gi g row)).length

/-- The unit of a column whose module is present and whose sidecar passes (R136). -/
def goodCol (s : State) (gi : Nat) (g : Group) (row col : Nat) : Option Tile :=
  let pos := posOf g row col
  if isMissing s gi g row pos then none
  else
    let t := storedUnit s (modAt g pos) row
    if tileOk t then some t else none

/-- The XOR of the data columns, each times g^(e × column), of those given (R132). -/
def foldCols (e : Nat) (ds : List (Nat × Block)) : Block :=
  ds.foldl (fun acc p => acc ^^^ gfPow (e * p.1) p.2) 0

/-- The good data columns of a row other than those named. -/
def goodData (s : State) (gi : Nat) (g : Group) (row : Nat) (skip : List Nat) : List (Nat × Block) :=
  (List.range g.k).filterMap (fun c =>
    if skip.contains c then none else
    match goodCol s gi g row c with
    | some t => some (c, t.data)
    | none => none)

/-- Solve a missing data unit from the others of its row (R132, R136): P before Q, then both. -/
def solveData (s : State) (gi : Nat) (g : Group) (row col : Nat) : Option Block :=
  if g.k = 1 then
    ((List.range (widthOf g)).filterMap (fun c => if c = col then none else goodCol s gi g row c)).head?.map (·.data)
  else
    let ds := goodData s gi g row [col]
    let p := goodCol s gi g row g.k
    let q := if g.m = 2 then goodCol s gi g row (g.k + 1) else none
    if ds.length + 1 = g.k then
      match p, q with
      | some t, _ => some (t.data ^^^ foldCols 0 ds)
      | none, some t => some (gfUnpow col (t.data ^^^ foldCols 1 ds))
      | none, none => none
    else if ds.length + 2 = g.k then
      match p, q with
      | some tp, some tq =>
        let other := ((List.range g.k).filter (fun c => c ≠ col && !ds.any (fun d => d.1 == c))).headD 0
        let s1 := tp.data ^^^ foldCols 0 ds
        let s2 := tq.data ^^^ foldCols 1 ds
        let den := gfLog 254 (gfExp col ^^^ gfExp other)
        some (gfUnpow den (s2 ^^^ gfPow other s1))
      | _, _ => none
    else none

/-- Every data unit of a row, read or solved. -/
def wholeRow (s : State) (gi : Nat) (g : Group) (row : Nat) : Option (List (Nat × Block)) :=
  (List.range g.k).mapM (fun c =>
    match goodCol s gi g row c with
    | some t => some (c, t.data)
    | none => (solveData s gi g row c).map (fun d => (c, d)))

/-- A column of a row rebuilt from the others (R136). -/
def solveCol (s : State) (gi : Nat) (g : Group) (row col : Nat) : Option Block :=
  if col < g.k ∨ g.k = 1 then solveData s gi g row col
  else match wholeRow s gi g row with
    | some ds => some (foldCols (col - g.k) ds)
    | none => none

/-- A column of a row, read or rebuilt (R136): fewer than k good units give ST_LOST if a position of the
row is missing, ST_CHECKSUM otherwise. -/
def readCol (s : State) (gi : Nat) (g : Group) (row col : Nat) : Except St Tile :=
  match goodCol s gi g row col with
  | some t => .ok t
  | none =>
    match solveCol s gi g row col with
    | some d => .ok (mkTile d)
    | none => .error (if missingCount s gi g row = 0 then .checksum else .lost)

/-- The columns that a rebuild of one reads: k other good units of the row, data before parity and P before Q (R136). -/
def helperCols (s : State) (gi : Nat) (g : Group) (row col : Nat) : List Nat :=
  ((List.range (widthOf g)).filter (fun c => c ≠ col && (goodCol s gi g row c).isSome)).take g.k

/-- A unit whose sidecar does not match its bytes (R141). -/
def badTile : Tile := { data := 0, crc := ~~~ zeroTile.crc }

/-! ## Places -/

/-- A place in the pool: the slot and tile that name it, its key in the home cache, its group and data-space index (R131), and
the partition that it belongs to. -/
structure Spot where
  slot : Nat
  tile : Nat
  key : Nat
  group : Nat
  d : Nat
  owner : Nat
  deriving DecidableEq, Repr

/-- The place of a tile of an extent (R131). -/
def spotOf (slot tile : Nat) (e : Extent) : Spot :=
  { slot := slot, tile := tile, key := tkey slot tile, group := e.group, d := dIndex e.base tile, owner := e.owner }

/-- The keys of sinter tiles in the home cache lie above those of every slot. -/
def sinterLine : Nat := 2 ^ 60

/-- The place of a sinter tile, key partition × 2^40 + index: in the group of its partition's sinter area, which begins where
Config says (R119, R128; log entry 161). It is named by the tile whose content it keeps. -/
def sinterSpot (s : State) (slot tile key : Nat) : Spot :=
  let p := key / 2 ^ 40
  { slot := slot, tile := tile, key := sinterLine + key, owner := p,
    group := match templateOf s p with | some t => t.sinterGroup | none => 256, d := Config.sinterBase p + key % 2 ^ 40 }

/-- The partition that a line of the home cache belongs to. -/
def lineOwner (s : State) (key : Nat) : Nat := if sinterLine ≤ key then (key - sinterLine) / 2 ^ 40 else ownerOf s (keySlot key)

/-- The stripe row of a place. -/
def Spot.row (p : Spot) (g : Group) : Nat := p.d / g.k
/-- Its data column. -/
def Spot.col (p : Spot) (g : Group) : Nat := p.d % g.k

/-! ## Requests to modules (R354, R363) -/

/-- Send a request to a pool module under the next tag and remember it (R138). -/
def askPool (tx : Tx) (unit : Nat) (kind : ModKind) (s : State) : State :=
  let tag := s.pool.nextTag
  send { tx with tag := tag, ptag := moduleTag s kind } { s with pool := { s.pool with
    nextTag := tag + 1, reqs := s.pool.reqs ++ [{ tag := tag, node := tx.dst, unit := unit, kind := kind }] } }

/-- Ask a pool module to read or write a unit: OFFSET is the unit index × 256 (R363). -/
def askModule (op : Byte) (cls : Nat) (n : Node) (unit : Nat) (ts : List Tile) (kind : ModKind) (s : State) : State :=
  askPool { blankTx s with dst := n, op := op, cls := cls, offset := BitVec.ofNat 48 (unit * 256), length := 1, tiles := ts } unit kind s

/-- Claim every module of a group under an epoch (R145). What those of `known` answer is known already. -/
def claimModules (gi : Nat) (g : Group) (epoch : Nat) (takeover : Bool) (known : List Node) (s : State) : State :=
  (g.modules.take (widthOf g)).foldl (fun t n =>
    let tx : Tx := { blankTx t with dst := n, op := 0x40, cls := 5, version := BitVec.ofNat 32 epoch }
    if known.contains n then send tx t else askPool tx 0 (.claim gi takeover) t) s

/-- Read one unit of a row. -/
def askCol (own : Option (Nat × Nat)) (part cls gi : Nat) (g : Group) (row col : Nat) (s : State) : State :=
  askModule 0x01 cls (modAt g (posOf g row col)) row [] (.read own part gi row col) s

/-- The reads that rebuild a column (R136). -/
def askHelpers (part cls gi : Nat) (g : Group) (row col : Nat) (s : State) : State :=
  (helperCols s gi g row col).foldl (fun t c => askCol none part cls gi g row c t) s

/-- Mark the region of a row before a write to it is sent (R137). -/
def markRegion (gi row : Nat) (s : State) : State :=
  { s with pool := { s.pool with intent := tset s.pool.intent (regionKey gi row) () } }

/-- Write a unit to its module at once: the device rewrites a unit that it has rebuilt (R128). A fenced device sends no write
(R390). -/
def rewriteUnit (part cls gi : Nat) (n : Node) (row : Nat) (t : Tile) (s : State) : State :=
  if s.boot.fenced then s else askModule 0x02 cls n row [t] (.rewrite part) (setUnit n row t (markRegion gi row s))

/-! ## Rebuild, re-forming and read repair (R141, R142, R144) -/

/-- Rebuild the unit of a position from its row and write it (R136, R141): with fewer than k good units, one whose sidecar does
not match its bytes, and ROW_UNREBUILT. -/
def rebuildUnit (part cls gi : Nat) (g : Group) (row pos : Nat) (s : State) : State :=
  match solveCol s gi g row (colAt g row pos) with
  | some d => rewriteUnit part cls gi (modAt g pos) row (mkTile d) s
  | none => rewriteUnit part cls gi (modAt g pos) row badTile (post .rowUnrebuilt none [gi, row] s)

/-- Re-form one row on the traffic class of rebuilds (R144): a row missing more than m positions has its replaced data units
marked lost and written as zero tiles, and its parity recomputed; another row is rebuilt onto every replaced position. Parity
over a data unit that can be had neither way is written with a failing sidecar (DESIGN CHOICE, log entry 162). -/
def formRow (gi : Nat) (g : Group) (row : Nat) (s : State) : State :=
  let miss := (List.range (widthOf g)).filter (isMissing s gi g row)
  let new := miss.filter g.passPos.contains
  if g.m < miss.length then
    let s1 := ((List.range g.k).filter (fun c => (goodCol s gi g row c).isSome)).foldl (fun t c => askCol none 0 6 gi g row c t) s
    let s2 := (new.filter (fun pos => decide (colAt g row pos < g.k))).foldl (fun t pos =>
      rewriteUnit 0 6 gi (modAt g pos) row zeroTile { t with pool := { t.pool with
        loss := tset t.pool.loss (lossKey gi (row * g.k + colAt g row pos)) () } }) s1
    let ds := (List.range g.k).mapM (fun c =>
      if new.contains (posOf g row c) then some (c, (0 : Block)) else (goodCol s gi g row c).map (fun t => (c, t.data)))
    ((List.range g.m).filter (fun j => let pos := posOf g row (g.k + j); new.contains pos || !miss.contains pos)).foldl (fun t j =>
      rewriteUnit 0 6 gi (modAt g (posOf g row (g.k + j))) row (match ds with
        | some l => mkTile (if g.k = 1 then foldCols 0 l else foldCols j l)
        | none => badTile) t) s2
  else
    let s1 := match new with
      | [] => s
      | pos :: _ => askHelpers 0 6 gi g row (colAt g row pos) s
    let rebuilt := new.map (fun pos => (pos, solveCol s gi g row (colAt g row pos)))
    let s2 := if rebuilt.any (·.2.isNone) then post .rowUnrebuilt none [gi, row] s1 else s1
    rebuilt.foldl (fun t x => rewriteUnit 0 6 gi (modAt g x.1) row (match x.2 with | some d => mkTile d | none => badTile) t) s2

/-- Move a cursor past rows already done, with fuel. -/
def skipRows (done : Nat → Bool) (last : Nat) : Nat → Nat → Nat
  | 0, c => c
  | n + 1, c => if c < last ∧ done c then skipRows done last n (c + 1) else c

/-- Lost tiles of a group. -/
def lossCount (s : State) (gi : Nat) : Nat := (s.pool.loss.filter (fun p => p.1 / 2 ^ 50 == gi)).length

/-- The state of a group by its lost mask (R140): more than m lost FAILED, a lost position being rebuilt
REBUILDING. -/
def lostState (g : Group) (lost : BitVec 18) (rebuilding : Bool) : GState :=
  let n := ((List.range (widthOf g)).filter (fun i => lost.getLsbD i)).length
  if n = 0 then .optimal else if g.m < n then .failed else if rebuilding then .rebuilding else .degraded

/-- The repaired rows of a group are forgotten. -/
def dropRepaired (gi : Nat) (s : State) : State :=
  { s with pool := { s.pool with repaired := tdrop s.pool.repaired (fun k => k / 2 ^ 40 == gi) } }

/-- A re-forming pass that has passed the last row ends: its positions leave LOST_MASK and GROUP_REFORMED is
posted (R144); a position lost meanwhile is left as R140 and R141 say. -/
def endPass (gi : Nat) (s : State) : State :=
  match groupOf s gi with
  | none => s
  | some g =>
    match g.pass with
    | none => s
    | some p =>
      if p < rowsOf g then s
      else
        let lost' := g.passPos.foldl (fun l i => l &&& ~~~ (BitVec.ofNat 18 (1 <<< i))) g.lost
        let left := g.replaced.filter (fun i => !g.passPos.contains i)
        let s1 := modGroup gi (fun x => { x with
          pass := none, passPos := [], lost := lost', replaced := left, rebuildPos := left.headD 0, cursor := 0,
          state := lostState g lost' (!left.isEmpty), broken := false }) s
        post .groupReformed none [gi, lossCount s1 gi] (dropRepaired gi s1)

/-- A rebuild whose cursor has passed the last row ends: REBUILD_DONE (R141). -/
def endRebuild (gi : Nat) (s : State) : State :=
  match groupOf s gi with
  | none => s
  | some g =>
    if g.state ≠ .rebuilding then s else
    let c := skipRows (fun r => thas s.pool.repaired (rowKey gi r)) (rowsOf g) s.pool.repaired.length g.cursor
    if c < rowsOf g then modGroup gi (fun x => { x with cursor := c }) s
    else
      let lost' := g.lost &&& ~~~ (BitVec.ofNat 18 (1 <<< g.rebuildPos))
      let s1 := modGroup gi (fun x => { x with
        cursor := 0, lost := lost', replaced := x.replaced.filter (· ≠ g.rebuildPos),
        state := lostState g lost' false }) s
      post .rebuildDone none [gi, g.rebuildPos] (dropRepaired gi s1)

/-- The row of a rebuild position has been repaired (R142). -/
def markRepaired (gi row : Nat) (s : State) : State :=
  endRebuild gi { s with pool := { s.pool with repaired := tset s.pool.repaired (rowKey gi row) () } }

/-- What a foreground access first does to its row (R142): a read of the unit on the rebuild position, or any write, repairs
that unit; nothing on a fenced device (R390). `col` is the column that is read; none: a write. -/
def touchRow (part gi row : Nat) (col : Option Nat) (s : State) : State :=
  match groupOf s gi with
  | none => s
  | some g =>
    if s.boot.fenced || !(g.state == .rebuilding) || !isMissing s gi g row g.rebuildPos then s
    else if (match col with | some c => !(posOf g row c == g.rebuildPos) | none => false) then s
    else match solveCol s gi g row (colAt g row g.rebuildPos) with
      | some d => markRepaired gi row (rewriteUnit part 1 gi (modAt g g.rebuildPos) row (mkTile d)
          (askHelpers part 1 gi g row (colAt g row g.rebuildPos) s))
      | none => s

/-! ## Reading the home's copy -/

/-- The channel that holds a home-cache line, for the counters of R450 (placement: free). -/
def channelOf (key : Nat) : Nat := (Config.placement key).toNat % 512

/-- An occurrence of a CHANNEL event at a place. -/
def spotOcc (event : Nat) (p : Spot) (s : State) : State :=
  if s.obs.counters.isEmpty then s else
  occur { Occ.bare 3 (channelOf p.key) event 1 with part := some p.owner, slot := some p.slot } s

/-- Put a tile into the home cache. -/
def fillLine (key : Nat) (l : Line) (s : State) : State :=
  { s with pool := { s.pool with cache := tset s.pool.cache key l } }

/-- The newest journal record of a line (R133). -/
def journalOf (s : State) (key : Nat) : Option JRec := (s.pool.journal.filter (fun r => r.key == key)).getLast?

/-- No passing tile can be had: TILE_CHECKSUM names the slot and tile (R129). -/
def postChecksum (p : Spot) (s : State) : State := post .tileChecksum (some p.owner) [p.slot, p.tile] s

/-- Read a unit from the pool (R136): a lost mark gives ST_LOST (R144); a unit whose sidecar fails is rebuilt and rewritten
(R128). -/
def poolRead (p : Spot) (s : State) : Except St Tile × State :=
  match groupOf s p.group with
  | none => (.error .lost, s)
  | some g0 =>
    let s1 := spotOcc 0x63 p (touchRow p.owner p.group (p.row g0) (some (p.col g0)) s)
    match groupOf s1 p.group with
    | none => (.error .lost, s1)
    | some g =>
      let row := p.row g
      let col := p.col g
      let pos := posOf g row col
      if thas s1.pool.loss (lossKey p.group p.d) then (.error .lost, s1)
      else
        let gone := isMissing s1 p.group g row pos
        let s2 := if gone then s1 else askCol (some (p.slot, p.tile)) p.owner 1 p.group g row col s1
        match goodCol s1 p.group g row col with
        | some t => (.ok t, fillLine p.key { tile := t, dirty := false } s2)
        | none =>
          let s3 := askHelpers p.owner 1 p.group g row col (spotOcc 0x65 p s2)
          match readCol s1 p.group g row col with
          | .ok t =>
            let s4 := if gone then s3 else rewriteUnit p.owner 1 p.group (modAt g pos) row t s3
            (.ok t, fillLine p.key { tile := t, dirty := false } s4)
          | .error st => (.error st, if st = .checksum then postChecksum p s3 else s3)

/-- The content of a place (R128): its line in the home cache, the journal record of a dirty one, or the pool. A lost mark
governs over a clean line (R144; DEDUCED, log entry 156). -/
def storedAt (p : Spot) (s : State) : Except St Tile × State :=
  match tget s.pool.cache p.key with
  | some l =>
    if !l.dirty ∧ thas s.pool.loss (lossKey p.group p.d) then (.error .lost, s)
    else if tileOk l.tile then (.ok l.tile, spotOcc 0x62 p s)
    else match (if l.dirty then journalOf s p.key else none) with
      | some r => if tileOk r.tile then (.ok r.tile, fillLine p.key { l with tile := r.tile } s) else (.error .checksum, postChecksum p s)
      | none => poolRead p s
  | none => poolRead p s

/-- Whether a tile carries POISON (R71). -/
def poisoned (s : State) (slot tile : Nat) : Bool := thas s.dir.poison (tkey slot tile)

/-- Whether a tile is still produced as zero on first touch (R31). -/
def stillZero (e : Extent) (tile : Nat) : Bool := e.zeroPending && !thas e.touched tile

/-- The content of a tile in the backing (R31, R71): poison, zero, or what its place holds. -/
def storedTile (slot tile : Nat) (e : Extent) (s : State) : Except St Tile × State :=
  if poisoned s slot tile then (.error .poison, s)
  else if stillZero e tile then (.ok zeroTile, s)
  else storedAt (spotOf slot tile e) s

/-- A read of a tile at the home, counted (R450). -/
def backingRead (slot tile : Nat) (e : Extent) (s : State) : Except St Tile × State :=
  storedTile slot tile e (spotOcc 0x60 (spotOf slot tile e) s)

/-! ## Writing the home's copy (R81, R133 to R137) -/

/-- What became of a write at the home. -/
inductive WOut where
  | done (s : State)
  | wait (w : Wait) (s : State)
  | fail (st : St) (s : State)

/-- How a write is made: `full` names the transaction that covers every data unit of the row (R135), `after` a record that
must reach the pool first (R122), `cls` the traffic class of its module requests. -/
structure WHow where
  full : Option Nat := none
  after : Option Nat := none
  cls : Nat := 1
  deriving DecidableEq, Repr

/-- The size of a partition's journal (R430: 0 stands for 256 MiB). -/
def journalMib (s : State) (p : Nat) : Nat :=
  match templateOf s p with
  | some t => if t.journalMib = 0 then 256 else t.journalMib
  | none => 256

/-- Records of a partition in the journal. -/
def journalCount (s : State) (p : Nat) : Nat := (s.pool.journal.filter (fun r => r.part == p)).length

/-- The records that a partition's journal holds: 256 for each MiB always fit; how many more do is free (DESIGN CHOICE, log
entry 7). -/
def journalCap (s : State) (p : Nat) : Nat := max (256 * journalMib s p) (Config.journalRecords (journalMib s p))

/-- Whether a partition's journal is full. -/
def journalFull (s : State) (p : Nat) : Bool :=
  decide (256 * journalMib s p ≤ journalCount s p) && decide (journalCap s p ≤ journalCount s p)

/-- A partnered group whose oldest uncommitted record is more than 1 ms old takes no new write (R417). -/
def journalStale (s : State) (gi : Nat) (g : Group) : Bool :=
  g.partner.isSome && match (s.pool.journal.filter (fun r => r.group == gi)).head? with
    | some r => decide (r.time + 1000000 < s.timer.toNat)
    | none => false

/-- The first wait for a full journal posts JOURNAL_FULL (R134). -/
def waitJournal (p : Nat) (s : State) : State :=
  if thas s.pool.fullPosted p || !journalFull s p then s
  else post .journalFull (some p) [p] { s with pool := { s.pool with fullPosted := tset s.pool.fullPosted p () } }

/-- The tile of an extent has been produced (R31): ZERO_PENDING falls with the last one. -/
def touchTile (slot tile : Nat) (s : State) : State :=
  modExt slot (fun e =>
    if e.zeroPending then
      let l := tset e.touched tile ()
      { e with touched := l, zeroPending := decide (l.length < 4194304) }
    else e) s

/-- The newest record of a unit in the journal. -/
def newestRec (s : State) (gi row col : Nat) : Option JRec :=
  (s.pool.journal.filter (fun r => r.group == gi && r.row == row && r.col == col)).getLast?

/-- The old content of a data unit for a read-modify-write, in home order (R135): that of the newest record, of a clean line
of the home cache, or of its module, which is read. None: it cannot be had. -/
def oldUnit (p : Spot) (g : Group) (s : State) : Option Block × State :=
  let row := p.row g
  let col := p.col g
  let fetch : Option Block × State :=
    let s1 := if isMissing s p.group g row (posOf g row col) then s else askCol none p.owner 1 p.group g row col s
    match goodCol s p.group g row col with
    | some t => (some t.data, s1)
    | none => (solveCol s p.group g row col, askHelpers p.owner 1 p.group g row col s1)
  match newestRec s p.group row col with
  | some r => (some r.tile.data, s)
  | none => match tget s.pool.cache p.key with
    | some l => if tileOk l.tile && !thas s.pool.loss (lossKey p.group p.d) then (some l.tile.data, s) else fetch
    | none => fetch

/-- Journal a write: its tile is durable, and dirty in the home cache (R133). -/
def journalWrite (h : WHow) (p : Spot) (g : Group) (t : Tile) (s : State) : State :=
  let full := h.full.isSome || g.k == 1
  let old := if full then (none, s) else oldUnit p g s
  let id := s.pool.nextRec
  let r : JRec := { id := id, part := p.owner, key := p.key, group := p.group, row := p.row g, col := p.col g, tile := t,
                    time := s.timer.toNat, diff := old.1.map (· ^^^ t.data), full := full, txn := h.full.getD id, after := h.after,
                    cls := h.cls, started := false }
  spotOcc 0x66 p { old.2 with pool := { old.2.pool with
    nextRec := id + 1, journal := s.pool.journal ++ [r], cache := tset s.pool.cache p.key { tile := t, dirty := true } } }

/-- Write a whole unit at its place (R81): it waits for its region's resync (R137) or for journal space (R134, R417), or fails
where its row needs a unit it cannot have (R129, R139, R148). -/
def storeAt (h : WHow) (p : Spot) (t : Tile) (s : State) : WOut :=
  match groupOf s p.group with
  | none => .fail .lost s
  | some g0 =>
    if thas s.pool.resync (regionKey p.group (p.row g0)) then .wait (.region p.group (p.row g0 / 4096)) s
    else
      let s1 := touchRow p.owner p.group (p.row g0) none s
      match groupOf s1 p.group with
      | none => .fail .lost s1
      | some g =>
        let row := p.row g
        let gone := isMissing s1 p.group g row (posOf g row (p.col g))
        if gone && (decide (g.m < missingCount s1 p.group g row)) then .fail .lost s1
        else if gone && (newestRec s1 p.group row (p.col g)).isNone && (solveCol s1 p.group g row (p.col g)).isNone then
          .fail .checksum (postChecksum p s1)
        else if journalFull s1 p.owner || journalStale s1 p.group g then .wait (.journal p.owner) (waitJournal p.owner s1)
        else .done (journalWrite h p g t s1)

/-- Write a whole tile of an extent: its poison mark is cleared (R71), and it has been produced (R31). -/
def backingWrite (h : WHow) (slot tile : Nat) (e : Extent) (t : Tile) (s : State) : WOut :=
  match storeAt h (spotOf slot tile e) t s with
  | .done s1 => .done (spotOcc 0x61 (spotOf slot tile e) (touchTile slot tile
      { s1 with dir := { s1.dir with poison := tdel s1.dir.poison (tkey slot tile) } }))
  | w => w

/-! ## Commit (R133, R135, R139) -/

/-- The records that commit together with one: those of its transaction in its row, written in the full-row form (R135). -/
def matesOf (s : State) (r : JRec) : List JRec :=
  if r.full then s.pool.journal.filter (fun x => x.full && x.txn == r.txn && x.group == r.group && x.row == r.row) else [r]

/-- The unit that a record's commit gives parity column `k + j` (R132, R135, R139). None: nothing can be said of it, and it
keeps its failing sidecar. Where the old data could not be had, parity is recomputed from the row, or written with a failing
sidecar (DESIGN CHOICE, log entry 162). -/
def newParity (s : State) (g : Group) (r : JRec) (rs : List JRec) (j : Nat) : Option Tile :=
  if g.k = 1 then some r.tile
  else if r.full then some (mkTile (foldCols j (rs.map (fun x => (x.col, x.tile.data)))))
  else match r.diff with
    | some d => match readCol s r.group g r.row (g.k + j) with
      | .ok p => some (mkTile (p.data ^^^ gfPow (j * r.col) d))
      | .error _ => none
    | none =>
      let others := goodData s r.group g r.row [r.col]
      some (if others.length + 1 = g.k then mkTile (foldCols j ((r.col, r.tile.data) :: others)) else badTile)

/-- What a commit writes: each present data unit, and each present parity unit (R135, R139). -/
def newUnits (s : State) (g : Group) (r : JRec) (rs : List JRec) : List (Node × Tile) :=
  let at_ (c : Nat) (t : Option Tile) : List (Node × Tile) :=
    let pos := posOf g r.row c
    match t with
    | some x => if isMissing s r.group g r.row pos then [] else [(modAt g pos, x)]
    | none => []
  (rs.map (fun x => at_ x.col (some x.tile))).flatten ++
  ((List.range g.m).map (fun j => at_ (g.k + j) (newParity s g r rs j))).flatten

/-- The parity units that a read-modify-write reads, or the data units of a row that is recomputed (R135). -/
def parityReads (g : Group) (r : JRec) : List Nat :=
  if r.full then []
  else if r.diff.isSome then (List.range g.m).map (fun j => g.k + j)
  else (List.range g.k).filter (· ≠ r.col)

/-- Whether a record's commit can begin: writes to one row are applied in home order, one at a time (R135), and a copy reaches
the pool before the content that replaced it (R122). -/
def mayStart (s : State) (r : JRec) : Bool :=
  !r.started && (matesOf s r).all (fun x =>
    (match x.after with | some a => !s.pool.journal.any (fun y => y.id == a) | none => true) &&
    !s.pool.journal.any (fun y => y.group == r.group && y.row == r.row && decide (y.id < x.id) && !(y.full && r.full && y.txn == r.txn)))

/-- A lost mark goes with a whole tile that is written (R144). -/
def clearLoss (g : Group) (r : JRec) (s : State) : State :=
  if isMissing s r.group g r.row (posOf g r.row r.col) then s
  else { s with pool := { s.pool with loss := tdel s.pool.loss (lossKey r.group (r.row * g.k + r.col)) } }

/-- Begin the commit of a record and its mates: the region is marked, and the module requests of their form are sent (R135,
R137). -/
def startRec (r : JRec) (s : State) : State :=
  match groupOf s r.group with
  | none => s
  | some g =>
    let rs := matesOf s r
    let ids := rs.map (·.id)
    let s1 : State := markRegion r.group r.row { s with pool := { s.pool with
      journal := s.pool.journal.map (fun x => if ids.contains x.id then { x with started := true } else x) } }
    let s2 := ((parityReads g r).filter (fun c => !isMissing s r.group g r.row (posOf g r.row c))).foldl (fun t c =>
      askCol none r.part r.cls r.group g r.row c t) s1
    let s3 := (newUnits s g r rs).foldl (fun t x => askModule 0x02 r.cls x.1 r.row [x.2] (.commit ids) t) s2
    rs.foldl (fun t x => clearLoss g x t) s3

/-- Begin every commit that can; a fenced device sends no write (R390). -/
def startRecs (s : State) : State :=
  if s.boot.fenced then s
  else s.pool.journal.foldl (fun t r => match t.pool.journal.find? (fun x => x.id == r.id) with
    | some x => if mayStart t x then startRec x t else t
    | none => t) s

/-- The units of records become those of their modules, with what a write of a whole unit clears. -/
def applyRecs (r : JRec) (rs : List JRec) (s : State) : State :=
  match groupOf s r.group with
  | none => s
  | some g => rs.foldl (fun t x => clearLoss g x t) ((newUnits s g r rs).foldl (fun t x => setUnit x.1 r.row x.2 t) s)

/-- Past half use of a partition's journal JOURNAL_FULL is armed again (R134). -/
def rearmJournal (p : Nat) (s : State) : State :=
  if thas s.pool.fullPosted p && decide (2 * journalCount s p < journalCap s p)
  then { s with pool := { s.pool with fullPosted := tdel s.pool.fullPosted p } } else s

/-- Commit a record and its mates: they leave the journal, and a home-cache tile is clean once no record of it remains
(R133). -/
def commitRec (r : JRec) (s : State) : State :=
  let rs := matesOf s r
  let gone := rs.map (·.id)
  let s1 := applyRecs r rs s
  let j := s1.pool.journal.filter (fun x => !gone.contains x.id)
  rearmJournal r.part { s1 with pool := { s1.pool with
    journal := j, reqs := s1.pool.reqs.filter (fun q => match q.kind with | .commit l => !l.any gone.contains | _ => true),
    cache := rs.foldl (fun c x => tmod c x.key (fun l => { l with dirty := l.dirty && j.any (fun y => y.key == x.key) })) s1.pool.cache } }

/-- Commit those of some records that have begun and that no module request stands for any more. -/
def commitFree (ids : List Nat) (s : State) : State :=
  ids.foldl (fun t id => match t.pool.journal.find? (fun r => r.id == id) with
    | none => t
    | some r =>
      if !r.started || t.pool.reqs.any (fun q => match q.kind with | .commit l => l.contains id | _ => false) then t
      else commitRec r t) s

/-! ## Loss of a module (R138 to R140) -/

/-- A group after the loss of a module: its position enters LOST_MASK, and a replacement is lost with it. `broken` notes a
group that left REBUILDING so (R289). -/
def lostGroup (n : Node) (g : Group) : Group :=
  match g.modules.findIdx? (· == n) with
  | none => g
  | some i =>
    let lost' := g.lost ||| BitVec.ofNat 18 (1 <<< i)
    let left := g.replaced.filter (· ≠ i)
    let st := lostState g lost' (g.state == .rebuilding && left.contains g.rebuildPos)
    { g with lost := lost', replaced := left, passPos := g.passPos.filter (· ≠ i), state := st,
             cursor := if i = g.rebuildPos then 0 else g.cursor,
             broken := g.broken || (g.state == .rebuilding && !(st == .rebuilding)) }

/-- Whether a lost module was the position being rebuilt: its rows are no longer repaired. -/
def rebuildGone (n : Node) (g : Group) : Bool := g.modules.findIdx? (· == n) == some g.rebuildPos

/-- An outstanding read of a lost module becomes a degraded one (R138). -/
def reissue (q : ModReq) (s : State) : State :=
  match q.kind with
  | .read _ part gi row col => match groupOf s gi with
    | some g => askHelpers part 1 gi g row col s
    | none => s
  | _ => s

/-- A module is lost: its positions enter LOST_MASK, a replacement it was is lost with it, MODULE_LOST is
posted, and outstanding requests to it are reissued as degraded ones (R138, R139). -/
def loseModule (n : Node) (s : State) : State :=
  let hit := s.pool.groups.filter (fun p => (p.2.modules.take (widthOf p.2)).contains n)
  if hit.isEmpty then s else
  let s1 : State := { s with pool := { s.pool with groups := s.pool.groups.map (fun p => (p.1, lostGroup n p.2)) } }
  let s2 := (hit.filter (fun p => rebuildGone n p.2)).foldl (fun t p => dropRepaired p.1 t) s1
  let lost := s2.pool.reqs.filter (fun q => q.node == n)
  let s3 : State := { s2 with pool := { s2.pool with reqs := s2.pool.reqs.filter (fun q => q.node ≠ n) } }
  let s4 := lost.foldl (fun t q => reissue q t) (post .moduleLost none [n.toNat] s3)
  commitFree ((lost.map (fun q => match q.kind with | .commit l => l | _ => [])).flatten) s4

end Sys2Proof.Machine
end

