-- ==== Sys2Proof/Machine/Versions.lean ====
section
/-! DEFINITION. Versioned extents: liveness of layers (R105), reads by version (R117), copy-on-write (R116),
space (R119 to R121), discards (R113) and reclamation (R118). -/

namespace Sys2Proof.Machine

/-! ## Layers -/

/-- READ_VERSION of a descriptor (R158). -/
def dReadV (d : BitVec 512) : Nat := fld d 127 96
/-- WRITE_VERSION of a descriptor (R158). -/
def dWriteV (d : BitVec 512) : Nat := fld d 95 64

/-- Every command in the queues. -/
def allCmds (s : State) : List Cmd := (s.queues.queues.map (fun p => p.2.cmds)).flatten

/-- Whether a dispatched item reads a slot at a version (R105, R109). -/
def itemReads (s : State) (slot v : Nat) : Bool :=
  (allCmds s).any (fun c => !c.runs.isEmpty && dReadV c.desc == v && (c.anySlot || c.reads.contains slot))

/-- Whether a dispatched item writes a slot at a version (R108, R113): one that its command names, or for a kernel any
slot whose lease its partition holds. -/
def itemWrites (s : State) (slot v : Nat) : Bool :=
  s.queues.queues.any (fun q => q.2.cmds.any (fun c => !c.runs.isEmpty && dWriteV c.desc == v && (c.writes.contains slot ||
    (c.anySlot && match extOf s slot with | some e => leaseHolder e q.2.part | none => false))))

/-- Whether an admitted read at a version of a slot has not completed (R105, R110): not one that an earlier FENCE holds, nor one
that waits for the extent's own state. -/
def readWaits (s : State) (slot v : Nat) : Bool :=
  let is_ (tx : Tx) : Bool := tx.op == 0x01 && oSlot tx.offset == slot && tx.version.toNat == v
  s.home.parked.any (fun p => is_ p.tx && match p.why with | .fence _ => false | .pull _ t => decide (t < 4194304) | _ => true) ||
  s.home.busy.any (fun b => match b.why with | .request _ _ tx => is_ tx | _ => false)

/-- Whether the layer of record `i` is live (R105). -/
def layerLive (s : State) (slot : Nat) (e : Extent) (i : Nat) (l : Layer) : Bool :=
  match l.state with
  | .free => false
  | .opened => true
  | .discarding => true
  | .sealed => l.version == e.latest || e.holders.any (fun h => h.pins.getLsbD i) ||
    itemReads s slot l.version || readWaits s slot l.version

/-- A layer record that is FREE. -/
def freeLayer : Layer := { version := 0, sealEvent := 0, tilesWritten := 0, state := .free, writer := 0 }

/-- Live layers (R105). -/
def liveCount (e : Extent) : Nat := (e.layers.filter (fun l => l.state ≠ .free)).length

/-- Sealed layers that are no longer live die: their records are freed at once (R105). -/
def dropDead (slot : Nat) (s : State) : State :=
  modExt slot (fun e => { e with layers := (numberFrom 0 e.layers).map (fun p =>
    if layerLive s slot e p.1 p.2 then p.2 else freeLayer) }) s

/-- Put a layer into the lowest free record of eight. -/
def addLayer (l : Layer) (ls : List Layer) : List Layer :=
  match ls.findIdx? (fun x => x.state == .free) with
  | some i => lset ls i l
  | none => if ls.length < 8 then ls ++ [l] else ls

/-! ## Index and sinter space (R119, R120) -/

/-- Sinter tiles in use by a partition. -/
def sinterUsed (s : State) (p : Nat) : Nat := (s.vers.sinter.filter (fun x => x.1 / 2 ^ 40 == p)).length

/-- Sinter tiles of a partition's area (R119). -/
def sinterSize (s : State) (p : Nat) : Nat :=
  match templateOf s p with
  | some t => t.sinterGib * 4194304
  | none => 0

/-- Index records in use by a partition: heads and copies. -/
def indexUsed (s : State) (p : Nat) : Nat :=
  (s.vers.heads.filter (fun x => ownerOf s (keySlot x.1) == p)).foldl (fun n x => n + 1 + x.2.copies.length) 0

/-- Index records of a partition's area: 32 bytes each (R119). -/
def indexSize (s : State) (p : Nat) : Nat :=
  match templateOf s p with
  | some t => t.vindexMib * 32768
  | none => 0

/-- The lowest sinter index not used, walking the sorted keys of the partition. -/
def freeSinter : List Nat → Nat → Nat
  | [], n => n
  | k :: t, n => if k = n then freeSinter t (n + 1) else n

/-- The key of the lowest free sinter tile of a partition. -/
def nextSinter (s : State) (p : Nat) : Nat :=
  p * 2 ^ 40 + freeSinter ((s.vers.sinter.filter (fun x => x.1 / 2 ^ 40 == p)).map (fun x => x.1 % 2 ^ 40)) 0

/-- Take a sinter tile into use. -/
def takeSinter (key : Nat) (s : State) : State := { s with vers := { s.vers with sinter := tset s.vers.sinter key () } }

/-- Copies that no live sealed layer needs, walking a chain above `lo` (R118). -/
def deadCopies (e : Extent) : Nat → List Copy → List Copy
  | _, [] => []
  | lo, c :: t =>
    let needed := e.layers.any (fun l => l.state == .sealed && decide (lo < l.version) && decide (l.version ≤ c.til))
    if needed then deadCopies e c.til t else c :: deadCopies e c.til t

/-- Whether a head can be freed (R118). -/
def headDead (e : Extent) (h : Head) (copies : List Copy) : Bool :=
  copies.isEmpty && (e.openV == 0 || h.backVersion ≠ e.openV)

/-- Whether a partition has reclaimable records that no sweep has freed (R120). -/
def reclaimable (s : State) (p : Nat) : Bool :=
  s.vers.heads.any (fun x =>
    match extOf s (keySlot x.1) with
    | some e => e.owner == p && !(deadCopies e 0 x.2.copies).isEmpty
    | none => false)

/-- Sinter keys of copies. -/
def sinterKeys (cs : List Copy) : List Nat :=
  cs.filterMap (fun c => match c.content with | .sinter k => some k | _ => none)

/-- Free sinter tiles by key. -/
def freeSinterKeys (ks : List Nat) (v : VersSt) : VersSt := { v with sinter := tdrop v.sinter (ks.contains ·) }

/-- The warning threshold in percent (R121: 90 by default). -/
def warnPct (s : State) : Nat :=
  match s.boot.charter with
  | some c => if c.device.sinterWarnPct = 0 then 90 else c.device.sinterWarnPct
  | none => 90

/-- VERSION_SPACE_LOW when use passes above the threshold; both warnings are armed again once use that was above it has fallen
back (R121). -/
def checkSpace (p : Nat) (s : State) : State :=
  if warnPct s * sinterSize s p < 100 * sinterUsed s p then
    if thas s.vers.lowPosted p then s
    else post .versionSpaceLow (some p) [p] { s with vers := { s.vers with lowPosted := tset s.vers.lowPosted p () } }
  else if thas s.vers.lowPosted p then
    { s with vers := { s.vers with lowPosted := tdel s.vers.lowPosted p, fullPosted := tdel s.vers.fullPosted p } }
  else s

/-- The first ST_VERSION_SPACE posts VERSION_SPACE_FULL (R121). -/
def spaceFull (p : Nat) (s : State) : State :=
  if thas s.vers.fullPosted p then s
  else post .versionSpaceFull (some p) [p] { s with vers := { s.vers with fullPosted := tset s.vers.fullPosted p () } }

/-- Free what no live layer needs in one extent (R118). -/
def sweepSlot (slot : Nat) (s : State) : State :=
  match extOf s slot with
  | none => s
  | some e =>
    let dead := ((s.vers.heads.filter (fun x => keySlot x.1 == slot)).map (fun x => sinterKeys (deadCopies e 0 x.2.copies))).flatten
    let heads := s.vers.heads.filterMap (fun x =>
      if keySlot x.1 ≠ slot then some x else
      let gone := deadCopies e 0 x.2.copies
      let left := x.2.copies.filter (fun c => !gone.contains c)
      if headDead e x.2 left then none else some (x.1, { x.2 with copies := left }))
    checkSpace e.owner { s with vers := freeSinterKeys dead { s.vers with heads := heads } }

/-- Drop every head, copy and sinter tile of a slot (R113, last paragraph). -/
def dropVersions (slot : Nat) (s : State) : State :=
  let dead := ((s.vers.heads.filter (fun x => keySlot x.1 == slot)).map (fun x => sinterKeys x.2.copies)).flatten
  checkSpace (ownerOf s slot)
    { s with vers := freeSinterKeys dead { s.vers with heads := tdrop s.vers.heads (fun k => keySlot k == slot) } }

/-! ## Reads by version (R117) -/

/-- The content of a copy record: a sinter tile is read as the pool tile it is, and rebuilt from its stripe (R128). -/
def copyRead (slot tile : Nat) (c : Copy) (s : State) : Except St Tile × State :=
  match c.content with
  | .zero => (.ok zeroTile, s)
  | .poison => (.error .poison, s)
  | .sinter k => storedAt (sinterSpot s slot tile k) s

/-- A read of a tile at a version (R117). -/
def versRead (slot tile : Nat) (e : Extent) (v : Nat) (s : State) : Except St Tile × State :=
  match tget s.vers.heads (tkey slot tile) with
  | none => backingRead slot tile e s
  | some h =>
    match h.copies.find? (fun c => decide (v ≤ c.til)) with
    | some c => copyRead slot tile c s
    | none => backingRead slot tile e s

/-- A read at the home: by version in a VERSIONED extent, else of the backing. -/
def homeRead (slot tile v : Nat) (e : Extent) (s : State) : Except St Tile × State :=
  if e.mode = .versioned then versRead slot tile e v s else backingRead slot tile e s

/-! ## Copy-on-write (R116, R120) -/

/-- Record that a tile of the open layer has been first written: its head, with the copy. -/
def putCopy (slot tile : Nat) (e : Extent) (content : CopyContent) (s : State) : State :=
  let k := tkey slot tile
  let h := tgetD s.vers.heads k { backVersion := 0, copies := [] }
  let h' : Head := { backVersion := e.openV, copies := h.copies ++ [{ til := e.latest, content := content }] }
  modExt slot (fun x => { x with layers := x.layers.map (fun l =>
    if l.version = x.openV ∧ l.state = .opened then { l with tilesWritten := l.tilesWritten + 1 } else l) })
    { s with vers := { s.vers with heads := tset s.vers.heads k h' } }

/-- A sinter tile whose content cannot be had reads as a lost tile (DESIGN CHOICE, log entry 8). -/
def loseSinter (slot tile key : Nat) (s : State) : State :=
  let p := sinterSpot s slot tile key
  { s with pool := { s.pool with loss := tset s.pool.loss (lossKey p.group p.d) () } }

/-- The copy-on-write step before a write at OPEN_VERSION (R116): the copy goes to its sinter tile as any write to the pool
(R119, R122). `whole` says that the write covers the tile; over a tile that cannot be read it then keeps a copy that reads as
lost (DESIGN CHOICE, log entry 8). -/
def cow (slot tile : Nat) (e : Extent) (whole : Bool) (s : State) : WOut :=
  let h := tget s.vers.heads (tkey slot tile)
  let first := match h with
    | none => true
    | some x => decide (x.backVersion < e.openV)
  if !first then .done s
  else
    let recs := if h.isNone then 2 else 1
    let space (needTile : Bool) (s1 : State) (k : State → State) : WOut :=
      if (needTile && decide (sinterSize s1 e.owner ≤ sinterUsed s1 e.owner)) ||
         decide (indexSize s1 e.owner < indexUsed s1 e.owner + recs) then
        if reclaimable s1 e.owner then .wait (.sinter e.owner) s1 else .fail .versionSpace (spaceFull e.owner s1)
      else .done (k s1)
    if poisoned s slot tile then space false s (putCopy slot tile e .poison)
    else if stillZero e tile then space false s (putCopy slot tile e .zero)
    else
      let (r, s1) := backingRead slot tile e s
      let key := nextSinter s1 e.owner
      let put (x : State) : State := checkSpace e.owner (putCopy slot tile e (.sinter key) (takeSinter key x))
      match r with
      | .ok t => match space true s1 id with
        | .done s2 => match storeAt {} (sinterSpot s2 slot tile key) t s2 with
          | .done s3 => .done (put s3)
          | w => w
        | w => w
      | .error st => if whole then space true s1 (fun x => put (loseSinter slot tile key x)) else .fail st s1

/-- Take back what a write that fails or must wait has done: its records, its lines, its marks. What it has posted, the units
that were repaired on its way and the reads that were sent for it stay. -/
def undoWrite (s0 s1 : State) : State :=
  { s1 with ext := s0.ext, dir := s0.dir, ledger := s0.ledger,
            vers := { s0.vers with fullPosted := s1.vers.fullPosted, lowPosted := s1.vers.lowPosted },
            pool := { s1.pool with journal := s0.pool.journal, cache := s0.pool.cache, nextRec := s0.pool.nextRec } }

/-- A write of one tile of a transaction as it turns out, taken back where it is not done. -/
def wholeOr (s0 : State) : WOut → WOut
  | .done s1 => .done s1
  | .wait w s1 => .wait w (undoWrite s0 s1)
  | .fail st s1 => .fail st (undoWrite s0 s1)

/-- The record that a copy has made. -/
def copyRec (s s1 : State) : Option Nat := if s1.pool.nextRec = s.pool.nextRec then none else some s.pool.nextRec

/-- A whole-tile write at the home in the mode of the extent (R81, R116): in a VERSIONED extent the copy, its records and the
write commit together, the copy first (R122), and a write that does not commit leaves none of them. `full`: the transaction
that covers the row (R135). -/
def homeWrite (slot tile : Nat) (e : Extent) (whole : Bool) (full : Option Nat) (t : Tile) (s : State) : WOut :=
  if e.mode = .versioned then
    wholeOr s (match cow slot tile e whole s with
      | .done s1 => backingWrite { full := full, after := copyRec s s1 } slot tile e t s1
      | w => w)
  else wholeOr s (backingWrite { full := full } slot tile e t s)

/-! ## Discards (R113) -/

/-- Start the discard of the open layer. -/
def startDiscard (slot : Nat) (s : State) : State :=
  modExt slot (fun e => { e with layers := e.layers.map (fun l =>
    if l.version = e.openV ∧ l.state = .opened then { l with state := .discarding } else l) }) s

/-- No content of the discarded layer is readable: its line and its records go, and a tile that its row or its copy has lost is
marked so (R113; the mark: DESIGN CHOICE, log entry 8). -/
def dropContent (slot tile : Nat) (e : Extent) (lost : Bool) (s : State) : State :=
  { s with pool := { s.pool with
    cache := tdel s.pool.cache (tkey slot tile), journal := s.pool.journal.filter (fun r => r.key ≠ tkey slot tile),
    loss := if lost then tset s.pool.loss (lossKey e.group (dIndex e.base tile)) () else s.pool.loss } }

/-- Restore the content that a tile had before the layer, with its zero or poison mark, on TC6. Answers whether the
restore could be made; a write that waits for space cannot be yet. One that fails leaves the tile to the status that the pool
gives. -/
def restoreContent (slot tile : Nat) (e : Extent) (c : CopyContent) (s : State) : Option State :=
  match c with
  | .zero => some (modExt slot (fun x => { x with touched := tdel x.touched tile, zeroPending := true })
      { s with pool := { s.pool with cache := tdel s.pool.cache (tkey slot tile) },
               dir := { s.dir with poison := tdel s.dir.poison (tkey slot tile) } })
  | .poison => some { s with dir := { s.dir with poison := tset s.dir.poison (tkey slot tile) () } }
  | .sinter k =>
    match storedAt (sinterSpot s slot tile k) s with
    | (.error _, s1) => some (dropContent slot tile e true s1)
    | (.ok t, s1) => match backingWrite { cls := 6 } slot tile e t s1 with
      | .done s2 => some s2
      | .fail st s2 => some (dropContent slot tile e (st == .lost) s2)
      | .wait _ _ => none

/-- Restore one tile of the discarded layer from its last copy record and free that record. -/
def restoreTile (slot : Nat) (key : Nat) (s : State) : Option State :=
  match extOf s slot, tget s.vers.heads key with
  | some e, some h =>
    match h.copies.getLast? with
    | none => some s
    | some c =>
      match restoreContent slot (keyTile key) e c.content s with
      | none => none
      | some s1 =>
        let left := h.copies.dropLast
        let h' : Head := { backVersion := e.latest, copies := left }
        let heads := if headDead e h' left then tdel s1.vers.heads key else tset s1.vers.heads key h'
        some (checkSpace e.owner { s1 with vers := freeSinterKeys (sinterKeys [c]) { s1.vers with heads := heads } })
  | _, _ => some s

/-- Restore tiles in order, stopping at one that must wait. -/
def restoreAll (slot : Nat) : List Nat → State → Bool × State
  | [], s => (true, s)
  | k :: t, s =>
    match restoreTile slot k s with
    | none => (false, s)
    | some s1 => restoreAll slot t s1

end Sys2Proof.Machine
end

