-- ==== Sys2Proof/Machine/Directory.lean ====
section
/-! DEFINITION. The coherence directory: entries and sharers (R64, R65), the dirty-holder log (R67), the
ownership bitmap (R416), recalls and what their answers do (R68 to R70, R72). -/

namespace Sys2Proof.Machine

/-! ## Entries -/

/-- The entry of a tile; none is state I. -/
def dirOf (s : State) (slot tile : Nat) : Option DirEntry := tget s.dir.entries (tkey slot tile)

/-- The BUSY record of a tile. -/
def busyOf (s : State) (slot tile : Nat) : Option Busy :=
  s.home.busy.find? (fun b => b.slot == slot && b.tile == tile)

/-- Whether a tile is BUSY. -/
def isBusy (s : State) (slot tile : Nat) : Bool := (busyOf s slot tile).isSome

/-- Tiles that a request names, from its OFFSET (R30). -/
def tilesOf (tx : Tx) : List Nat := (List.range (max 1 tx.length)).map (fun i => oTile tx.offset + i)

/-- The ops that meet tiles at the home. -/
def opAtTiles (o : Byte) : Bool := [0x01, 0x02, 0x03, 0x04, 0x10, 0x11, 0x12, 0x13, 0x14, 0x15, 0x48].contains o.toNat

/-- Whether a request that waits keeps its place at its tiles: one that an earlier FENCE or a PUBLISH holds, or a retry
that its original will answer, does not (R20, R69, R80, R120). -/
def keepsPlace : Wait → Bool
  | .tile _ _ => true
  | .ledger _ => true
  | .journal _ => true
  | .sinter _ => true
  | .publish _ => false
  | .fence _ => false
  | .dirSet _ => true
  | .pending _ _ _ => false
  | .region _ _ => true
  | .pull _ _ => true
  | .stores _ _ => false
  | .ledgerOf _ _ => false
  | .sealing _ => false

/-- Whether a waiting request has its place at a tile. -/
def waitsAt (slot tile : Nat) (p : Parked) : Bool :=
  keepsPlace p.why && opAtTiles p.tx.op && oSlot p.tx.offset == slot && (tilesOf p.tx).contains tile

/-- Whether requests wait on a tile (R69). -/
def hasWaiters (s : State) (slot tile : Nat) : Bool := s.home.parked.any (waitsAt slot tile)

/-- Whether requests from before `rid` wait on a tile: the home serves the requests for a tile in the order in which they
came (R20, R69, R80, R120). -/
def waitersBefore (s : State) (rid slot tile : Nat) : Bool :=
  s.home.parked.any (fun p => decide (p.id < rid) && waitsAt slot tile p)

/-- The registered caching agents of an extent (R60). -/
def agentsOf (e : Extent) : List Nat := e.holders.filterMap (fun h => if h.caching then h.agent else none)

/-- The agents that a sharer field names: exact, or every registered agent of each marked group (R65). -/
def sharersOf (e : Extent) : Sharers → List Nat
  | .ptrs l => l
  | .groups g => (agentsOf e).filter (fun a => g.getLsbD (a / 8))

/-- Whether an agent is among the sharers. -/
def isSharer (a : Nat) : Sharers → Bool
  | .ptrs l => l.contains a
  | .groups g => g.getLsbD (a / 8)

/-- The groups of a list of agents (R60). -/
def groupsOf (l : List Nat) : BitVec 64 := l.foldl (fun g a => g ||| BitVec.ofNat 64 (1 <<< (a / 8))) 0

/-- A sharer joins: four exact pointers, groups from the fifth on (R65). -/
def addSharer (a : Nat) : Sharers → Sharers
  | .ptrs l => if l.contains a then .ptrs l else if l.length < 4 then .ptrs (l ++ [a]) else .groups (groupsOf (l ++ [a]))
  | .groups g => .groups (g ||| groupsOf [a])

/-- A sharer leaves; groups are not cleared (R65). -/
def dropSharer (a : Nat) : Sharers → Sharers
  | .ptrs l => .ptrs (l.filter (· ≠ a))
  | .groups g => .groups g

/-- No sharer. -/
def noSharers : Sharers → Bool
  | .ptrs l => l.isEmpty
  | .groups _ => false

/-- Write an entry, as the latest granted (R66). -/
def putDir (slot tile : Nat) (st : DState) (owner : Nat) (sh : Sharers) (s : State) : State :=
  { s with dir := { s.dir with
    nextSeq := s.dir.nextSeq + 1,
    entries := tset s.dir.entries (tkey slot tile) { state := st, owner := owner, sharers := sh, seq := s.dir.nextSeq } } }

/-- Change an entry without granting. -/
def setDir (slot tile : Nat) (d : DirEntry) (s : State) : State :=
  { s with dir := { s.dir with entries := tset s.dir.entries (tkey slot tile) d } }

/-- Take a tile to I. -/
def delDir (slot tile : Nat) (s : State) : State :=
  { s with dir := { s.dir with entries := tdel s.dir.entries (tkey slot tile) } }

/-- Remove a tile's log record (R67). -/
def delLog (slot tile : Nat) (s : State) : State :=
  { s with dir := { s.dir with log := tdel s.dir.log (tkey slot tile) } }

/-- Poison a tile (R70, R71). -/
def setPoison (slot tile : Nat) (s : State) : State :=
  { s with dir := { s.dir with poison := tset s.dir.poison (tkey slot tile) () } }

/-- The ownership region of a tile (R416). -/
def ownKey (slot tile : Nat) : Nat := slot * 2 ^ 16 + tile / 64

/-- Record an owner in M or O: the log record (R67), and for a partnered group the ownership bit (R416). -/
def addLog (slot tile : Nat) (e : Extent) (n : Node) (s : State) : State :=
  let own := match groupOf s e.group with
    | some g => if g.partner.isSome then tset s.dir.own (ownKey slot tile) () else s.dir.own
    | none => s.dir.own
  { s with dir := { s.dir with log := tset s.dir.log (tkey slot tile) n, own := own } }

/-- Whether an entry names an owner (E, M or O). -/
def hasOwner (d : DirEntry) : Bool := d.state == .e || d.state == .m || d.state == .o

/-- Whether an agent owns a tile. -/
def ownsIt (d : DirEntry) (a : Nat) : Bool := hasOwner d && d.owner == a

/-- Every agent that an entry names, the owner first. -/
def holdersIn (e : Extent) (d : DirEntry) : List Nat :=
  if hasOwner d then d.owner :: (if d.state = .o then (sharersOf e d.sharers).filter (· ≠ d.owner) else [])
  else sharersOf e d.sharers

/-- Remove an agent from an entry: an owner leaves its sharers in S, none left is I (R70). -/
def removeAgent (slot tile a : Nat) (s : State) : State :=
  match dirOf s slot tile with
  | none => s
  | some d =>
    if ownsIt d a then
      if d.state = .o ∧ ¬ noSharers d.sharers then
        delLog slot tile (setDir slot tile { d with state := .s, owner := 0 } s)
      else delLog slot tile (delDir slot tile s)
    else
      let sh := dropSharer a d.sharers
      if d.state = .s ∧ noSharers sh then delDir slot tile s else setDir slot tile { d with sharers := sh } s

/-! ## Answers to recalls (R68, R69, R70) -/

/-- What an answered recall does to the entry: RECALL_INV removes the agent; RECALL_SHARE takes E to S and M
to O, and an owner that no longer holds dirty data is removed (R61, R62). -/
def answerEntry (slot tile a : Nat) (inv withData : Bool) (s : State) : State :=
  if inv then removeAgent slot tile a s
  else match dirOf s slot tile with
    | none => s
    | some d =>
      if ownsIt d a then
        match d.state with
        | .e => setDir slot tile { d with state := .s, owner := 0, sharers := .ptrs [a] } s
        | .m => if withData then setDir slot tile { d with state := .o, sharers := .ptrs [] } s else removeAgent slot tile a s
        | _ => if withData then s else removeAgent slot tile a s
      else s

/-- A recall not answered in time: an S or E holder is removed, an M or O holder's tile is poisoned (R70). -/
def timeoutEntry (slot tile a : Nat) (s : State) : State :=
  match dirOf s slot tile with
  | none => s
  | some d =>
    if ownsIt d a && d.state ≠ .e then
      removeAgent slot tile a (setPoison slot tile s)
    else removeAgent slot tile a s

/-- A poisoned line of a forced holder is counted for its REVOKE_DONE (R45). -/
def countPoison (slot tile : Nat) (r : Recall) (s : State) : State :=
  match dirOf s slot tile with
  | none => s
  | some d =>
    if ownsIt d r.agent && d.state ≠ .e then
      { s with ext := { s.ext with forces := s.ext.forces.map (fun f =>
          if f.slot = slot ∧ f.holders.contains r.node then { f with poisoned := f.poisoned ++ [(r.node, 1)] } else f) } }
    else s

/-- Change the BUSY record of a tile. -/
def modBusy (slot tile : Nat) (f : Busy → Busy) (s : State) : State :=
  { s with home := { s.home with busy := s.home.busy.map (fun b => if b.slot == slot && b.tile == tile then f b else b) } }

/-- Remove the BUSY record of a tile. -/
def delBusy (slot tile : Nat) (s : State) : State :=
  { s with home := { s.home with busy := s.home.busy.filter (fun b => !(b.slot == slot && b.tile == tile)) } }

/-- The data of a recall answer: that of an agent the entry records as owner. An owner whose WB_DIRTY was
applied since is no owner, and the home uses the written-back data (R69; DEDUCED, log entry 152). -/
def answerData (slot tile a : Nat) (data : Option Tile) (s : State) : Option Tile :=
  match dirOf s slot tile with
  | some d => if ownsIt d a then data else none
  | none => none

/-- One recall of a BUSY tile is answered. -/
def recallAnswered (slot tile : Nat) (r : Recall) (data : Option Tile) (s : State) : State :=
  modBusy slot tile (fun b => { b with
      recalls := b.recalls.filter (fun x => x.tag ≠ r.tag),
      data := match answerData slot tile r.agent data s with | some t => some t | none => b.data })
    (answerEntry slot tile r.agent r.inv data.isSome s)

/-- One recall of a BUSY tile has timed out (R45, R70). -/
def recallExpired (slot tile : Nat) (r : Recall) (s : State) : State :=
  modBusy slot tile (fun b => { b with recalls := b.recalls.filter (fun x => x.tag ≠ r.tag) })
    (timeoutEntry slot tile r.agent (countPoison slot tile r s))

/-! ## Agents that an expulsion has left behind (R60, R72) -/

/-- A touched entry loses the agents of expelled hosts (R72). -/
def purgeDead (slot tile : Nat) (s : State) : State :=
  match extOf s slot with
  | none => s
  | some e => e.dead.foldl (fun t a => removeAgent slot tile a t) s

/-- Whether an entry of a slot may still name an agent. -/
def stillNamed (s : State) (slot a : Nat) : Bool :=
  s.dir.entries.any (fun x => keySlot x.1 == slot && (isSharer a x.2.sharers || ownsIt x.2 a))

/-- The index of an expelled host is free once no entry names it (R72). -/
def freeDead (s : State) : State :=
  (s.ext.entries.filter (fun x => !x.2.dead.isEmpty)).foldl (fun t x =>
    modExt x.1 (fun e => { e with dead := e.dead.filter (stillNamed s x.1) }) t) s

/-- The partition that a holder is named with (R36), which tags what the home sends it (R16, R354). -/
def holderPart (e : Extent) (n : Node) : Nat := ((e.holders.find? (fun h => h.node == n)).map (·.part)).getD e.owner

/-- Send one recall (R62, R354): to an expelled host it counts as answered with RECALL_ACK at once (R72). -/
def sendRecall (slot tile : Nat) (e : Extent) (a : Nat) (inv : Bool) (s : State) : State :=
  match nodeOfAgent e a with
  | none => answerEntry slot tile a inv false s
  | some n =>
    if s.boot.expelled.contains n then answerEntry slot tile a inv false s
    else
      let tag := s.home.nextTag
      let s1 : State := { s with home := { s.home with nextTag := tag + 1 } }
      let s2 := modBusy slot tile (fun b => { b with recalls := b.recalls ++ [{ node := n, agent := a, tag := tag, inv := inv }] }) s1
      spotOcc 0x64 (spotOf slot tile e) (send { blankTx s with
        dst := n, op := if inv then 0x1C else 0x1B, tag := tag, offset := mkOffset slot tile 0, length := 1,
        ptag := holderPart e n } s2)

/-- Make a tile BUSY and send its recalls (R68). -/
def startRecalls (slot tile : Nat) (e : Extent) (why : Purpose) (rs : List (Nat × Bool)) (s : State) : State :=
  rs.foldl (fun t p => sendRecall slot tile e p.1 p.2 t)
    { s with home := { s.home with busy := s.home.busy ++
      [{ slot := slot, tile := tile, why := why, recalls := [], data := none }] } }

/-! ## Which recalls a request needs (R68) -/

/-- Recalls that a read of the home needs: RECALL_SHARE to an M or O owner (R68). -/
def readRecalls (d : Option DirEntry) : List (Nat × Bool) :=
  match d with
  | some x => if x.state = .m ∨ x.state = .o then [(x.owner, false)] else []
  | none => []

/-- Recalls that a write at the home needs: RECALL_INV to every holder (R68). -/
def writeRecalls (e : Extent) (d : Option DirEntry) : List (Nat × Bool) :=
  match d with
  | some x => (holdersIn e x).map (fun a => (a, true))
  | none => []

/-- Recalls that RD_SHARED from agent `a` needs (R68): its own tile in M or O is granted M. -/
def sharedRecalls (e : Extent) (d : Option DirEntry) (a : Nat) : List (Nat × Bool) :=
  match d with
  | some x =>
    if ownsIt x a then
      if x.state = .o then ((sharersOf e x.sharers).filter (· ≠ a)).map (fun b => (b, true)) else []
    else if hasOwner x then [(x.owner, false)] else []
  | none => []

/-- Recalls that RD_OWN or UPGRADE from agent `a` needs: RECALL_INV to every other holder (R68). -/
def ownRecalls (e : Extent) (d : Option DirEntry) (a : Nat) : List (Nat × Bool) :=
  match d with
  | some x => ((holdersIn e x).filter (· ≠ a)).map (fun b => (b, true))
  | none => []

/-! ## A full directory set (R66) -/

/-- Entries of a partition's directory area (R430). -/
def dirLog2 (s : State) (p : Nat) : Nat :=
  match templateOf s p with
  | some t => t.dirLog2
  | none => 0

/-- The set of a tile in its partition's area (R66: a hash of SLOT and TILE). -/
def dirSet (s : State) (p key : Nat) : Nat := Config.dirHash (keySlot key) (keyTile key) % (max 1 (2 ^ dirLog2 s p / 16))

/-- What a new entry finds in its set (R66): room, an entry to evict, or a full set of which every entry is BUSY. -/
inductive SetRoom where
  | room
  | evict (key : Nat)
  | busy
  deriving DecidableEq, Repr

/-- The entry to evict before a new one can be held, where the set has no room: S or E before the rest, the one granted
longest ago (R66). -/
def evictChoice (s : State) (p key : Nat) : SetRoom :=
  let full := min 16 (2 ^ dirLog2 s p)
  let mine := s.dir.entries.filter (fun x => ownerOf s (keySlot x.1) == p)
  let peers := mine.filter (fun x => dirSet s p x.1 == dirSet s p key)
  if mine.length < full ∨ peers.length < full then .room
  else
    let rank (x : Nat × DirEntry) : Nat := if x.2.state = .s ∨ x.2.state = .e then 0 else 1
    let best := (peers.filter (fun x => !isBusy s (keySlot x.1) (keyTile x.1))).foldl (fun (best : Option (Nat × DirEntry)) x =>
      match best with
      | none => some x
      | some b => if rank x < rank b ∨ (rank x = rank b ∧ x.2.seq < b.2.seq) then some x else some b) none
    match best with
    | some x => .evict x.1
    | none => .busy

/-- Whether an entry of a tile's set is being evicted. -/
def evicting (s : State) (p key : Nat) : Bool :=
  s.home.busy.any (fun b => b.why == .evict && dirSet s p (tkey b.slot b.tile) == dirSet s p key && ownerOf s b.slot == p)

end Sys2Proof.Machine
end

