-- ==== Sys2Proof/Machine/Ledger.lean ====
section
/-! DEFINITION. Atomic operations (R85 to R87), the atomic block (R89), and the ledger (R91 to R100). -/

namespace Sys2Proof.Machine

/-! ## The atomic block (R89) -/

/-- Fields of the atomic block carried as a trailer. -/
def abCompare (v : Nat) : Nat := bitsOf v 384 128
def abOperand (v : Nat) : Nat := bitsOf v 256 128
def abAseq (v : Nat) : Word32 := BitVec.ofNat 32 (bitsOf v 224 32)
def abAck (v : Nat) : Word32 := BitVec.ofNat 32 (bitsOf v 192 32)
def abAop (v : Nat) : Nat := bitsOf v 186 6
def abSize (v : Nat) : Nat := bitsOf v 183 3
def abRetry (v : Nat) : Nat := bitsOf v 181 2
def abAckValid (v : Nat) : Bool := bitOf v 180

/-- Bytes of an operand. -/
def sizeBytes (size : Nat) : Nat := 4 * 2 ^ size

/-- The base operation of an AOP, without its FETCH bit. -/
def aopBase (aop : Nat) : Nat := aop % 32

/-- Defined operations with a size that R85 allows (R86). -/
def aopOk (aop size : Nat) : Bool :=
  let b := aopBase aop
  let defined := decide (1 ≤ b) && decide (b ≤ 13) && (decide (aop < 32) || decide (b ≤ 11))
  let sizeOk :=
    if b = 2 ∨ b = 5 ∨ b = 8 then size == 0
    else if b = 12 ∨ b = 13 then decide (size ≤ 2)
    else decide (size ≤ 1)
  defined && sizeOk

/-- Whether the old value is returned (R85): FETCH forms, SWAP and CAS. -/
def aopFetch (aop : Nat) : Bool := decide (32 ≤ aop) || aop == 12 || aop == 13

/-- Two's complement comparison of `w`-bit values. -/
def sle (w a b : Nat) : Bool := decide ((BitVec.ofNat w a).toInt ≤ (BitVec.ofNat w b).toInt)

/-- The new value of the operand (R85, R87); `n` is its size in bytes. -/
def aopApply (aop n x v cmp : Nat) : Nat :=
  let w := 8 * n
  let v := v % 2 ^ w
  let a := BitVec.ofNat 32 x
  let b := BitVec.ofNat 32 v
  match aopBase aop with
  | 1 => (x + v) % 2 ^ w
  | 2 => (f32add a b).toNat
  | 3 => if sle w x v then x else v
  | 4 => min x v
  | 5 => (f32min a b).toNat
  | 6 => if sle w x v then v else x
  | 7 => max x v
  | 8 => (f32max a b).toNat
  | 9 => x &&& v
  | 10 => x ||| v
  | 11 => x ^^^ v
  | 12 => v
  | _ => if x = cmp % 2 ^ w then v else x

/-! ## Sources and lookups -/

/-- The ledger source of an atomic (R96, R231): the node, or the issuing device with its tag's partition. -/
def atomSource (tx : Tx) : Node × Nat :=
  if tx.engine then (tx.origin, 1 + tx.tag.toNat / 4096) else (tx.src, 0)

/-- Whether an entry is of a source. -/
def isOf (k : Node × Nat) (l : LEntry) : Bool := l.src == k.1 && l.sub == k.2

/-- The entry that a lookup of a source and tag finds (R99): not one that is freed once its atomic completes (R97). -/
def ledgerFind (s : State) (k : Node × Nat) (tag : BitVec 16) : Option LEntry :=
  s.ledger.entries.find? (fun l => isOf k l && l.tag == tag && !l.doomed)

/-- Whether an entry is that of an atomic: its source, tag and ASEQ. -/
def isEntry (tx : Tx) (l : LEntry) : Bool := isOf (atomSource tx) l && l.tag == tx.tag && l.aseq == abAseq tx.trailer.val

/-- The entry of an atomic. -/
def ledgerFor (s : State) (tx : Tx) : Option LEntry := s.ledger.entries.find? (isEntry tx)

/-- Live entries of a source (R93). -/
def ledgerCount (s : State) (k : Node × Nat) : Nat := (s.ledger.entries.filter (isOf k)).length

/-- Whether a partition's ledger area is full (R94, R95). -/
def ledgerFull (s : State) (p : Nat) : Bool :=
  match templateOf s p with
  | some t => decide (t.ledgerK * 1024 ≤ (s.ledger.entries.filter (fun l => l.area == p)).length)
  | none => true

/-- The tokens of every context. -/
def allTokens (s : State) : List Token :=
  ((s.cores.cores.map (fun c => (c.2.ctxs.map (fun k => k.2.tokens.map (·.2))).flatten))).flatten

/-- Whether a TATOM of this device waits for space in a partition's ledger area with a place before `n` (R95). -/
def tatomAhead (s : State) (p n : Nat) : Bool :=
  (allTokens s).any (fun t => match t.op, t.since with
    | .atomic ad _ _ _ _ _ _ _, some i => t.done.isNone && decide (i < n) && ownerOf s (aSlot ad) == p
    | _, _ => false)

/-- Whether anything waits for space in a partition's ledger area with a place before `n` (R95). -/
def aheadOf (s : State) (p n : Nat) : Bool :=
  tatomAhead s p n || s.home.parked.any (fun w => w.why == .ledger p && decide (w.id < n))

/-- The acknowledgement processed for a source. -/
def ackOf (s : State) (k : Node × Nat) : Option Word32 :=
  (s.ledger.acks.find? (fun a => a.1 == k.1 && a.2.1 == k.2)).map (·.2.2)

/-- Process a cumulative acknowledgement (R91): DONE entries of the source whose ASEQ precedes it are freed, and an old
home that some of them were pulled from has the same acknowledgement sent on to it (R100). -/
def processAck (k : Node × Nat) (a : Word32) (s : State) : State :=
  let gone (l : LEntry) : Bool := isOf k l && l.done && precedes l.aseq a
  let acks := (s.ledger.acks.filter (fun x => !(x.1 == k.1 && x.2.1 == k.2))) ++ [(k.1, k.2, a)]
  let freed := s.ledger.entries.filter gone
  let s1 : State := { s with ledger := { s.ledger with entries := s.ledger.entries.filter (fun l => !gone l), acks := acks } }
  let note (n : Node) : Tx := { blankTx s1 with
    dst := n, src := k.1, op := 0x05, cls := 2, version := a, ext := true,
    tag := if k.2 = 0 then 0 else BitVec.ofNat 16 ((k.2 - 1) * 4096), engine := k.2 ≠ 0, origin := k.1,
    ptag := ((freed.find? (fun l => l.old == some n)).map (·.area)).getD 0,
    fwd := some { homeEpoch := 0, hopBack := 0, fwdFrom := myNode s1 } }
  { s1 with out := s1.out ++ (freed.filterMap (·.old)).eraseDups.map note }

/-- Take a new PENDING entry (R97). -/
def ledgerTake (tx : Tx) (slot area : Nat) (s : State) : State :=
  let k := atomSource tx
  let v := tx.trailer.val
  { s with ledger := { s.ledger with entries := s.ledger.entries ++ [{
      src := k.1, sub := k.2, tag := tx.tag, aseq := abAseq v, status := .ok, result := 0, aop := abAop v,
      size := abSize v, done := false, slot := slot, area := area }] } }

/-- The entry of an atomic becomes DONE (R97). -/
def ledgerDone (tx : Tx) (st : St) (r : BitVec 128) (s : State) : State :=
  { s with ledger := { s.ledger with entries := s.ledger.entries.map (fun l =>
      if isEntry tx l && !l.done then { l with status := st, result := r, done := true } else l) } }

/-- Free an entry that an acknowledgement already covers, or whose source has been reset, once its response has left
(R91, R97). -/
def ledgerTrim (tx : Tx) (s : State) : State :=
  let acked (l : LEntry) : Bool := match ackOf s (atomSource tx) with | some a => precedes l.aseq a | none => false
  { s with ledger := { s.ledger with entries := s.ledger.entries.filter (fun l =>
      !(isEntry tx l && l.done && (l.doomed || acked l))) } }

/-- Free a PENDING entry whose operation was not applied (R97, R44, R50). -/
def ledgerDrop (tx : Tx) (s : State) : State :=
  { s with ledger := { s.ledger with entries := s.ledger.entries.filter (fun l => !(isEntry tx l && !l.done)) } }

/-- The response to an ATOMIC: its status and RESULT (R89, R353). -/
def answerAtomic (tx : Tx) (st : St) (r : BitVec 128) (s : State) : State :=
  send { answerTx s tx st with trailer := mkTrailer 16 r.toNat } s

/-- The response to a request, an ATOMIC's with its RESULT (R89, R353). -/
def refuse (tx : Tx) (st : St) (s : State) : State := if tx.op = 0x04 then answerAtomic tx st 0 s else answer tx st s

/-- Remove every entry of a node as source (R97, R98): a PENDING atomic completes first, and its entry is then freed. The
source's new series owes nothing to a home that was lost (R100). -/
def resetLedger (n : Node) (s : State) : State :=
  let lost := (s.ext.entries.filterMap (fun x => x.2.lostFrom)).eraseDups
  { s with
    ext := { s.ext with pulledSrc := s.ext.pulledSrc ++ (lost.map (fun h => (List.range 17).map (fun i => (h, n, i)))).flatten },
    ledger := { s.ledger with
      entries := (s.ledger.entries.filter (fun l => l.src ≠ n || !l.done)).map (fun l => if l.src = n then { l with doomed := true } else l),
      acks := s.ledger.acks.filter (fun a => a.1 ≠ n) } }

end Sys2Proof.Machine
end

