-- ==== Sys2Proof/Machine/Admission.lean ====
section
/-! DEFINITION. Admission at the home: the checks of R39 in order, the mode rules of R58 and R107, the WRITE
and CACHE grants of R432, the holds of R82 and R108, forwarding and pulls under rehoming (R53 to R55). -/

namespace Sys2Proof.Machine

/-! ## Waiting requests -/

/-- Put a request among those that wait, in arrival order. -/
def park (rid port : Nat) (tx : Tx) (why : Wait) (s : State) : State :=
  let l := s.home.parked
  let p : Parked := { id := rid, port := port, tx := tx, why := why }
  { s with home := { s.home with parked := l.filter (fun x => decide (x.id < rid)) ++ p :: l.filter (fun x => decide (rid < x.id)) } }

/-- Take a waiting request out. -/
def unpark (rid : Nat) (s : State) : State :=
  { s with home := { s.home with parked := s.home.parked.filter (fun x => x.id ≠ rid) } }

/-! ## Checks 1 and 2 (R39) -/

/-- A live epoch (R48). -/
def epochLive (s : State) (m : BitVec 16) : Bool := m == s.ext.mapEpoch || s.ext.older == some m

/-- Check 1: the source is not expelled and the device not fenced. -/
def check1 (tx : Tx) (s : State) : Option St :=
  if s.boot.fenced || s.boot.expelled.contains tx.src then some .fenced else none

/-- Checks 1 and 2. -/
def check12 (tx : Tx) (s : State) : Option St :=
  match check1 tx s with
  | some st => some st
  | none => if epochLive s tx.mapEpoch then none else some .mapStale

/-! ## Checks 4 to 8 (R39) -/

/-- What checks 4 to 8 find. -/
inductive Adm where
  | go (part : Nat) (e : Extent)
  | stop (st : St)
  | forward (e : Extent)
  | unknown

/-- Checks 4 to 8; `unknown` is an ARRIVING extent whose own state the old home has not yet sent (R54); with the answer of a partition that is being reset (R73) after check 5. -/
def admission (port : Nat) (tx : Tx) (s : State) : Adm :=
  match bindPart s port tx with
  | none => .stop .noAccess
  | some part =>
    match extOf s (oSlot tx.offset) with
    | none => .stop .noAccess
    | some e =>
      if e.state = .arriving ∧ !e.known then .unknown
      else if !mayReach s part e.owner then .stop .noAccess
      else if 4194304 < oTile tx.offset + max 1 tx.length then .stop .noAccess
      else if domainDown s e then .stop .domainReset
      else if e.state = .migrating then .forward e
      else match holderOf e tx.src with
        | none => .stop .noAccess
        | some h => if h.hstate = .forced ∨ e.state = .draining then .stop .revoked else .go part e

/-! ## Check 9 (R58, R107) -/

/-- What check 9 finds. -/
inductive Chk where
  | ok
  | refuse (st : St)
  | hold

/-- Check 9 of a write or atomic: the mode's writers, the WRITE grant, and for VERSIONED the lease holder at
the open version, held while a PUBLISH drains (R58, R107, R108, R432). -/
def checkWrite (s : State) (part : Nat) (e : Extent) (v : Nat) : Chk :=
  match e.mode with
  | .priv => if grants s part e.owner (·.write) then .ok else .refuse .noAccess
  | .coherent => if grants s part e.owner (·.write) then .ok else .refuse .noAccess
  | .sharedRead => if part = e.owner then .ok else .refuse .noAccess
  | .versioned =>
    if leaseHolder e part && v ≠ 0 && v == e.openV && layerOpen e then
      if e.publishing.isSome then .hold else .ok
    else .refuse .state

/-- Check 9 of RD_TILE (R107). -/
def checkRead (part : Nat) (e : Extent) (n : Node) (v : Nat) : Chk :=
  if e.mode ≠ .versioned then .ok
  else match holderOf e n with
    | none => .refuse .noAccess
    | some h =>
      if v ≠ 0 && ((sealedLive e v && pinsV e h v) || (leaseHolder e part && v == e.openV)) then .ok
      else .refuse .state

/-- Check 9 of a caching request (R58); gaining or writing back M needs the WRITE grant (DEDUCED, log entry
9). -/
def checkCache (s : State) (part : Nat) (e : Extent) (n : Node) (writes : Bool) : Chk :=
  if e.mode ≠ .coherent then .refuse .state
  else match holderOf e n with
    | none => .refuse .noAccess
    | some h => if !h.caching then .refuse .noAccess else if writes && !grants s part e.owner (·.write) then .refuse .noAccess else .ok

/-! ## FENCE (R82) -/

/-- Whether an earlier FENCE of this source is in progress. -/
def fenceHeld (s : State) (n : Node) (rid : Nat) : Bool :=
  s.home.parked.any (fun p => p.tx.op == 0x06 && p.tx.src == n && decide (p.id < rid))

/-- Whether contributions of a source await their responses (R253). -/
def owedTo (s : State) (n : Node) : Bool :=
  s.groups.any (fun g => g.2.chunks.any (fun c => c.held.any (fun h =>
    match h.owed with | some (_, tx) => tx.src == n | none => false)))

/-- Whether a request of a source from before `rid` has not completed. -/
def outstanding (s : State) (n : Node) (rid : Nat) : Bool :=
  s.home.parked.any (fun p => p.tx.src == n && decide (p.id < rid)) ||
  s.home.busy.any (fun b => match b.why with | .request _ _ tx => tx.src == n | _ => false) ||
  s.ext.invals.any (fun i => match i.writer with | some (_, tx) => tx.src == n | none => false) ||
  s.ext.entries.any (fun x => match x.2.publishing with | some (.host _ tx) => tx.src == n | _ => false) ||
  owedTo s n

/-! ## Map epochs (R49) -/

/-- Whether a waiting request has been admitted, so that it counts against its epoch: not one that has not met every check,
nor a message that is never refused for its epoch (R354). A pull of tile 4,194,304 is of a source's ledger entries, one of
4,194,305 of the extent's own state. -/
def admitted (p : Parked) : Bool :=
  p.tx.op ≠ 0x13 && p.tx.op ≠ 0x15 && match p.why with
  | .tile _ _ => p.tx.op ≠ 0x48
  | .ledger _ => true
  | .journal _ => true
  | .sinter _ => true
  | .publish _ => true
  | .fence _ => false
  | .dirSet _ => true
  | .pending _ _ _ => true
  | .region _ _ => true
  | .pull _ t => decide (t < 4194304)
  | .stores _ _ => true
  | .ledgerOf _ _ => false
  | .sealing _ => false

/-- Whether a waiting ATOMIC has its PENDING entry already (R97). -/
def hasEntry : Wait → Bool
  | .tile _ _ => true
  | .journal _ => true
  | .sinter _ => true
  | .region _ _ => true
  | _ => false

/-- Whether stores of a flow from before `rid` have not taken effect (R78). -/
def storesBefore (s : State) (n : Node) (cls rid : Nat) : Bool :=
  let store (tx : Tx) : Bool := [0x02, 0x03, 0x04].contains tx.op.toNat && tx.src == n && tx.cls == cls && !tx.engine
  s.home.parked.any (fun p => store p.tx && decide (p.id < rid)) ||
  s.home.busy.any (fun b => match b.why with | .request i _ tx => store tx && decide (i < rid) | _ => false)

/-- Whether anything still counts against an epoch: an admitted request or a running item. -/
def epochCounted (s : State) (m : BitVec 16) : Bool :=
  s.home.parked.any (fun p => admitted p && p.tx.mapEpoch == m) ||
  s.home.busy.any (fun b => match b.why with | .request _ _ tx => tx.mapEpoch == m | _ => false) ||
  s.ext.invals.any (fun i => match i.writer with | some (_, tx) => tx.mapEpoch == m | none => false) ||
  s.ext.entries.any (fun x => match x.2.publishing with | some (.host _ tx) => tx.mapEpoch == m | _ => false) ||
  (allCmds s).any (fun c => c.runs.any (fun r => r.epoch == m))

/-- The older epoch retires when its count is zero (R49). -/
def retireOlder (s : State) : State :=
  match s.ext.older with
  | none => s
  | some m => if epochCounted s m then s else { s with ext := { s.ext with older := none } }

/-! ## Rehoming (R53 to R55) -/

/-- Forward a request toward another home (R53): node, slot and epoch are rewritten, source, tag and flow
sequence stay. What this device knows of the other home's current epoch is free (log entry 10). -/
def forwardTo (n : Node) (slot hop : Nat) (h : Word32) (tx : Tx) (s : State) : State :=
  { s with
    free := s.free + 1,
    out := s.out ++ [{ tx with
      dst := n, offset := mkOffset slot (oTile tx.offset) (oByte tx.offset),
      mapEpoch := Config.remoteEpoch n s.free, ext := true,
      fwd := some { homeEpoch := h, hopBack := hop, fwdFrom := myNode s } }] }

/-! ### Request windows (R333) -/

/-- The window of a home and class; one never marked stands at the 1,024 of R93 (log entry 166). -/
def windowOf (s : State) (n : Node) (c : Nat) : ReqWindow :=
  tgetD s.home.windows (n.toNat * 8 + c) { w := 1024, good := 0, old := 0 }

/-- Whether an operation of a context is outstanding at a home on a class: TATOMs go on TC2, tiles on TC1. -/
def tokenTo (n : Node) (c : Nat) (t : Token) : Bool :=
  t.sent == some n && t.done.isNone && (match t.op with | .atomic _ _ _ _ _ _ _ _ => c == 2 | _ => c == 1)

/-- Pulls that wait for the window of a home. -/
def pullsHeld (s : State) (n : Node) : Nat := (s.home.heldPulls.filter (fun t => t.dst == n)).length

/-- Pulls on TC1 that a home has been asked for and has not answered. -/
def pullsOut (s : State) (n : Node) : Nat :=
  (s.ext.asked.filter (fun x => x.2 == 1 && match extOf s (keySlot x.1) with | some e => e.fwdNode == n | none => false)).length +
  (s.ext.askedSrc.filter (fun x => x.1 == n)).length - pullsHeld s n

/-- Requests of this device outstanding at a home on a class. -/
def inFlight (s : State) (n : Node) (c : Nat) : Nat :=
  ((allTokens s).filter (tokenTo n c)).length + (if c = 1 then pullsOut s n else 0)

/-- Whether the window of a home and class holds a new request back. -/
def windowShut (s : State) (n : Node) (c : Nat) : Bool :=
  decide (1 ≤ c) && decide (c ≤ 5) && decide ((windowOf s n c).w ≤ inFlight s n c)

/-- A window after a mark: halved, and deaf to marks on responses to what is outstanding. -/
def halved (out : Nat) (w : ReqWindow) : ReqWindow := { w := max 1 (w.w / 2), good := 0, old := out }

/-- A window after an unmarked completion: one more after W of them in a row, on TC2 up to the atomic window (R93, R333). -/
def widened (c : Nat) (w : ReqWindow) : ReqWindow :=
  if w.w ≤ w.good + 1 then { w with w := if c = 2 then min 1024 (w.w + 1) else w.w + 1, good := 0, old := w.old - 1 }
  else { w with good := w.good + 1, old := w.old - 1 }

/-- A packet that arrives from another home, a response or not, and what its MARK does to the window (R333). -/
def hearMark (port : Nat) (tx : Tx) (s : State) : State :=
  let out := inFlight s tx.src tx.cls
  if portRole s port ≠ .trunk ∨ tx.cls = 0 ∨ 5 < tx.cls ∨ (!tx.mark ∧ !tx.resp) then s
  else
    let w := windowOf s tx.src tx.cls
    let w1 := if !tx.resp then halved out w
      else if !tx.mark then widened tx.cls w
      else if w.old = 0 then halved (out - 1) w
      else { w with good := 0, old := w.old - 1 }
    { s with home := { s.home with windows := tset s.home.windows (tx.src.toNat * 8 + tx.cls) w1 } }

/-- Send the pulls that their windows have room for now, in order. -/
def sendHeld : List Tx → State → State
  | [], s => s
  | tx :: rest, s =>
    sendHeld rest (if windowShut s tx.dst tx.cls then s
      else send tx { s with home := { s.home with heldPulls := s.home.heldPulls.erase tx } })

/-- Ask the old home for state (R54), once its window has room. QUAL 1 asks for the extent, 2 for a source's ledger entries,
named in the trailer, and 4 says that the data must come too, since the backings differ. -/
def askPull (e : Extent) (tile cls : Nat) (qual : BitVec 3) (key : Nat) (s : State) : State :=
  let tx := { blankTx s with
    dst := e.fwdNode, op := 0x48, cls := cls, qual := qual, length := 1, ptag := e.owner,
    offset := mkOffset e.fwdSlot tile 0, trailer := mkTrailer 8 key }
  if windowShut s e.fwdNode cls then { s with home := { s.home with heldPulls := s.home.heldPulls ++ [tx] } } else send tx s

/-- Ask the old home for the ledger entries of a source, once (R54). -/
def askLedger (e : Extent) (k : Node × Nat) (s : State) : State :=
  if s.ext.askedSrc.contains (e.fwdNode, k.1, k.2) then s
  else
    let s1 := askPull e 0 1 2 (k.1.toNat * 32 + k.2) s
    { s1 with ext := { s1.ext with askedSrc := s1.ext.askedSrc ++ [(e.fwdNode, k.1, k.2)] } }

/-- Send a pull of a tile: with its data where the backings differ (R54). -/
def sendPull (e : Extent) (tile cls : Nat) (s : State) : State := askPull e tile cls (if e.differs then 4 else 0) 0 s

/-- Ask the old home for a tile, once (R54). -/
def askTile (slot : Nat) (e : Extent) (tile cls : Nat) (s : State) : State :=
  if thas s.ext.asked (tkey slot tile) then s
  else
    let s1 := sendPull e tile cls s
    { s1 with ext := { s1.ext with asked := tset s1.ext.asked (tkey slot tile) cls } }

/-- Whether a tile of an ARRIVING extent still has to be pulled (R54); an adopted one takes its state from
pool metadata (R419). -/
def needPull (s : State) (slot tile : Nat) (e : Extent) : Bool :=
  e.state == .arriving && !thas s.ext.pulled (tkey slot tile)

/-- A sinter tile whose content comes from an old home is written at once; one whose content has not come is lost. -/
def putSinter (slot tile key : Nat) (t : Option Tile) (s : State) : State :=
  let s1 := takeSinter key s
  let p := sinterSpot s1 slot tile key
  match t, groupOf s1 p.group with
  | some x, some g => journalWrite {} p g x s1
  | _, _ => loseSinter slot tile key s1

/-- Take copy records that came with a tile, their sinter tiles into this partition's area. -/
def takeCopies (p slot tile : Nat) : List (Nat × CopyContent × Option Tile) → State → List Copy × State
  | [], s => ([], s)
  | (til, c, t) :: r, s =>
    match c with
    | .sinter _ =>
      let key := nextSinter s p
      let (cs, s2) := takeCopies p slot tile r (putSinter slot tile key t s)
      ({ til := til, content := .sinter key } :: cs, s2)
    | _ =>
      let (cs, s2) := takeCopies p slot tile r s
      ({ til := til, content := c } :: cs, s2)

/-- Whether the copies that come with a tile wait for journal space (R134): one record for each sinter tile. -/
def copiesWait (s : State) (p : Nat) (t : PullTile) : Bool :=
  let n := (t.copies.filter (fun c => c.2.2.isSome)).length
  n ≠ 0 && decide (256 * journalMib s p < journalCount s p + n) && decide (journalCap s p < journalCount s p + n)

/-- The version records that came with a tile. -/
def takeHead (slot : Nat) (owner : Nat) (p : PullTile) (s : State) : State :=
  match p.backVersion with
  | none => s
  | some b =>
    let (cs, x) := takeCopies owner slot p.tile p.copies s
    { x with vers := { x.vers with heads := tset x.vers.heads (tkey slot p.tile) { backVersion := b, copies := cs } } }

/-- What the modules hold of a tile that another home has written: its unit is free, and the parity of its row agrees with it
(DESIGN CHOICE, log entry 17). -/
def foreignUnit (slot tile : Nat) (e : Extent) (s : State) : State :=
  match groupOf s e.group with
  | none => s
  | some g =>
    let p := spotOf slot tile e
    let t := mkTile (Config.freeBlock s.free)
    let old := match readCol s e.group g (p.row g) (p.col g) with | .ok x => some x.data | .error _ => none
    let r : JRec := { id := 0, part := e.owner, key := p.key, group := e.group, row := p.row g, col := p.col g, tile := t, time := 0,
                      diff := old.map (· ^^^ t.data), full := g.k == 1, txn := 0, after := none, cls := 1, started := true }
    applyRecs r [r] { s with free := s.free + 1 }

/-- First touch of a tile of an adopted extent (R419): its version records and poison mark are those of the pool
metadata, and a COHERENT tile in a region that the ownership bitmap marks is poisoned. What another home wrote
there is free (log entry 17). -/
def adoptTile (slot tile : Nat) (e : Extent) (s : State) : State :=
  let s1 : State := { s with ext := { s.ext with pulled := tset s.ext.pulled (tkey slot tile) () } }
  if e.fwdNode = myNode s then
    if e.mode = .coherent ∧ thas s.dir.own (ownKey slot tile) then setPoison slot tile s1 else s1
  else
    let r := { Config.tileRecord e.fwdNode e.fwdSlot tile with tile := tile }
    let s2 := if e.mode = .versioned then takeHead slot e.owner r s1 else s1
    let s3 := if r.zero then s2 else foreignUnit slot tile e (touchTile slot tile s2)
    if r.poison || (e.mode == .coherent && Config.ownRecord e.fwdNode e.fwdSlot (tile / 64)) then setPoison slot tile s3 else s3

/-- Before a request meets its tiles in an ARRIVING extent: adopted tiles are taken at once; another missing
tile is asked for, and named. -/
def pullFirst (slot : Nat) (e : Extent) : List Nat → State → Option Nat × State
  | [], s => (none, s)
  | t :: ts, s =>
    if !needPull s slot t e then pullFirst slot e ts s
    else if thas s.ext.adopted slot then pullFirst slot e ts (adoptTile slot t e s)
    else (some t, askTile slot e t 1 s)

end Sys2Proof.Machine
end

