-- ==== Sys2Proof/Machine/Complete.lean ====
section
/-! DEFINITION. What a request does at the home once every recall it needs has been answered: reads, writes,
partial writes and atomics (R68, R71, R81, R88, R116, R127), grants and write-backs (R68, R485), and the end
of a BUSY tile. -/

namespace Sys2Proof.Machine

/-- The home keeps no copy of a tile that an agent's data could not replace (R485). -/
def dropLine (slot tile : Nat) (s : State) : State := { s with pool := { s.pool with cache := tdel s.pool.cache (tkey slot tile) } }

/-- The data that recalls returned, by tile. -/
abbrev Recalled := List (Nat × Tile)

/-- Recalled data of a tile. -/
def recalledAt (d : Recalled) (t : Nat) : Option Tile := (d.find? (fun p => p.1 == t)).map (·.2)

/-! ## Reads -/

/-- Read tiles in order; the first that fails decides (R71, R129, R148). -/
def readTiles (slot v : Nat) (e : Extent) (d : Recalled) : List Nat → State → Except St (List Tile) × State
  | [], s => (.ok [], s)
  | t :: ts, s =>
    match (match recalledAt d t with | some x => (Except.ok x, s) | none => homeRead slot t v e s) with
    | (.error st, s1) => (.error st, s1)
    | (.ok x, s1) =>
      match readTiles slot v e d ts s1 with
      | (.error st, s2) => (.error st, s2)
      | (.ok xs, s2) => (.ok (x :: xs), s2)

/-- RD_TILE completes. -/
def doRead (tx : Tx) (e : Extent) (d : Recalled) (s : State) : WOut :=
  match readTiles (oSlot tx.offset) tx.version.toNat e d (tilesOf tx) s with
  | (.ok ts, s1) => .done (answerTiles tx ts s1)
  | (.error st, s1) => .fail st s1

/-! ## Writes -/

/-- The tiles of a transaction that cover a row of their group whole (R135). -/
def fullTiles (s : State) (e : Extent) (ts : List Nat) : List Nat :=
  match groupOf s e.group with
  | none => []
  | some g => ts.filter (fun t => decide (g.k ≤ (ts.filter (fun u => dIndex e.base u / g.k == dIndex e.base t / g.k)).length))

/-- Write whole tiles in order; `full` covers its rows whole, in the transaction `txn`. -/
def writeTiles (slot txn : Nat) (full : List Nat) : List (Nat × Tile) → State → WOut
  | [], s => .done s
  | (t, x) :: ts, s =>
    match extOf s slot with
    | none => .fail .noAccess s
    | some e =>
      match homeWrite slot t e true (if full.contains t then some txn else none) x s with
      | .done s1 => writeTiles slot txn full ts (if e.mode = .versioned then s1 else delLog slot t (delDir slot t s1))
      | w => w

/-- WR_TILE completes: every holder is gone and the tile is I (R68). All its tiles are written or none (DEDUCED, log entry
11). -/
def doWrite (tx : Tx) (s : State) : WOut :=
  let full := match extOf s (oSlot tx.offset) with | some e => fullTiles s e (tilesOf tx) | none => []
  match wholeOr s (writeTiles (oSlot tx.offset) s.pool.nextRec full ((tilesOf tx).zip tx.tiles) s) with
  | .done s1 => .done (answer tx .ok s1)
  | w => w

/-- Change one tile in part: recalled data, or the home's copy, is the base (R68, R127). -/
def doChange (slot tile v : Nat) (d : Recalled) (f : Block → Block) (s : State) : (Option Tile × WOut) :=
  match extOf s slot with
  | none => (none, .fail .noAccess s)
  | some e =>
    match (match recalledAt d tile with | some x => (Except.ok x, s) | none => homeRead slot tile v e s) with
    | (.error st, s1) => (none, .fail st s1)
    | (.ok old, s1) =>
      match homeWrite slot tile e false none (changeTile old (f old.data)) s1 with
      | .done s2 => (some old, .done (if e.mode = .versioned then s2 else delLog slot tile (delDir slot tile s2)))
      | w => (some old, w)

/-- WR_PARTIAL completes: the bytes of the mask are written (R127, R353). -/
def doPartial (tx : Tx) (d : Recalled) (s : State) : WOut :=
  let new := (tx.tiles.headD zeroTile).data
  let r := doChange (oSlot tx.offset) (oTile tx.offset) tx.version.toNat d
    (fun old => mergeMask old new (BitVec.ofNat 256 tx.trailer.val)) s
  match r.2 with
  | .done s1 => .done (answer tx .ok s1)
  | w => w

/-- Answer the retries held until an entry is DONE (R99), unless they are held for a later one of the same tag. -/
def answerHeld (tx : Tx) (st : St) (r : BitVec 128) (s : State) : State :=
  let k := atomSource tx
  if (ledgerFind s k tx.tag).any (fun l => !l.done) then s
  else (s.home.parked.filter (fun p => p.why == .pending k.1 k.2 tx.tag)).foldl (fun t p => unpark p.id (answerAtomic p.tx st r t)) s

/-- The atomic's entry is DONE, and it and its held retries are answered from it (R88, R97, R99). -/
def endAtomic (tx : Tx) (st : St) (r : BitVec 128) (s : State) : State :=
  ledgerTrim tx (answerHeld tx st r (answerAtomic tx st r (ledgerDone tx st r s)))

/-- ATOMIC completes: applied once to the operand at BYTE rounded down to its size (R86, R88). -/
def doAtomic (tx : Tx) (d : Recalled) (s : State) : WOut :=
  let v := tx.trailer.val
  let n := sizeBytes (abSize v)
  let off := oByte tx.offset / n * n
  let f := fun old : Block => setBytes old off n (aopApply (abAop v) n (bytesAt old off n) (abOperand v) (abCompare v))
  let r := doChange (oSlot tx.offset) (oTile tx.offset) tx.version.toNat d f s
  match r with
  | (some old, .done s1) =>
    let x := if aopFetch (abAop v) then bytesAt old.data off n else 0
    .done (endAtomic tx .ok (BitVec.ofNat 128 x) s1)
  | (_, .done s1) => .done s1
  | (_, w) => w

/-! ## Grants (R68) -/

/-- Send a grant: op, data if any (R353). -/
def grant (tx : Tx) (op : Byte) (t : Option Tile) (s : State) : State :=
  send { blankTx s with
    dst := tx.src, op := op, tag := tx.tag, offset := tx.offset, length := 1, mark := tx.mark, ptag := tx.ptag,
    qual := if op = 0x1A ∧ t.isNone then 1 else 0,
    tiles := match t with | some x => [x] | none => [] } s

/-- The data of a grant: recalled, or the home's copy. -/
def grantData (slot tile : Nat) (e : Extent) (d : Recalled) (s : State) : Except St Tile × State :=
  match recalledAt d tile with
  | some x => (.ok x, s)
  | none => backingRead slot tile e s

/-- M without data to an agent that holds the tile, the rest having been recalled (R68). -/
def grantMBare (tx : Tx) (slot tile a : Nat) (e : Extent) (s : State) : WOut :=
  .done (grant tx 0x1A none (addLog slot tile e tx.src (putDir slot tile .m a (.ptrs []) s)))

/-- RD_SHARED completes (R68). Data that an E holder supplied goes to the home cache first; a write that
fails there does not stop the grant (R485). `had`: an owner was recalled, so that the grant is GRANT_S, with the
requester alone where that owner has gone (R70). -/
def doShared (had : Bool) (tx : Tx) (e : Extent) (d : Recalled) (s : State) : WOut :=
  let slot := oSlot tx.offset
  let tile := oTile tx.offset
  match agentOf e tx.src with
  | none => .fail .noAccess s
  | some a =>
    match dirOf s slot tile with
    | none =>
      match grantData slot tile e d s with
      | (.error st, s1) => .fail st s1
      | (.ok t, s1) =>
        if had then .done (grant tx 0x18 (some t) (putDir slot tile .s 0 (.ptrs [a]) s1))
        else .done (grant tx 0x19 (some t) (putDir slot tile .e a (.ptrs []) s1))
    | some x =>
      if ownsIt x a then
        if x.state = .e then
          match grantData slot tile e d s with
          | (.error st, s1) => .fail st s1
          | (.ok t, s1) => .done (grant tx 0x19 (some t) s1)
        else grantMBare tx slot tile a e s
      else if x.state = .o then
        match grantData slot tile e d s with
        | (.error st, s1) => .fail st s1
        | (.ok t, s1) => .done (grant tx 0x18 (some t) (putDir slot tile .o x.owner (addSharer a x.sharers) s1))
      else
        let stored := match recalledAt d tile with
          | some t => backingWrite {} slot tile e t s
          | none => .done s
        match stored with
        | .wait w s1 => .wait w s1
        | .done s1 =>
          match grantData slot tile e d s1 with
          | (.error st, s2) => .fail st s2
          | (.ok t, s2) => .done (grant tx 0x18 (some t) (putDir slot tile .s 0 (addSharer a x.sharers) s2))
        | .fail _ s1 =>
          match grantData slot tile e d (dropLine slot tile s1) with
          | (.error st, s2) => .fail st s2
          | (.ok t, s2) => .done (grant tx 0x18 (some t) (putDir slot tile .s 0 (addSharer a x.sharers) s2))

/-- RD_OWN and UPGRADE complete (R68): `up` is UPGRADE, which brings no data to an agent that holds the tile. RD_OWN from
the owner in E has no row: it is taken as one from I, M with data and a log record (DESIGN CHOICE, log entry 157). -/
def doOwn (up : Bool) (tx : Tx) (e : Extent) (d : Recalled) (s : State) : WOut :=
  let slot := oSlot tx.offset
  let tile := oTile tx.offset
  match agentOf e tx.src with
  | none => .fail .noAccess s
  | some a =>
    let holds : Bool := match dirOf s slot tile with
      | none => false
      | some x => if up then ownsIt x a || isSharer a x.sharers else ownsIt x a && !(x.state == .e)
    if holds then
      if poisoned s slot tile then .fail .poison s else grantMBare tx slot tile a e s
    else
      match grantData slot tile e d s with
      | (.error st, s1) => .fail st s1
      | (.ok t, s1) => .done (grant tx 0x1A (some t) (addLog slot tile e tx.src (putDir slot tile .m a (.ptrs []) s1)))

/-! ## The end of a request -/

/-- The row of R68 for a request whose recalls are done; `had`: there were some. -/
def finishRow (had : Bool) (tx : Tx) (d : Recalled) (s : State) : WOut :=
  match extOf s (oSlot tx.offset) with
  | none => .fail .noAccess s
  | some e =>
    match tx.op.toNat with
    | 0x01 => doRead tx e d s
    | 0x02 => doWrite tx s
    | 0x03 => doPartial tx d s
    | 0x04 => doAtomic tx d s
    | 0x10 => doShared had tx e d s
    | 0x11 => doOwn false tx e d s
    | 0x12 => doOwn true tx e d s
    | _ => .done s

/-- A request fails: an atomic through its ledger entry when it fails at the tile (R97), or by losing its
entry; another by its status. MARK_DIRTY and EVICT_CLEAN have no answer. -/
def failReq (tx : Tx) (st : St) (s : State) : State :=
  if tx.op = 0x04 then
    if st = .poison ∨ st = .versionSpace ∨ st = .checksum ∨ st = .lost then endAtomic tx st 0 s
    else answerHeld tx st 0 (answerAtomic tx st 0 (ledgerDrop tx s))
  else if tx.op = 0x13 ∨ tx.op = 0x15 then s
  else answer tx st s

/-- A waiting request fails: an ATOMIC that has no entry of its own leaves the ledger alone (R97, R99). -/
def failWait (p : Parked) (st : St) (s : State) : State :=
  if p.tx.op = 0x04 ∧ !hasEntry p.why then answerAtomic p.tx st 0 s else failReq p.tx st s

/-- Carry out a request with no recall outstanding; one that must wait joins those that wait for the same
space. -/
def runReq (rid port : Nat) (tx : Tx) (s : State) : State :=
  match finishRow false tx [] s with
  | .done s1 => s1
  | .fail st s1 => failReq tx st s1
  | .wait w s1 => park rid port tx w s1

/-! ## BUSY tiles end (R68, R69) -/

/-- The BUSY tiles of one request. -/
def busyOfReq (s : State) (rid : Nat) : List Busy :=
  s.home.busy.filter (fun b => match b.why with | .request i _ _ => i == rid | _ => false)

/-- Drop the BUSY tiles of one request. -/
def dropBusyReq (rid : Nat) (s : State) : State :=
  { s with home := { s.home with busy := s.home.busy.filter (fun b => match b.why with | .request i _ _ => i ≠ rid | _ => true) } }

/-- The recalled data of BUSY tiles. -/
def dataOf (bs : List Busy) : Recalled := bs.filterMap (fun b => b.data.map (fun t => (b.tile, t)))

/-- Data recalled for the home alone is written back (R43, R66); the home drops a write that fails and keeps no copy
(R485). None: it must wait for space. -/
def writeBack (b : Busy) (s : State) : Option State :=
  match b.data, extOf s b.slot with
  | some t, some e =>
    match backingWrite {} b.slot b.tile e t s with
    | .done s1 => some s1
    | .fail _ s1 => some (dropLine b.slot b.tile s1)
    | .wait _ _ => none
  | _, _ => some s

/-- Data that was recalled for a write which fails is lost with it: the home keeps no copy of those tiles (R485). -/
def forget (tx : Tx) (bs : List Busy) (s : State) : State :=
  if tx.op = 0x02 ∨ tx.op = 0x03 ∨ tx.op = 0x04 then
    (bs.filter (fun b => b.data.isSome)).foldl (fun t b => dropLine b.slot b.tile t) s
  else s

/-- End a BUSY tile whose recalls are all answered: its request completes once every tile of it is so; an
eviction, a force or an expulsion ends with the tile; an item keeps the tile until it runs again. -/
def finishBusy (b : Busy) (s : State) : State :=
  match b.why with
  | .request rid port tx =>
    let bs := busyOfReq s rid
    if bs.any (fun x => !x.recalls.isEmpty) then s
    else
      match finishRow true tx (dataOf bs) (dropBusyReq rid s) with
      | .done s1 => s1
      | .fail st s1 => failReq tx st (forget tx bs s1)
      | .wait w s1 => if (dataOf bs).isEmpty then park rid port tx w s1 else { s1 with home := { s1.home with busy := s.home.busy } }
  | .item _ => s
  | .drain =>
    let owned := match dirOf s b.slot b.tile with | some d => hasOwner d | none => false
    if owned then delBusy b.slot b.tile s
    else match writeBack b s with
      | some s1 => delBusy b.slot b.tile s1
      | none => s
  | .evict =>
    match writeBack b s with
    | some s1 => delLog b.slot b.tile (delDir b.slot b.tile (delBusy b.slot b.tile s1))
    | none => s
  | .expel => delDir b.slot b.tile (delBusy b.slot b.tile s)
  | .force _ =>
    match writeBack b s with
    | some s1 => delBusy b.slot b.tile s1
    | none => s

/-- End the BUSY tile of a slot and tile if its recalls are all answered. -/
def tryFinish (slot tile : Nat) (s : State) : State :=
  match busyOf s slot tile with
  | some b => if b.recalls.isEmpty then finishBusy b (if b.toI then delDir slot tile s else s) else s
  | none => s

/-- Recall what a request needs on each of its tiles, and end those that need no answer. -/
def recallFor (rid port : Nat) (tx : Tx) (e : Extent) (need : Nat → List (Nat × Bool)) (s : State) : State :=
  let slot := oSlot tx.offset
  let ts := (tilesOf tx).filter (fun t => !(need t).isEmpty)
  let s1 := ts.foldl (fun x t => startRecalls slot t e (.request rid port tx) (need t) x) s
  match ts with
  | [] => runReq rid port tx s1
  | t :: _ => tryFinish slot t s1

end Sys2Proof.Machine
end

