-- ==== Sys2Proof/Machine/Serve.lean ====
section
/-! DEFINITION. Requests of chapters 2 to 5 as the home serves them: tile requests, atomics, FENCE, coherence
messages, INVALIDATE, versions, and the messages of rehoming. Each takes whether the request is new
(`fresh`) or comes from those that waited, its number and its port. -/

namespace Sys2Proof.Machine

/-! ## Meeting the checks -/

/-- A request for an extent that is MIGRATING (R39 check 6, R53, R55): forwarded, bounced, or taken back by
the higher home epoch. None: this device serves it after all. The manual speaks of a higher and a lower epoch only: an
equal one counts as the lower (DESIGN CHOICE, log entry 157). -/
def forwardReq (tx : Tx) (e : Extent) (s : State) : Option State :=
  let slot := oSlot tx.offset
  match tx.fwd with
  | none => some (forwardTo e.fwdNode e.fwdSlot 0 e.homeEpoch tx s)
  | some f =>
    let yieldMsg (t : State) : State := send { blankTx t with
      dst := f.fwdFrom, op := 0x49, ptag := tx.ptag, version := e.homeEpoch, offset := mkOffset e.fwdSlot 0 0 } t
    if f.hopBack = 1 then
      if f.homeEpoch.toNat < e.homeEpoch.toNat then none
      else some (forwardTo f.fwdFrom e.fwdSlot 2 e.homeEpoch tx
        (yieldMsg (modExt slot (fun x => noted s { x with state := .migrating, fwdNode := f.fwdFrom }) s)))
    else if f.fwdFrom = e.fwdNode then
      if 2 ≤ f.hopBack then some (refuse tx .mapStale s)
      else some (forwardTo f.fwdFrom e.fwdSlot (f.hopBack + 1) e.homeEpoch tx s)
    else some (forwardTo e.fwdNode e.fwdSlot f.hopBack e.homeEpoch tx s)

/-- The higher home epoch takes a bounced extent back (R55): ACTIVE, with a YIELD to the lower device. -/
def takeBack (tx : Tx) (e : Extent) (s : State) : State :=
  let n := match tx.fwd with | some f => f.fwdFrom | none => e.fwdNode
  send { blankTx s with dst := n, op := 0x49, ptag := e.owner, version := e.homeEpoch, offset := mkOffset e.fwdSlot 0 0 }
    (modExt (oSlot tx.offset) (fun x => noted s { x with state := .active }) s)

/-- An admitted request meets check 9 and the pulls of an ARRIVING extent (R39, R54, R108). -/
def meet9 (rid port : Nat) (tx : Tx) (part : Nat) (e : Extent) (chk : Chk) (go : Nat → Extent → State → State)
    (s : State) : State :=
  match chk with
  | .refuse st => refuse tx st s
  | .hold => park rid port tx (.publish (oSlot tx.offset)) s
  | .ok =>
    match pullFirst (oSlot tx.offset) e (tilesOf tx) s with
    | (some t, s1) => park rid port tx (.pull (oSlot tx.offset) t) s1
    | (none, s1) => go part e s1

/-- The checks of R39 for a new request; one that has waited was admitted, and is evaluated against the present state (R69):
its source may have been expelled (R414), but for an atomic's (R97), or its partition be resetting (R73), and its tiles
may still be pulled (R54). -/
def meet (fresh : Bool) (rid port : Nat) (tx : Tx) (chk : Nat → Extent → State → Chk)
    (go : Nat → Extent → State → State) (s : State) : State :=
  if fresh then
    match check12 tx s with
      | some st => refuse tx st s
      | none =>
        match admission port tx s with
        | .stop st => refuse tx st s
        | .unknown => park rid port tx (.pull (oSlot tx.offset) 4194305) s
        | .go part e => meet9 rid port tx part e (chk part e s) go s
        | .forward e =>
          match forwardReq tx e s with
          | some s1 => s1
          | none =>
            let s1 := takeBack tx e s
            match admission port tx s1 with
            | .go part e1 => meet9 rid port tx part e1 (chk part e1 s1) go s1
            | .stop st => refuse tx st s1
            | .forward _ => s1
            | .unknown => s1
  else match (if tx.op = 0x04 then none else check1 tx s) with
    | some st => failReq tx st s
    | none =>
      match extOf s (oSlot tx.offset) with
      | none => failReq tx .noAccess s
      | some e =>
        if domainDown s e then failReq tx .domainReset s
        else match pullFirst (oSlot tx.offset) e (tilesOf tx) s with
          | (some t, s1) => park rid port tx (.pull (oSlot tx.offset) t) s1
          | (none, s1) => go 0 e s1

/-- A request has its turn at its tiles: it waits while one is BUSY, and behind the requests that came before it (R20, R69,
R80). The touched entries lose the agents of expelled hosts (R72). -/
def inTurn (rid port : Nat) (tx : Tx) (go : State → State) (s : State) : State :=
  let slot := oSlot tx.offset
  match (tilesOf tx).find? (fun t => isBusy s slot t || waitersBefore s rid slot t) with
  | some t => park rid port tx (.tile slot t) s
  | none => go ((tilesOf tx).foldl (fun u t => purgeDead slot t u) s)

/-- A tile request at its tiles. One that merges into a poisoned tile fails before any holder is recalled (R71). -/
def atTiles (merges : Bool) (rid port : Nat) (tx : Tx) (e : Extent) (need : State → Nat → List (Nat × Bool)) (s : State) : State :=
  inTurn rid port tx (fun t =>
    if merges && poisoned t (oSlot tx.offset) (oTile tx.offset) then failReq tx .poison t
    else recallFor rid port tx e (need t) t) s

/-! ## Tile requests -/

/-- RD_TILE (R30, R68, R107). -/
def serveRead (fresh : Bool) (rid port : Nat) (tx : Tx) (s : State) : State :=
  meet fresh rid port tx (fun p e _ => checkRead p e tx.src tx.version.toNat) (fun _ e t =>
    atTiles false rid port tx e (fun u i => readRecalls (dirOf u (oSlot tx.offset) i)) t) s

/-- WR_TILE and WR_PARTIAL (R58, R68, R107). -/
def serveWrite (fresh : Bool) (rid port : Nat) (tx : Tx) (s : State) : State :=
  meet fresh rid port tx (fun p e t => checkWrite t p e tx.version.toNat) (fun _ e t =>
    atTiles (tx.op == 0x03) rid port tx e (fun u i => writeRecalls e (dirOf u (oSlot tx.offset) i)) t) s

/-! ## Atomics (R86 to R99) -/

/-- An atomic that holds its PENDING entry goes to its tile. -/
def atomicAtTile (rid port : Nat) (tx : Tx) (e : Extent) (s : State) : State :=
  atTiles true rid port tx e (fun u i => writeRecalls e (dirOf u (oSlot tx.offset) i)) s

/-- An atomic that matches no entry, past check 9 (R93, R95, R97): it waits for ledger space behind those that came before
it, and takes its entry. One that has waited finds the window judged again (DESIGN CHOICE, log entry 157). -/
def atomicNew (rid port : Nat) (tx : Tx) (e : Extent) (s : State) : State :=
  if 1024 ≤ ledgerCount s (atomSource tx) then answerAtomic tx .state 0 s
  else if ledgerFull s e.owner || aheadOf s e.owner rid then park rid port tx (.ledger e.owner) s
  else atomicAtTile rid port tx e (ledgerTake tx (oSlot tx.offset) e.owner s)

/-- Whether a source's entries have been pulled from an old home. -/
def pulledFrom (s : State) (old : Node) (k : Node × Nat) : Bool := s.ext.pulledSrc.any (fun x => x.1 == old && x.2.1 == k.1 && x.2.2 == k.2)

/-- Whether a source's history was lost with the home that a slot's extent was taken from (R100). -/
def historyLost (s : State) (slot : Nat) (k : Node × Nat) : Bool :=
  match extOf s slot with
  | some { lostFrom := some old, .. } => !pulledFrom s old k
  | _ => false

/-- Before a source's first atomic at a new home, its ledger entries are pulled from the old one (R54). -/
def needLedgerPull (s : State) (slot : Nat) (k : Node × Nat) : Option Extent :=
  match extOf s slot with
  | some e => if e.state == .arriving && !thas s.ext.adopted slot && !pulledFrom s e.fwdNode k then some e else none
  | none => none

/-- Whether another request holds the PENDING entry of an atomic. -/
def heldByOther (s : State) (rid : Nat) (tx : Tx) : Bool :=
  let same (t : Tx) : Bool := t.op == 0x04 && atomSource t == atomSource tx && t.tag == tx.tag
  s.home.parked.any (fun p => p.id ≠ rid && same p.tx && hasEntry p.why) ||
  s.home.busy.any (fun b => match b.why with | .request i _ t => i ≠ rid && same t | _ => false)

/-- An atomic that has waited (R69, R95, R97, R99): looked up again, it is answered from a DONE entry, waits for the original
of its entry, or goes on. -/
def atomicAgain (rid port : Nat) (tx : Tx) (s : State) : State :=
  let chk (p : Nat) (e : Extent) (t : State) : Chk := checkWrite t p e tx.version.toNat
  match ledgerFor s tx with
  | some l =>
    if l.done then answerAtomic tx l.status l.result s
    else if heldByOther s rid tx then park rid port tx (.pending l.src l.sub tx.tag) s
    else meet false rid port tx chk (fun _ e t => atomicAtTile rid port tx e t) s
  | none => meet false rid port tx chk (fun _ e t => atomicNew rid port tx e t) s

/-- ATOMIC: the acknowledgement it carries after check 1 (R91), the block's codes (R86), check 2, then the
lookup of check 3 with RETRY (R99). That the codes are looked at there, and that a DONE entry answers a retry while its
partition is being reset, the manual leaves open (DESIGN CHOICE, log entry 157). -/
def serveAtomic (fresh : Bool) (rid port : Nat) (tx : Tx) (s : State) : State :=
  let v := tx.trailer.val
  let k := atomSource tx
  if !fresh then atomicAgain rid port tx s
  else match check1 tx s with
    | some st => answerAtomic tx st 0 s
    | none =>
      let s1 := if abAckValid v then processAck k (abAck v) s else s
      if !aopOk (abAop v) (abSize v) then answerAtomic tx .opcode 0 s1
      else if !epochLive s1 tx.mapEpoch then answerAtomic tx .mapStale 0 s1
      else match ledgerFind s1 k tx.tag with
        | some l =>
          if l.done then answerAtomic tx l.status l.result s1
          else park rid port tx (.pending k.1 k.2 tx.tag) s1
        | none =>
          match needLedgerPull s1 (oSlot tx.offset) k with
          | some e => park rid port tx (.pull (oSlot tx.offset) 4194304) (askLedger e k s1)
          | none =>
            if abRetry v = 2 ∨ (abRetry v = 1 ∧ historyLost s1 (oSlot tx.offset) k) then answerAtomic tx .outcomeUnknown 0 s1
            else meet true rid port tx (fun p e t => checkWrite t p e tx.version.toNat) (fun _ e t => atomicNew rid port tx e t) s1

/-- ATOMIC_ACK (R91, R92). -/
def serveAck (tx : Tx) (s : State) : State :=
  match check1 tx s with
  | some _ => s
  | none => processAck (atomSource tx) tx.version s

/-! ## FENCE (R82) -/

/-- FENCE: answered once nothing earlier of its source is outstanding (R82); a port that no partition holds is refused
(R24, R25). -/
def serveFence (fresh : Bool) (rid port : Nat) (tx : Tx) (s : State) : State :=
  match check1 tx s with
  | some st => answer tx st s
  | none =>
    if fresh && (bindPart s port tx).isNone then answer tx .noAccess s
    else if outstanding s tx.src rid then park rid port tx (.fence tx.src) s
    else answer tx .ok s

/-! ## Coherence requests (R58, R68) -/

/-- The lowest free agent index (R60). -/
def freeAgent (used : List Nat) : Nat → Nat → Nat
  | 0, a => a
  | n + 1, a => if used.contains a then freeAgent used n (a + 1) else a

/-- Agent indices that are not free: those of holders, and those that entries may still name (R60, R72). -/
def agentsUsed (e : Extent) : List Nat := e.holders.filterMap (·.agent) ++ e.dead

/-- A caching holder without an agent index receives one (R60, R388, R419). -/
def ensureAgent (slot : Nat) (n : Node) (s : State) : State :=
  modExt slot (fun e =>
    let used := agentsUsed e
    { e with holders := e.holders.map (fun h =>
        if h.node = n ∧ h.caching ∧ h.agent.isNone then { h with agent := some (freeAgent used 512 0) } else h) }) s

/-- A request that needs a new entry in a full set first has one evicted (R66). -/
def makeRoom (rid port : Nat) (tx : Tx) (e : Extent) (s : State) (go : State → State) : State :=
  let slot := oSlot tx.offset
  let tile := oTile tx.offset
  if (dirOf s slot tile).isSome then go s
  else match evictChoice s e.owner (tkey slot tile) with
    | .room => go s
    | .busy => park rid port tx (.dirSet e.owner) s
    | .evict key =>
      let vs := keySlot key
      let vt := keyTile key
      match extOf s vs with
      | none => go (delDir vs vt s)
      | some ve => park rid port tx (.dirSet e.owner)
          (tryFinish vs vt (startRecalls vs vt ve .evict (writeRecalls ve (dirOf s vs vt)) s))

/-- RD_SHARED, RD_OWN and UPGRADE at the home (R68). A poisoned tile fails at once (R71). -/
def serveCache (fresh : Bool) (rid port : Nat) (tx : Tx) (writes : Bool)
    (need : Extent → Option DirEntry → Nat → List (Nat × Bool)) (s : State) : State :=
  meet fresh rid port tx (fun p e t => checkCache t p e tx.src writes) (fun _ _ t0 =>
    let slot := oSlot tx.offset
    let t := ensureAgent slot tx.src t0
    match extOf t slot with
    | none => t
    | some e =>
      match agentOf e tx.src with
      | none => failReq tx .noAccess t
      | some a =>
        if poisoned t slot (oTile tx.offset) && !isBusy t slot (oTile tx.offset) then failReq tx .poison t
        else makeRoom rid port tx e t (atTiles false rid port tx e (fun u i => need e (dirOf u slot i) a))) s

/-- MARK_DIRTY at a tile that is not BUSY: from E it makes M, with a log record; otherwise it is discarded (R68). -/
def markDirty (tx : Tx) (s : State) : State :=
  let slot := oSlot tx.offset
  let tile := oTile tx.offset
  match extOf s slot, dirOf s slot tile with
  | some e, some d =>
    match agentOf e tx.src with
    | some a => if ownsIt d a && d.state == .e then addLog slot tile e tx.src (setDir slot tile { d with state := .m } s) else s
    | none => s
  | _, _ => s

/-- EVICT_CLEAN at a tile that is not BUSY: an S or E holder leaves an entry that names it exactly (R65, R68). -/
def evictClean (tx : Tx) (s : State) : State :=
  let slot := oSlot tx.offset
  let tile := oTile tx.offset
  match extOf s slot, dirOf s slot tile with
  | some e, some d =>
    match agentOf e tx.src with
    | some a =>
      if ownsIt d a then (if d.state = .e then removeAgent slot tile a s else s)
      else if isSharer a d.sharers then removeAgent slot tile a s
      else s
    | none => s
  | _, _ => s

/-- MARK_DIRTY and EVICT_CLEAN wait for a BUSY tile as requests do (R69); they are never refused for their epoch (R354). -/
def serveNote (go : Tx → State → State) (rid port : Nat) (tx : Tx) (s : State) : State :=
  if (check1 tx s).isSome ∨ (extOf s (oSlot tx.offset)).isNone then s else inTurn rid port tx (go tx) s

/-- Answer a write-back (R62). -/
def wbAck (tx : Tx) (st : St) (s : State) : State :=
  send { blankTx s with dst := tx.src, op := 0x1D, status := stCode st, tag := tx.tag, offset := tx.offset, length := 1,
                        ptag := tx.ptag } s

/-- WB_DIRTY (R68, R69, R485): from the owner in M or O it is written at once, even while the tile is BUSY;
from another agent it is discarded with ST_STATE. -/
def serveWb (fresh : Bool) (rid port : Nat) (tx : Tx) (s : State) : State :=
  meet fresh rid port tx (fun p e t => checkCache t p e tx.src true) (fun _ e t =>
    let slot := oSlot tx.offset
    let tile := oTile tx.offset
    let owner : Bool := match dirOf t slot tile, agentOf e tx.src with
      | some d, some a => ownsIt d a && (d.state == .m || d.state == .o)
      | _, _ => false
    if owner then
      match backingWrite {} slot tile e (tx.tiles.headD zeroTile) t with
      | .done t1 =>
        wbAck tx .ok (match agentOf e tx.src with | some a => removeAgent slot tile a t1 | none => t1)
      | .fail st t1 => wbAck tx st t1
      | .wait w t1 => park rid port tx w t1
    else inTurn rid port tx (wbAck tx .state) t) s

/-- RECALL_ACK and RECALL_DATA (R68, R69): the recall is found by its tag and source; an answer that comes
too late is discarded (R70). -/
def serveRecallAnswer (tx : Tx) (data : Option Tile) (s : State) : State :=
  let slot := oSlot tx.offset
  let tile := oTile tx.offset
  match busyOf s slot tile with
  | none => s
  | some b =>
    match b.recalls.find? (fun r => r.tag == tx.tag && r.node == tx.src) with
    | none => s
    | some r => tryFinish slot tile (recallAnswered slot tile r data s)

/-! ## INVALIDATE (R76, R77) -/

/-- The switch of the geyser by which a holder is reached: the peer of the trunk that the route to it leaves by (R76). -/
def nextSwitch (s : State) (n : Node) : Option Node :=
  match routePort s { blankTx s with dst := n, cls := 4 } with
  | none => none
  | some p => match portOf s p with
    | some { peer := some (m, _, _), .. } => if portRole s p = .trunk ∧ m ≠ n then some m else none
    | _ => none

/-- The branches of the geyser below this device for a list of holders: the switches that stand for some of them. What comes
from a switch does not go back to it. -/
def branchesOf (s : State) (up : Option Tx) (hosts : List Node) : List (Node × List Node) :=
  let hop (n : Node) : Option Node := match nextSwitch s n, up with
    | some m, some tx => if m = tx.src then none else some m
    | r, _ => r
  (hosts.filterMap hop).eraseDups.map (fun m => (m, hosts.filter (fun n => hop n == some m)))

/-- The INVALIDATE that goes down the geyser, but for its destination. -/
def invalTx (i : Inval) (s : State) : Tx :=
  { blankTx s with op := 0x20, cls := 4, tag := BitVec.ofNat 16 i.id, offset := mkOffset i.slot i.tile 0, length := i.count,
                   qual := if i.whole then 1 else 0 }

/-- The partition that tags an INVALIDATE for a holder. -/
def invalPart (i : Inval) (n : Node) (s : State) : Nat :=
  match i.up with
  | some tx => tx.ptag
  | none => match extOf s i.slot with | some e => holderPart e n | none => 0

/-- Send an INVALIDATE to the holders that no switch stands for, and one to each branch (R76). -/
def sendInvals (i : Inval) (s : State) : State :=
  let direct := i.waiting.filter (fun n => !i.branches.any (fun b => b.2.contains n))
  let s1 := direct.foldl (fun t n => send { invalTx i t with dst := n, ptag := invalPart i n t } t) s
  i.branches.foldl (fun t b => send { invalTx i t with dst := b.1, targets := b.2, ptag := invalPart i (b.2.headD 0) t } t) s1

/-- An INVALIDATE ends: its writer is answered with the count of holders that answered; those that did not are
named (R77); a force goes on to its quiescence (R44); one that came down the geyser is answered up it with its own count
(R76). -/
def endInval (i : Inval) (s : State) : State :=
  let s1 : State := { s with ext := { s.ext with invals := s.ext.invals.filter (fun x => x.id ≠ i.id) } }
  let n := BitVec.ofNat 32 i.answered
  match i.up with
  | some tx => answerVersion tx .ok n s1
  | none =>
    let s2 := if i.waiting.isEmpty then s1
      else post .invalidateUnanswered (some (ownerOf s i.slot)) (i.slot :: i.waiting.map (·.toNat)) s1
    match i.writer with
    | some (_, tx) => answerVersion tx .ok n s2
    | none => s2

/-- Start an INVALIDATE. -/
def startInval (i : Inval) (s : State) : State :=
  let j := { i with id := s.ext.nextId, branches := branchesOf s i.up i.waiting }
  let s1 : State := { s with ext := { s.ext with nextId := s.ext.nextId + 1, invals := s.ext.invals ++ [j] } }
  let s2 := sendInvals j s1
  if j.waiting.isEmpty then endInval j s2 else s2

/-- INVALIDATE from a writer (R58, R76): it is delivered once the stores before it on its flow have taken effect (R78). -/
def serveInval (fresh : Bool) (rid port : Nat) (tx : Tx) (s : State) : State :=
  meet fresh rid port tx (fun p e _ =>
      if e.mode ≠ .sharedRead then .refuse .state else if p ≠ e.owner then .refuse .noAccess else .ok)
    (fun _ e t =>
      if storesBefore t tx.src tx.cls rid then park rid port tx (.stores tx.src tx.cls) t
      else startInval { id := 0, slot := oSlot tx.offset, tile := oTile tx.offset, count := tx.length,
                        whole := tx.qual.getLsbD 0, writer := some (port, tx), force := none,
                        waiting := (e.holders.map (·.node)).filter (· ≠ tx.src), answered := 0 } t) s

/-- INVALIDATE that comes down the geyser: this device replicates it to the holders below it (R76). -/
def serveGeyser (tx : Tx) (s : State) : State :=
  match check1 tx s with
  | some st => answer tx st s
  | none => startInval { id := 0, slot := oSlot tx.offset, tile := oTile tx.offset, count := tx.length, whole := tx.qual.getLsbD 0,
                         writer := none, force := none, waiting := tx.targets, answered := 0, up := some tx } s

/-- Some elements of a list, so many, which ones free. -/
def pickOut : Nat → Nat → List Node → List Node
  | 0, _, _ => []
  | n + 1, f, l => match l[(Config.freeWord f).toNat % l.length]? with
    | none => []
    | some x => x :: pickOut n (f + 1) (l.erase x)

/-- What an answer makes of an INVALIDATE: one holder's, or a switch's that counts those below it which have answered. Where
it counts fewer than it stands for, which of them answered is not stated (free; log entry 36). -/
def invalAnswered (n : Node) (count : Nat) (i : Inval) (s : State) : Inval × State :=
  match i.branches.find? (fun b => b.1 == n) with
  | some b =>
    let below := i.waiting.filter b.2.contains
    let k := min count below.length
    let got := if k = below.length then below else pickOut k s.free below
    ({ i with waiting := i.waiting.filter (fun x => !got.contains x), branches := i.branches.filter (fun x => x.1 ≠ n),
              answered := i.answered + k }, { s with free := if k = below.length then s.free else s.free + k })
  | none =>
    if i.waiting.contains n then ({ i with waiting := i.waiting.filter (· ≠ n), answered := i.answered + 1 }, s) else (i, s)

/-- An answer to an INVALIDATE (R76, R77). -/
def serveInvalAnswer (tx : Tx) (s : State) : State :=
  match s.ext.invals.find? (fun i => BitVec.ofNat 16 i.id == tx.tag) with
  | none => s
  | some i =>
    let (j, s0) := invalAnswered tx.src tx.version.toNat i s
    let s1 : State := { s0 with ext := { s0.ext with invals := s0.ext.invals.map (fun x => if x.id = i.id then j else x) } }
    if j.waiting.isEmpty then endInval j s1 else s1

/-! ## Versions (R107 to R113) -/

/-- Set or clear a holder's pin of a record (R105). -/
def setPin (slot : Nat) (n : Node) (i : Nat) (on : Bool) (s : State) : State :=
  let m : BitVec 8 := BitVec.ofNat 8 (1 <<< i)
  modExt slot (fun e => { e with holders := e.holders.map (fun h =>
    if h.node = n then { h with pins := if on then h.pins ||| m else h.pins &&& ~~~ m } else h) }) s

/-- SNAP_OPEN (R107). -/
def serveOpen (fresh : Bool) (rid port : Nat) (tx : Tx) (s : State) : State :=
  meet fresh rid port tx (fun _ e _ => if e.mode = .versioned then .ok else .refuse .state) (fun part e t =>
    let slot := oSlot tx.offset
    let part := if fresh then part else (bindPart t port tx).getD part
    if tx.qual.getLsbD 0 then
      if !leaseHolder e part then answer tx .state t
      else if e.openV ≠ 0 then
        if layerOpen e then answerVersion tx .ok (BitVec.ofNat 32 e.openV) t else answer tx .state t
      else if liveCount e < 8 ∧ e.latest < 0xFFFFFFFF then
        let v := e.latest + 1
        let l : Layer := { version := v, sealEvent := 0, tilesWritten := 0, state := .opened, writer := part }
        answerVersion tx .ok (BitVec.ofNat 32 v) (setExt slot (noted t { e with openV := v, layers := addLayer l e.layers }) t)
      else answer tx .state t
    else
      let v := if tx.version = 0 then e.latest else tx.version.toNat
      match (if sealedLive e v then layerIdx e v else none) with
      | some i => answerVersion tx .ok (BitVec.ofNat 32 v) (setPin slot tx.src i true t)
      | none => answer tx .state t) s

/-- SNAP_CLOSE (R107, R110, R113). -/
def serveClose (fresh : Bool) (rid port : Nat) (tx : Tx) (s : State) : State :=
  meet fresh rid port tx (fun _ e _ => if e.mode = .versioned then .ok else .refuse .state) (fun part e t =>
    let slot := oSlot tx.offset
    let part := if fresh then part else (bindPart t port tx).getD part
    let v := tx.version.toNat
    if tx.qual.getLsbD 0 then
      if leaseHolder e part && v ≠ 0 && v == e.openV && layerOpen e && e.publishing.isNone then
        answerVersion tx .ok tx.version (startDiscard slot t)
      else answer tx .state t
    else match holderOf e tx.src, layerIdx e v with
      | some h, some i =>
        if pinsV e h v && sealedLive e v then answerVersion tx .ok tx.version (dropDead slot (setPin slot tx.src i false t))
        else answer tx .state t
      | _, _ => answer tx .state t) s

/-- Whether the open layer of a slot has drained: no write to it waits at the home past check 9, and no item
that writes it runs (R108, R113). -/
def drained (s : State) (slot : Nat) (e : Extent) : Bool :=
  !(s.home.parked.any (fun p => oSlot p.tx.offset == slot && p.tx.version.toNat == e.openV &&
      (p.tx.op == 0x02 || p.tx.op == 0x03 || p.tx.op == 0x04) &&
      (match p.why with | .publish _ => false | .fence _ => false | .pending _ _ _ => false | _ => true))) &&
  !itemWrites s slot e.openV

/-- The seal step (R108): in one step the layer is SEALED, it is the latest, and the former latest dies unless
still live; LAYER_PUBLISHED goes to every holder, and the writes held for it complete with ST_STATE. -/
def sealStep (slot : Nat) (e : Extent) (s : State) : State :=
  let v := e.openV
  let q := s.mgmt.eventSeq
  let s1 := setExt slot (noted s { e with
    latest := v, openV := 0, publishing := none,
    layers := e.layers.map (fun l => if l.version = v then { l with state := .sealed, sealEvent := q } else l) }) s
  let s2 := postAll .layerPublished e.owner [slot, v] 0x06 slot (e.holders.map (·.node)) (fun _ => BitVec.ofNat 32 v)
    (dropDead slot s1)
  let s3 := match e.publishing with
    | some (.host _ tx) => answer tx .ok s2
    | _ => s2
  let held := s3.home.parked.filter (fun p => p.why == .publish slot)
  held.foldl (fun t p => unpark p.id (failWait p .state t)) s3

/-- PUBLISH (R107, R108): the seal step follows once the layer has drained. -/
def servePublish (fresh : Bool) (rid port : Nat) (tx : Tx) (s : State) : State :=
  meet fresh rid port tx (fun p e _ =>
      if e.mode ≠ .versioned then .refuse .state
      else if leaseHolder e p && tx.version ≠ 0 && tx.version.toNat == e.openV && layerOpen e && e.publishing.isNone
      then .ok else .refuse .state)
    (fun _ e t => setExt (oSlot tx.offset) { e with publishing := some (.host port tx) } t) s

/-! ## Rehoming messages (R54, R55) -/

/-- A tile's state as PULL_STATE moves it (R54). -/
def pullTile (slot tile : Nat) (e : Extent) (withData : Bool) (s : State) : PullTile × State :=
  let d := dirOf s slot tile
  let key := tkey slot tile
  let h := tget s.vers.heads key
  let dirty := match tget s.pool.cache key with | some l => l.dirty | none => false
  let r := if (withData || dirty) && !poisoned s slot tile && !stillZero e tile then backingRead slot tile e s
           else (.error .ok, s)
  ({ tile := tile,
     dstate := match d with | none => 0 | some x => (match x.state with | .i => 0 | .s => 1 | .e => 2 | .m => 3 | .o => 4),
     owner := match d with | none => 0 | some x => x.owner,
     ptrs := match d with | some { sharers := .ptrs l, .. } => l | _ => [],
     groups := match d with | some { sharers := .groups g, .. } => some g | _ => none,
     poison := poisoned s slot tile, zero := stillZero e tile,
     backVersion := h.map (·.backVersion),
     copies := match h with
       | none => []
       | some x => x.copies.map (fun c => (c.til, c.content, match c.content with
         | .sinter k => (match (storedAt (sinterSpot s slot tile k) s).1 with | .ok t => some t | .error _ => none)
         | _ => none)),
     data := match r.1 with | .ok t => some t | .error _ => none }, r.2)

/-- A layer's state as a code. -/
def layerCode : LayerState → Nat
  | .free => 0 | .opened => 1 | .sealed => 2 | .discarding => 3

/-- A layer's state from its code. -/
def layerOf (n : Nat) : LayerState :=
  match n with | 1 => .opened | 2 => .sealed | 3 => .discarding | _ => .free

/-- A mode's code (R32). -/
def modeCode : Mode → Nat
  | .priv => 0 | .coherent => 1 | .sharedRead => 2 | .versioned => 3

/-- A mode from its code. -/
def modeOf (n : Nat) : Mode :=
  match n % 4 with | 0 => .priv | 1 => .coherent | 2 => .sharedRead | _ => .versioned

/-- HOLDER_STATE's code (R33), and the state from its code. -/
def holderCode : HolderState → Nat
  | .attached => 0 | .noticed => 1 | .forced => 2
def holderStateOf (n : Nat) : HolderState :=
  match n with | 1 => .noticed | 2 => .forced | _ => .attached

/-- The extent's own state as PULL_STATE moves it (R54, R56). -/
def pullExt (e : Extent) (s : State) : PullExt :=
  { mode := modeCode e.mode, deadline := e.deadline, owner := e.owner, latest := e.latest, openV := e.openV,
    leasePart := e.leasePart, leaseValid := e.leaseValid,
    holders := e.holders.map (fun h => { node := h.node, hstate := holderCode h.hstate, caching := h.caching, part := h.part,
                                         agent := h.agent, pins := h.pins }),
    layers := e.layers.map (fun l => { version := l.version, sealEvent := l.sealEvent, tilesWritten := l.tilesWritten,
                                       code := layerCode l.state, writer := l.writer }),
    modules := match groupOf s e.group with | some g => g.modules | none => [], base := e.base }

/-- The ledger entries of a source as PULL_STATE moves them. -/
def pullEntries (s : State) (k : Node × Nat) : List PullEntry :=
  (s.ledger.entries.filter (fun l => isOf k l && !l.doomed)).map (fun l =>
    { src := l.src, sub := l.sub, tag := l.tag, aseq := l.aseq, status := stCode l.status, result := l.result, aop := l.aop,
      size := l.size, slot := l.slot })

/-- Whether a source has an atomic that is PENDING. -/
def pendingOf (s : State) (k : Node × Nat) : Bool := s.ledger.entries.any (fun l => isOf k l && !l.done)

/-- PULL_STATE at the old home (R54): the extent, once a publication in progress has ended; a source's ledger entries, once its
PENDING atomics have completed; or one tile, which is then handed over, after the requests for it (DESIGN CHOICE, log entry
158). One that was handed over before is answered with the same state again (R332; log entry 169). -/
def servePull (rid port : Nat) (tx : Tx) (s : State) : State :=
  let slot := oSlot tx.offset
  let tile := oTile tx.offset
  match extOf s slot with
  | none => answer tx .noAccess s
  | some e =>
    if e.state ≠ .migrating then answer tx .state s
    else if tx.qual.getLsbD 0 then
      if e.publishing.isSome then park rid port tx (.sealing slot) s else
      send { answerTx s tx .ok with qual := tx.qual, body := some { ext := some (pullExt e s), tiles := [], ledger := [] } } s
    else if tx.qual.getLsbD 1 then
      let k : Node × Nat := (BitVec.ofNat 16 (tx.trailer.val / 32), tx.trailer.val % 32)
      if pendingOf s k then park rid port tx (.ledgerOf k.1 k.2) s else
      send { answerTx s tx .ok with
        qual := tx.qual, trailer := tx.trailer, body := some { ext := none, tiles := [], ledger := pullEntries s k } } s
    else
      let give (p : PullTile) (t : State) : State :=
        send { answerTx t tx .ok with qual := tx.qual, body := some { ext := none, tiles := [p], ledger := [] } } t
      match tget s.ext.handed (tkey slot tile) with
      | some p => give p s
      | none =>
        if isBusy s slot tile || waitersBefore s rid slot tile then park rid port tx (.tile slot tile) s
        else
          let (p, s1) := pullTile slot tile e (tx.qual.getLsbD 2) s
          give p (delLog slot tile (delDir slot tile { s1 with ext := { s1.ext with handed := tset s1.ext.handed (tkey slot tile) p } }))

/-- A tile's state once its data lies in the backing (R54): version records, marks, directory entry. A tile whose data stays in
a backing that both homes have holds there what the old home has written. -/
def takeMarks (slot : Nat) (e : Extent) (p : PullTile) (s : State) : State :=
  let key := tkey slot p.tile
  let s1 := takeHead slot e.owner p { s with ext := { s.ext with pulled := tset s.ext.pulled key (), asked := tdel s.ext.asked key } }
  let s2 := if p.data.isSome || p.zero then s1 else foreignUnit slot p.tile e (touchTile slot p.tile s1)
  let s3 := if p.poison then setPoison slot p.tile s2 else s2
  let sh : Sharers := match p.groups with | some g => .groups g | none => .ptrs p.ptrs
  let put (st : DState) : State := putDir slot p.tile st p.owner sh s3
  match p.dstate with
  | 1 => put .s
  | 2 => put .e
  | 3 => (match nodeOfAgent e p.owner with | some n => addLog slot p.tile e n (put .m) | none => put .m)
  | 4 => (match nodeOfAgent e p.owner with | some n => addLog slot p.tile e n (put .o) | none => put .o)
  | _ => s3

/-- Take a tile's state at the new home (R54), once. Data that must wait for space keeps the tile untaken; data that cannot be
stored leaves the tile to the status that the pool gives. -/
def takeTile (slot : Nat) (p : PullTile) (s : State) : State :=
  match extOf s slot with
  | none => s
  | some e =>
    let hold (y : State) : State :=
      { y with ext := { y.ext with held := y.ext.held.filter (fun h => !(h.1 == slot && h.2.tile == p.tile)) ++ [(slot, p)] } }
    if !needPull s slot p.tile e then s
    else if copiesWait s e.owner p then hold (waitJournal e.owner s)
    else match p.data with
      | none => takeMarks slot e p s
      | some t => match backingWrite {} slot p.tile e t s with
        | .done x => takeMarks slot e p x
        | .fail _ x => takeMarks slot e p x
        | .wait _ x => hold x

/-- Whether the backing of an extent differs from the one at the old home (R54). -/
def backingDiffers (s : State) (e : Extent) (p : PullExt) : Bool :=
  !(e.base == p.base && match groupOf s e.group with | some g => g.modules == p.modules | none => false)

/-- Take the extent's own state at the new home, once (R54, R56). -/
def takeExt (slot : Nat) (p : PullExt) (s : State) : State :=
  modExt slot (fun e => if e.known then e else noted s { e with
    known := true, mode := modeOf p.mode, owner := p.owner, latest := p.latest, openV := p.openV, leasePart := p.leasePart,
    leaseValid := p.leaseValid, deadline := p.deadline, differs := backingDiffers s e p,
    holders := p.holders.map (fun h => { node := h.node, hstate := holderStateOf h.hstate, caching := h.caching, part := h.part,
                                         agent := h.agent, pins := h.pins }),
    layers := p.layers.map (fun l => { version := l.version, sealEvent := l.sealEvent, tilesWritten := l.tilesWritten,
                                       state := layerOf l.code, writer := l.writer }) }) s

/-- A ledger entry that came from an old home, in the area of a partition; the extent that has moved is at its new slot. -/
def takeEntry (p : Nat) (old : Node) (was slot : Nat) (l : PullEntry) : LEntry :=
  { src := l.src, sub := l.sub, tag := l.tag, aseq := l.aseq, status := stOf l.status, result := l.result,
    aop := l.aop, size := l.size, done := true, slot := if l.slot = was then slot else l.slot, area := p, old := some old }

/-- A source's ledger entries arrive, in the area of the arriving extent's owner, whose room is not looked at (DESIGN CHOICE,
log entry 157); the old home keeps its copies until they are acknowledged (R54, R100). -/
def takeLedger (slot : Nat) (e : Extent) (key : Nat) (ls : List PullEntry) (s : State) : State :=
  let k : Node × Nat := (BitVec.ofNat 16 (key / 32), key % 32)
  if pulledFrom s e.fwdNode k then s
  else { s with
    ext := { s.ext with pulledSrc := s.ext.pulledSrc ++ [(e.fwdNode, k.1, k.2)],
                        askedSrc := s.ext.askedSrc.filter (· ≠ (e.fwdNode, k.1, k.2)) },
    ledger := { s.ledger with entries := s.ledger.entries ++ ls.map (takeEntry e.owner e.fwdNode e.fwdSlot slot) } }

/-- The slot of an ARRIVING extent whose old home and slot a message names. -/
def arrivingSlot (s : State) (n : Node) (slot : Nat) : Option Nat :=
  (s.ext.entries.find? (fun x => x.2.state == .arriving && x.2.fwdNode == n && x.2.fwdSlot == slot)).map (·.1)

/-- When every tile has been taken, the extent is ACTIVE and REHOME_DONE is posted. -/
def rehomeCheck (slot : Nat) (s : State) : State :=
  let n := (s.ext.pulled.filter (fun x => keySlot x.1 == slot)).length
  match extOf s slot with
  | some e =>
    if e.state = .arriving ∧ 4194304 ≤ n then
      let s1 := modExt slot (fun x => noted s { x with state := .active, fwdNode := 0, fwdSlot := 0 }) s
      let left := tdrop s.ext.pulled (fun k => keySlot k == slot)
      let x : ExtMap := { s1.ext with pulled := left, adopted := tdel s.ext.adopted slot }
      post .rehomeDone (some e.owner) [slot] { s1 with ext := x }
    else s
  | none => s

/-- The requests that a pull has held and that its state lets go on. -/
def pullsDone (s : State) (slot : Nat) : List Parked :=
  match extOf s slot with
  | none => []
  | some e => s.home.parked.filter (fun p => match p.why with
    | .pull sl t => sl == slot && (if t = 4194305 then e.known
        else if t = 4194304 then (needLedgerPull s slot (atomSource p.tx)).isNone else !needPull s slot t e)
    | _ => false)

/-- A PULL_STATE response at the new home (R54): its state is taken, and the requests that waited for it are
named for serving. One that brings nothing lets the tile be asked for again. -/
def servePullAnswer (tx : Tx) (s : State) : List Parked × State :=
  match arrivingSlot s tx.src (oSlot tx.offset), tx.body with
  | some slot, some b =>
    let s1 := match b.ext with | some p => takeExt slot p s | none => s
    let s2 := b.tiles.foldl (fun t p => takeTile slot p t) s1
    let s3 := match extOf s2 slot with
      | some e => if tx.qual.getLsbD 1 then takeLedger slot e tx.trailer.val b.ledger s2 else s2
      | none => s2
    (pullsDone s3 slot, rehomeCheck slot s3)
  | some slot, none => ([], { s with ext := { s.ext with
      asked := tdel s.ext.asked (tkey slot (oTile tx.offset)),
      askedSrc := if tx.qual.getLsbD 1 then s.ext.askedSrc.filter (fun x => x.1 ≠ tx.src) else s.ext.askedSrc } })
  | none, _ => ([], s)

/-- YIELD (R55): the lower device sets its entry to MIGRATING toward the higher. -/
def serveYield (tx : Tx) (s : State) : State :=
  let slot := oSlot tx.offset
  match extOf s slot with
  | some e =>
    if e.homeEpoch.toNat < tx.version.toNat ∧ (e.state = .active ∨ e.state = .migrating ∨ e.state = .arriving) then
      setExt slot (noted s { e with state := .migrating, fwdNode := tx.src }) s
    else if tx.version.toNat < e.homeEpoch.toNat ∧ e.state = .migrating then setExt slot (noted s { e with state := .active }) s
    else s
  | none => s

end Sys2Proof.Machine
end

