-- ==== Sys2Proof/Machine/Queues.lean ====
section
/-! DEFINITION. Queues: the window (R151 to R157), the descriptor's fields (R158), engine accesses to tiles of
this home (R57, R68), failure areas (R169, R170), completion records (R165 to R167), halting (R171) and the
tagging of items (R460, R461). -/

namespace Sys2Proof.Machine

/-! ## Descriptor fields (R158) -/

def dFailArea (d : BitVec 512) : Word64 := BitVec.ofNat 64 (fld d 191 128)
def dFailCap (d : BitVec 512) : Nat := fld d 63 40
def dOpcode (d : BitVec 512) : Nat := fld d 39 32
def dEngine (d : BitVec 512) : Nat := fld d 31 28
def dHaltOnError (d : BitVec 512) : Bool := d.getLsbD 27
def dNotify (d : BitVec 512) : Bool := d.getLsbD 26
def dOrdered (d : BitVec 512) : Bool := d.getLsbD 25
def dBarrier (d : BitVec 512) : Bool := d.getLsbD 24
def dUserTag (d : BitVec 512) : Nat := fld d 23 8

/-! ## Queues -/

/-- A queue in use. -/
def queueOf (s : State) (q : Nat) : Option Queue := tget s.queues.queues q

/-- Change a listed queue. -/
def modQueue (q : Nat) (f : Queue → Queue) (s : State) : State :=
  { s with queues := { s.queues with queues := tmod s.queues.queues q f } }

/-- D of a queue (R149). -/
def depthOf (q : Queue) : Nat := 2 ^ q.depthLog2

/-- A command of a queue by its sequence. -/
def cmdOf (q : Queue) (c : Word32) : Option Cmd := q.cmds.find? (fun x => x.seq == c)

/-- Change a command of a queue. -/
def modCmd (q : Nat) (c : Word32) (f : Cmd → Cmd) (s : State) : State :=
  modQueue q (fun x => { x with cmds := x.cmds.map (fun y => if y.seq = c then f y else y) }) s

/-! ## The window (R151 to R157) -/

def wQueue (o : BitVec 48) : Nat := fld o 47 36
def wRegion (o : BitVec 48) : Nat := fld o 35 34
def wTile (o : BitVec 48) : Nat := fld o 33 8
def wByte (o : BitVec 48) : Nat := fld o 7 0

/-- The queue that a window transaction may address: only its submitter's, under its partition (R151). -/
def windowQueue (port : Nat) (tx : Tx) (s : State) : Option Queue :=
  match queueOf s (wQueue tx.offset) with
  | none => none
  | some q =>
    if q.state ≠ .unassigned ∧ q.submitter = tx.src ∧ bindPart s port tx = some q.part then some q else none

/-- The states of a queue as numbers (R157). -/
def qstateCode : QState → Nat
  | .unassigned => 0 | .active => 1 | .halted => 2 | .reset => 3 | .disabled => 4

/-- The status tile (R157). -/
def statusTile (q : Queue) : Block :=
  BitVec.ofNat 2048 (put q.head.toNat 224 + put q.tail.toNat 192 + put q.cqHead.toNat 160 + put q.haltSeq.toNat 128 +
    put (qstateCode q.state) 124 + put q.engine 120 + put q.submitter.toNat 104 + put q.depthLog2 99 + put q.prio 97)

/-- A tile of the descriptor ring: four slots. -/
def ringTile (q : Queue) (t : Nat) : Block :=
  BitVec.ofNat 2048 ((List.range 4).foldl (fun n i => n + put (tgetD q.ring (4 * t + i) 0).toNat (512 * i)) 0)

/-- A tile of the completion ring: eight slots. -/
def cqTile (q : Queue) (t : Nat) : Block :=
  BitVec.ofNat 2048 ((List.range 8).foldl (fun n i => n + put (tgetD q.cq (8 * t + i) 0).toNat (256 * i)) 0)

/-- CMD_PUSH (R153): descriptors placed from WTILE and BYTE onward, wrapping. What is stored is free where BYTE is no multiple
of 64, which lies outside its encoding (R9; log entry 13), and in a slot whose descriptor has not been read, which is a race
of the host's own stores (R154). -/
def servePush (port : Nat) (tx : Tx) (s : State) : State :=
  match check1 tx s with
  | some st => answer tx st s
  | none =>
    match windowQueue port tx s with
    | none => answer tx .noAccess s
    | some q =>
      let d := depthOf q
      if wRegion tx.offset ≠ 0 ∨ d / 4 ≤ wTile tx.offset then answer tx .noAccess s
      else
        let n := tx.version.toNat % 128
        let at_ (i : Nat) : Nat := (wTile tx.offset * 4 + wByte tx.offset / 64 + i) % d
        let ring := (List.range n).foldl (fun r i =>
          let v : BitVec 512 := if wByte tx.offset % 64 ≠ 0 ∨ thas q.unread (at_ i) then BitVec.ofNat 512 (Config.freeBlock (s.free + i)).toNat
                                else BitVec.ofNat 512 (tx.trailer.val >>> (512 * i))
          if v = 0 then tdel r (at_ i) else tset r (at_ i) v) q.ring
        let marks := (List.range n).foldl (fun t i => tset t (at_ i) ()) q.unread
        answer tx .ok (modQueue (wQueue tx.offset) (fun x => { x with ring := ring, unread := marks }) { s with free := s.free + n })

/-- Whether the counters of a doorbell are refused (R156). -/
def doorbellBad (q : Queue) (tail cq : Word32) : Bool :=
  precedes tail q.tail || precedes cq q.cqHead || precedes tail cq ||
  decide (depthOf q < (tail - cq).toNat) || q.state == .disabled

/-- DOORBELL (R155, R156, R171): both counters are applied; RESUME leaves HALTED, and RESET once the partition
is ACTIVE again. -/
def serveDoorbell (port : Nat) (tx : Tx) (s : State) : State :=
  match check1 tx s with
  | some st => answer tx st s
  | none =>
    match windowQueue port tx s with
    | none => answer tx .noAccess s
    | some q =>
      if wRegion tx.offset ≠ 2 ∨ wTile tx.offset ≠ 0 then answer tx .noAccess s
      else
        let b := (tx.tiles.headD zeroTile).data
        let tail := BitVec.ofNat 32 (fld b 127 96)
        let cq := BitVec.ofNat 32 (fld b 95 64)
        if doorbellBad q tail cq then answer tx .state s
        else
          let resumed := b.getLsbD 63 && (q.state == .halted || (q.state == .reset && partState s q.part == .active))
          answer tx .ok (modQueue (wQueue tx.offset) (fun x => { x with
            tail := tail, cqHead := cq, state := if resumed then .active else x.state }) s)

/-- RD_WINDOW (R153, R157). -/
def serveWindow (port : Nat) (tx : Tx) (s : State) : State :=
  match check1 tx s with
  | some st => answer tx st s
  | none =>
    match windowQueue port tx s with
    | none => answer tx .noAccess s
    | some q =>
      let size := match wRegion tx.offset with | 0 => depthOf q / 4 | 1 => depthOf q / 8 | 2 => 1 | _ => 0
      if size ≤ wTile tx.offset ∨ size < tx.length then answer tx .noAccess s
      else
        let at_ (i : Nat) : Block :=
          let t := (wTile tx.offset + i) % size
          match wRegion tx.offset with | 0 => ringTile q t | 1 => cqTile q t | _ => statusTile q
        answerTiles tx ((List.range tx.length).map (fun i => mkTile (at_ i))) s

/-! ## Engine accesses to tiles of this home -/

/-- A tile that an item reads or writes. -/
structure Acc where
  slot : Nat
  tile : Nat
  write : Bool
  deriving DecidableEq, Repr

/-- The BUSY tile that an item holds. -/
def itemBusy (s : State) (x : CtxId) (slot tile : Nat) : Option Busy :=
  match busyOf s slot tile with
  | some b => if b.why = .item x then some b else none
  | none => none

/-- Let go of BUSY tiles of an item: recalls not yet answered are still awaited, and data that no holder keeps and
the item has not replaced returns to the home. -/
def dropBusyWhere (x : CtxId) (p : Busy → Bool) (s : State) : State :=
  let mine := s.home.busy.filter (fun b => b.why == .item x && p b)
  let s1 : State := { s with home := { s.home with busy := s.home.busy.map (fun b => if b.why = .item x ∧ p b then { b with why := .drain } else b) } }
  mine.foldl (fun t b => tryFinish b.slot b.tile t) s1

/-- Let go of every BUSY tile of an item. -/
def dropItemBusy (x : CtxId) (s : State) : State := dropBusyWhere x (fun _ => true) s

/-- An item's tiles meet the directory as R68 has it for engines: reads the RD_TILE row, writes the write rows.
True once every recall that they need has been answered. -/
def claimEach (x : CtxId) : List Acc → State → Bool × State
  | [], s => (true, s)
  | a :: l, s =>
    let d := dirOf s a.slot a.tile
    match busyOf s a.slot a.tile, extOf s a.slot with
    | _, none => claimEach x l s
    | some b, some e =>
      let more := if b.why = .item x ∧ b.recalls.isEmpty ∧ a.write then writeRecalls e d else []
      let s1 := more.foldl (fun t p => sendRecall a.slot a.tile e p.1 p.2 t) s
      let open_ := match busyOf s1 a.slot a.tile with | some k => k.why == .item x && k.recalls.isEmpty | none => true
      let (ok, s2) := claimEach x l s1
      (ok && open_, s2)
    | none, some e =>
      let need := if a.write then writeRecalls e d else readRecalls d
      if need.isEmpty then claimEach x l s
      else
        let s1 := startRecalls a.slot a.tile e (.item x) need s
        let open_ := match busyOf s1 a.slot a.tile with | some b => b.recalls.isEmpty | none => true
        let (ok, s2) := claimEach x l s1
        (ok && open_, s2)

/-- An item takes its turn at its tiles: one that holds none yet stands behind the requests that wait at them (R20, R69, R80).
The touched entries lose the agents of expelled hosts (R72). -/
def claimTiles (x : CtxId) (l : List Acc) (s : State) : Bool × State :=
  if !s.home.busy.any (fun b => b.why == .item x) && l.any (fun a => hasWaiters s a.slot a.tile) then (false, s)
  else claimEach x l (l.foldl (fun t a => purgeDead a.slot a.tile t) s)

/-- An engine read of a tile of this home at a version: of a VERSIONED extent along the chain of copies, whose own poison marks
count (R71, R117). -/
def engRead (x : CtxId) (slot tile v : Nat) (s : State) : Except St Tile × State :=
  match extOf s slot with
  | none => (.error .noAccess, s)
  | some e =>
    if e.mode ≠ .versioned ∧ poisoned s slot tile then (.error .poison, s)
    else match itemBusy s x slot tile with
      | some { data := some t, .. } => (.ok t, s)
      | _ => homeRead slot tile v e s

/-- An engine write of a whole tile of this home; one that finds the journal or the sinter area full waits. -/
def engWrite (slot tile : Nat) (whole : Bool) (t : Tile) (s : State) : WOut :=
  match extOf s slot with
  | none => .fail .noAccess s
  | some e =>
    match homeWrite slot tile e whole none t s with
    | .done s1 =>
      let s2 := modBusy slot tile (fun b => match b.why with | .item _ => { b with data := none } | _ => b) s1
      .done (if e.mode = .versioned then s2 else delLog slot tile (delDir slot tile s2))
    | w => w

/-- An engine write of some bytes of a tile (R127). -/
def engChange (x : CtxId) (slot tile v : Nat) (f : Block → Block) (s : State) : WOut :=
  match engRead x slot tile v s with
  | (.error st, s1) => .fail st s1
  | (.ok t, s1) => engWrite slot tile false (changeTile t (f t.data)) s1

/-! ## Failure areas (R169, R170) -/

/-- C: the entries that a command's failure area holds (R170). -/
def failCap (d : BitVec 512) : Nat := if dFailCap d = 16777215 then 16777216 else dFailCap d

/-- An 8-byte failure entry (R169). -/
def failWord (f : FailEntry) : Nat := put f.item 40 + put (stCode f.status).toNat 32 + f.detail.toNat

/-! ## Tagging (R460, R461) -/

/-- Whether an item is tagged (R460). -/
def tagged (s : State) (part engine queue : Nat) (cmdSeq : Word32) (item : Nat) : Bool :=
  match tget s.obs.sampling (part * 8 + engine) with
  | none => false
  | some c =>
    let v := c.seed.toNat + put queue 32 + put cmdSeq.toNat 48 + put item 80
    c.enable && (crc32c 14 v).toNat % 2 ^ c.n == 0

/-- The 32-byte TAG record (R461). -/
def tagRecord (time : Nat) (part engine queue : Nat) (cmdSeq : Word32) (item stage phys core ctx status replay : Nat) : Nat :=
  inBits time 255 192 + put cmdSeq.toNat 160 + inBits item 159 136 + inBits queue 135 124 + inBits stage 123 120 + inBits part 119 116 +
  inBits engine 115 112 + inBits phys 111 100 + inBits core 99 89 + inBits ctx 88 87 + inBits status 86 79 + inBits replay 78 77

/-- A tagged item enters a stage (R461). -/
def tagStage (part engine queue : Nat) (cmdSeq : Word32) (item stage phys core ctx status replay : Nat) (s : State) : State :=
  if tagged s part engine queue cmdSeq item then
    fumarole 1 (if phys < 2304 then phys / 288 else 8)
      (words 4 (tagRecord s.timer.toNat part engine queue cmdSeq item stage phys core ctx status replay)) s
  else s

/-! ## Completion (R165 to R167, R171) -/

/-- The completion record (R166). -/
def recordOf (q : Queue) (qn : Nat) (c : Word32) (tag : Nat) (st : St) (evSeq done failed unrec : Nat) (halted : Bool) : BitVec 256 :=
  BitVec.ofNat 256 (put (1 - (c.toNat / depthOf q) % 2) 255 + put (if halted then 1 else 0) 254 + put q.engine 250 +
    put qn 238 + put (stCode st).toNat 230 + put tag 214 + put c.toNat 182 + put (evSeq % 2 ^ 64) 118 +
    put done 93 + put failed 68 + put unrec 43)

/-- Send a record to the submitter in a COMPLETION (R167, R353). -/
def notify (q : Queue) (r : BitVec 256) (s : State) : State :=
  send { blankTx s with dst := q.submitter, op := 0x33, cls := 5, ptag := q.part, trailer := mkTrailer 32 r.toNat } s

/-- The status of a command whose items have ended (R165). -/
def cmdStatus (c : Cmd) : St :=
  if c.failed = 0 then .ok
  else if 0 < c.done then .part
  else if c.forced then .revoked
  else match c.fails with
    | [] => .part
    | f :: l => if l.all (fun g => g.status == f.status) then f.status else .part

/-- The slot of a descriptor that the device has read is the host's again (R154). -/
def readSlot (qn : Nat) (c : Word32) (s : State) : State :=
  modQueue qn (fun x => { x with head := c + 1, unread := tdel x.unread (c.toNat % depthOf x) }) s

/-- A command completes: its record is written, a HALT_ON_ERROR command that is not ST_OK halts its queue, and
the submitter is notified (R166, R167, R171). -/
def finishCmd (qn : Nat) (c : Word32) (d : BitVec 512) (st : St) (done failed unrec : Nat) (s : State) : State :=
  match queueOf s qn with
  | none => s
  | some q =>
    let halt := dHaltOnError d && st ≠ .ok && q.state == .active
    let r := recordOf q qn c (dUserTag d) st (s.mgmt.eventSeq - 1) done failed unrec halt
    let i := c.toNat % depthOf q
    let s1 := modQueue qn (fun x => { x with
      cmds := x.cmds.filter (fun y => y.seq ≠ c), written := x.written + 1, cq := tset x.cq i r,
      state := if halt then .halted else x.state, haltSeq := if halt then c else x.haltSeq }) s
    let s2 := if dNotify d then notify q r s1 else s1
    let b := 5 * q.part + q.engine - 1
    let s3 := bump 4 b 9 1 s2
    if st = .state then occur { Occ.bare 4 b 0x83 1 with part := some q.part } s3 else s3

/-- A command that a check of R159 refuses completes at once, with no other effect. -/
def refuseCmd (qn : Nat) (c : Word32) (d : BitVec 512) (st : St) (s : State) : State := finishCmd qn c d st 0 0 0 s

/-- Emit the RECORDED stage of every tagged item of a command. -/
def tagRecorded (q : Queue) (qn : Nat) (c : Cmd) (st : St) (s : State) : State :=
  if (tget s.obs.sampling (q.part * 8 + q.engine)).isNone then s
  else (List.range c.n).foldl (fun t i => tagStage q.part q.engine qn c.seq i 6 0xFFF 0 0 (stCode st).toNat 0 t) s

/-- COUNT_ADDR of a SCAN, if it has one (R295). -/
def scanCount (d : BitVec 512) : Option Word64 :=
  let a : Word64 := BitVec.ofNat 64 (fld d 319 256)
  if dEngine d = 3 ∧ dOpcode d = 1 ∧ aNode a ≠ noNode then some a else none

end Sys2Proof.Machine
end

