-- ==== Sys2Proof/Machine/Engine.lean ====
section
/-! DEFINITION. Items and the tiles they touch: contexts of cores (R180, R211, R229), the end of an item (R164,
R165), and an item's reads and writes of tiles at this home and at other homes (R57, R117, R225). -/

namespace Sys2Proof.Machine

/-! ## Contexts -/

/-- A logical core. -/
def coreOf (s : State) (c : Nat) : Option Core := tget s.cores.cores c

/-- Change a logical core. -/
def modCore (c : Nat) (f : Core → Core) (s : State) : State :=
  { s with cores := { s.cores with cores := tmod s.cores.cores c f } }

/-- The context of an item that runs. -/
def ctxOf (s : State) (x : CtxId) : Option Ctx :=
  match coreOf s x.core with
  | some k => tget k.ctxs x.ctx
  | none => none

/-- Change a context. -/
def modCtx (x : CtxId) (f : Ctx → Ctx) (s : State) : State :=
  modCore x.core (fun k => { k with ctxs := tmod k.ctxs x.ctx f }) s

/-- Grant the lathe to the context that asked first, its accumulator zeroed (R229). -/
def grantNext (k : Core) : Core :=
  match k.waiters with
  | [] => { k with holder := none, releasing := false }
  | w :: r => { k with holder := some w, releasing := false, waiters := r, acc := [] }

/-- A context releases the lathe: its queued operations finish first, and the next grant follows (R229). -/
def releaseLathe (c : Nat) (k : Core) : Core :=
  let k1 := { k with waiters := k.waiters.filter (· ≠ c) }
  if k.holder = some c then (if k.latheQ.isEmpty then grantNext k1 else { k1 with releasing := true }) else k1

/-- What a context whose item has ended leaves of the lathe: its queued operations finish first, with nothing left that
they could change (R229). -/
def dropLathe (c : Nat) (k : Core) : Core :=
  releaseLathe c (if k.holder = some c then { k with latheQ := k.latheQ.map (fun e => { e with dead := true }) } else k)

/-- A context becomes idle: its item has ended. -/
def freeCtx (x : CtxId) (s : State) : State :=
  modCore x.core (fun k => let k1 := dropLathe x.ctx k
                           { k1 with ctxs := tdel k1.ctxs x.ctx }) s

/-- A context that starts an item: registers and predicates zero, tokens empty, flags clear (R211). -/
def freshCtx (it : Item) (entry : Nat) (seed : Word64) (slots : Table Tile) (count replay : Nat) (epoch : BitVec 16) : Ctx :=
  { item := it, pc := entry, g := Vector.replicate 32 0, p := 1, vt := [], tokens := [], nextSerial := 0,
    seed := seed, of := false, uf := false, nv := false, slots := slots, slotCount := count, wait := none,
    failing := none, issued := 0, replay := replay, epoch := epoch, tatomCount := 0 }

/-! ## Checks at dispatch (R164) -/

/-- The slots of this home that a command names. -/
def namedSlots (s : State) (c : Cmd) : List Nat :=
  let f := dFailArea c.desc
  c.reads ++ c.writes ++ (if dFailCap c.desc ≠ 0 ∧ aNode f = myNode s then [aSlot f] else [])

/-- Check 5 of R159 for one slot. -/
def revokedAt (s : State) (sub : Node) (slot : Nat) : Bool :=
  match extOf s slot with
  | none => true
  | some e => e.state == .draining || match holderOf e sub with
    | none => true
    | some h => h.hstate == .forced

/-- Whether a VERSIONED extent may be read at a version by a submitter of a partition (R160). -/
def mayReadAt (e : Extent) (part : Nat) (sub : Node) (v : Nat) : Bool :=
  e.mode ≠ .versioned || (v ≠ 0 && match holderOf e sub with
    | none => false
    | some h => (sealedLive e v && pinsV e h v) || (leaseHolder e part && v == e.openV))

/-- Whether a VERSIONED extent may be written at a version by a partition (R160). -/
def mayWriteAt (e : Extent) (part v : Nat) : Bool :=
  e.mode ≠ .versioned || (v ≠ 0 && v == e.openV && layerOpen e && leaseHolder e part)

/-- Check 5 and the version rule again, when an item is dispatched (R109, R164). -/
def recheck (s : State) (q : Queue) (c : Cmd) : Option St :=
  if (namedSlots s c).any (revokedAt s q.submitter) then some .revoked
  else if c.reads.any (fun sl => match extOf s sl with
      | some e => !mayReadAt e q.part q.submitter (dReadV c.desc) | none => false) ||
    c.writes.any (fun sl => match extOf s sl with
      | some e => !mayWriteAt e q.part (dWriteV c.desc) | none => false)
  then some .state else none

/-- Whether a PUBLISH that drains keeps an item from being dispatched (R108); a kernel may write any extent whose lease
its partition holds. -/
def heldByPublish (s : State) (q : Queue) (c : Cmd) : Bool :=
  c.writes.any (fun sl => match extOf s sl with
    | some e => e.mode == .versioned && e.publishing.isSome
    | none => false) ||
  (c.anySlot && s.ext.entries.any (fun x => x.2.mode == .versioned && x.2.publishing.isSome && leaseHolder x.2 q.part &&
    x.2.openV == dWriteV c.desc))

/-- Whether a command has had items dispatched. -/
def begun (c : Cmd) : Bool := decide (0 < c.next) || !c.runs.isEmpty || decide (0 < c.done + c.failed)

/-- Whether a queue's limit of 16 commands with items dispatched keeps a command back (R162). -/
def overLimit (q : Queue) (c : Cmd) : Bool := !begun c && decide (16 ≤ (q.cmds.filter begun).length)

/-- Whether ORDERED and the BARRIER of earlier commands let a command's items be dispatched (R158). -/
def inOrder (q : Queue) (c : Cmd) : Bool :=
  q.cmds.all (fun y => !precedes y.seq c.seq || (!dOrdered c.desc && !dBarrier y.desc))

/-! ## Tiles that an item touches -/

/-- What an item acts for: its context, partition, submitter, epoch of dispatch, and the versions of its
descriptor (R49, R158). `wild`: what it writes is free (R161). `data`: the address is data, which no check of the
command has covered, so that its home checks each access (R225, R276). `stop`: the item has been stopped, and its work is
looked at only for what it may have written (R164). -/
structure Actor where
  x : CtxId
  part : Nat
  sub : Node
  epoch : BitVec 16
  rv : Nat
  wv : Nat
  wild : Bool := false
  data : Bool := false
  stop : Bool := false
  deriving DecidableEq, Repr

/-- How an item stops short: it waits (for recalls, space or answers), or it fails. -/
inductive Halt where
  | wait
  | fail (st : St) (detail : Word32)
  deriving DecidableEq, Repr

/-- What an item's work changes: the device, the answers of other homes not yet used, and the requests to them. -/
structure IEnv where
  s : State
  ans : List RemoteAnswer
  asks : List Tx
  deriving DecidableEq, Repr

/-- An item's work: it answers a value, waits or fails. -/
abbrev Io (α : Type) := EStateM Halt IEnv α

/-- Where a global address lies: at this home, or at another home, to which an extent that this home holds in MIGRATING
forwards under its home epoch (R29, R53). -/
inductive Place where
  | here (slot : Nat) (e : Extent)
  | away (n : Node) (slot : Nat) (via : Option Word32)
  | nowhere

/-- Where the extent of an address lies. -/
def placeOf (s : State) (a : Word64) : Place :=
  if aNode a ≠ myNode s then (if aNode a = noNode then .nowhere else .away (aNode a) (aSlot a) none)
  else match extOf s (aSlot a) with
    | none => .nowhere
    | some e => if e.state = .migrating then .away e.fwdNode e.fwdSlot (some e.homeEpoch) else .here (aSlot a) e

/-- A detail word that names a tile (R169). -/
def tileDetail (t : Nat) : Word32 := BitVec.ofNat 32 t

/-- An item fails. -/
def ioFail {α : Type} (st : St) (detail : Word32) : Io α := fun v => .error (.fail st detail) v

/-- A fresh free block. -/
def ioFree : Io Block := fun v => .ok (Config.freeBlock v.s.free) { v with s := { v.s with free := v.s.free + 1 } }

/-- Take a failure as a value; waiting goes on. -/
def ioTry {α : Type} (p : Io α) : Io (Except (St × Word32) α) := fun v =>
  match p v with
  | .ok x v1 => .ok (.ok x) v1
  | .error (.fail st d) v1 => .ok (.error (st, d)) v1
  | .error h v1 => .error h v1

/-- Name another detail word where work is refused with ST_NO_ACCESS. -/
def ioDetail {α : Type} (d : Word32) (p : Io α) : Io α := fun v =>
  match p v with
  | .error (.fail .noAccess _) v1 => .error (.fail .noAccess d) v1
  | r => r

/-- The next answer of another home. -/
def nextAnswer : Io RemoteAnswer := fun v =>
  match v.ans with
  | [] => .error .wait v
  | a :: r => .ok a { v with ans := r }

/-- A request of an engine to another home, on behalf of the submitter (R225, R231, R354). -/
def askTx (a : Actor) (op : Byte) (n : Node) (slot tile count v : Nat) (ts : List Tile) (tr : Trailer) (s : State) : Tx :=
  { blankTx s with
      dst := n, src := a.sub, op := op, cls := 1, length := count, offset := mkOffset slot tile 0,
      mapEpoch := a.epoch, version := BitVec.ofNat 32 v, engine := true, origin := myNode s, ptag := a.part,
      tiles := ts, trailer := tr, strip := if a.x.core < 2048 then some (a.x.core / 32) else none }

/-- The forwarding fields that a request takes where this home forwards it (R53). -/
def viaTx (via : Option Word32) (tx : Tx) (s : State) : Tx × State :=
  match via with
  | none => (tx, s)
  | some h => ({ tx with mapEpoch := Config.remoteEpoch tx.dst s.free, ext := true,
                         fwd := some { homeEpoch := h, hopBack := 0, fwdFrom := myNode s } }, { s with free := s.free + 1 })

/-- Ask another home. -/
def ioAsk (via : Option Word32) (tx : Tx) : Io Unit := fun v =>
  let (t, s1) := viaTx via tx v.s
  .ok () { v with s := s1, asks := v.asks ++ [t] }

/-- The version that an item reads an extent at: only VERSIONED extents have one (R160). -/
def readAt (e : Extent) (v : Nat) : Nat := if e.mode = .versioned then v else 0

/-- A tile of an ARRIVING extent is pulled before an item touches it (R54). -/
def ioPull (slot tile : Nat) (e : Extent) : Io Unit := fun v =>
  match pullFirst slot e [tile] v.s with
  | (none, s1) => .ok () { v with s := s1 }
  | (some _, s1) => .error .wait { v with s := s1 }

/-- An item meets the directory for a tile of this home. -/
def ioClaim (a : Actor) (l : List Acc) : Io Unit := fun v =>
  match claimTiles a.x l v.s with
  | (true, s1) => .ok () { v with s := s1 }
  | (false, s1) => .error .wait { v with s := s1 }

/-- Checks 1 and 2 of R39 on an access of an item to this home, as a request of its submitter. -/
def door12 (s : State) (a : Actor) : Option St :=
  if s.boot.fenced || s.boot.expelled.contains a.sub then some .fenced
  else if !epochLive s a.epoch then some .mapStale
  else none

/-- Checks 4 and 5 of R39, for `n` tiles from `tile`. -/
def door45 (s : State) (a : Actor) (tile n : Nat) (e : Extent) : Option St :=
  if !mayReach s a.part e.owner || decide (4194304 < tile + n) then some .noAccess
  else if domainDown s e then some .domainReset
  else none

/-- Checks 7 to 9 of R39. -/
def door79 (s : State) (a : Actor) (e : Extent) (write : Bool) : Option St :=
  match holderOf e a.sub with
  | none => some .noAccess
  | some h =>
    if h.hstate = .forced ∨ e.state = .draining then some .revoked
    else match (if write then checkWrite s a.part e a.wv else checkRead a.part e a.sub a.rv) with
      | .refuse st => some st
      | .ok => none
      | .hold => none

/-- The checks of R39 on an access of an item to a tile of this home, as a request of its submitter; none: it is
admitted. -/
def doorOf (s : State) (a : Actor) (tile : Nat) (e : Extent) (write : Bool) : Option St :=
  ((door12 s a).or (door45 s a tile 1 e)).or (door79 s a e write)

/-- The checks of R39 before check 6 on `n` tiles of an address of this home that is data: a FREE slot and a range past
the extent are refused at check 5, after checks 1 and 2; none: the access goes on, to where a MIGRATING extent is
forwarded or to the checks that follow (R53, R225). -/
def gateOf (s : State) (a : Actor) (base : Word64) (tile n : Nat) : Option St :=
  if !a.data || aNode base ≠ myNode s then none
  else (door12 s a).or (match extOf s (aSlot base) with
    | none => some .noAccess
    | some e => if e.state = .arriving ∧ !e.known then none else door45 s a tile n e)

/-- The gate of this home. -/
def ioGate (a : Actor) (base : Word64) (tile n : Nat) : Io Unit := fun v =>
  match gateOf v.s a base tile n with
  | some st => .error (.fail st (tileDetail tile)) v
  | none => .ok () v

/-- The door of this home, where an address is data. -/
def ioDoor (a : Actor) (tile : Nat) (e : Extent) (write : Bool) : Io Unit := fun v =>
  if e.state = .arriving ∧ !e.known then .error .wait v
  else if !a.data then .ok () v
  else match doorOf v.s a tile e write with
    | some st => .error (.fail st (tileDetail tile)) v
    | none => .ok () v

/-- What an item that has been stopped had read from a tile: what it holds, where the item needs no recall or pull for it, else a
free content. -/
def seenTile (a : Actor) (base : Word64) (tile : Nat) : Io Tile := fun v =>
  let known : Option Tile := match placeOf v.s base with
    | .here slot e =>
      if needPull v.s slot tile e || !(readRecalls (dirOf v.s slot tile)).isEmpty then none
      else match engRead a.x slot tile (readAt e a.rv) v.s with | (.ok t, _) => some t | _ => none
    | _ => none
  match known with
  | some t => .ok t v
  | none => .ok (mkTile (Config.freeBlock v.s.free)) { v with s := { v.s with free := v.s.free + 1 } }

/-- Count events of the core that runs an item of engine firmware (R449, R450). -/
def countFirm (a : Actor) (event n : Nat) (s : State) : State :=
  if s.obs.counters.isEmpty || n == 0 then s else
  match coreOf s a.x.core with
  | some { phys := some p, .. } => occur { Occ.bare 0 p event n with priv := some 1, part := some a.part } s
  | _ => s

/-- Count a tile that a core moves to or from a channel of this device: on a stack of its own field the field memory network
carries it, else the strip lanes do, a cell each way (R187, R450; log entry 164). -/
def countPath (a : Actor) (channel : Nat) (s : State) : State :=
  if s.obs.counters.isEmpty then s else
  match coreOf s a.x.core with
  | some { phys := some p, .. } =>
    let at1 (event n : Nat) : Occ := { Occ.bare 1 (physStrip p) event n with part := some a.part }
    if channel / 64 = physField p then occur { at1 0x23 256 with priv := some 0 } s
    else
      let cell (event : Nat) : Occ := { at1 event 1 with priv := some 0, cls := some 1 }
      occur (cell 0x21) (occur (cell 0x20) s)
  | _ => s

/-- An item reads one tile: tile `i` of the range that starts at an address. A tile of another home whose sidecar fails is
read from it once more (R128). -/
def ioRead (a : Actor) (base : Word64) (i : Nat) : Io Tile := do
  let tile := aTile base + i
  if a.stop then seenTile a base tile else
  ioGate a base tile 1
  let v ← get
  if 4194304 ≤ tile then ioFail .noAccess (tileDetail tile)
  else match placeOf v.s base with
    | .nowhere => ioFail .noAccess (tileDetail tile)
    | .away n slot via =>
      let ask : Io Tile := do
        let w ← get
        ioAsk via (askTx a 0x01 n slot tile 1 a.rv [] (mkTrailer 0 0) w.s)
        let r ← nextAnswer
        if r.status = 0 then pure (r.tiles.headD zeroTile) else ioFail (stOf r.status) (tileDetail tile)
      let t ← ask
      if tileOk t then pure t
      else
        let u ← ask
        if tileOk u then pure u else ioFail .checksum (tileDetail tile)
    | .here slot e =>
      ioDoor a tile e false
      ioPull slot tile e
      ioClaim a [{ slot := slot, tile := tile, write := false }]
      fun w => match engRead a.x slot tile (readAt e a.rv) w.s with
        | (.ok t, s1) => .ok t { w with s := countPath a (channelOf (tkey slot tile)) s1 }
        | (.error st, s1) => .error (.fail st (tileDetail tile)) { w with s := s1 }

/-- An item reads consecutive tiles. -/
def ioReads (a : Actor) (base : Word64) (i n : Nat) : Io (List Tile) := (List.range n).mapM (fun k => ioRead a base (i + k))

/-- Bytes `off` to `off + n - 1` from an address, as a number. -/
def ioBytes (a : Actor) (base : Word64) (off n : Nat) : Io Nat := do
  if n = 0 then pure 0
  else
    let b := aByte base + off
    let ts ← ioReads a base (b / 256) ((b % 256 + n + 255) / 256)
    pure ((packNat 2048 (ts.map (fun t => t.data.toNat)) >>> (8 * (b % 256))) % 2 ^ (8 * n))

/-! ## Resident tiles (R224) -/

/-- The key of a tile of a partition's resident segment; an unlisted tile reads as zero. -/
def resKey (s : State) (part : Nat) (a : Word64) (i : Nat) : Option Nat :=
  match tget s.cores.segments (fld a 40 32) with
  | some g => if fld a 63 41 = 0 ∧ g.part = part ∧ fld a 31 0 + i < g.tiles then some (fld a 40 32 * 2 ^ 32 + fld a 31 0 + i) else none
  | none => none

/-- A resident tile. -/
def resTile (s : State) (k : Nat) : Tile := tgetD s.cores.resident k zeroTile

/-- Write a resident tile. -/
def setRes (k : Nat) (t : Tile) (s : State) : State :=
  { s with cores := { s.cores with resident := if t = zeroTile then tdel s.cores.resident k else tset s.cores.resident k t } }

/-- An item reads a resident tile. -/
def resRead (a : Actor) (base : Word64) (i : Nat) : Io Tile := fun v =>
  match resKey v.s a.part base i with
  | none => .error (.fail .noAccess (tileDetail (fld base 31 0 + i))) v
  | some k =>
    let t := resTile v.s k
    if tileOk t then .ok t { v with s := countPath a (fld base 40 32) v.s } else .error (.fail .checksum (tileDetail (fld base 31 0 + i))) v

/-- An item reads a tile of either space. -/
def ioGet (a : Actor) (res : Bool) (base : Word64) (i : Nat) : Io Tile := if res then resRead a base i else ioRead a base i

/-- A write of an item: `n` bytes at byte `off` of tile `tile` of the extent of `base`, or a whole tile; `res`: a
whole tile of the resident segment, `tile` its index from `base`. -/
structure IWrite where
  base : Word64
  tile : Nat
  off : Nat
  n : Nat
  val : Nat
  res : Bool := false
  deriving DecidableEq, Repr

/-- A write of a whole tile. -/
def wholeTile (base : Word64) (i : Nat) (b : Block) : IWrite :=
  { base := base, tile := aTile base + i, off := 0, n := 256, val := b.toNat }

/-- A write of a whole tile of either space. -/
def tileWrite (res : Bool) (base : Word64) (i : Nat) (b : Block) : IWrite :=
  if res then { base := base, tile := i, off := 0, n := 256, val := b.toNat, res := true } else wholeTile base i b

/-- Writes of `n` bytes from byte `off` of an address, tile by tile. -/
def byteWrites (base : Word64) (off n val : Nat) : List IWrite :=
  let b := aByte base + off
  if n = 0 then [] else
  (List.range ((b % 256 + n + 255) / 256)).map (fun k =>
    let lo := if k = 0 then b % 256 else 0
    let start := 256 * k + lo - b % 256
    let len := min (256 - lo) (n - start)
    { base := base, tile := aTile base + b / 256 + k, off := lo, n := len, val := (val >>> (8 * start)) % 2 ^ (8 * len) })

/-- Perform one write of an item. -/
def ioWrite (a : Actor) (w : IWrite) : Io Unit := do
  let v ← get
  if w.res then
    match resKey v.s a.part w.base w.tile with
    | none => ioFail .noAccess (tileDetail (fld w.base 31 0 + w.tile))
    | some k => set { v with s := countPath a (fld w.base 40 32) (setRes k (mkTile (BitVec.ofNat 2048 w.val)) v.s) }
  else
    ioGate a w.base w.tile 1
    if 4194304 ≤ w.tile then ioFail .noAccess (tileDetail w.tile)
    else match placeOf v.s w.base with
      | .nowhere => ioFail .noAccess (tileDetail w.tile)
      | .away n slot via =>
        ioAsk via (if w.n = 256 then askTx a 0x02 n slot w.tile 1 a.wv [mkTile (BitVec.ofNat 2048 w.val)] (mkTrailer 0 0) v.s
          else askTx a 0x03 n slot w.tile 1 a.wv [mkTile (setBytes 0 w.off w.n w.val)] (mkTrailer 32 ((2 ^ w.n - 1) * 2 ^ w.off)) v.s)
        let r ← nextAnswer
        if r.status = 0 then pure () else ioFail (stOf r.status) (tileDetail w.tile)
      | .here slot e =>
        match (if w.n = 256 then engWrite slot w.tile true (mkTile (BitVec.ofNat 2048 w.val)) v.s
               else engChange a.x slot w.tile (readAt e a.wv) (fun b => setBytes b w.off w.n w.val) v.s) with
        | .done s1 => set { v with s := countPath a (channelOf (tkey slot w.tile)) s1 }
        | .fail st s1 => fun _ => .error (.fail st (tileDetail w.tile)) { v with s := s1 }
        | .wait _ s1 => fun _ => .error .wait { v with s := s1 }

/-- The local tiles of writes. -/
def writeAccs (s : State) (ws : List IWrite) : List Acc :=
  ws.filterMap (fun w => if w.res then none else match placeOf s w.base with
    | .here slot _ => some { slot := slot, tile := w.tile, write := true }
    | _ => none)

/-- Before any write: tiles of ARRIVING extents pulled, every holder recalled. -/
def ioReady (a : Actor) (ws : List IWrite) : Io Unit := do
  for w in ws do
    let v ← get
    if !w.res then
      match placeOf v.s w.base with
      | .here slot e =>
        ioDoor a w.tile e true
        ioPull slot w.tile e
      | _ => pure ()
  let v ← get
  ioClaim a (writeAccs v.s ws)

/-- The writes of a failing item that happened: a free choice for each (R164). -/
def keptWrites (a : Actor) : Nat → List IWrite → State → State
  | _, [], s => s
  | n, w :: ws, s =>
    if Config.itemKeeps n && (w.res || aNode w.base == myNode s) then
      match ioWrite a w { s := s, ans := [], asks := [] } with
      | .ok _ v => keptWrites a (n + 1) ws v.s
      | .error _ _ => keptWrites a (n + 1) ws s
    else keptWrites a (n + 1) ws s

/-- Where a command's sources and destinations overlap, what its items write is free (R161). -/
def ioWild (a : Actor) (ws : List IWrite) : Io (List IWrite) :=
  if a.wild then ws.mapM (fun w => do
    let b ← ioFree
    pure { w with val := b.toNat % 2 ^ (8 * w.n) })
  else pure ws

/-- Whether an item may have written a tile already: no other work holds it BUSY, and no holder is left to recall. -/
def mayHave (a : Actor) (s : State) (w : IWrite) : Bool :=
  w.res || match placeOf s w.base with
    | .here slot e => (writeRecalls e (dirOf s slot w.tile)).isEmpty && !needPull s slot w.tile e && match busyOf s slot w.tile with
      | some b => b.why == .item a.x
      | none => true
    | _ => false

/-- The writes that an item had made before it failed or was stopped: each happened or did not, which is free (R164). -/
def ioKept (a : Actor) (ws : List IWrite) : Io Unit := fun v =>
  .ok () { v with s := keptWrites a v.s.free ws { v.s with free := v.s.free + ws.length } }

/-- Perform an item's writes. Where one fails, each tile of this home holds its old content or what the item
wrote, which of the two is free (R164); with `stand`, those before one that fails with ST_NO_ACCESS stand, and the rest hold old
content (R293). -/
def ioPerform (stand : Bool) (a : Actor) (ws0 : List IWrite) : Io Unit := do
  let ws ← ioWild a ws0
  if a.stop then
    let v ← get
    ioKept a (ws.filter (mayHave a v.s))
  else
    ioReady a ws
    fun v =>
      match ws.forM (ioWrite a) v with
      | .ok _ v1 => .ok () v1
      | .error (.fail st d) v1 =>
        if stand ∧ st = .noAccess then .error (.fail st d) v1
        else .error (.fail st d) { v1 with s := keptWrites a v.s.free ws { v.s with free := v.s.free + ws.length } }
      | .error h v1 => .error h v1

/-- Perform an item's writes (R164). -/
def ioWrites (a : Actor) (ws : List IWrite) : Io Unit := ioPerform false a ws

/-- Perform the writes of an item that writes nothing if it fails (R312, R315). -/
def ioWritesAll (a : Actor) (ws0 : List IWrite) : Io Unit := do
  let ws ← ioWild a ws0
  if a.stop then pure ()
  else
    ioReady a ws
    fun v =>
      match ws.forM (ioWrite a) v with
      | .ok _ v1 => .ok () v1
      | .error (.fail st d) v1 => .error (.fail st d) { v with asks := v1.asks, ans := v1.ans }
      | .error h v1 => .error h v1

/-- An item has failed after these writes. -/
def ioKeep (a : Actor) (ws : List IWrite) : Io Unit := do
  if a.stop then
    let v ← get
    ioKept a (ws.filter (mayHave a v.s))
  else
    ioReady a ws
    ioKept a ws

/-- Run the units of an item's work until one fails, gathering their writes. -/
def gatherUnits (unit : Nat → Io (List IWrite)) : List Nat → List IWrite → Io (List IWrite × Option (St × Word32))
  | [], ws => pure (ws, none)
  | k :: ks, ws => do
    match ← ioTry (unit k) with
    | .ok w => gatherUnits unit ks (ws ++ w)
    | .error e => pure (ws, some e)

/-- An item whose work is a row of units, each of which writes: where one fails with ST_NO_ACCESS the writes before
it stand (R274, R293), with another status each of them happened or did not (R164). -/
def ioUnits (a : Actor) (n : Nat) (unit : Nat → Io (List IWrite)) : Io Unit := do
  let (ws, e) ← gatherUnits unit (List.range n) []
  match e with
  | none => ioPerform true a ws
  | some (st, d) =>
    if st = .noAccess then ioPerform true a ws else ioKeep a ws
    ioFail st d

/-- Run an item's work. The requests to other homes leave when it ends; an item that waits has sent none, and one whose
requests their window holds back waits (R333). -/
def runIo {α : Type} (p : Io α) (ans : List RemoteAnswer) (s : State) : Except Halt α × State :=
  let shut (v : IEnv) : Bool := v.asks.any (fun tx => windowShut s tx.dst tx.cls)
  match p { s := s, ans := ans, asks := [] } with
  | .ok r v => if shut v then (.error .wait, s) else (.ok r, v.asks.foldl (fun t tx => sendEngine tx t) v.s)
  | .error .wait v => (.error .wait, v.s)
  | .error h v => if shut v then (.error .wait, s) else (.error h, v.asks.foldl (fun t tx => sendEngine tx t) v.s)

/-- What an item acts for. -/
def actorOf (s : State) (x : CtxId) (it : Item) (q : Queue) (c : Cmd) : Actor :=
  { x := x, part := it.part, sub := q.submitter, epoch := (match ctxOf s x with | some k => k.epoch | none => s.ext.mapEpoch),
    rv := dReadV c.desc, wv := dWriteV c.desc, wild := c.wild }

/-! ## The end of a command (R165 to R167, R170, R299) -/

/-- A place of its own among those that recall, for what the end of a command writes. -/
def endPlace (qn : Nat) (c : Word32) : CtxId := { core := 131072 + qn, ctx := c.toNat }

/-- What the end of a command writes for: its submitter, under the present epoch. -/
def endActor (qn : Nat) (q : Queue) (c : Cmd) (s : State) : Actor :=
  { x := endPlace qn c.seq, part := q.part, sub := q.submitter, epoch := s.ext.mapEpoch, rv := 0, wv := dWriteV c.desc, data := true }

/-- What became of a write at the end of a command: written, refused, sent to another home, or still waiting here. -/
inductive EndOut where
  | written (s : State)
  | refused (s : State)
  | sent (n : Node) (tag : BitVec 16) (s : State)
  | wait (s : State)

/-- Write 8 bytes at the end of a command. -/
def endWrite (qn : Nat) (q : Queue) (c : Cmd) (base : Word64) (tile off val : Nat) (s : State) : EndOut :=
  let a := endActor qn q c s
  match placeOf s base, gateOf s a base tile 1 with
  | .away n slot via, none =>
    if windowShut s n 1 then .wait s else
    let tag := s.home.nextTag
    let (tx, s1) := viaTx via { askTx a 0x03 n slot tile 1 a.wv [mkTile (setBytes 0 off 8 val)] (mkTrailer 32 (0xFF <<< off)) s with tag := tag } s
    .sent n tag (sendEngine tx { s1 with home := { s1.home with nextTag := tag + 1 } })
  | _, _ =>
    match runIo (ioWrites a [{ base := base, tile := tile, off := off, n := 8, val := val }]) [] s with
    | (.ok _, s1) => .written (dropItemBusy a.x s1)
    | (.error .wait, s1) => .wait s1
    | (.error _, s1) => .refused (dropItemBusy a.x s1)

/-- How far the end of a command has come. -/
def endOf (c : Cmd) : EndSt := c.ending.getD { next := 0, counted := false, owed := none, lost := 0 }

/-- Note how far the end of a command has come. -/
def setEnd (qn : Nat) (c : Word32) (e : EndSt) (s : State) : State := modCmd qn c (fun y => { y with ending := some e }) s

/-- Whether nothing of a command is left to run. -/
def allEnded (c : Cmd) : Bool := c.runs.isEmpty && decide (c.n ≤ c.done + c.failed) && !c.sealing

/-- One write of the end of a command, after which its end stands at `e`; `entry`: of its failure area. -/
def endTurn (qn : Nat) (q : Queue) (c : Cmd) (e : EndSt) (entry : Bool) (base : Word64) (tile off val : Nat) (s : State) : Bool × State :=
  match endWrite qn q c base tile off val s with
  | .written s1 => (true, setEnd qn c.seq e s1)
  | .refused s1 => (true, setEnd qn c.seq { e with lost := e.lost + (if entry then 1 else 0) } s1)
  | .sent n tag s1 => (false, setEnd qn c.seq { e with owed := some (n, tag, entry) } s1)
  | .wait s1 => (false, setEnd qn c.seq (endOf c) s1)

/-- A step of the end of a command: first the count of a SCAN, then the failure entries in the order in which the items failed,
each durable before the next; none: everything is written (R167, R170, R299). -/
def endStep (qn : Nat) (q : Queue) (c : Cmd) (s : State) : Option (Bool × State) :=
  let e := endOf c
  if e.owed.isSome then some (false, s)
  else if !e.counted then
    match scanCount c.desc with
    | some a => some (endTurn qn q c { e with counted := true } false a (aTile a) (aByte a) c.selected s)
    | none => some (true, setEnd qn c.seq { e with counted := true } s)
  else match (if e.next < failCap c.desc then c.fails[e.next]? else none) with
    | some f =>
      let a := dFailArea c.desc
      some (endTurn qn q c { e with next := e.next + 1 } true a (aTile a + e.next / 32) (8 * (e.next % 32)) (failWord f) s)
    | none => none

/-- The record of a command whose results and failure entries are durable, and the layers that its items kept live (R105, R165
to R167). -/
def endRecord (qn : Nat) (q : Queue) (c : Cmd) (s : State) : State :=
  let st := cmdStatus c
  let unrec := (endOf c).lost + (c.fails.length - (endOf c).next)
  tagRecorded q qn c st (c.reads.foldl (fun t sl => dropDead sl t) (finishCmd qn c.seq c.desc st c.done c.failed unrec s))

/-- The end of a command goes as far as it can. -/
def endLoop (qn : Nat) (c : Word32) : Nat → State → State
  | 0, s => s
  | n + 1, s =>
    match queueOf s qn with
    | none => s
    | some q => match cmdOf q c with
      | none => s
      | some cmd => match endStep qn q cmd s with
        | none => endRecord qn q cmd s
        | some (false, s1) => s1
        | some (true, s1) => endLoop qn c n s1

/-- When nothing of a command is left to run, it ends; one of a partition that is being reset is reported by R172. -/
def endCmd (qn : Nat) (c : Word32) (s : State) : State :=
  match queueOf s qn with
  | none => s
  | some q =>
    match cmdOf q c with
    | none => s
    | some cmd => if allEnded cmd && partState s q.part ≠ .resetting then endLoop qn c (cmd.fails.length + 3) s else s

/-- Commands whose end waits for a tile or for space go on. -/
def endAll (s : State) : State :=
  s.queues.queues.foldl (fun t q => (q.2.cmds.filter (fun c => match c.ending with | some e => e.owed.isNone | none => false)).foldl
    (fun u c => endCmd q.1 c.seq u) t) s

/-- The command whose end awaits a response, by its home and tag. -/
def endOwed (s : State) (n : Node) (tag : BitVec 16) : Option (Nat × Cmd) :=
  s.queues.queues.findSome? (fun q => (q.2.cmds.find? (fun c => match c.ending with
    | some { owed := some (m, t, _), .. } => m == n && t == tag
    | _ => false)).map (fun c => (q.1, c)))

/-- The response to a write of the end of a command: a failure entry that its home refuses is not recorded (R170). -/
def endAnswer (tx : Tx) (s : State) : Option State :=
  (endOwed s tx.src tx.tag).map (fun (qn, c) =>
    let e := endOf c
    let bad : Bool := tx.status != 0 && (match e.owed with | some (_, _, entry) => entry | none => false)
    endCmd qn c.seq (setEnd qn c.seq { e with owed := none, lost := e.lost + (if bad then 1 else 0) } s))

/-! ## The end of an item -/

/-- An item of a command has ended: it is counted, and a failure is noted (R165, R170). -/
def countItem (q : Nat) (c : Word32) (i : Nat) (st : St) (detail : Word32) (s : State) : State :=
  modCmd q c (fun y =>
    if st = .ok then { y with done := y.done + 1, runs := y.runs.filter (fun r => r.item ≠ i) }
    else { y with failed := y.failed + 1, runs := y.runs.filter (fun r => r.item ≠ i),
                  fails := y.fails ++ [{ item := i, status := st, detail := detail }] }) s

/-- The counters of items that ended (R447, R450): FIRMWARE for vendor engines, KERNEL for APPLY. -/
def countEnded (part engine : Nat) (ok : Bool) (n : Nat) (s : State) : State :=
  let b := 5 * part + engine - 1
  occur { Occ.bare 4 b (if ok then 0x81 else 0x82) n with priv := some (if engine = 5 then 2 else 1), part := some part }
    (bump 4 b (if ok then 10 else 11) n s)

/-- An item ends with a status: stage ENDED of a tagged one (R461), its context freed, the tiles it held let
go, the command looked at again. -/
def endItemAt (x : CtxId) (it : Item) (st : St) (detail : Word32) (s : State) : State :=
  let rep := match ctxOf s x with | some c => c.replay | none => 0
  let phys := match coreOf s x.core with | some k => k.phys.getD 0xFFF | none => 0xFFF
  let s1 := freeCtx x s
  let s2 := tagStage it.part it.engine it.queue it.cmdSeq it.index 5 phys x.core x.ctx (stCode st).toNat rep s1
  let s3 := countItem it.queue it.cmdSeq it.index st detail s2
  endCmd it.queue it.cmdSeq (dropItemBusy x (countEnded it.part it.engine (st = .ok) 1 s3))

/-- The seal item of PUBLISH_COPY ends (R287). -/
def endSeal (qn : Nat) (c : Cmd) (q : Queue) (st : St) (detail : Word32) (s : State) : State :=
  let i := c.n - 1
  let s1 := modCmd qn c.seq (fun y => { y with sealing := false, next := c.n }) s
  endCmd qn c.seq (countEnded q.part 4 (st = .ok) 1 (countItem qn c.seq i st detail s1))

/-- Whether a context runs an item of a command: a FROM item whose chunk is held has left its context, and the context of a RUN
item folds the chunk to its end. -/
def runsItem (s : State) (q : Nat) (c : Word32) (r : Run) : Bool :=
  match ctxOf s r.x with
  | some k => k.item.coll.isNone && k.item.queue == q && k.item.cmdSeq == c && k.item.index == r.item
  | none => false

/-- Items of a command that end without running further: their contexts are freed and each is counted as failed
(R42, R171, R267). -/
def failItems (q : Nat) (c : Word32) (idx0 : List Nat) (st : St) (detail : Word32) (s : State) : State :=
  match queueOf s q with
  | none => s
  | some qu =>
    match cmdOf qu c with
    | none => s
    | some cmd =>
      let idx := idx0.filter (fun i => !cmd.fails.any (fun f => f.item == i))
      let rs := cmd.runs.filter (fun r => idx.contains r.item && runsItem s q c r)
      let s1 := rs.foldl (fun t r => freeCtx r.x (dropItemBusy r.x t)) s
      let s2 := modCmd q c (fun y => { y with
        failed := y.failed + idx.length,
        fails := y.fails ++ idx.map (fun i => { item := i, status := st, detail := detail }),
        runs := y.runs.filter (fun r => !idx.contains r.item), again := y.again.filter (fun i => !idx.contains i),
        next := idx.foldl (fun n i => max n (i + 1)) y.next }) s1
      endCmd q c (countEnded qu.part qu.engine false idx.length s2)

/-- Whether a command is RUN of REDUCE, whose items are those of the chunks of its group (R258). -/
def isRun (c : Cmd) : Bool := dEngine c.desc == 1 && dOpcode c.desc == 1

/-- Whether a command is FROM of REDUCE, whose items' failure aborts the generation (R258, R264). -/
def isFrom (c : Cmd) : Bool := dEngine c.desc == 1 && dOpcode c.desc == 2

/-- The chunks of the current generation that have committed, by the group of a REDUCE command. -/
def committedOf (s : State) (c : Cmd) : Table Unit :=
  match tget s.groups (fld c.desc 511 464) with
  | some g => g.committed
  | none => []

/-- The items of a command that have not been dispatched. Those of a RUN are dispatched as their chunks are folded. -/
def undispatched (s : State) (c : Cmd) : List Nat :=
  if isRun c then (List.range c.n).filter (fun i =>
    !thas (committedOf s c) i && !c.fails.any (fun f => f.item == i) && !c.runs.any (fun r => r.item == i))
  else c.again ++ (List.range (c.n - c.next)).map (fun i => c.next + i)

/-! ## What is unpredictable (R9, R10, R161) -/

/-- What an unpredictable result makes of the memory, queues and items of a partition; nothing else changes (R10). -/
def unpredictable (p : Nat) (w : Wild) (s : State) : State :=
  let mine (slot : Nat) : Bool := match extOf s slot with | some e => e.owner == p && e.mode ≠ .versioned | none => false
  let free (t : State) (k : Nat × Nat × Block) : Bool := !isBusy t k.1 k.2.1 && (dirOf t k.1 k.2.1).isNone && decide (k.2.1 < 4194304)
  let s1 := w.tiles.foldl (fun t k => if mine k.1 && free t k then
    match engWrite k.1 k.2.1 true (mkTile k.2.2) t with | .done u => u | _ => t else t) s
  let s2 := w.resident.foldl (fun t k => match tget t.cores.segments (k.1 / 2 ^ 32) with
    | some g => if g.part = p ∧ k.1 % 2 ^ 32 < g.tiles then setRes k.1 (mkTile k.2) t else t
    | none => t) s1
  let onQueue (n : Nat) (f : Queue → Queue) (t : State) : State := modQueue n (fun q => if q.part = p then f q else q) t
  let s3 := w.ring.foldl (fun t k => onQueue k.1 (fun q => { q with ring := tset q.ring (k.2.1 % depthOf q) k.2.2 }) t) s2
  let s4 := w.cq.foldl (fun t k => onQueue k.1 (fun q => { q with cq := tset q.cq (k.2.1 % depthOf q) k.2.2 }) t) s3
  let s5 := w.halts.foldl (fun t n => onQueue n (fun q => { q with state := if q.state = .active then .halted else q.state }) t) s4
  w.ends.foldl (fun t k => match ctxOf t { core := k.1, ctx := k.2.1 } with
    | some c => if c.item.part = p ∧ c.item.coll.isNone ∧ c.item.engine ≠ 1 then endItemAt { core := k.1, ctx := k.2.1 } c.item (stOf k.2.2) w.detail t else t
    | none => t) s5

/-- An item whose result a rule calls unpredictable: what becomes of its partition is free, and the item ends with a free status
(R9, R10, R161). -/
def ioUnpredictable {α : Type} (a : Actor) : Io α := fun v =>
  let w := Config.unpredictable v.s.free
  .error (.fail (stOf w.status) w.detail) { v with s := unpredictable a.part w { v.s with free := v.s.free + 1 } }

end Sys2Proof.Machine
end

