-- ==== Sys2Proof/Machine/Reduce.lean ====
section
/-! DEFINITION. REDUCE and collectives (chapter 10): groups and children (R248 to R251), contributions (R252,
R253), folding (R255), commit and conversion (R256, R259), delivery (R260, R261), status blocks (R262), abort
(R263 to R267). -/

namespace Sys2Proof.Machine

/-! ## Groups -/

/-- A registered group. -/
def cgOf (s : State) (id : BitVec 48) : Option CGroup := tget s.groups id.toNat

/-- Write a group. -/
def setCg (id : BitVec 48) (g : CGroup) (s : State) : State := { s with groups := tset s.groups id.toNat g }

/-- The lowest chunk not committed. -/
def baseOf (g : CGroup) : Nat := freeSinter (g.committed.map (·.1)) 0

/-- Unscaled INT8 inputs fold as INT32; every other input as binary32 (R255). -/
def intGroup (g : CGroup) : Bool := fsFmt g.e.inFspec == 8 && !fsScaled g.e.inFspec

/-- The accumulator format as an FSPEC. -/
def accSpec (g : CGroup) : Byte := if intGroup g then 0x0A else 0x00

/-- Data tiles of a chunk in a format (R252). -/
def chunkTiles (f : Byte) : Nat := cdiv 1024 (fmtPerTile (fsFmt f))

/-- Tiles of a CONTRIBUTE or COLL_RESULT payload (R252). -/
def payloadTiles (f : Byte) : Nat := chunkTiles f + (if fsScaled f then 1 else 0)

/-- Whether a child's range holds a member. -/
def covers (c : Child) (m : Nat) : Bool := decide (c.memberLo ≤ m) && decide (m ≤ c.memberHi)

/-- The child that a CONTRIBUTE comes from: HOST by port and node, TRUNK by port and partition tag (R253). -/
def childOf (g : CGroup) (port : Nat) (tx : Tx) : Option Nat :=
  g.children.findIdx? (fun c => c.port == port &&
    ((c.type == 0 && c.node == tx.src) || (c.type == 1 && tx.ptag == g.e.partition)))

/-- Whether a child contributes to chunks: every child, or for BROADCAST the one whose range holds SOURCE. -/
def gives (g : CGroup) (c : Child) : Bool := g.e.kind ≠ 3 || covers c g.e.source

/-- A chunk in progress. -/
def chunkOf (g : CGroup) (n : Nat) : Option Chunk := g.chunks.find? (fun c => c.chunk == n)

/-- Whether every contribution of a chunk is held. -/
def chunkFull (g : CGroup) (c : Chunk) : Bool :=
  (numberFrom 0 g.children).all (fun p => !gives g p.2 || c.held.any (fun h => h.child == p.1))

/-! ## Folding (R255) -/

/-- Elements of consecutive tiles. -/
def tileElems (fmt : Nat) (ts : List Block) : List Nat := (ts.map (elemsOf fmt)).flatten

/-- A payload's elements in the accumulator format: partials as they are, others converted. -/
def contribElems (g : CGroup) (f : Byte) (isPartial : Bool) (data : List Block) (scales : List Nat) : List Word32 :=
  if isPartial then ((tileElems 0 data).take 1024).map (BitVec.ofNat 32)
  else
    let f1 : Byte := f &&& 0x8F
    (decodeAll f1 ((tileElems (fsFmt f1) data).take 1024) scales).map
      (fun v => BitVec.ofNat 32 (convert (accSpec g) v none).code)

/-- One fold step of an element. -/
def foldElem (g : CGroup) (a b : Word32) : Word32 :=
  if g.e.kind = 3 then a
  else match g.e.op, intGroup g with
    | 0, false => f32add a b
    | 0, true => a + b
    | 1, false => f32max a b
    | 1, true => if a.slt b then b else a
    | _, false => f32min a b
    | _, true => if b.slt a then b else a

/-- Fold contributions in acceptance order; the first initializes the accumulator. -/
def foldChunk (g : CGroup) : List Contribution → List Word32
  | [] => []
  | h :: t => t.foldl (fun acc x => (acc.zip x.elems).map (fun p => foldElem g p.1 p.2)) h.elems

/-- The exact values of an accumulator. -/
def accVals (g : CGroup) (acc : List Word32) : List FVal :=
  acc.map (fun w => decodeFmt (if intGroup g then 10 else 0) w.toNat)

/-! ## Status (R262) -/

/-- The status block. -/
def statusBlock (id : BitVec 48) (gen : Word32) (st : St) (reason : Nat) (detector lost : Node) (results : Nat) : Nat :=
  put id.toNat 208 + put gen.toNat 176 + put (stCode st).toNat 168 + put reason 160 + put detector.toNat 144 +
  put lost.toNat 128 + put results 104

/-- Send COLL_STATUS to a neighbour: TC4 with ST_OK, TC0 with ST_ABORTED (R353). -/
def sendStatus (g : CGroup) (n : Node) (st : St) (reason : Nat) (detector lost : Node) (results : Nat) (s : State) : State :=
  send { blankTx s with
    dst := n, op := 0x3A, cls := if st = .ok then 4 else 0, status := stCode st, ptag := g.e.partition, ext := true,
    coll := some { collId := g.e.collId, generation := g.e.generation, chunk := 0, isPartial := false },
    trailer := mkTrailer 32 (statusBlock g.e.collId g.e.generation st reason detector lost results) } s

/-- Send COLL_STATUS to every host and trunk child but one neighbour. -/
def statusDown (g : CGroup) (st : St) (reason : Nat) (detector lost : Node) (skip : Option Node) (s : State) : State :=
  (numberFrom 0 g.children).foldl (fun t p =>
    if p.2.type ≤ 1 ∧ skip ≠ some p.2.node then sendStatus g p.2.node st reason detector lost (g.results.getD p.1 0) t
    else t) s

/-- The group at its next generation. -/
def nextGen (g : CGroup) : CGroup :=
  { g with e := { g.e with generation := g.e.generation + 1 }, running := false, chunks := [], committed := [],
           run := none, froms := [], results := g.children.map (fun _ => 0) }

/-! ## Abort (R264 to R267) -/

/-- The fold items of a group end: their contexts are idle. -/
def dropFolds (g : CGroup) (s : State) : State :=
  g.chunks.foldl (fun t c => match c.x with | some x => freeCtx x (dropItemBusy x t) | none => t) s

/-- Answer every contribution held with ST_ABORTED. -/
def abortHeld (g : CGroup) (s : State) : State :=
  g.chunks.foldl (fun t c => c.held.foldl (fun u h =>
    match h.owed with | some (_, tx) => answer tx .aborted u | none => u) t) s

/-- Items of RUN and FROM commands that have not committed fail with ST_ABORTED, but for those that have failed by
themselves (R267). -/
def abortItems (g : CGroup) (reason : Nat) (s : State) : State :=
  (g.run.toList ++ g.froms).foldl (fun t r =>
    match queueOf t r.queue with
    | none => t
    | some q => match cmdOf q r.cmdSeq with
      | none => t
      | some c =>
        let idx := (List.range c.n).filter (fun i => !thas g.committed i && !c.fails.any (fun f => f.item == i))
        failItems r.queue r.cmdSeq idx .aborted (BitVec.ofNat 32 reason) t) s

/-- A generation aborts (R265). `src` is the neighbour whose status said so; with none this switch detects it and
posts COLL_ABORTED. -/
def abortGen (id : BitVec 48) (reason : Nat) (detector lost : Node) (src : Option Node)
    (s : State) : State :=
  match cgOf s id with
  | none => s
  | some g =>
    let s1 := setCg id (nextGen g) (dropFolds g (abortHeld g s))
    let s2 := abortItems g reason s1
    let s3 := if g.e.role = 1 ∧ src ≠ some g.e.parentNode then
        sendStatus g g.e.parentNode .aborted reason detector lost 0 s2 else s2
    let s4 := statusDown g .aborted reason detector lost src s3
    let s5 := occur { Occ.bare 4 (5 * g.e.partition) 0x85 1 with part := some g.e.partition } s4
    if src.isNone then
      post .collAborted (some g.e.partition) [id.toNat, g.e.generation.toNat, reason, detector.toNat, lost.toNat] s5
    else s5

/-- This switch detects that a generation must abort. -/
def detectAbort (id : BitVec 48) (reason : Nat) (lost : Node) (s : State) : State := abortGen id reason (myNode s) lost none s

/-- Abort every group that a test names. -/
def abortWhere (reason : Nat) (lost : Node) (p : CGroup → Bool) (s : State) : State :=
  (s.groups.filter (fun x => p x.2)).foldl (fun t x => detectAbort x.2.e.collId reason lost t) s

/-! ## Contributions (R253) -/

/-- The checks of R253 in order: the child that contributes, or a refusal. -/
def contributeCheck (port : Nat) (tx : Tx) (c : CollExt) (s : State) : Except St (CGroup × Nat) :=
  match check1 tx s with
  | some st => .error st
  | none =>
    match cgOf s c.collId with
    | none => .error .noAccess
    | some g =>
      match childOf g port tx with
      | none => .error .noAccess
      | some i =>
        if bindPart s port tx ≠ some g.e.partition then .error .noAccess else
        let ch := g.children.getD i { type := 3, port := 0, node := 0, memberLo := 0, memberHi := 0 }
        if partState s g.e.partition = .resetting then .error .state
        else if c.generation ≠ g.e.generation then .error .state
        else if g.e.chunks ≤ c.chunk ∨ baseOf g + g.e.window ≤ c.chunk then .error .state
        else if thas g.committed c.chunk then .error .state
        else if (match chunkOf g c.chunk with | some k => k.held.any (fun h => h.child == i) | none => false) then .error .state
        else if !gives g ch then .error .state
        else if c.isPartial ≠ (ch.type == 1) then .error .state
        else if tx.tiles.length ≠ (if c.isPartial then 16 else payloadTiles g.e.inFspec) then .error .state
        else if !tx.tiles.all tileOk then .error .checksum
        else .ok (g, i)

/-- Hold a contribution to a chunk: accepted (R253). -/
def hold (id : BitVec 48) (n : Nat) (h : Contribution) (s : State) : State :=
  match cgOf s id with
  | none => s
  | some g =>
    let cs := match chunkOf g n with
      | some _ => g.chunks.map (fun k => if k.chunk = n then { k with held := k.held ++ [h] } else k)
      | none => g.chunks ++ [{ chunk := n, held := [h], x := none, faults := 0 }]
    setCg id { g with running := true, chunks := cs } s

/-- CONTRIBUTE (R253). -/
def serveContribute (port : Nat) (tx : Tx) (s : State) : State :=
  match tx.coll with
  | none => answer tx .opcode s
  | some c =>
    match contributeCheck port tx c s with
    | .error st => answer tx st s
    | .ok (g, i) =>
      let data := tx.tiles.map (·.data)
      let n := if c.isPartial then 16 else chunkTiles g.e.inFspec
      let scales := (List.range 32).map (fun j => bytesAt (data.getD n 0) j 1)
      hold c.collId c.chunk
        { child := i, elems := contribElems g g.e.inFspec c.isPartial (data.take n) scales, owed := some (port, tx) }
        (occur { Occ.bare 4 (5 * g.e.partition) 0x84 1 with
          cls := some tx.cls, part := some g.e.partition, node := some tx.src, port := some port } s)

/-- The parent's answer to a partial: a refusal aborts the generation with REASON TRUNK (R254). -/
def serveContributeAnswer (tx : Tx) (s : State) : State :=
  match tx.coll with
  | none => s
  | some c =>
    match cgOf s c.collId with
    | none => s
    | some g =>
      if g.e.role = 1 ∧ g.e.parentNode = tx.src ∧ c.generation = g.e.generation ∧ stOf tx.status ≠ .ok ∧ stOf tx.status ≠ .aborted
      then detectAbort c.collId 4 tx.src s else s

/-! ## Commit and delivery (R256, R259, R260) -/

/-- Whether a child needs a chunk's result (R260). -/
def needsResult (g : CGroup) (n : Nat) (c : Child) : Bool :=
  decide (c.type ≤ 1) && match g.e.kind with
    | 0 => true
    | 1 => covers c (n / (g.e.chunks / g.e.members))
    | 2 => false
    | _ => decide (c.memberLo ≠ g.e.source) || decide (c.memberHi ≠ g.e.source)

/-- Send a chunk's result to every child that needs it, counting it for that child (R260). -/
def deliver (id : BitVec 48) (n : Nat) (ts : List Tile) (s : State) : State :=
  match cgOf s id with
  | none => s
  | some g =>
    let s1 := (g.children.filter (needsResult g n)).foldl (fun t c =>
      send { blankTx t with
        dst := c.node, op := 0x39, cls := 4, length := ts.length, ptag := g.e.partition, ext := true,
        coll := some { collId := id, generation := g.e.generation, chunk := n, isPartial := false }, tiles := ts } t) s
    setCg id { g with results := (numberFrom 0 g.children).map (fun p =>
      g.results.getD p.1 0 + (if needsResult g n p.2 then 1 else 0)) } s1

/-- The tiles of a chunk in an output format: data tiles, then the scale tile (R252, R256). -/
def resultTiles (g : CGroup) (f : Byte) (seed : Word64) (n : Nat) (acc : List Word32) : List Block × List Nat :=
  let c := convertAll f seed (1024 * n) (accVals g acc)
  (packTiles (fsFmt f) c.codes, c.scales)

/-- Fields of a REDUCE descriptor (R258). -/
def rColl (d : BitVec 512) : BitVec 48 := BitVec.ofNat 48 (fld d 511 464)
def rGen (d : BitVec 512) : Word32 := BitVec.ofNat 32 (fld d 463 432)
def rAddr (d : BitVec 512) : Word64 := BitVec.ofNat 64 (fld d 431 368)
def rScale (d : BitVec 512) : Word64 := BitVec.ofNat 64 (fld d 367 304)
def rSeed (d : BitVec 512) : Word64 := BitVec.ofNat 64 (fld d 303 240)
def rSpec (d : BitVec 512) : Byte := BitVec.ofNat 8 (fld d 239 232)
def rMember (d : BitVec 512) : Nat := fld d 231 215

/-- The writes of chunk `n` at DEST (R258). -/
def destWrites (g : CGroup) (d : BitVec 512) (n : Nat) (acc : List Word32) : List IWrite :=
  let f := rSpec d
  let (ts, scales) := resultTiles g f (rSeed d) n acc
  let data := (numberFrom 0 ts).map (fun p => wholeTile (rAddr d) (n * chunkTiles f + p.1) p.2)
  if fsScaled f then
    data ++ byteWrites (rScale d) (32 * n) 32 ((numberFrom 0 scales).foldl (fun k p => k + put p.2 (8 * p.1)) 0)
  else data

/-- FROM items of local children whose chunk has committed are done (R259, R269). -/
def fromsDone (g : CGroup) (n : Nat) (s : State) : State :=
  g.froms.foldl (fun t r => endCmd r.queue r.cmdSeq (countEnded g.e.partition 1 true 1 (countItem r.queue r.cmdSeq n .ok 0 t))) s

/-- A chunk has committed: its contributions are answered, its fold item ends, and its FROM items are done. -/
def committed (id : BitVec 48) (n : Nat) (c : Chunk) (s : State) : State :=
  match cgOf s id with
  | none => s
  | some g =>
    let s1 := c.held.foldl (fun u h => match h.owed with | some (_, tx) => answer tx .ok u | none => u) s
    let s2 := match c.x with | some x => freeCtx x (dropItemBusy x s1) | none => s1
    fromsDone g n (setCg id { g with
      chunks := g.chunks.filter (fun k => k.chunk ≠ n), committed := tset g.committed n () } s2)

/-- At an interior switch the partial goes to the parent (R259). -/
def commitInterior (id : BitVec 48) (g : CGroup) (c : Chunk) (s : State) : State :=
  let ts := (packTiles 0 ((foldChunk g c.held).map (·.toNat))).map mkTile
  committed id c.chunk c (send { blankTx s with
    dst := g.e.parentNode, op := 0x38, cls := 3, length := ts.length, ptag := g.e.partition, ext := true,
    coll := some { collId := id, generation := g.e.generation, chunk := c.chunk, isPartial := true }, tiles := ts } s)

/-- Every chunk has committed at the root: the generation ends with ST_OK (R261). -/
def endGen (id : BitVec 48) (s : State) : State :=
  match cgOf s id with
  | none => s
  | some g =>
    if g.e.chunks ≤ g.committed.length then
      setCg id (nextGen g) (statusDown g .ok 0 (myNode s) noNode none s)
    else s

/-- The queue and the command of a RUN or FROM. -/
def redCmd (s : State) (r : RedCmd) : Option (Queue × Cmd) :=
  match queueOf s r.queue with
  | none => none
  | some q => (cmdOf q r.cmdSeq).map (fun c => (q, c))

/-- The RUN item of a chunk is dispatched with the item that folds the chunk: the order of its queue, a publication that drains
and the limit of 16 commands may hold it back, and the checks of R164 meet it (R108, R158, R162, R171). -/
def meetRun (id : BitVec 48) (n : Nat) (s : State) : State :=
  match cgOf s id with
  | none => s
  | some g =>
    match g.run, (chunkOf g n).bind (·.x) with
    | some r, some x =>
      match redCmd s r with
      | none => s
      | some (q, c) =>
        if c.runs.any (fun y => y.item == n) || c.fails.any (fun f => f.item == n) || !inOrder q c || heldByPublish s q c || overLimit q c then s
        else match (if q.state = .disabled then some St.fenced else recheck s q c) with
          | some st => failItems r.queue r.cmdSeq [n] st 0 s
          | none => modCmd r.queue r.cmdSeq (fun y => { y with
              next := max y.next (n + 1), runs := y.runs ++ [{ item := n, x := x, epoch := s.ext.mapEpoch, replay := 0 }] }) s
    | _, _ => s

/-- What a RUN item acts for. -/
def runActor (q : Queue) (cmd : Cmd) (w : Run) : Actor :=
  { x := w.x, part := q.part, sub := q.submitter, epoch := w.epoch, rv := dReadV cmd.desc, wv := dWriteV cmd.desc, wild := cmd.wild }

/-- A RUN item is stopped: where its chunk's write could have begun, DEST holds old or new content (R44, R164). -/
def stopRun (q : Queue) (cmd : Cmd) (w : Run) (s : State) : State :=
  match cgOf s (rColl cmd.desc) with
  | none => s
  | some g => match chunkOf g w.item with
    | none => s
    | some k =>
      if chunkFull g k ∧ rAddr cmd.desc ≠ 0 then
        (runIo (ioWrites { runActor q cmd w with stop := true } (destWrites g cmd.desc w.item (foldChunk g k.held))) [] s).2
      else s

/-- At the root, the DEST write of a RUN item, and the status it leaves (R164, R259). None: it waits. -/
def runItem (g : CGroup) (q : Queue) (cmd : Cmd) (w : Run) (acc : List Word32) (ans : List RemoteAnswer) (s : State) :
    Option (St × Word32) × State :=
  if rAddr cmd.desc = 0 then (some (.ok, 0), s)
  else
    match runIo (ioWrites (runActor q cmd w) (destWrites g cmd.desc w.item acc)) ans s with
    | (.ok _, s1) => (some (.ok, 0), s1)
    | (.error (.fail st d), s1) => (some (st, d), s1)
    | (.error .wait, s1) => (none, s1)

/-- A chunk commits at the root: the result goes to the children (R256, R259, R260). -/
def commitResult (id : BitVec 48) (g : CGroup) (r : RedCmd) (c : Chunk) (s : State) : State :=
  let (ts, scales) := resultTiles g g.e.outFspec (rSeed r.desc) c.chunk (foldChunk g c.held)
  let all := ts ++ (if fsScaled g.e.outFspec then packBytes scales else [])
  committed id c.chunk c (deliver id c.chunk (all.map mkTile) s)

/-- At the root the chunk's RUN item writes DEST and the chunk commits; one whose RUN item has failed commits for delivery alone
(R259). -/
def commitRoot (id : BitVec 48) (g : CGroup) (c : Chunk) (ans : List RemoteAnswer) (s : State) : State :=
  match g.run with
  | none => s
  | some r =>
    match redCmd s r with
    | none => endGen id (commitResult id g r c s)
    | some (q, cmd) =>
      if cmd.fails.any (fun f => f.item == c.chunk) then endGen id (commitResult id g r c s)
      else match cmd.runs.find? (fun w => w.item == c.chunk) with
        | none => s
        | some w =>
          match runItem g q cmd w (foldChunk g c.held) ans s with
          | (none, s1) => s1
          | (some (st, d), s1) =>
            endGen id (endCmd r.queue r.cmdSeq (countEnded g.e.partition 1 (st = .ok) 1
              (countItem r.queue r.cmdSeq c.chunk st d (commitResult id g r c s1))))

/-- A chunk whose contributions are all held, and whose fold item runs, commits (R259). -/
def commitChunk (id : BitVec 48) (n : Nat) (ans : List RemoteAnswer) (s0 : State) : State :=
  let s := meetRun id n s0
  match cgOf s id with
  | none => s
  | some g =>
    match chunkOf g n with
    | none => s
    | some c =>
      if c.x.isNone || !chunkFull g c then s
      else if g.e.role = 0 then commitRoot id g c ans s
      else commitInterior id g c s

/-- A contribution that the caldera holds for a chunk fails its check as the chunk's fold item reads it: REASON KILLED (R337). -/
def failHeld (id : BitVec 48) (n child : Nat) (s : State) : State :=
  match (cgOf s id).bind (chunkOf · n) with
  | none => s
  | some c =>
    if c.x.isSome && c.held.any (fun h => h.child == child && h.owed.isSome) then detectAbort id 5 noNode s else s

/-- A result from the parent goes to every child that needs it (R260). -/
def serveResult (tx : Tx) (s : State) : State :=
  match tx.coll with
  | none => s
  | some c =>
    match cgOf s c.collId with
    | none => s
    | some g =>
      if g.e.role = 1 ∧ g.e.parentNode = tx.src ∧ c.generation = g.e.generation then deliver c.collId c.chunk tx.tiles s
      else s

/-- A status from a neighbour: ST_OK from the parent ends the generation here, ST_ABORTED from any neighbour aborts
it; one for a generation that this switch has left is ignored (R261, R265). -/
def serveStatus (tx : Tx) (s : State) : State :=
  match tx.coll with
  | none => s
  | some c =>
    match cgOf s c.collId with
    | none => s
    | some g =>
      if c.generation ≠ g.e.generation then s
      else
        let v := tx.trailer.val
        let detector : Node := BitVec.ofNat 16 (bitsOf v 144 16)
        if stOf (BitVec.ofNat 8 (bitsOf v 168 8)) = .ok then
          if g.e.role = 1 ∧ g.e.parentNode = tx.src then
            setCg c.collId (nextGen g) (statusDown g .ok 0 detector noNode none (dropFolds g s))
          else s
        else if (g.e.role = 1 ∧ g.e.parentNode = tx.src) ∨ g.children.any (fun k => k.type == 1 && k.node == tx.src) then
          abortGen c.collId (bitsOf v 160 8) detector (BitVec.ofNat 16 (bitsOf v 128 16)) (some tx.src) s
        else s

/-! ## Commands (R258, R259) -/

/-- Check 8 of R159 for a REDUCE command (R259). -/
def reduceCheck (part : Nat) (d : BitVec 512) (s : State) : Bool :=
  match cgOf s (rColl d) with
  | none => false
  | some g =>
    g.e.partition == part && rGen d == g.e.generation && match dOpcode d with
      | 1 => g.e.role == 0 && g.run.isNone && (rAddr d ≠ 0 || g.e.kind ≠ 2)
      | 2 => g.children.any (fun c => c.type == 2 && covers c (rMember d)) &&
             !g.froms.any (fun r => r.member == rMember d) && (g.e.kind ≠ 3 || rMember d == g.e.source)
      | _ => true

/-- A FROM item reads its chunk: elements in the accumulator format (R255, R258). -/
def fromWork (g : CGroup) (d : BitVec 512) (a : Actor) (n : Nat) : Io (List Word32) := do
  let f := rSpec d
  let k := chunkTiles f
  let ts ← ioReads a (rAddr d) (n * k) k
  let sc ← if fsScaled f then do
      let v ← ioBytes a (rScale d) (32 * n) 32
      pure ((List.range 32).map (fun j => bitsOf v (8 * j) 8))
    else pure []
  pure (contribElems g f false (ts.map (·.data)) sc)

/-- A FROM item ends on its core: its chunk is held as the local member's contribution until it commits, or its failure aborts
the generation with REASON 3 or 9 (R259, R264). -/
def fromItem (x : CtxId) (it : Item) (q : Queue) (cmd : Cmd) (ans : List RemoteAnswer) (s : State) : State :=
  let d := cmd.desc
  match cgOf s (rColl d) with
  | none => endItemAt x it .state 0 s
  | some g =>
    let a := actorOf s x it q cmd
    match runIo (fromWork g d a it.index) ans s with
    | (.error (.fail st dt), s1) =>
      abortGen (rColl d) (if st = .revoked then 3 else 9) (myNode s) noNode none
        (endItemAt x it st dt s1)
    | (.error _, s1) => s1
    | (.ok es, s1) =>
      let child := (g.children.findIdx? (fun c => c.type == 2 && covers c (rMember d))).getD 0
      hold (rColl d) it.index { child := child, elems := es, owed := none }
        (freeCtx x (dropItemBusy x s1))

/-! ## Registration (R248 to R251) -/

/-- Caldera cells that the engine holds of a partition reserve (R251). -/
def holdOf (s : State) (p : Nat) : Nat :=
  ((s.groups.filter (fun x => x.2.e.partition == p)).map (fun x => x.2.e.window * x.2.e.fanIn * 16)).sum

/-- The limit entries in force (R324). -/
def allLimits (s : State) : List (Nat × Nat × Limit) :=
  ((s.parts.parts.filterMap (fun p => p.2.applied)).map (·.limits)).flatten

/-- Slots of the banks that work, less every RESERVE: shared space (R324, R337). -/
def sharedSpace (s : State) : Nat :=
  (64 - s.spindle.badBanks.length) * 16384 - ((allLimits s).map (fun l => l.2.2.reserve)).sum

/-- Whether a child entry is one that R250 admits. -/
def childOk (s : State) (c : Child) : Bool :=
  decide (c.type ≤ 2) && decide (c.memberLo ≤ 65535) && decide (c.memberHi ≤ 65535) && (if c.type = 2 then c.port == 255 && c.node == myNode s else decide (c.port ≠ 255))

/-- Whether the port of a HOST or TRUNK child passes: a host-facing port of the partition, or a trunk on which it
holds a share (R248). -/
def childPortOk (s : State) (p : Nat) (c : Child) : Bool :=
  decide (2 ≤ c.type) || canonPort s c.port == c.port && match portOf s c.port with
    | none => false
    | some x => match x.cfg.role with
      | .host => !x.removed && x.cfg.owner == some p
      | .trunk => x.cfg.shares.contains p
      | _ => false

/-- Whether a group entry lies in its encodings (R249, R250). -/
def groupEntryOk (e : GroupEntry) (n : Nat) : Bool :=
  decide (1 ≤ e.chunks) && decide (e.chunks ≤ 16777215) && decide (1 ≤ e.members) && decide (e.members ≤ 65536) &&
  decide (1 ≤ e.window) && decide (e.window ≤ 4095) && decide (e.source ≤ 65535) && decide (e.genTimeout ≤ 65535) &&
  (decide (e.parentPort ≤ 191) || e.parentPort == 255) && decide (e.fanIn = n) &&
  decide (1 ≤ n) && decide (n ≤ 192) && decide (e.kind ≤ 3) && (decide (e.op ≤ 2) || e.kind == 3) && decide (e.role ≤ 1) &&
  fsFmtOk e.inFspec && decide (fsFmt e.inFspec ≤ 8) && fsOk e.outFspec && (e.kind ≠ 1 || e.chunks % e.members == 0)

/-- GROUP_REGISTER (R248, R251, R337): QUOTA, and what is left of shared space, must cover the partition's engine holds. -/
def registerGroup (e : GroupEntry) (cs : List Child) (s : State) : St × State :=
  let quota := match templateOf s e.partition with | some t => t.groupQuota | none => 0
  let cells := match applied s e.partition with | some c => c.quota | none => 0
  if !cs.all (childPortOk s e.partition) then (.noAccess, s)
  else if (cgOf s e.collId).isSome || !groupEntryOk e cs.length || !cs.all (childOk s) ||
      decide (quota ≤ (s.groups.filter (fun x => x.2.e.partition == e.partition)).length) || decide (4096 ≤ s.groups.length) ||
      decide (min cells (sharedSpace s) < holdOf s e.partition + e.window * e.fanIn * 16) then (.state, s)
  else (.ok, setCg e.collId { e := e, children := cs, running := false, chunks := [], committed := [], run := none,
                              froms := [], results := cs.map (fun _ => 0),
                              childListAddr := Config.placement e.collId.toNat } s)

/-- GROUP_RELEASE (R248). -/
def releaseGroup (id : BitVec 48) (s : State) : St × State :=
  match cgOf s id with
  | none => (.state, s)
  | some g => if g.running then (.state, s) else (.ok, { s with groups := tdel s.groups id.toNat })

/-- A child entry (R250). -/
def childWord (c : Child) : Nat :=
  inBits c.type 63 62 + inBits c.port 61 54 + inBits c.node.toNat 53 38 + inBits c.memberLo 37 21 + inBits c.memberHi 20 4

/-- What GROUP_READ returns (R248): the 64-byte entry of R249, then the child list. -/
def groupVals (g : CGroup) : List Nat :=
  let e := g.e
  leBytes 64 (inBits e.collId.toNat 511 464 + inBits e.generation.toNat 463 432 + inBits e.parentNode.toNat 431 416 +
    inBits e.parentPort 415 408 + inBits e.chunks 407 384 + inBits e.members 383 367 + inBits e.source 366 351 +
    inBits e.fanIn 350 343 + inBits e.window 342 331 + inBits e.inFspec.toNat 330 323 + inBits e.outFspec.toNat 322 315 +
    inBits e.genTimeout 314 299 + inBits e.kind 298 297 + inBits e.op 296 295 + inBits e.role 294 293 +
    inBits (if g.running then 2 else 1) 292 290 + inBits e.partition 289 286 + inBits g.childListAddr.toNat 285 254) ++
  (g.children.map (fun c => leBytes 8 (childWord c))).flatten

end Sys2Proof.Machine
end

