-- ==== Sys2Proof/Machine/Commands.lean ====
section
/-! DEFINITION. Reading a descriptor (R158 to R163): the fields of each engine's ENGINE_ARGS (chapters 9 to 12), the
ranges that a command names, its items, and the checks of R159 and R160 in their order. -/

namespace Sys2Proof.Machine

/-! ## Fields of ENGINE_ARGS -/

/-- A global or resident address in a descriptor. -/
def dAddr (d : BitVec 512) (hi lo : Nat) : Word64 := BitVec.ofNat 64 (fld d hi lo)
/-- A format specifier in a descriptor. -/
def dSpec (d : BitVec 512) (hi lo : Nat) : Byte := BitVec.ofNat 8 (fld d hi lo)

/-- ROWS (R271). -/
structure RowsArgs where
  table : Word64
  list : Word64
  out : Word64
  tableRows : Nat
  nIdx : Nat
  nBags : Nat
  blocks : Nat
  inStride : Nat
  outStride : Nat
  inF : Byte
  outF : Byte
  pool : Nat
  weighted : Bool

/-- The arguments of a ROWS descriptor. -/
def rowsArgs (d : BitVec 512) : RowsArgs :=
  { table := dAddr d 511 448, list := dAddr d 447 384, out := dAddr d 383 320, tableRows := fld d 319 290, nIdx := fld d 289 266,
    nBags := fld d 265 242, blocks := fld d 241 235, inStride := fld d 234 225, outStride := fld d 224 215, inF := dSpec d 214 207,
    outF := dSpec d 206 199, pool := fld d 198 197, weighted := d.getLsbD 196 }

/-- DISPATCH and COMBINE (R277). -/
structure RouteArgs where
  src : Word64
  route : Word64
  dest : Word64
  nTokens : Nat
  capacity : Nat
  topk : Nat
  blocks : Nat
  inStride : Nat
  outStride : Nat
  inF : Byte
  outF : Byte

/-- The arguments of a DISPATCH or COMBINE descriptor. -/
def routeArgs (d : BitVec 512) : RouteArgs :=
  { src := dAddr d 511 448, route := dAddr d 447 384, dest := dAddr d 383 320, nTokens := fld d 319 296, capacity := fld d 295 272,
    topk := fld d 271 267, blocks := fld d 266 260, inStride := fld d 259 250, outStride := fld d 249 240, inF := dSpec d 239 232,
    outF := dSpec d 231 224 }

/-- KV (R275): LIST, DEST, N_BLOCKS, BLOCK_TILES. -/
structure KvArgs where
  list : Word64
  dest : Word64
  nBlocks : Nat
  blockTiles : Nat

/-- The arguments of a KV descriptor. -/
def kvArgs (d : BitVec 512) : KvArgs :=
  { list := dAddr d 511 448, dest := dAddr d 447 384, nBlocks := fld d 383 360, blockTiles := fld d 359 349 }

/-- COPY, FILL and CONVERT (R282). -/
structure MoveArgs where
  src : Word64
  dest : Word64
  seed : Word64
  count : Nat
  srcRes : Bool
  destRes : Bool
  srcF : Byte
  destF : Byte

/-- The arguments of a COPY, FILL or CONVERT descriptor. -/
def moveArgs (d : BitVec 512) : MoveArgs :=
  { src := dAddr d 511 448, dest := dAddr d 447 384, seed := dAddr d 383 320, count := fld d 319 288, srcRes := d.getLsbD 287,
    destRes := d.getLsbD 286, srcF := dSpec d 285 278, destF := dSpec d 277 270 }

/-- PUBLISH_COPY (R285). -/
structure PubArgs where
  src : Word64
  dest : Word64
  tiles : Nat
  sealIt : Bool

/-- The arguments of a PUBLISH_COPY descriptor. -/
def pubArgs (d : BitVec 512) : PubArgs :=
  { src := dAddr d 511 448, dest := dAddr d 447 384, tiles := fld d 383 360, sealIt := d.getLsbD 359 }

/-- REBUILD (R288): FIRST_ROW, ROWS, GROUP. -/
structure RebArgs where
  first : Nat
  rows : Nat
  group : Nat

/-- The arguments of a REBUILD descriptor. -/
def rebArgs (d : BitVec 512) : RebArgs := { first := fld d 511 472, rows := fld d 471 432, group := fld d 431 424 }

/-- SCAN (R295). -/
structure ScanArgs where
  src : Word64
  pred : Word64
  out : Word64
  countAddr : Word64
  n : Nat
  rsize : Nat
  form : Nat
  anyTerm : Bool

/-- The arguments of a SCAN descriptor. -/
def scanArgs (d : BitVec 512) : ScanArgs :=
  { src := dAddr d 511 448, pred := dAddr d 447 384, out := dAddr d 383 320, countAddr := dAddr d 319 256, n := fld d 255 224,
    rsize := fld d 223 221, form := fld d 220 219, anyTerm := d.getLsbD 218 }

/-- Bytes of a record (R294). -/
def scanRb (a : ScanArgs) : Nat := 4 * 2 ^ a.rsize

/-- TOPK (R300). -/
structure TopkArgs where
  src : Word64
  outVal : Word64
  outIdx : Word64
  map : Word64
  len : Nat
  nRows : Nat
  k : Nat
  smallest : Bool

/-- The arguments of a TOPK descriptor. -/
def topkArgs (d : BitVec 512) : TopkArgs :=
  { src := dAddr d 511 448, outVal := dAddr d 447 384, outIdx := dAddr d 383 320, map := dAddr d 319 256, len := fld d 255 228,
    nRows := fld d 227 208, k := fld d 207 195, smallest := d.getLsbD 194 }

/-- SCORE and ATTEND (R304, R306, R307). -/
structure AttnArgs where
  list : Word64
  q : Word64
  out : Word64
  scale : Word32
  nBlocks : Nat
  rows : Nat
  dim : Nat
  kvF : Byte
  qF : Byte
  mode : Nat
  span : Nat
  res : Bool
  mask : Nat

/-- The arguments of a SCORE (`att` false) or ATTEND descriptor. -/
def attnArgs (att : Bool) (d : BitVec 512) : AttnArgs :=
  { list := dAddr d 511 448, q := dAddr d 447 384, out := dAddr d 383 320, scale := BitVec.ofNat 32 (fld d 319 288),
    nBlocks := fld d 287 264, rows := fld d 263 254, dim := 32 * (fld d 253 251 + 1), kvF := dSpec d 250 243, qF := dSpec d 242 235,
    mode := fld d 234 233, span := if att then fld d 234 223 else 16, res := if att then d.getLsbD 222 else d.getLsbD 232,
    mask := if att then fld d 221 214 else fld d 231 224 }

/-- APPLY RUN (R239). -/
structure ApplyArgs where
  arg : Word64
  seed : Word64
  nx : Nat
  ny : Nat
  nz : Nat
  inline_ : Word64
  kernel : Nat
  argTiles : Nat
  mask : Nat

/-- The arguments of an APPLY descriptor. -/
def applyArgs (d : BitVec 512) : ApplyArgs :=
  { arg := dAddr d 511 448, seed := dAddr d 447 384, nx := fld d 383 360, ny := fld d 359 336, nz := fld d 335 312,
    inline_ := dAddr d 311 248, kernel := fld d 247 242, argTiles := fld d 241 237, mask := fld d 236 229 }

/-! ## Ranges -/

/-- A range of tiles that a command names: global or resident, read or written. -/
structure Rng where
  addr : Word64
  tiles : Nat
  res : Bool
  write : Bool
  deriving DecidableEq, Repr

/-- Tiles that `n` bytes from an address touch; an operand with nothing in it still names the tile of its address. -/
def tilesOfBytes (a : Word64) (n : Nat) : Nat := max 1 ((aByte a + n + 255) / 256)

/-- A range read. -/
def rd (a : Word64) (bytes : Nat) : Rng := { addr := a, tiles := tilesOfBytes a bytes, res := false, write := false }
/-- A range written. -/
def wr (a : Word64) (bytes : Nat) : Rng := { addr := a, tiles := tilesOfBytes a bytes, res := false, write := true }

/-- Bytes of a row (R272). -/
def rowBytes (f : Byte) (blocks : Nat) : Nat := runBytes (fsFmt f) (32 * blocks) + (if fsScaled f then blocks else 0)

/-- Bytes from the first byte of row 0 to the last of row n − 1. -/
def spanBytes (n stride rb : Nat) : Nat := if n = 0 then 0 else 32 * stride * (n - 1) + rb

/-- Tiles of the index list (R272): indices, offsets, weights, each from a tile boundary. -/
def listTiles (a : RowsArgs) : Nat × Nat × Nat :=
  let it := cdiv (4 * a.nIdx) 256
  (it, if a.pool = 0 then 0 else cdiv (4 * (a.nBags + 1)) 256, if a.weighted then it else 0)

/-- Data tiles of an operand of CONVERT (R283). -/
def convData (f : Byte) (n : Nat) : Nat := cdiv n (fmtPerTile (fsFmt f))

/-- Tiles of an operand of CONVERT, scale tiles after the data (R283). -/
def convTiles (f : Byte) (n : Nat) : Nat := convData f n + (if fsScaled f then cdiv (cdiv n 32) 256 else 0)

/-- Rows of row group `g` of Q (R305). -/
def groupRows (a : AttnArgs) (g : Nat) : Nat := min 128 (a.rows - 128 * g)

/-- Data and scale tiles of row group `g` of Q (R305). -/
def groupTiles (a : AttnArgs) (g : Nat) : Nat × Nat :=
  let n := groupRows a g * a.dim
  (cdiv n (fmtPerTile (fsFmt a.qF)), if fsScaled a.qF then cdiv (cdiv n 32) 256 else 0)

/-- Row groups of Q. -/
def qGroups (a : AttnArgs) : Nat := cdiv a.rows 128

/-- The tile of Q at which row group `g` starts. -/
def qStart (a : AttnArgs) (g : Nat) : Nat := ((List.range g).map (fun i => (groupTiles a i).1 + (groupTiles a i).2)).sum

/-- Tiles of one partial (R309). -/
def partialTiles (a : AttnArgs) : Nat := cdiv (a.rows * a.dim) 64 + 2 * cdiv a.rows 64

/-- A resident range of `n` tiles. -/
def moveRng (res : Bool) (a : Word64) (n : Nat) (w : Bool) : Rng := { addr := a, tiles := max 1 n, res := res, write := w }

/-- The ranges of a command for check 4 of R159. -/
def rangesOf (s : State) (d : BitVec 512) : List Rng :=
  match dEngine d, dOpcode d with
  | 1, 1 =>
    let n := match cgOf s (rColl d) with | some g => g.e.chunks | none => 0
    if rAddr d = 0 then [] else
      [wr (rAddr d) (256 * n * chunkTiles (rSpec d))] ++ (if fsScaled (rSpec d) then [wr (rScale d) (32 * n)] else [])
  | 1, 2 =>
    let n := match cgOf s (rColl d) with | some g => g.e.chunks | none => 0
    [rd (rAddr d) (256 * n * chunkTiles (rSpec d))] ++ (if fsScaled (rSpec d) then [rd (rScale d) (32 * n)] else [])
  | 2, 1 =>
    let a := rowsArgs d
    let l := listTiles a
    [rd a.table (spanBytes a.tableRows a.inStride (rowBytes a.inF a.blocks)), rd a.list (256 * (l.1 + l.2.1 + l.2.2)),
     wr a.out (spanBytes (if a.pool = 0 then a.nIdx else a.nBags) a.outStride (rowBytes a.outF a.blocks))]
  | 2, 2 =>
    let a := kvArgs d
    [rd a.list (8 * a.nBlocks), wr a.dest (256 * a.blockTiles * a.nBlocks)]
  | 2, 3 =>
    let a := routeArgs d
    [rd a.src (spanBytes a.nTokens a.inStride (rowBytes a.inF a.blocks)), rd a.route (8 * a.nTokens * a.topk), wr a.dest 1]
  | 2, 4 =>
    let a := routeArgs d
    [rd a.src 1, rd a.route (8 * a.nTokens * a.topk), wr a.dest (spanBytes a.nTokens a.outStride (rowBytes a.outF a.blocks))]
  | 3, 1 =>
    let a := scanArgs d
    let out := if a.form = 0 then (a.n + 7) / 8 else if a.form = 1 then a.n * scanRb a else 4 * a.n
    [rd a.src (a.n * scanRb a), rd a.pred 256, wr a.out out] ++ (if aNode a.countAddr = noNode then [] else [wr a.countAddr 8])
  | 3, 2 =>
    let a := topkArgs d
    [rd a.src (256 * cdiv a.len 64 * a.nRows)] ++
    (if aNode a.outVal = noNode then [] else [wr a.outVal (256 * cdiv a.k 64 * a.nRows)]) ++
    (if aNode a.map = noNode then [wr a.outIdx (256 * cdiv a.k 64 * a.nRows)]
     else [wr a.outIdx (256 * cdiv a.k 32 * a.nRows), rd a.map (8 * a.len)])
  | 3, 3 =>
    let a := attnArgs false d
    [rd a.list (8 * a.nBlocks), rd a.q (256 * qStart a (qGroups a)),
     wr a.out (if a.mode = 0 then 64 * a.rows * a.nBlocks else if a.mode = 1 then 4 * a.rows * a.nBlocks else 4 * a.nBlocks)]
  | 3, 4 =>
    let a := attnArgs true d
    [rd a.list (8 * a.nBlocks), rd a.q (256 * qStart a (qGroups a)), wr a.out (256 * partialTiles a * cdiv a.nBlocks a.span)]
  | 4, 1 =>
    let a := moveArgs d
    [moveRng a.srcRes a.src a.count false, moveRng a.destRes a.dest a.count true]
  | 4, 2 =>
    let a := moveArgs d
    [moveRng a.destRes a.dest a.count true]
  | 4, 3 =>
    let a := moveArgs d
    [moveRng a.srcRes a.src (convTiles a.srcF a.count) false, moveRng a.destRes a.dest (convTiles a.destF a.count) true]
  | 4, 4 =>
    let a := pubArgs d
    [rd a.src (256 * a.tiles), wr a.dest (256 * a.tiles)]
  | 5, 1 =>
    let a := applyArgs d
    if a.argTiles = 0 then [] else [rd a.arg (256 * a.argTiles)]
  | _, _ => []

/-- The failure area as a range (R158, R170). -/
def failRange (d : BitVec 512) : Option Rng := if dFailCap d = 0 then none else some (wr (dFailArea d) (8 * failCap d))

/-! ## Opcodes, items, encodings -/

/-- Whether an opcode is defined for an engine (R239, R270, R281, R294, chapter 10). -/
def opcodeOk (engine op : Nat) : Bool :=
  match engine with
  | 1 => decide (1 ≤ op) && decide (op ≤ 3)
  | 2 => decide (1 ≤ op) && decide (op ≤ 4)
  | 3 => decide (1 ≤ op) && decide (op ≤ 4)
  | 4 => decide (1 ≤ op) && decide (op ≤ 5)
  | 5 => op == 1
  | _ => false

/-- The items of a command (R239, R258, R270, R281, R294). -/
def itemsOf (s : State) (d : BitVec 512) : Nat :=
  match dEngine d, dOpcode d with
  | 1, 3 => 0
  | 1, _ => match cgOf s (rColl d) with | some g => g.e.chunks | none => 0
  | 2, 1 => let a := rowsArgs d; if a.pool = 0 then cdiv a.nIdx 64 else a.nBags
  | 2, 2 => cdiv (kvArgs d).nBlocks 16
  | 2, 3 => let a := routeArgs d; cdiv (a.nTokens * a.topk) 64
  | 2, 4 => cdiv (routeArgs d).nTokens 16
  | 3, 1 => let a := scanArgs d; cdiv (a.n * scanRb a) 65536
  | 3, 2 => (topkArgs d).nRows
  | 3, 3 => cdiv (attnArgs false d).nBlocks 16
  | 3, 4 => let a := attnArgs true d; cdiv a.nBlocks a.span
  | 4, 1 => cdiv (moveArgs d).count 256
  | 4, 2 => cdiv (moveArgs d).count 256
  | 4, 3 => cdiv (moveArgs d).count 8192
  | 4, 4 => let a := pubArgs d; cdiv a.tiles 256 + (if a.sealIt then 1 else 0)
  | 4, 5 => cdiv (rebArgs d).rows 4096
  | 5, 1 => let a := applyArgs d; a.nx * a.ny * a.nz
  | _, _ => 0

/-- BYTE zero in an address whose NODE is not 0xFFFF or that has no such reading. -/
def byte0 (a : Word64) : Bool := aByte a == 0

/-- A resident address inside its encoding (R224). -/
def resOk (a : Word64) : Bool := fld a 63 41 == 0

/-- A stride of R271 and R277. -/
def strideOk (n : Nat) : Bool := decide (1 ≤ n)

/-- A FSPEC of which only SCALED and FMT apply, FMT up to 0x9. -/
def specTo9 (f : Byte) : Bool := fsFmtOk f && decide (fsFmt f ≤ 9)

/-- Rows in blocks of 32 elements. -/
def blocksOk (n : Nat) : Bool := decide (1 ≤ n) && decide (n ≤ 64)

/-- Whether Q's format pairs with the blocks' (R302, R305). -/
def attnPair (a : AttnArgs) : Bool :=
  !fsScaled a.kvF && decide (1 ≤ fsFmt a.kvF) && decide (fsFmt a.kvF ≤ 4) && fsOk a.kvF && fsFmtOk a.qF && pairOk a.qF a.kvF

/-- Whether the fields of a descriptor lie in their encodings; results of one that does not are unpredictable (R161). -/
def encodingOk (d : BitVec 512) : Bool :=
  (dFailCap d == 0 || byte0 (dFailArea d)) &&
  match dEngine d, dOpcode d with
  | 1, 1 => fsOk (rSpec d) && byte0 (rAddr d)
  | 1, 2 => fsFmtOk (rSpec d) && decide (fsFmt (rSpec d) ≤ 8) && byte0 (rAddr d)
  | 2, 1 =>
    let a := rowsArgs d
    aByte a.table % 32 == 0 && byte0 a.list && byte0 a.out && decide (1 ≤ a.tableRows) && blocksOk a.blocks && strideOk a.inStride &&
      strideOk a.outStride && specTo9 a.inF && specTo9 a.outF
  | 2, 2 =>
    let a := kvArgs d
    byte0 a.list && byte0 a.dest && decide (1 ≤ a.blockTiles) && decide (a.blockTiles ≤ 1024)
  | 2, 5 => true
  | 2, _ =>
    let a := routeArgs d
    byte0 a.src && byte0 a.route && byte0 a.dest && decide (1 ≤ a.capacity) && decide (1 ≤ a.topk) && decide (a.topk ≤ 16) &&
      blocksOk a.blocks && strideOk a.inStride && strideOk a.outStride && specTo9 a.inF && specTo9 a.outF
  | 3, 1 =>
    let a := scanArgs d
    byte0 a.src && byte0 a.pred && byte0 a.out && (aNode a.countAddr == noNode || aByte a.countAddr % 8 == 0) &&
      decide (a.rsize ≤ 6) && decide (a.form ≤ 2)
  | 3, 2 =>
    let a := topkArgs d
    byte0 a.src && (aNode a.outVal == noNode || byte0 a.outVal) && byte0 a.outIdx && (aNode a.map == noNode || byte0 a.map) &&
      decide (1 ≤ a.k) && decide (a.k ≤ 4096)
  | 3, 3 =>
    let a := attnArgs false d
    byte0 a.list && byte0 a.q && byte0 a.out && decide (1 ≤ a.rows) && decide (a.rows ≤ 512) && attnPair a && decide (a.mode ≤ 2)
  | 3, 4 =>
    let a := attnArgs true d
    byte0 a.list && byte0 a.q && byte0 a.out && decide (1 ≤ a.rows) && decide (a.rows ≤ 512) && attnPair a && decide (1 ≤ a.span)
  | 4, 4 =>
    let a := pubArgs d
    byte0 a.src && byte0 a.dest && decide (1 ≤ a.tiles) && decide (a.tiles ≤ 4194304)
  | 4, 5 => let a := rebArgs d; decide (1 ≤ a.rows) && decide (a.rows ≤ 2 ^ 36)
  | 4, op =>
    let a := moveArgs d
    (op == 2 || (if a.srcRes then resOk a.src else byte0 a.src)) && (if a.destRes then resOk a.dest else byte0 a.dest) &&
      (if op = 3 then a.count % 32 == 0 && fsFmtOk a.srcF && fsOk a.destF && fsRound a.srcF ≤ 1 else decide (a.count ≤ 4194304))
  | 5, _ => let a := applyArgs d; (a.argTiles == 0 || byte0 a.arg) && decide (a.argTiles ≤ 16)
  | _, _ => true

/-! ## The checks of R159 -/

/-- Check 4 for a resident range (R283). -/
def residentOk (s : State) (p : Nat) (a : Word64) (n : Nat) : Bool :=
  match tget s.cores.segments (fld a 40 32) with
  | some g => g.part == p && decide (fld a 31 0 + n ≤ g.tiles)
  | none => false

/-- Check 4 for a global range: what the address itself decides, and at this home the extent (R30, R432). -/
def globalOk (s : State) (p : Nat) (sub : Node) (r : Rng) : Bool :=
  aNode r.addr != noNode && decide (aTile r.addr + r.tiles ≤ 4194304) &&
  (aNode r.addr != myNode s || match extOf s (aSlot r.addr) with
    | none => false
    | some e => mayReach s p e.owner && (holderOf e sub).isSome &&
        (!r.write || e.mode == .versioned || e.mode == .sharedRead || grants s p e.owner (·.write)))

/-- Check 4 for one range. -/
def rangeOk (s : State) (p : Nat) (sub : Node) (r : Rng) : Bool :=
  if r.res then residentOk s p r.addr r.tiles else globalOk s p sub r

/-- The extents of this home that ranges name, with whether each is written. -/
def localsOf (s : State) (rs : List Rng) : List (Nat × Bool) :=
  rs.filterMap (fun r => if !r.res && aNode r.addr == myNode s then some (aSlot r.addr, r.write) else none)

/-- Check 4 for REBUILD (R289): the group granted and the rows inside it. -/
def rebuildRange (s : State) (p : Nat) (d : BitVec 512) : Bool :=
  let a := rebArgs d
  (match templateOf s p with | some t => t.grants.any (fun g => g.group == a.group) | none => false) &&
  (match groupOf s a.group with | some g => decide (a.first + a.rows ≤ rowsOf g) | none => false)

/-- Check 6 for one operand (R159, R285). -/
def modeCheck (s : State) (p : Nat) (pub : Bool) (l : Nat × Bool) : Option St :=
  match extOf s l.1 with
  | none => none
  | some e =>
    if l.2 ∧ e.mode = .sharedRead ∧ e.owner ≠ p then some .noAccess
    else if l.2 ∧ pub ∧ e.mode ≠ .versioned then some .state
    else none

/-- Whether FIELD_MASK names a field that holds a core of the partition that is not ABSENT (R240, R311). -/
def maskOk (s : State) (p mask : Nat) : Bool :=
  s.cores.cores.any (fun c => c.2.part == some p && c.2.phys.isSome && (mask == 0 || mask.testBit (c.1 / 256)))

/-- Check 8 of R159, by engine (R240, R259, R289, R311). -/
def check8 (s : State) (p : Nat) (d : BitVec 512) : Bool :=
  match dEngine d, dOpcode d with
  | 1, _ => reduceCheck p d s
  | 3, 3 => let a := attnArgs false d; decide (a.rows * a.dim ≤ 65536) && maskOk s p a.mask
  | 3, 4 => let a := attnArgs true d; decide (a.rows * a.dim ≤ 65536) && maskOk s p a.mask
  | 4, 5 => match groupOf s (rebArgs d).group with | some g => g.state == .rebuilding | none => false
  | 5, _ =>
    let a := applyArgs d
    (match tget s.cores.kernels (p * 64 + a.kernel) with
     | some k => (match k.current with | some i => decide (a.argTiles ≤ i.slots) | none => false)
     | none => false) && maskOk s p a.mask
  | _, _ => true

/-- The checks 2 to 8 of R159 in order; none: the command passes. -/
def checkCmd (s : State) (q : Queue) (d : BitVec 512) : Option St :=
  let rs := rangesOf s d
  let ls := localsOf s rs
  let fs := (failRange d).toList
  let lf := localsOf s fs
  let rebuild : Bool := dEngine d == 4 && dOpcode d == 5
  let pub : Bool := dEngine d == 4 && dOpcode d == 4
  if 16777216 < itemsOf s d then some .opcode
  else if s.boot.fenced || s.boot.expelled.contains q.submitter then some .fenced
  else if !(rs ++ fs).all (rangeOk s q.part q.submitter) || (rebuild && !rebuildRange s q.part d) then some .noAccess
  else if (ls ++ lf).any (fun l => revokedAt s q.submitter l.1) then some .revoked
  else match ls.findSome? (modeCheck s q.part pub) with
    | some st => some st
    | none =>
      if lf.any (fun l => match extOf s l.1 with | some e => e.mode == .sharedRead || e.mode == .versioned | none => false) then some .state
      else if ls.any (fun l => match extOf s l.1 with
          | some e => if l.2 then !mayWriteAt e q.part (dWriteV d) else !mayReadAt e q.part q.submitter (dReadV d)
          | none => false) then some .state
      else if !check8 s q.part d then some .state
      else none

/-! ## Reading -/

/-- The next descriptor of a queue that may read one: ACTIVE, its partition not RESETTING, no HALT_ON_ERROR command
outstanding (R157, R163, R171, R409). -/
def nextDesc (s : State) (q : Queue) : Option (BitVec 512) :=
  if q.state = .active ∧ partState s q.part = .active ∧ q.head ≠ q.tail ∧ !q.cmds.any (fun c => dHaltOnError c.desc) then
    some (tgetD q.ring (q.head.toNat % depthOf q) 0)
  else none

/-- Whether two ranges share a tile. -/
def sharesTile (a b : Rng) : Bool :=
  a.res == b.res &&
  if a.res then fld a.addr 40 32 == fld b.addr 40 32 && decide (fld a.addr 31 0 < fld b.addr 31 0 + b.tiles) &&
      decide (fld b.addr 31 0 < fld a.addr 31 0 + a.tiles)
  else aNode a.addr == aNode b.addr && aSlot a.addr == aSlot b.addr && decide (aTile a.addr < aTile b.addr + b.tiles) &&
      decide (aTile b.addr < aTile a.addr + a.tiles)

/-- Whether the two versions of a command keep its reads of a range apart from its writes to the same tiles. -/
def versionsApart (s : State) (d : BitVec 512) (r : Rng) : Bool :=
  !r.res && dReadV d ≠ dWriteV d && (aNode r.addr ≠ myNode s || match extOf s (aSlot r.addr) with
    | some e => e.mode == .versioned
    | none => false)

/-- Whether a range read overlaps a destination of the command, or a range written a source of it or its failure area (R161). -/
def meetsRange (s : State) (d : BitVec 512) (r : Rng) : Bool :=
  (rangesOf s d).any (fun w => w.write ≠ r.write && sharesTile r w && !versionsApart s d r) ||
  (r.write && (failRange d).any (sharesTile r))

/-- Whether a command's sources and destinations overlap, or its destinations and its failure area (R161). Two versions
of one VERSIONED extent do not overlap. -/
def overlaps (s : State) (d : BitVec 512) : Bool := (rangesOf s d).any (meetsRange s d)

/-- Where a range that an item's data names overlaps the other side of its command, what the item writes for it is free (R161). -/
def ioMeets (a : Actor) (d : BitVec 512) (r : Rng) : Io Actor := do
  let v ← get
  pure { a with wild := a.wild || meetsRange v.s d r }

/-- A command that has passed the checks. -/
def newCmd (s : State) (q : Queue) (seq : Word32) (d : BitVec 512) : Cmd :=
  let ls := localsOf s (rangesOf s d)
  { seq := seq, desc := d, reads := (ls.filter (fun l => !l.2)).map (·.1), writes := (ls.filter (·.2)).map (·.1),
    anySlot := dEngine d == 5, n := itemsOf s d, next := 0, again := [], done := 0, failed := 0, fails := [], runs := [],
    faults := [], tatoms := [],
    image := if dEngine d = 5 then (match tget s.cores.kernels (q.part * 64 + (applyArgs d).kernel) with | some k => k.current | none => none) else none,
    fw := match tget s.parts.parts q.part with | some p => (match tget p.fw (dEngine d) with | some v => v.version | none => 0) | none => 0,
    forced := false, lastStrip := 64, packed := 0, selected := 0, sealing := false, wild := overlaps s d }

/-- A RUN or FROM command joins its generation (R258, R259); chunks that are folded already meet their RUN items. -/
def joinGroup (q : Nat) (seq : Word32) (d : BitVec 512) (s : State) : State :=
  match cgOf s (rColl d) with
  | none => s
  | some g =>
    let r : RedCmd := { queue := q, cmdSeq := seq, member := rMember d, desc := d }
    match dOpcode d with
    | 1 => g.chunks.foldl (fun t c => meetRun (rColl d) c.chunk t) (setCg (rColl d) { g with run := some r } s)
    | _ => setCg (rColl d) { g with froms := g.froms ++ [r] } s

/-- The QUEUED stage of every tagged item of a command (R461). -/
def tagQueued (qn : Nat) (q : Queue) (c : Cmd) (s : State) : State :=
  if (tget s.obs.sampling (q.part * 8 + q.engine)).isNone then s
  else (List.range c.n).foldl (fun t i => tagStage q.part q.engine qn c.seq i 1 0xFFF 0 0 0 0 t) s

/-- Accept a command that has passed: one with no item completes with ST_OK (R162). -/
def acceptCmd (qn : Nat) (q : Queue) (seq : Word32) (d : BitVec 512) (s : State) : State :=
  let c := newCmd s q seq d
  let s1 := tagQueued qn q c (modQueue qn (fun x => { x with cmds := x.cmds ++ [c] }) s)
  if c.n = 0 then
    let s2 := endCmd qn seq s1
    if dEngine d = 1 ∧ dOpcode d = 3 then detectAbort (rColl d) 7 noNode s2 else s2
  else if dEngine d = 1 then joinGroup qn seq d s1
  else s1

/-- A command whose descriptor lies outside its encodings: what becomes of its partition is free, and so are the status and the
counts of its record (R9, R10, R161; log entry 160). -/
def wildCmd (qn : Nat) (q : Queue) (seq : Word32) (d : BitVec 512) (s : State) : State :=
  let w := Config.unpredictable s.free
  finishCmd qn seq d (stOf w.status) (w.done % 2 ^ 25) (w.failed % 2 ^ 25) (w.unrec % 2 ^ 25)
    (unpredictable q.part w { s with free := s.free + 1 })

/-- The device reads the next descriptor of a queue, which must be of the engine and opcode that the command names (R159 to
R161). -/
def readCmd (engine op qn : Nat) (s : State) : Out :=
  match queueOf s qn with
  | none => .next s
  | some q =>
    match nextDesc s q with
    | none => .next s
    | some d =>
      if dEngine d ≠ engine ∨ q.engine ≠ engine ∨ dOpcode d ≠ op then .next s
      else
        let seq := q.head
        let s1 := bump 4 (5 * q.part + q.engine - 1) 8 1 (readSlot qn seq s)
        match checkCmd s1 q d with
        | some st => .next (refuseCmd qn seq d st s1)
        | none => .next (if encodingOk d then acceptCmd qn q seq d s1 else wildCmd qn q seq d s1)

/-- A descriptor that fails check 1 of R159 completes with ST_OPCODE. -/
def readReserved (qn : Nat) (s : State) : State :=
  match queueOf s qn with
  | none => s
  | some q =>
    match nextDesc s q with
    | none => s
    | some d =>
      if dEngine d = q.engine ∧ opcodeOk q.engine (dOpcode d) then s
      else refuseCmd qn q.head d .opcode (bump 4 (5 * q.part + q.engine - 1) 8 1 (readSlot qn q.head s))

/-- REDUCE RUN (R258, R259). -/
def execReduceRun (queue : Nat) (s : State) : Out := readCmd 1 1 queue s
/-- REDUCE FROM (R258, R259). -/
def execReduceFrom (queue : Nat) (s : State) : Out := readCmd 1 2 queue s
/-- REDUCE ABORT (R258, R264). -/
def execReduceAbort (queue : Nat) (s : State) : Out := readCmd 1 3 queue s
/-- ROWS (R270 to R274). -/
def execRows (queue : Nat) (s : State) : Out := readCmd 2 1 queue s
/-- KV (R275, R276). -/
def execKv (queue : Nat) (s : State) : Out := readCmd 2 2 queue s
/-- DISPATCH (R277 to R279). -/
def execDispatch (queue : Nat) (s : State) : Out := readCmd 2 3 queue s
/-- COMBINE (R277, R280). -/
def execCombine (queue : Nat) (s : State) : Out := readCmd 2 4 queue s
/-- COPY (R282 to R284). -/
def execCopy (queue : Nat) (s : State) : Out := readCmd 4 1 queue s
/-- FILL (R282 to R284). -/
def execFill (queue : Nat) (s : State) : Out := readCmd 4 2 queue s
/-- CONVERT (R282 to R284). -/
def execConvert (queue : Nat) (s : State) : Out := readCmd 4 3 queue s
/-- PUBLISH_COPY (R285, R286). -/
def execPublishCopy (queue : Nat) (s : State) : Out := readCmd 4 4 queue s
/-- REBUILD (R288, R289). -/
def execRebuild (queue : Nat) (s : State) : Out := readCmd 4 5 queue s
/-- SCAN (R295 to R299). -/
def execScan (queue : Nat) (s : State) : Out := readCmd 3 1 queue s
/-- TOPK (R300, R301). -/
def execTopk (queue : Nat) (s : State) : Out := readCmd 3 2 queue s
/-- SCORE (R304 to R306, R311). -/
def execScore (queue : Nat) (s : State) : Out := readCmd 3 3 queue s
/-- ATTEND (R304, R307 to R309, R311). -/
def execAttend (queue : Nat) (s : State) : Out := readCmd 3 4 queue s
/-- APPLY RUN (R239, R240). -/
def execApplyRun (queue : Nat) (s : State) : Out := readCmd 5 1 queue s
/-- A descriptor whose ENGINE or OPCODE check 1 of R159 refuses. -/
def execReservedOpcodeCommand (queue : Nat) (s : State) : Out := .next (readReserved queue s)

end Sys2Proof.Machine
end

