-- ==== Sys2Proof/Machine/Gather.lean ====
section
/-! DEFINITION. The work of GATHER items (R270 to R280): rows and pooling, KV blocks, tokens to experts and back. -/

namespace Sys2Proof.Machine

/-! ## Rows (R272, R273) -/

/-- Nearest-even whatever ROUND says (R270). -/
def noRound (f : Byte) : Byte := f &&& 0xCF

/-- The values of a row: its elements with its block scales (R197, R272). -/
def rowVals (f : Byte) (blocks v : Nat) : List FVal :=
  let n := 32 * blocks
  let sb := v >>> (8 * runBytes (fsFmt f) n)
  decodeAll f (runElems (fsFmt f) v n) (runElems 8 sb blocks)

/-- A row dequantized to binary32 (R199, R201, R273). -/
def rowWords (f : Byte) (blocks v : Nat) : List Word32 := (rowVals f blocks v).map to32

/-- A row converted once into a format (R199 to R202). -/
def packRow (f : Byte) (vs : List FVal) : Nat :=
  let c := convertAll (noRound f) 0 0 vs
  packRun (fsFmt f) c.codes + packNat 8 c.scales <<< (8 * runBytes (fsFmt f) vs.length)

/-- Combine two rows element by element. -/
def rowMap2 (f : Word32 → Word32 → Word32) (a b : List Word32) : List Word32 := (a.zip b).map (fun p => f p.1 p.2)

/-- A row of +0. -/
def zeroRow (blocks : Nat) : List Word32 := List.replicate (32 * blocks) 0

/-- Pool the rows of a bag in ascending list order, each with its weight (R273). -/
def poolRows (pool blocks : Nat) (weighted : Bool) (rows : List (List Word32 × Word32)) : List Word32 :=
  match rows with
  | [] => zeroRow blocks
  | r :: rest =>
    let scaled (x : List Word32 × Word32) : List Word32 := if weighted then x.1.map (f32mul x.2) else x.1
    match pool with
    | 0 => scaled r
    | 3 => rest.foldl (fun acc x => rowMap2 f32max acc (scaled x)) (scaled r)
    | _ =>
      let sum := rows.foldl (fun acc x => if weighted then rowMap2 (fun s v => f32fma x.2 v s) acc x.1 else rowMap2 f32add acc x.1) (zeroRow blocks)
      if pool = 2 then sum.map (fun w => f32divNat w rows.length) else sum

/-- One entry of the index list: the row that it names and its weight; an index at or beyond TABLE_ROWS fails with its
position (R274). -/
def readIndexed (a : Actor) (r : RowsArgs) (j : Nat) : Io (List Word32 × Word32) := do
  let l := listTiles r
  let idx ← ioBytes a r.list (4 * j) 4
  if r.tableRows ≤ idx then ioFail .noAccess (BitVec.ofNat 32 j)
  else
    let v ← ioBytes a r.table (32 * r.inStride * idx) (rowBytes r.inF r.blocks)
    let w ← if r.weighted then ioBytes a r.list (256 * (l.1 + l.2.1) + 4 * j) 4 else pure 0
    pure (rowWords r.inF r.blocks v, BitVec.ofNat 32 w)

/-- The write of output row `n`. -/
def outRow (base : Word64) (f : Byte) (blocks stride n : Nat) (v : Nat) : List IWrite := byteWrites base (32 * stride * n) (rowBytes f blocks) v

/-- Output row `n` of ROWS. Offsets that decrease or exceed N_IDX leave the row free (R161, R272). -/
def rowsUnit (a : Actor) (r : RowsArgs) (n : Nat) : Io (List IWrite) := do
  let l := listTiles r
  let rng ← if r.pool = 0 then pure (some (n, n + 1)) else do
    let o0 ← ioBytes a r.list (256 * l.1 + 4 * n) 4
    let o1 ← ioBytes a r.list (256 * l.1 + 4 * n + 4) 4
    pure (if o0 ≤ o1 ∧ o1 ≤ r.nIdx then some (o0, o1) else none)
  match rng with
  | none =>
    let w ← ioWild { a with wild := true } (outRow r.out r.outF r.blocks r.outStride n 0)
    pure w
  | some (lo, hi) =>
    let rows ← (List.range (hi - lo)).mapM (fun k => readIndexed a r (lo + k))
    pure (outRow r.out r.outF r.blocks r.outStride n (packRow r.outF ((poolRows r.pool r.blocks r.weighted rows).map f32)))

/-- An item of ROWS: 64 indices, or one bag (R270, R273, R274). -/
def rowsWork (a : Actor) (d : BitVec 512) (i : Nat) : Io Unit :=
  let r := rowsArgs d
  if r.pool = 0 then ioUnits a (min 64 (r.nIdx - 64 * i)) (fun k => rowsUnit a r (64 * i + k))
  else ioUnits a 1 (fun _ => rowsUnit a r i)

/-! ## KV blocks (R276) -/

/-- List entry `j` of KV: its block is copied, or zero tiles written. The manual does not say what is copied for an entry whose BYTE
is not zero: it is free (DESIGN CHOICE, log entry 160). -/
def kvUnit (a : Actor) (d : BitVec 512) (j : Nat) : Io (List IWrite) := do
  let k := kvArgs d
  let e ← ioBytes a k.list (8 * j) 8
  let src : Word64 := BitVec.ofNat 64 e
  let at_ (t : Nat) (b : Block) : IWrite := wholeTile k.dest (k.blockTiles * j + t) b
  if aNode src = noNode then pure ((List.range k.blockTiles).map (fun t => at_ t 0))
  else if !byte0 src then do
    let bs ← (List.range k.blockTiles).mapM (fun _ => ioFree)
    pure ((numberFrom 0 bs).map (fun p => at_ p.1 p.2))
  else if 4194304 < aTile src + k.blockTiles then ioFail .noAccess (tileDetail (aTile src))
  else
    let ts ← ioReads { a with data := true } src 0 k.blockTiles
    let b ← ioMeets a d (rd src (256 * k.blockTiles))
    ioWild b ((numberFrom 0 ts).map (fun p => at_ p.1 p.2.data))

/-- An item of KV: 16 list entries. -/
def kvWork (a : Actor) (d : BitVec 512) (i : Nat) : Io Unit :=
  let k := kvArgs d
  ioUnits a (min 16 (k.nBlocks - 16 * i)) (fun n => kvUnit a d (16 * i + n))

/-! ## DISPATCH and COMBINE (R277 to R280) -/

/-- A route entry: its weight, and its expert row unless it is dropped (R278). -/
def readRoute (a : Actor) (r : RouteArgs) (i : Nat) : Io (Word32 × Option Nat) := do
  let e ← ioBytes a r.route (8 * i) 8
  let p := e % 2 ^ 24
  pure (BitVec.ofNat 32 (e / 2 ^ 32), if r.capacity ≤ p then none else some ((e / 2 ^ 24) % 256 * r.capacity + p))

/-- The range of row `n` at an operand. -/
def rowRng (base : Word64) (f : Byte) (blocks stride n : Nat) (w : Bool) : Rng :=
  let b := aByte base + 32 * stride * n
  { addr := base + BitVec.ofNat 64 (b / 256 * 256), tiles := cdiv (b % 256 + rowBytes f blocks) 256, res := false, write := w }

/-- Route entry `i` of DISPATCH (R279). -/
def dispatchUnit (a : Actor) (d : BitVec 512) (i : Nat) : Io (List IWrite) := do
  let r := routeArgs d
  match (← readRoute a r i).2 with
  | none => pure []
  | some row =>
    let v ← ioBytes a r.src (32 * r.inStride * (i / r.topk)) (rowBytes r.inF r.blocks)
    let same : Bool := fsFmt r.inF == fsFmt r.outF && fsScaled r.inF == fsScaled r.outF
    let g := rowRng r.dest r.outF r.blocks r.outStride row true
    if 4194304 < aTile r.dest + (aByte r.dest + 32 * r.outStride * row + rowBytes r.outF r.blocks + 255) / 256 then
      ioFail .noAccess (tileDetail (aTile r.dest + (aByte r.dest + 32 * r.outStride * row) / 256))
    else
    let b ← ioMeets a d g
    ioWild b (outRow r.dest r.outF r.blocks r.outStride row (if same then v else packRow r.outF (rowVals r.inF r.blocks v)))

/-- Whether two writes of an item touch a byte in common. -/
def writesMeet : List IWrite → Bool
  | [] => false
  | w :: ws => ws.any (fun x => x.base == w.base && x.tile == w.tile && decide (x.off < w.off + w.n) && decide (w.off < x.off + x.n)) || writesMeet ws

/-- An item of DISPATCH: 64 route entries. Entries of one item that name one expert row leave what is written free
(R161, R279). -/
def dispatchWork (a : Actor) (d : BitVec 512) (i : Nat) : Io Unit :=
  let r := routeArgs d
  ioUnits a 1 (fun _ => do
    let n := min 64 (r.nTokens * r.topk - 64 * i)
    let (ws, e) ← gatherUnits (fun k => dispatchUnit a d (64 * i + k)) (List.range n) []
    let ws1 ← ioWild { a with wild := writesMeet ws } ws
    match e with
    | none => pure ws1
    | some (st, dt) =>
      if st = .noAccess then ioPerform true a ws1 else ioKeep a ws1
      ioFail st dt)

/-- A token row of COMBINE (R280). -/
def combineUnit (a : Actor) (d : BitVec 512) (t : Nat) : Io (List IWrite) := do
  let r := routeArgs d
  let step (x : List Word32 × Actor) (k : Nat) : Io (List Word32 × Actor) := do
    let (acc, b) := x
    let (w, row) ← readRoute a r (t * r.topk + k)
    match row with
    | none => pure (acc, b)
    | some n =>
      let v ← ioBytes a r.src (32 * r.inStride * n) (rowBytes r.inF r.blocks)
      let c ← ioMeets b d (rowRng r.src r.inF r.blocks r.inStride n false)
      pure (rowMap2 (fun s x => f32fma w x s) acc (rowWords r.inF r.blocks v), c)
  let (sum, b) ← (List.range r.topk).foldlM step (zeroRow r.blocks, a)
  ioWild b (outRow r.dest r.outF r.blocks r.outStride t (packRow r.outF (sum.map f32)))

/-- An item of COMBINE: 16 tokens. -/
def combineWork (a : Actor) (d : BitVec 512) (i : Nat) : Io Unit :=
  let r := routeArgs d
  ioUnits a (min 16 (r.nTokens - 16 * i)) (fun k => combineUnit a d (16 * i + k))

end Sys2Proof.Machine
end

