-- ==== Sys2Proof/Machine/Move.lean ====
section
/-! DEFINITION. The work of MOVE items (R281 to R289): COPY, FILL, CONVERT, PUBLISH_COPY and REBUILD. -/

namespace Sys2Proof.Machine

/-- An item of COPY: 256 tiles, each verified at load (R284). -/
def copyWork (a : Actor) (d : BitVec 512) (i : Nat) : Io Unit :=
  let m := moveArgs d
  ioUnits a (min 256 (m.count - 256 * i)) (fun k => do
    let t ← ioGet a m.srcRes m.src (256 * i + k)
    pure [tileWrite m.destRes m.dest (256 * i + k) t.data])

/-- The tile that repeats an 8-byte value (R282). -/
def fillTile (v : Word64) : Block := BitVec.ofNat 2048 (packNat 64 (List.replicate 32 v.toNat))

/-- An item of FILL: 256 tiles (R284). -/
def fillWork (a : Actor) (d : BitVec 512) (i : Nat) : Io Unit :=
  let m := moveArgs d
  ioWrites a ((List.range (min 256 (m.count - 256 * i))).map (fun k => tileWrite m.destRes m.dest (256 * i + k) (fillTile m.src)))

/-- The exact values of elements `lo` to `hi - 1` of a CONVERT operand (R197, R198, R283). -/
def convRead (a : Actor) (res : Bool) (base : Word64) (f : Byte) (count lo hi : Nat) : Io (List FVal) := do
  let per := fmtPerTile (fsFmt f)
  let t0 := lo / per
  let ts ← (List.range (cdiv hi per - t0)).mapM (fun k => ioGet a res base (t0 + k))
  let codes := ((ts.map (fun t => elemsOf (fsFmt f) t.data)).flatten.drop (lo - t0 * per)).take (hi - lo)
  if fsScaled f then
    let b0 := lo / 32
    let s0 := b0 / 256
    let nt := cdiv (cdiv hi 32) 256 - s0
    let ss ← (List.range nt).mapM (fun k => ioGet a res base (convData f count + s0 + k))
    let scales := ((ss.map (fun t => elemsOf 8 t.data)).flatten.drop (b0 - 256 * s0))
    pure (decodeAll f codes scales)
  else pure (decodeAll f codes [])

/-- A tile written whole whose last elements lie beyond the operand: what those hold is free (log entry 32). -/
def padTile (fmt n : Nat) (b : Block) : Io Block := do
  if n = fmtPerTile fmt then pure b
  else
    let v ← ioFree
    pure (padWith fmt n b v)

/-- An item of CONVERT: 8,192 elements; it writes every destination tile whose first element is its own (R284). -/
def convertWork (a : Actor) (d : BitVec 512) (i : Nat) : Io Unit := do
  let m := moveArgs d
  let fmt := fsFmt m.destF
  let per := fmtPerTile fmt
  let lo := 8192 * i
  let hi := min (lo + 8192) m.count
  let t0 := cdiv lo per
  let t1 := cdiv hi per
  let e0 := t0 * per
  let e1 := min (t1 * per) m.count
  let vs ← convRead a m.srcRes m.src m.srcF m.count lo e1
  let c := convertAll m.destF m.seed lo vs
  let tiles := (numberFrom 0 (packTiles fmt (c.codes.drop (e0 - lo))))
  let data ← tiles.mapM (fun p => do
    let b ← padTile fmt (min per (e1 - e0 - per * p.1)) p.2
    pure (tileWrite m.destRes m.dest (t0 + p.1) b))
  let scale ← if fsScaled m.destF then do
      let own := c.scales.take (cdiv (hi - lo) 32)
      let b ← padTile 8 own.length (packElems 8 own)
      pure [tileWrite m.destRes m.dest (convData m.destF m.count + i) b]
    else pure []
  ioWrites a (data ++ scale)

/-! ## PUBLISH_COPY (R286) -/

/-- The place that a version of a tile resolves to under R117: a copy record, or none for the backing. -/
def placeAt (s : State) (slot tile v : Nat) : Option Copy :=
  match tget s.vers.heads (tkey slot tile) with
  | none => none
  | some h => h.copies.find? (fun c => decide (v ≤ c.til))

/-- Whether a tile of PUBLISH_COPY is skipped: SRC and DEST name one tile, and both versions resolve to one place. The version
index is looked up at the extent's home, pulled from an old home first (R54); no request asks it of another home, whose tile is
copied (DESIGN CHOICE, log entry 160). -/
def ioSkips (p : PubArgs) (a : Actor) (k : Nat) : Io Bool := do
  let v ← get
  match placeOf v.s p.src with
  | .here slot e =>
    if aNode p.dest = aNode p.src ∧ aSlot p.src = aSlot p.dest ∧ aTile p.src = aTile p.dest then
      if !a.stop then ioPull slot (aTile p.src + k) e
      let w ← get
      pure (placeAt w.s slot (aTile p.src + k) a.rv == placeAt w.s slot (aTile p.src + k) a.wv)
    else pure false
  | _ => pure false

/-- A copy item of PUBLISH_COPY: 256 tiles. -/
def publishCopyWork (a : Actor) (d : BitVec 512) (i : Nat) : Io Unit :=
  let p := pubArgs d
  ioUnits a (min 256 (p.tiles - 256 * i)) (fun k => do
    if ← ioSkips p a (256 * i + k) then pure []
    else
      let t ← ioRead a p.src (256 * i + k)
      pure [wholeTile p.dest (256 * i + k) t.data])

/-! ## REBUILD (R289) -/

/-- Rebuild one row of a group ahead of the cursor: the status of one that cannot be rebuilt (R141, R142); a
fenced device writes to no module (R390). -/
def rebuildOne (gi row : Nat) (s : State) : Option St × State :=
  match groupOf s gi with
  | none => (none, s)
  | some g =>
    if s.boot.fenced then (some .fenced, s)
    else if g.state ≠ .rebuilding ∨ row < g.cursor ∨ thas s.pool.repaired (rowKey gi row) then (none, s)
    else
      let col := colAt g row g.rebuildPos
      (match readCol s gi g row col with | .ok _ => none | .error st => some st,
       markRepaired gi row (rebuildUnit 0 6 gi g row g.rebuildPos (askHelpers 0 6 gi g row col s)))

/-- Rows of an item of REBUILD: the first failing status with the row's position. -/
def rebuildRows (gi first : Nat) : List Nat → Option (St × Nat) → State → Option (St × Nat) × State
  | [], f, s => (f, s)
  | k :: ks, f, s =>
    let (e, s1) := rebuildOne gi (first + k) s
    let f1 := match f, e with | none, some st => some (st, k) | _, _ => f
    rebuildRows gi first ks f1 s1

/-- An item of REBUILD: 4,096 rows. -/
def rebuildWork (d : BitVec 512) (i : Nat) : Io Unit := fun v =>
  let r := rebArgs d
  let n := min 4096 (r.rows - 4096 * i)
  match rebuildRows r.group (r.first + 4096 * i) (List.range n) none v.s with
  | (none, s1) => .ok () { v with s := s1 }
  | (some (st, k), s1) => .error (.fail st (BitVec.ofNat 32 k)) { v with s := s1 }

/-- Undispatched items of REBUILD fail with ST_STATE when the group has left REBUILDING through another loss; a group whose
rebuild is done lets them end with ST_OK (R289). -/
def rebuildLost (s : State) (c : Cmd) : Bool :=
  dEngine c.desc == 4 && dOpcode c.desc == 5 && match groupOf s (rebArgs c.desc).group with
    | some g => g.broken
    | none => true

end Sys2Proof.Machine
end

