-- ==== Sys2Proof/Machine/Filter.lean ====
section
/-! DEFINITION. The work of FILTER items (R294 to R309): scans, top-k, scores and partial attention. Every item writes its
results only at its end (R312). -/

namespace Sys2Proof.Machine

/-! ## Scans (R295 to R299) -/

/-- A term of a predicate (R297). -/
structure Term where
  c0 : Nat
  c1 : Nat
  offset : Nat
  type : Nat
  op : Nat
  valid : Bool
  negate : Bool

/-- Term `n` of a predicate tile. -/
def termAt (b : Block) (n : Nat) : Term :=
  let v := bytesAt b (32 * n) 32
  { c1 := bitsOf v 192 64, c0 := bitsOf v 128 64, offset := bitsOf v 120 8, type := bitsOf v 116 4, op := bitsOf v 112 4,
    valid := bitOf v 111, negate := bitOf v 110 }

/-- Bytes of a column type. -/
def typeBytes (t : Nat) : Nat :=
  match t with
  | 0 => 1 | 1 => 1 | 2 => 2 | 3 => 2 | 8 => 2 | 9 => 2 | 6 => 8 | 7 => 8 | _ => 4

/-- Whether a term's fields lie in their encodings and its column in the record (R297). -/
def termOk (rb : Nat) (t : Term) : Bool :=
  decide (t.type ≤ 10) && decide (t.op ≤ 8) && t.offset % typeBytes t.type == 0 && decide (t.offset + typeBytes t.type ≤ rb)

/-- The order of two values: none with a NaN. -/
def fcmp (a b : FVal) : Option Ordering :=
  match a, b with
  | .nan, _ => none
  | _, .nan => none
  | .inf s, .inf t => some (if s = t then .eq else if s then .lt else .gt)
  | x, y => match fadd x (fneg y) with
    | .nan => none
    | .inf s => some (if s then .lt else .gt)
    | .fin s m _ => some (if m = 0 then .eq else if s then .lt else .gt)

/-- The order of two integers. -/
def icmp (a b : Int) : Option Ordering := some (if a < b then .lt else if a = b then .eq else .gt)

/-- Column value `x` of a type in order against a constant (R298). -/
def columnCmp (type x c : Nat) : Option Ordering :=
  match type with
  | 8 => fcmp (decodeFmt 2 x) (decodeFmt 0 (c % 2 ^ 32))
  | 9 => fcmp (decodeFmt 1 x) (decodeFmt 0 (c % 2 ^ 32))
  | 10 => fcmp (decodeFmt 0 x) (decodeFmt 0 (c % 2 ^ 32))
  | t =>
    if t % 2 = 0 then icmp x c
    else icmp (BitVec.ofNat (8 * typeBytes t) x).toInt (BitVec.ofNat 64 c).toInt

/-- A term's result on the bytes of a record (R298). -/
def termHolds (rec_ : Nat) (t : Term) : Bool :=
  let x := (rec_ >>> (8 * t.offset)) % 2 ^ (8 * typeBytes t.type)
  let o := columnCmp t.type x t.c0
  let r : Bool := match t.op with
    | 0 => o == some .eq
    | 1 => o != some .eq
    | 2 => o == some .lt
    | 3 => o == some .lt || o == some .eq
    | 4 => o == some .gt
    | 5 => o == some .gt || o == some .eq
    | 6 => (o == some .gt || o == some .eq) && (let p := columnCmp t.type x t.c1; p == some .lt || p == some .eq)
    | 7 => (x &&& t.c0) != 0
    | _ => (x &&& t.c0) == t.c0
  r != t.negate

/-- Whether a record is selected (R298). -/
def selects (anyTerm : Bool) (ts : List Term) (rec_ : Nat) : Bool := if anyTerm then ts.any (termHolds rec_) else ts.all (termHolds rec_)

/-- First record of an item of SCAN. -/
def scanFirst (r : ScanArgs) (i : Nat) : Nat := 65536 / scanRb r * i

/-- The selected records of an item of SCAN, with their indices. -/
def scanItem (a : Actor) (r : ScanArgs) (i : Nat) : Io (List (Nat × Nat) × Nat) := do
  let rb := scanRb r
  let lo := scanFirst r i
  let n := min (65536 / rb) (r.n - lo)
  let pt ← ioRead a r.pred 0
  let ts := ((List.range 8).map (termAt pt.data)).filter (·.valid)
  if !ts.all (termOk rb) then ioUnpredictable a
  else
    let v ← ioBytes a r.src (rb * lo) (rb * n)
    let recs := (List.range n).map (fun k => (lo + k, (v >>> (8 * rb * k)) % 2 ^ (8 * rb)))
    pure (recs.filter (fun p => selects r.anyTerm ts p.2), n)

/-- Whether every earlier item of a command has ended. -/
def earlierEnded (c : Cmd) (i : Nat) : Bool :=
  decide (i ≤ c.next) && !c.again.any (fun j => decide (j < i)) && !c.runs.any (fun r => decide (r.item < i))

/-- An item of SCAN: it answers how many records it selected. RECORDS and INDICES write only after every earlier item
(R299). -/
def scanWork (a : Actor) (c : Cmd) (i : Nat) : Io Nat := do
  let r := scanArgs c.desc
  let (sel, n) ← scanItem a r i
  let k := sel.length
  match r.form with
  | 0 =>
    let lo := scanFirst r i
    let bits := sel.foldl (fun m p => m + 2 ^ (p.1 - lo)) 0
    ioWrites a (byteWrites r.out (lo / 8) ((n + 7) / 8) bits)
    pure k
  | f =>
    if !earlierEnded c i then (fun v => .error .wait v)
    else
      if f = 1 then ioWrites a (byteWrites r.out (scanRb r * c.packed) (scanRb r * k) (packNat (8 * scanRb r) (sel.map (·.2))))
      else ioWrites a (byteWrites r.out (4 * c.packed) (4 * k) (packNat 32 (sel.map (·.1))))
      pure k

/-! ## Top-k (R300, R301) -/

/-- Whether value `a` at its position ranks before value `b` at a later one. -/
def ranksFirst (smallest : Bool) (a b : Nat × Nat) : Bool :=
  let na := decodeFmt 0 a.2 == .nan
  let nb := decodeFmt 0 b.2 == .nan
  if na || nb then (!na && nb) || (na == nb && decide (a.1 < b.1))
  else
    let x := orderKey 0 a.2
    let y := orderKey 0 b.2
    if x = y then decide (a.1 < b.1) else if smallest then decide (x < y) else decide (y < x)

/-- Insert into a ranked list. -/
def rankInsert (smallest : Bool) (a : Nat × Nat) : List (Nat × Nat) → List (Nat × Nat)
  | [] => [a]
  | b :: t => if ranksFirst smallest a b then a :: b :: t else b :: rankInsert smallest a t

/-- Positions with their values, ranked (R301). -/
def rankAll (smallest : Bool) (l : List (Nat × Nat)) : List (Nat × Nat) := l.foldl (fun acc a => rankInsert smallest a acc) []

/-- An item of TOPK: one row; a NaN that is kept is written as the canonical NaN (R195). -/
def topkWork (a : Actor) (d : BitVec 512) (i : Nat) : Io Unit := do
  let r := topkArgs d
  let v ← ioBytes a r.src (256 * cdiv r.len 64 * i) (4 * r.len)
  let top := (rankAll r.smallest (numberFrom 0 (runElems 0 v r.len))).take r.k
  let spare := r.k - top.length
  let inf := if r.smallest then 0x7F800000 else 0xFF800000
  let vals := top.map (fun p => (canon32 (BitVec.ofNat 32 p.2)).toNat) ++ List.replicate spare inf
  let valW := if aNode r.outVal = noNode then [] else byteWrites r.outVal (256 * cdiv r.k 64 * i) (4 * r.k) (packNat 32 vals)
  if aNode r.map = noNode then
    ioWrites a (valW ++ byteWrites r.outIdx (256 * cdiv r.k 64 * i) (4 * r.k) (packNat 32 (top.map (·.1) ++ List.replicate spare 0xFFFFFFFF)))
  else
    let es ← top.mapM (fun p => ioBytes a r.map (8 * p.1) 8)
    ioWrites a (valW ++ byteWrites r.outIdx (256 * cdiv r.k 32 * i) (8 * r.k) (packNat 64 (es ++ List.replicate spare (0xFFFF * 2 ^ 48))))

/-! ## KV blocks and scores (R302 to R306) -/

/-- An entry of a block list (R303): its block, or padding, and the positions present. -/
structure BlockEntry where
  block : Option Word64
  present : Nat

/-- List entry `j`. -/
def readEntry (a : Actor) (r : AttnArgs) (j : Nat) : Io BlockEntry := do
  let e ← ioBytes a r.list (8 * j) 8
  let v := bitsOf e 3 5
  if 16 ≤ v then ioUnpredictable a
  else
    let present := if v = 0 then 16 else v
    let pad : Bool := if r.res then bitOf e 63 else bitsOf e 48 16 == 0xFFFF
    if pad then pure { block := none, present := 0 }
    else pure { block := some (if r.res then BitVec.ofNat 64 (bitsOf e 32 9 * 2 ^ 32 + bitsOf e 8 24) else BitVec.ofNat 64 (bitsOf e 8 56 * 2 ^ 8)),
                present := present }

/-- Tiles of the K part, and of the V part, of a block (R302). -/
def partTiles (r : AttnArgs) : Nat := r.dim * fmtBits (fsFmt r.kvF) / 128

/-- One part of a block: rows of D codes for the 16 tokens; a block outside its extent or segment, or refused at its home,
fails with its entry's index (R315). -/
def readPart (a : Actor) (r : AttnArgs) (j : Nat) (b : Word64) (first : Nat) : Io (List (List FVal)) :=
  ioDetail (BitVec.ofNat 32 j) (do
    let n := partTiles r
    if !r.res && decide (4194304 < aTile b + 2 * n) then ioFail .noAccess 0
    else
      let ts ← (List.range n).mapM (fun k => ioGet { a with data := true } r.res b (first + k))
      let codes := (ts.map (fun t => elemsOf (fsFmt r.kvF) t.data)).flatten
      pure (runsOf r.dim 16 (codes.map (decodeFmt (fsFmt r.kvF)))))

/-- The query rows: for each row its D values and the scales of its runs of 32 (R230, R305). -/
def readQ (a : Actor) (r : AttnArgs) : Io (List (List FVal × List Nat)) := do
  let gs ← (List.range (qGroups r)).mapM (fun g => do
    let m := groupRows r g
    let (nd, ns) := groupTiles r g
    let ts ← ioReads a r.q (qStart r g) nd
    let ss ← ioReads a r.q (qStart r g + nd) ns
    let codes := (ts.map (fun t => elemsOf (fsFmt r.qF) t.data)).flatten
    let scales := (ss.map (fun t => elemsOf 8 t.data)).flatten
    let panels := r.dim / 32
    pure ((List.range m).map (fun i =>
      (((List.range panels).map (fun p => ((codes.drop (p * 32 * m + 32 * i)).take 32).map (decodeFmt (fsFmt r.qF)))).flatten,
       if fsScaled r.qF then (List.range panels).map (fun p => scales.getD (p * m + i) 0x7F) else []))))
  pure gs.flatten

/-- Whether a format takes the lathe's exact runs rather than 16-bit multiply-adds (R191). -/
def narrowFmt (f : Byte) : Bool := decide (3 ≤ fsFmt f)

/-- −∞ and +∞ in binary32. -/
def negInf : Word32 := 0xFF800000
def posInf : Word32 := 0x7F800000

/-- The score of a query row at a position (R306). -/
def scoreOf (r : AttnArgs) (q : List FVal × List Nat) (k : List FVal) : Word32 :=
  f32mul r.scale (latheWord (narrowFmt r.kvF) 0 q.1 k q.2 [])

/-- Where a block of the list overlaps OUT, what the item writes is free (R161). -/
def blockMeets (d : BitVec 512) (r : AttnArgs) (a : Actor) (e : BlockEntry) : Io Actor :=
  match e.block with
  | none => pure a
  | some b => ioMeets a d { addr := b, tiles := 2 * partTiles r, res := r.res, write := false }

/-- The scores of an entry: for each query row, 16 positions; an excluded one scores −∞. -/
def entryScores (a : Actor) (r : AttnArgs) (q : List (List FVal × List Nat)) (j : Nat) (e : BlockEntry) : Io (List (List Word32)) := do
  match e.block with
  | none => pure (q.map (fun _ => List.replicate 16 negInf))
  | some b =>
    let ks ← readPart a r j b 0
    pure (q.map (fun row => (numberFrom 0 ks).map (fun p => if p.1 < e.present then scoreOf r row p.2 else negInf)))

/-- Lathe steps of `n` list entries: D / `per` for each 32 rows, or 64 rows of FP8 (R314). -/
def entrySteps (r : AttnArgs) (per n : Nat) : Nat := n * cdiv r.rows (if narrowFmt r.kvF then 64 else 32) * r.dim / per

/-- Count the lathe steps and the special-function handshakes of an item that ends well (R314, R450). -/
def ioSpent (a : Actor) (steps sfu : Nat) : Io Unit := fun v =>
  .ok () { v with s := if a.stop then v.s else countFirm a 0x03 sfu (countFirm a 0x01 steps v.s) }

/-- The maximum of scores under R87. -/
def maxOf (l : List Word32) : Word32 :=
  match l with
  | [] => negInf
  | x :: t => t.foldl f32max x

/-- An item of SCORE: 16 list entries, all read before anything is written (R306). -/
def scoreWork (a : Actor) (d : BitVec 512) (i : Nat) : Io Unit := do
  let r := attnArgs false d
  let q ← readQ a r
  let n := min 16 (r.nBlocks - 16 * i)
  let es ← (List.range n).mapM (fun k => readEntry a r (16 * i + k))
  let ss ← (numberFrom (16 * i) es).mapM (fun p => entryScores a r q p.1 p.2)
  let ws := (numberFrom (16 * i) ss).map (fun p =>
    let vals : List Word32 := match r.mode with
      | 0 => p.2.flatten
      | 1 => p.2.map maxOf
      | _ => [maxOf p.2.flatten]
    byteWrites r.out (4 * vals.length * p.1) (4 * vals.length) (packNat 32 (vals.map (·.toNat))))
  let b ← es.foldlM (blockMeets d r) a
  ioWritesAll b ws.flatten
  ioSpent a (entrySteps r 4 n) 0

/-! ## Partial attention (R307 to R309) -/

/-- The running state of a query row: m, l, o, and whether it met +∞ or NaN. -/
structure AttnRow where
  m : Word32
  l : Word32
  o : List Word32
  bad : Bool

/-- exp2 of a difference that may be −∞ (R308). -/
def exp2Of (x : Word32) : Word32 := if x = negInf then 0 else sfu 3 x

/-- The weights of a chunk converted into the block format: as values with the scale of each 32 positions (R202, R308). -/
def chunkWeights (f : Byte) (ps : List Word32) : List FVal × List Nat :=
  let out : Byte := if narrowFmt f then 0x83 else BitVec.ofNat 8 (fsFmt f)
  let c := convertAll out 0 0 (ps.map f32)
  (c.codes.map (decodeFmt (fsFmt out)), c.scales)

/-- One chunk of a query row (R308): `ts` its 64 scores with their presence, `vs` the V rows of its positions, zero where
excluded. -/
def attnChunk (r : AttnArgs) (row : AttnRow) (ts : List (Word32 × Bool)) (vs : List (List FVal)) : AttnRow :=
  if ts.any (fun t => t.1 == posInf || f32 t.1 == .nan) then { row with bad := true }
  else
    let mc := ts.foldl (fun x t => f32max x t.1) row.m
    if mc = negInf then row
    else
      let c := if row.m = negInf then 0 else exp2Of (f32sub row.m mc)
      let p := ts.map (fun t => if t.2 then exp2Of (f32sub t.1 mc) else 0)
      let w := chunkWeights r.kvF p
      let exact := (numberFrom 0 w.1).map (fun x => to32 (if narrowFmt r.kvF then applyScale (w.2.getD (x.1 / 32) 0x7F) x.2 else x.2))
      let sum := match exact with | [] => (0 : Word32) | x :: t => t.foldl f32add x
      { row with
        m := mc, l := f32fma row.l c sum,
        o := (numberFrom 0 row.o).map (fun x =>
          f32fma x.2 c (latheWord (narrowFmt r.kvF) 0 w.1 (vs.map (fun v => v.getD x.1 (.fin false 0 0))) w.2 [])) }

/-- The entries of a chunk: scores per row with presence, V rows, and for whom the item writes (R307). -/
def chunkData (a w : Actor) (d : BitVec 512) (q : List (List FVal × List Nat)) (js : List Nat) :
    Io (List (List (Word32 × Bool)) × List (List FVal) × Actor) := do
  let r := attnArgs true d
  let es ← js.mapM (fun j => do
    let e ← readEntry a r j
    let ss ← entryScores a r q j e
    let vs ← match e.block with
      | none => pure (List.replicate 16 [])
      | some b => readPart a r j b (partTiles r)
    let zero := (List.replicate r.dim (FVal.fin false 0 0))
    pure (ss.map (fun l => (numberFrom 0 l).map (fun p => (p.2, decide (p.1 < e.present)))),
          (numberFrom 0 vs).map (fun p => if p.1 < e.present then p.2 else zero), e))
  let short := 16 * (4 - js.length)
  let rows := (numberFrom 0 q).map (fun p =>
    (es.map (fun x => x.1.getD p.1 [])).flatten ++ List.replicate short (negInf, false))
  let b ← (es.map (·.2.2)).foldlM (blockMeets d r) w
  pure (rows, (es.map (·.2.1)).flatten ++ List.replicate short (List.replicate r.dim (FVal.fin false 0 0)), b)

/-- An item of ATTEND: the partial of its span, written at its end (R308, R309). -/
def attendWork (a : Actor) (d : BitVec 512) (i : Nat) : Io Unit := do
  let r := attnArgs true d
  let q ← readQ a r
  let lo := r.span * i
  let n := min r.span (r.nBlocks - lo)
  let start : AttnRow := { m := negInf, l := 0, o := List.replicate r.dim 0, bad := false }
  let (rows, b) ← (List.range (cdiv n 4)).foldlM (fun (acc, b) k => do
    let js := (List.range (min 4 (n - 4 * k))).map (fun t => lo + 4 * k + t)
    let (ts, vs, c) ← chunkData a b d q js
    pure ((acc.zip ts).map (fun p => attnChunk r p.1 p.2 vs), c)) (q.map (fun _ => start), a)
  let fin := rows.map (fun x => if x.bad then { x with m := nan32, l := nan32, o := x.o.map (fun _ => nan32) } else x)
  let base := 256 * partialTiles r * i
  let ot := 256 * cdiv (r.rows * r.dim) 64
  let mt := 256 * cdiv r.rows 64
  ioWritesAll b (byteWrites r.out base (4 * r.dim * r.rows) (packNat 32 (fin.map (fun x => x.o.map (·.toNat))).flatten) ++
    byteWrites r.out (base + ot) (4 * r.rows) (packNat 32 (fin.map (fun x => x.m.toNat))) ++
    byteWrites r.out (base + ot + mt) (4 * r.rows) (packNat 32 (fin.map (fun x => x.l.toNat))))
  ioSpent a (entrySteps r 2 n) (n * r.rows / 2)

end Sys2Proof.Machine
end

