-- ==== Sys2Proof/Machine/Leave.lean ====
section
/-! DEFINITION. Answers to management requests (R382, R383), and resources that leave their partition (R366, R367). -/

namespace Sys2Proof.Machine

/-! ## Answers (R382, R383) -/

/-- Answer a request and record the answer among the session's last 256 (R383). -/
def reply (h : Mgmt) (code : Nat) (st : St) (body : List Nat) (seq : Nat) (s : State) : State :=
  match tget s.mgmt.sessions h.sess with
  | none => s
  | some k =>
    let r : Reply := { sess := h.sess, reqId := h.reqId, code := code, status := st, evSeq := seq, body := body, part := h.part }
    let log := k.log ++ [r]
    let k1 : Session := { k with log := log.drop (log.length - 256) }
    { s with replies := s.replies ++ [r], mgmt := { s.mgmt with sessions := tset s.mgmt.sessions h.sess k1 } }

/-- Answer a request that began when `q0` was the next event sequence: a change carries the first sequence it took,
its own where it posted no event (R382). -/
def answered (h : Mgmt) (code q0 : Nat) (st : St) (body : List Nat) (change : Bool) (s : State) : State :=
  if !change then reply h code st body 0 s
  else if q0 < s.mgmt.eventSeq then reply h code st body q0 s
  else reply h code st body q0 { s with mgmt := { s.mgmt with eventSeq := q0 + 1 } }

/-! ## Where a partition's data lies (R147, R364) -/

/-- The channel of a partition that holds a tile's home-cache line; the placement is free. -/
def lineChannel (l : List Nat) (key : Nat) : Option Nat := l[(Config.placement key).toNat % max 1 l.length]?

/-- The unmirrored areas that lie on a channel: bit 0 the directory, 1 queue rings, 2 the kernel area; the placement is
free, over the channels it was made on. -/
def areasOn (x : Part) (c : Nat) : BitVec 3 :=
  if x.placedOn.contains c then Config.areaAt x.placing (x.placedOn.idxOf c) else 0

/-! ## Leaving (R366, R367) -/

/-- A core with nothing in it, serving a physical core for a partition. -/
def freshCore (phys part : Option Nat) : Core :=
  { phys := phys, part := part, scrubbing := false, removing := false, recovering := false, acc := [], holder := none,
    releasing := false, waiters := [], latheQ := [], istore := [], ctxs := [], last := 3 }

/-- The programmable counters of a unit that leaves its partition are zeroed and disabled (R451). -/
def dropCounters (type block : Nat) (s : State) : State :=
  { s with obs := { s.obs with counters := tdrop s.obs.counters (fun k => k / 32 == type * 4096 + block) } }

/-- A core whose items have ended leaves its partition and scrubs. -/
def leaveCore (c p : Nat) (k : Core) (s : State) : State :=
  let gone : Core := { freshCore k.phys none with scrubbing := true }
  let s1 := match k.phys with | some ph => dropCounters 0 ph s | none => s
  modPart p (fun x => { x with cores := x.cores.filter (· ≠ c) }) { s1 with
    cores := { s1.cores with cores := tset s1.cores.cores c gone } }

/-- Whether a channel holds a dirty home-cache tile of a partition. -/
def dirtyOn (s : State) (p : Nat) (x : Part) (c : Nat) : Bool :=
  s.pool.cache.any (fun y => y.2.dirty && lineOwner s y.1 == p && lineChannel x.channels y.1 == some c)

/-- A channel with no dirty tile leaves its partition and scrubs; its clean tiles are read from the pool again. -/
def leaveChannel (c p : Nat) (x : Part) (s : State) : State :=
  let keep (y : Nat × Line) : Bool := lineOwner s y.1 ≠ p || lineChannel x.channels y.1 ≠ some c
  let ch := tgetD s.parts.channels c { retired := false, scrubbing := false, part := none, removing := false }
  let s1 := dropCounters 3 c s
  modPart p (fun y => { y with channels := y.channels.filter (· ≠ c) }) { s1 with
    pool := { s.pool with cache := s.pool.cache.filter keep },
    parts := { s.parts with channels := tset s.parts.channels c { ch with part := none, removing := false, scrubbing := !ch.retired } } }

/-- Cores and channels of a partition that are to leave and can. -/
def leavePart (p : Nat) (s : State) : State :=
  let cs := s.cores.cores.filter (fun x => x.2.part == some p && x.2.removing && x.2.ctxs.isEmpty && !x.2.recovering)
  let s1 := cs.foldl (fun t x => leaveCore x.1 p x.2 t) s
  let hs := (s1.parts.channels.filter (fun y => y.2.part == some p && y.2.removing)).map (·.1)
  hs.foldl (fun t c => match tget t.parts.parts p with
    | some x => if dirtyOn t p x c then t else leaveChannel c p x t
    | none => t) s1

/-- Whether everything that a SHRINK names is scrubbing (R367). -/
def shrunk (s : State) (p : Nat) (r : Resources) : Bool :=
  r.cores.all (fun c => !(s.cores.cores.any (fun x => x.1 == c && x.2.part == some p && x.2.removing))) &&
  r.channels.all (fun c => !(s.parts.channels.any (fun x => x.1 == c && x.2.part == some p && x.2.removing)))

/-- A waiting SHRINK of a partition goes on, and completes with ST_OK once everything it names is scrubbing. -/
def leaveOne (w : MgmtWait) (s : State) : State :=
  match w with
  | .shrink h p r =>
    let s1 := leavePart p s
    if shrunk s1 p r then
      answered h 0x22 s1.mgmt.eventSeq .ok [] true { s1 with mgmt := { s1.mgmt with waiting := s1.mgmt.waiting.filter (· ≠ w) } }
    else s1
  | _ => s

/-- Every waiting SHRINK goes on. -/
def leave (s : State) : State := s.mgmt.waiting.foldl (fun t w => leaveOne w t) s

end Sys2Proof.Machine
end

