-- ==== Sys2Proof/Machine/Sources.lean ====
section
/-! DEFINITION. The device's own atomic sources (R231): tags, ASEQ, the window, acknowledgements, and the dispatch records
of the TATOMs of items (R232). -/

namespace Sys2Proof.Machine

/-- The key of the source of a partition at a home. -/
def sourceKey (p : Nat) (home : Node) : Nat := p * 65536 + home.toNat

/-- A source; one never used has sent nothing. -/
def sourceOf (s : State) (p : Nat) (home : Node) : EngineSource :=
  tgetD s.cores.sources (sourceKey p home) { nextTag := 0, nextAseq := 0, outstanding := [] }

/-- Write a source. -/
def setSource (p : Nat) (home : Node) (e : EngineSource) (s : State) : State :=
  { s with cores := { s.cores with sources := tset s.cores.sources (sourceKey p home) e } }

/-- Whether a new TATOM of a partition would exceed the window of a home (R231). -/
def windowFull (s : State) (p : Nat) (home : Node) : Bool := decide (1024 ≤ (sourceOf s p home).outstanding.length)

/-- The next tag of a source that no outstanding TATOM holds. -/
def freshTag (e : EngineSource) : Nat → Nat → Nat
  | 0, n => n % 4096
  | f + 1, n => if e.outstanding.any (fun x => x.tag.toNat % 4096 == n % 4096) then freshTag e f (n + 1) else n % 4096

/-- The tag that the next new TATOM of a source takes (R90, R231). -/
def nextTag (p : Nat) (home : Node) (s : State) : BitVec 16 :=
  let e := sourceOf s p home
  BitVec.ofNat 16 (p * 4096 + freshTag e 1025 e.nextTag)

/-- A new TATOM takes its tag and ASEQ, and its source keeps what its request is formed from (R90, R231). -/
def takeAtomic (a : Actor) (home : Node) (it : Item) (idx : Nat) (op : BitVec 16 → Word32 → AsyncOp) (s : State) : AsyncOp × State :=
  let e := sourceOf s a.part home
  let tag := nextTag a.part home s
  let o := op tag e.nextAseq
  let r : SentAtomic := { aseq := e.nextAseq, tag := tag, done := false, queue := it.queue, cmdSeq := it.cmdSeq, item := it.index,
                          idx := idx, op := o, sub := a.sub, epoch := a.epoch, wv := a.wv }
  (o, setSource a.part home { nextTag := tag.toNat % 4096 + 1, nextAseq := e.nextAseq + 1, outstanding := e.outstanding ++ [r] } s)

/-- Entries still outstanding once the leading resolved ones are gone. -/
def openEntries : List SentAtomic → List SentAtomic
  | [] => []
  | x :: t => if x.done then openEntries t else x :: t

/-- Acknowledge to a home what the series of a source allows (R91, R231). -/
def ackSource (p : Nat) (home : Node) (s : State) : State :=
  let e := sourceOf s p home
  let rest := openEntries e.outstanding
  if rest.length = e.outstanding.length then s
  else
    let a := match rest with | x :: _ => x.aseq | [] => e.nextAseq
    let s1 := setSource p home { e with outstanding := rest } s
    if home = myNode s then processAck (home, 1 + p) a s1
    else sendEngine { blankTx s1 with dst := home, op := 0x05, cls := 2, version := a, tag := BitVec.ofNat 16 (p * 4096), ptag := p } s1

/-- Whether a token still waits for a TATOM. -/
def tokenFor (tag : BitVec 16) (aseq : Word32) (t : Token) : Bool :=
  match t.op with
  | .atomic _ _ _ _ _ tg q _ => tg == tag && q == aseq && t.done.isNone
  | _ => false

/-- A TATOM of a source is resolved, and with it, at this home, any that was never applied and whose context is gone. -/
def resolveAtomic (p : Nat) (home : Node) (aseq : Word32) (s : State) : State :=
  let e := sourceOf s p home
  let gone (x : SentAtomic) : Bool := home == myNode s && !(allTokens s).any (tokenFor x.tag x.aseq)
  ackSource p home (setSource p home { e with outstanding := e.outstanding.map (fun x => if x.aseq = aseq ∨ gone x then { x with done := true } else x) } s)

/-- The TATOM of an item by its index, with the home of its series. -/
def sentFor (s : State) (it : Item) (idx : Nat) : Option (Node × SentAtomic) :=
  s.cores.sources.findSome? (fun p =>
    if p.1 / 65536 ≠ it.part then none
    else (p.2.outstanding.find? (fun y => y.queue == it.queue && y.cmdSeq == it.cmdSeq && y.item == it.index && y.idx == idx && !y.done)).map
      (fun y => (BitVec.ofNat 16 p.1, y)))

/-- The TATOM of an item is resolved in its series. -/
def resolveFor (it : Item) (idx : Nat) (s : State) : State :=
  match sentFor s it idx with
  | some (h, y) => resolveAtomic it.part h y.aseq s
  | none => s

/-! ## Dispatch records (R232) -/

/-- The records of an item. -/
def recsOf (c : Cmd) (item : Nat) : List TatomRec :=
  match c.tatoms.find? (fun x => x.1 == item) with
  | some x => x.2
  | none => []

/-- Write an item's records. -/
def setRecs (item : Nat) (l : List TatomRec) (c : Cmd) : Cmd :=
  { c with tatoms := (c.tatoms.filter (fun x => x.1 ≠ item)) ++ [(item, l)] }

/-- The record of a TATOM by its index. -/
def recAt (s : State) (it : Item) (idx : Nat) : Option TatomRec :=
  match queueOf s it.queue with
  | none => none
  | some q => match cmdOf q it.cmdSeq with
    | none => none
    | some c => (recsOf c it.index)[idx]?

/-- A new record, while fewer than 1,024 are held. -/
def addRec (it : Item) (r : TatomRec) (s : State) : State :=
  modCmd it.queue it.cmdSeq (fun c => if (recsOf c it.index).length < 1024 then setRecs it.index (recsOf c it.index ++ [r]) c else c) s

/-- A response is recorded. -/
def noteRec (queue : Nat) (cmdSeq : Word32) (item idx : Nat) (st : St) (r : BitVec 128) (s : State) : State :=
  modCmd queue cmdSeq (fun c => setRecs item ((numberFrom 0 (recsOf c item)).map (fun x =>
    if x.1 = idx then { x.2 with status := some st, result := r } else x.2)) c) s

/-- The response to a TATOM whose context is gone, after a core fault, hang or reset: it is recorded and acknowledged
(R231, R232). One that a context waits for reaches it with TILE_OP_COMPLETE. -/
def orphanAnswer (tx : Tx) (s : State) : State :=
  let p := tx.tag.toNat / 4096
  let e := sourceOf s p tx.src
  match e.outstanding.find? (fun x => x.tag == tx.tag && !x.done) with
  | none => s
  | some x =>
    if (allTokens s).any (tokenFor x.tag x.aseq) then s
    else resolveAtomic p tx.src x.aseq
      (noteRec x.queue x.cmdSeq x.item x.idx (stOf tx.status) (BitVec.ofNat 128 tx.trailer.val) s)

end Sys2Proof.Machine
end

