-- ==== Sys2Proof/Machine/Receive.lean ====
section
/-! DEFINITION. What a BX9 does with a transaction that arrives on a fabric port: the checks of R355, routing
(R356 to R359), resequencing (R361), the service of requests and messages by op, and what follows a step at the
home (R49, R66, R82). -/

namespace Sys2Proof.Machine

/-! ## Ops (R353) -/

/-- A defined op. -/
def opDefined (o : Byte) : Bool :=
  [0x01, 0x02, 0x03, 0x04, 0x05, 0x06, 0x10, 0x11, 0x12, 0x13, 0x14, 0x15, 0x16, 0x17, 0x18, 0x19, 0x1A, 0x1B, 0x1C, 0x1D,
   0x20, 0x28, 0x29, 0x2A, 0x30, 0x31, 0x32, 0x33, 0x34, 0x38, 0x39, 0x3A, 0x40, 0x41, 0x48, 0x49].contains o.toNat

/-- An op that is answered. -/
def opAnswered (o : Byte) : Bool :=
  [0x01, 0x02, 0x03, 0x04, 0x06, 0x10, 0x11, 0x12, 0x14, 0x1B, 0x1C, 0x20, 0x28, 0x29, 0x2A, 0x30, 0x31, 0x32, 0x38, 0x40,
   0x48].contains o.toNat

/-- A request: not a response, of an op that is answered; an undefined op is taken for one (R355). -/
def isRequest (tx : Tx) : Bool := !tx.resp && (opAnswered tx.op || !opDefined tx.op)

/-- The classes of an op. -/
def opClasses (tx : Tx) : List Nat :=
  match tx.op.toNat with
  | 0x01 => [1, 6] | 0x02 => [1, 6] | 0x03 => [1] | 0x04 => [2] | 0x05 => [2] | 0x06 => [1]
  | 0x10 => [1] | 0x11 => [1] | 0x12 => [1] | 0x13 => [0] | 0x14 => [1] | 0x15 => [1] | 0x16 => [0] | 0x17 => [0]
  | 0x18 => [0] | 0x19 => [0] | 0x1A => [0] | 0x1B => [0] | 0x1C => [0] | 0x1D => [0]
  | 0x20 => [1, 4] | 0x28 => [1] | 0x29 => [1] | 0x2A => [1]
  | 0x30 => [5] | 0x31 => [5] | 0x32 => [5] | 0x33 => [5] | 0x34 => [5]
  | 0x38 => [3] | 0x39 => [4] | 0x3A => if tx.status = 0 then [4] else [0]
  | 0x40 => [5] | 0x41 => [5] | 0x48 => [1, 6] | 0x49 => [0]
  | _ => []

/-- LENGTH and body as R353 gives them; a response that carries a failure carries no tile. A tile request names
at least one tile (DEDUCED, log entry 14). -/
def bodyOk (tx : Tx) : Bool :=
  let n := tx.tiles.length
  let tr := tx.trailer.len
  let ok := tx.status == 0
  match tx.op.toNat, tx.resp with
  | 0x01, false => decide (1 ≤ tx.length) && decide (tx.length ≤ 16) && n == 0 && tr == 0
  | 0x01, true => if ok then n == tx.length && tr == 0 else n == 0
  | 0x02, false => decide (1 ≤ tx.length) && decide (tx.length ≤ 16) && n == tx.length && tr == 0
  | 0x03, false => tx.length == 1 && n == 1 && tr == 32
  | 0x04, false => n == 0 && tr == 64
  | 0x04, true => n == 0 && tr == 16
  | 0x14, false => decide (tx.length ≤ 1) && n == 1 && tr == 0
  | 0x17, false => decide (tx.length ≤ 1) && n == 1 && tr == 0
  | 0x18, false => decide (tx.length ≤ 1) && n == 1 && tr == 0
  | 0x19, false => decide (tx.length ≤ 1) && n == 1 && tr == 0
  | 0x1A, false => decide (tx.length ≤ 1) && n == (if tx.qual.getLsbD 0 then 0 else 1) && tr == 0
  | 0x10, false => decide (tx.length ≤ 1) && n == 0 && tr == 0
  | 0x11, false => decide (tx.length ≤ 1) && n == 0 && tr == 0
  | 0x12, false => decide (tx.length ≤ 1) && n == 0 && tr == 0
  | 0x13, false => decide (tx.length ≤ 1) && n == 0 && tr == 0
  | 0x15, false => decide (tx.length ≤ 1) && n == 0 && tr == 0
  | 0x16, false => decide (tx.length ≤ 1) && n == 0 && tr == 0
  | 0x1B, false => decide (tx.length ≤ 1) && n == 0 && tr == 0
  | 0x1C, false => decide (tx.length ≤ 1) && n == 0 && tr == 0
  | 0x1D, false => n == 0 && tr == 0
  | 0x20, false => (tx.qual.getLsbD 0 || (decide (1 ≤ tx.length) && decide (tx.length ≤ 16))) && n == 0 && tr == 0
  | 0x30, false =>
    let c := tx.version.toNat % 128
    decide (1 ≤ c) && decide (c ≤ 64) && n == 0 && tr == 64 * c
  | 0x31, false => n == 1 && tr == 0
  | 0x32, false => decide (1 ≤ tx.length) && decide (tx.length ≤ 16) && n == 0 && tr == 0
  | 0x32, true => if ok then n == tx.length && tr == 0 else n == 0
  | 0x33, _ => n == 0 && tr == 32
  | 0x34, _ => n == 0 && tr == 32
  | 0x38, false => decide (1 ≤ tx.length) && decide (tx.length ≤ 16) && tx.coll.isSome
  | 0x38, true => n == 0 && tx.coll.isSome
  | 0x39, _ => tx.coll.isSome && n == tx.length && tr == 0
  | 0x3A, _ => tx.coll.isSome && n == 0 && tr == 32
  | 0x48, _ => true
  | _, _ => n == 0 && tr == 0

/-! ## The checks of R355 -/

/-- What the checks find. The last are R16's, a request whose tag has no share of the trunk (DEDUCED, log entry 154), and
R24's and R25's, a request to go on from a host-facing port that no partition holds. -/
def rxCheck (port : Nat) (tx : Tx) (s : State) : Option St :=
  let role := portRole s port
  if !(opDefined tx.op && (opClasses tx).contains tx.cls && bodyOk tx) then some .opcode
  else if (role = .host ∨ role = .memory) ∧ tx.engine then some .noAccess
  else if role = .memory ∧ !tx.resp ∧ tx.op ≠ 0x41 then some .noAccess
  else if role ≠ .memory ∧ !tx.tiles.all tileOk then some .checksum
  else if tx.trailer.len ≠ 0 ∧ tx.trailer.crc ≠ crc32c tx.trailer.len tx.trailer.val then some .checksum
  else if !reachable s tx ∧ tx.op ≠ 0x33 ∧ tx.op ≠ 0x34 then some .noAccess
  else if isRequest tx ∧ (bindPart s port tx).isNone ∧ (role = .trunk ∨ (role = .host ∧ !isSelf s tx.dst)) then some .noAccess
  else none

/-- An occurrence at a port. -/
def portOcc (port event n : Nat) (tx : Tx) (part : Option Nat) : Occ :=
  { Occ.bare 2 port event n with cls := some tx.cls, part := part, node := some tx.src, port := some port }

/-- Whether a transaction carries tiles for an extent of this device (R129). -/
def bringsTiles (s : State) (tx : Tx) : Bool := [0x02, 0x03, 0x14, 0x17].contains tx.op.toNat && !tx.resp && isSelf s tx.dst

/-- A failing transaction: a request is answered, another is discarded and counted (R355). One refused for the sidecar of a
tile names the slot and tile to the fabric manager (R129, R148). -/
def reject (port : Nat) (tx : Tx) (st : St) (s0 : State) : State :=
  let s := if st = .checksum ∧ bringsTiles s0 tx ∧ !tx.tiles.all tileOk
    then post .tileChecksum (some (ownerOf s0 (oSlot tx.offset))) [oSlot tx.offset, oTile tx.offset] s0 else s0
  if isRequest tx then refuse tx st s
  else occur (portOcc port 0x47 1 tx none) (modPort port (fun p => { p with rejects := p.rejects + 1 }) s)

/-! ## Service by op -/

/-- Serve a request or message at its home, new or after a wait. A new request of a source whose FENCE is in progress is not
admitted until that completes (R82). -/
def serveOp (fresh : Bool) (rid port : Nat) (tx : Tx) (s : State) : State :=
  if fresh && isRequest tx && tx.op ≠ 0x06 && fenceHeld s tx.src rid then park rid port tx (.fence tx.src) s
  else match tx.op.toNat with
  | 0x01 => serveRead fresh rid port tx s
  | 0x02 => serveWrite fresh rid port tx s
  | 0x03 => serveWrite fresh rid port tx s
  | 0x04 => serveAtomic fresh rid port tx s
  | 0x05 => serveAck tx s
  | 0x06 => serveFence fresh rid port tx s
  | 0x10 => serveCache fresh rid port tx false sharedRecalls s
  | 0x11 => serveCache fresh rid port tx true ownRecalls s
  | 0x12 => serveCache fresh rid port tx true ownRecalls s
  | 0x13 => serveNote markDirty rid port tx s
  | 0x14 => serveWb fresh rid port tx s
  | 0x15 => serveNote evictClean rid port tx s
  | 0x16 => serveRecallAnswer tx none s
  | 0x17 => serveRecallAnswer tx tx.tiles.head? s
  | 0x20 => if tx.cls = 4 then serveGeyser tx s else serveInval fresh rid port tx s
  | 0x28 => serveOpen fresh rid port tx s
  | 0x29 => serveClose fresh rid port tx s
  | 0x2A => servePublish fresh rid port tx s
  | 0x30 => servePush port tx s
  | 0x31 => serveDoorbell port tx s
  | 0x32 => serveWindow port tx s
  | 0x38 => serveContribute port tx s
  | 0x39 => serveResult tx s
  | 0x3A => serveStatus tx s
  | 0x40 => answer tx .noAccess s
  | 0x41 => if tx.version = 1 then loseModule tx.src s else s
  | 0x48 => servePull rid port tx s
  | 0x49 => serveYield tx s
  | _ => s

/-- Whether a waiting request has still to meet the checks of R39: one that an earlier FENCE holds, and one that waits for what
the checks themselves look at. -/
def meetsChecks : Wait → Bool
  | .tile _ _ => false
  | .ledger _ => false
  | .journal _ => false
  | .sinter _ => false
  | .publish _ => false
  | .fence _ => true
  | .dirSet _ => false
  | .pending _ _ _ => false
  | .region _ _ => false
  | .pull _ t => decide (4194304 ≤ t)
  | .stores _ _ => false
  | .ledgerOf _ _ => true
  | .sealing _ => true

/-- A request that has waited is served: one held before admission meets every check, one admitted meets the
present state (R69). -/
def serveParked (p : Parked) (s : State) : State := serveOp (meetsChecks p.why) p.id p.port p.tx (unpark p.id s)

/-- A pool module's response (R128, R133, R138, R418, R439). A write that its module refused stays in the journal (log entry
15); a tile whose sidecar fails is rebuilt and rewritten. -/
def serveModuleAnswer (tx : Tx) (s : State) : State :=
  match s.pool.reqs.find? (fun q => q.tag == tx.tag && q.node == tx.src) with
  | none => s
  | some q =>
    let s1 : State := { s with pool := { s.pool with reqs := s.pool.reqs.filter (fun x => !(x.tag == q.tag && x.node == q.node)) } }
    match q.kind with
    | .commit ids => if tx.status = 0 then commitFree ids s1 else s1
    | .read own part gi row col =>
      if tx.status ≠ 0 ∨ tx.tiles.all tileOk then s1
      else match groupOf s1 gi with
        | none => s1
        | some g => match solveCol s1 gi g row col, own with
          | some b, _ => rewriteUnit part 1 gi q.node q.unit (mkTile b) (askHelpers part 1 gi g row col s1)
          | none, some (slot, tile) => post .tileChecksum (some part) [slot, tile] s1
          | none, none => s1
    | .claim gi takeover =>
      if tx.status = 0 then s1
      else if takeover then loseModule q.node (post .groupClaimRefused none [gi] s1)
      else match groupOf s1 gi with
        | some g => if g.up then post .groupClaimRefused none [gi] (modGroup gi (fun x => { x with up := false }) s1) else s1
        | none => s1
    | .rewrite _ => s1

/-- A response that arrives. Those to engine requests reach their items with TILE_OP_COMPLETE, ITEM_COMPLETE or
CHUNK_COMMIT (log entry 16); that to a TATOM whose context is gone is recorded. -/
def serveResponse (tx : Tx) (s : State) : State :=
  match tx.op.toNat with
  | 0x03 => (endAnswer tx s).getD (serveModuleAnswer tx s)
  | 0x04 => orphanAnswer tx s
  | 0x20 => serveInvalAnswer tx s
  | 0x38 => serveContributeAnswer tx s
  | 0x48 =>
    let (ready, s1) := servePullAnswer tx s
    ready.foldl (fun t p => serveParked p t) s1
  | _ => serveModuleAnswer tx s

/-- Deliver a transaction that is addressed to this device. -/
def serveNew (port : Nat) (tx : Tx) (s : State) : State :=
  let rid := s.home.nextId
  let s1 := hearMark port tx { s with home := { s.home with nextId := rid + 1 } }
  if tx.resp then serveResponse tx s1 else serveOp true rid port tx s1

/-! ## What follows (R49, R66, R82) -/

/-- Whether a request that waits for room in its directory set can go on: the set has room, or an entry that nothing evicts
yet (R66). -/
def setRipe (s : State) (a key : Nat) : Bool :=
  match evictChoice s a key with
  | .room => true
  | .busy => false
  | .evict _ => !evicting s a key

/-- Whether a held request can be looked at again: a FENCE with nothing earlier outstanding, a request whose FENCE
has completed, one whose directory set can hold its entry, an INVALIDATE whose stores have taken effect, a pull of what has
become settled. -/
def ripe (s : State) (p : Parked) : Bool :=
  match p.why with
  | .fence n => if p.tx.op = 0x06 then !outstanding s n p.id else !fenceHeld s n p.id
  | .dirSet a => (dirOf s (oSlot p.tx.offset) (oTile p.tx.offset)).isSome || setRipe s a (tkey (oSlot p.tx.offset) (oTile p.tx.offset))
  | .stores n c => !storesBefore s n c p.id
  | .ledgerOf n k => !pendingOf s (n, k)
  | .sealing slot => match extOf s slot with | some e => e.publishing.isNone | none => true
  | _ => false

/-- Serve held requests while one can be, then let the older epoch retire. -/
def settleN : Nat → State → State
  | 0, s => s
  | n + 1, s =>
    match s.home.parked.find? (ripe s) with
    | none => s
    | some p => settleN n (serveParked p s)

/-- Free the records of layers that are no longer live (R105, R110). -/
def sweepDead (s : State) : State :=
  (s.ext.entries.filter (fun x => x.2.mode == .versioned)).foldl (fun t x => dropDead x.1 t) s

/-- Pulls that a window held back leave as it opens (R333). -/
def releasePulls (s : State) : State := sendHeld s.home.heldPulls s

/-- What follows a step: held requests, commands whose end waits, layers, agent indices, the older epoch, resources that can
leave their partition, pulls whose window has opened, and commits that can begin. -/
def settle (s : State) : State :=
  startRecs (releasePulls (leave (retireOlder (freeDead (sweepDead (endAll (settleN (2 * s.home.parked.length + 2) s)))))))

/-! ## Resequencing (R361) -/

/-- The source that keys a flow (R354). -/
def flowSrc (tx : Tx) : Node := if tx.engine then tx.origin else tx.src

/-- The flow of a transaction. -/
def flowOf (s : State) (src : Node) (cls : Nat) : Option Flow := s.home.flows.find? (fun f => f.src == src && f.cls == cls)

/-- Write a flow. -/
def setFlow (f : Flow) (s : State) : State :=
  let old := s.home.flows
  let new := if old.any (fun x => x.src == f.src && x.cls == f.cls)
    then old.map (fun x => if x.src = f.src ∧ x.cls = f.cls then f else x) else old ++ [f]
  { s with home := { s.home with flows := new } }

/-- Consecutive held transactions from a sequence on. -/
def takeRun : Nat → Word32 → List (Nat × Tx) → List (Nat × Tx) × Word32 × List (Nat × Tx)
  | 0, e, held => ([], e, held)
  | n + 1, e, held =>
    match takeFirst (fun p => p.2.flowSeq == e) held with
    | none => ([], e, held)
    | some (p, rest) =>
      let r := takeRun n (e + 1) rest
      (p :: r.1, r.2.1, r.2.2)

/-- In gap loss every request of a flow is answered with ST_MAP_STALE (R361). -/
def deliver1 (gap : Bool) (port : Nat) (tx : Tx) (s : State) : State :=
  if gap && isRequest tx then refuse tx .mapStale s else serveNew port tx s

/-- Deliver in order what a transaction makes deliverable. -/
def resequence (port : Nat) (tx : Tx) (s : State) : State :=
  let src := flowSrc tx
  let f := tx.flowSeq
  let dup (t : State) : State := occur (portOcc port 0x48 1 tx none) (modPort port (fun p => { p with dups := p.dups + 1 }) t)
  let run (fl : Flow) (gap : Bool) (t : State) : State :=
    let r := takeRun fl.held.length (f + 1) fl.held
    let t1 := setFlow { src := src, cls := tx.cls, expected := r.2.1, held := r.2.2, gap := gap } t
    ((port, tx) :: r.1).foldl (fun u p => deliver1 gap p.1 p.2 u) t1
  if tx.fwd.isSome then serveNew port tx s
  else match flowOf s src tx.cls with
    | none => run { src := src, cls := tx.cls, expected := f, held := [], gap := false } false s
    | some fl =>
      if tx.flowStart then run fl false s
      else if f = fl.expected then run fl fl.gap s
      else
        let d := (f - fl.expected).toNat
        let back := (fl.expected - f).toNat
        if 1 ≤ d ∧ d ≤ 4095 then
          if fl.held.any (fun p => p.2.flowSeq == f) then dup s
          else setFlow { fl with held := fl.held ++ [(port, tx)] } s
        else if 1 ≤ back ∧ back ≤ 2147483648 then dup s
        else modPort port (fun p => { p with discards := p.discards + 1 }) s

/-- Gap loss (R361): held requests are answered with ST_MAP_STALE, the others delivered, and E set beyond them. -/
def gapLoss (src : Node) (cls : Nat) (s : State) : State :=
  match flowOf s src cls with
  | none => s
  | some fl =>
    if fl.held.isEmpty then s
    else
      let dist (p : Nat × Tx) : Nat := (p.2.flowSeq - fl.expected).toNat
      let top := fl.held.foldl (fun m p => max m (dist p)) 0
      let seqd := (List.range (top + 1)).filterMap (fun i => fl.held.find? (fun p => dist p == i))
      let s1 := setFlow { fl with expected := fl.expected + BitVec.ofNat 32 (top + 1), held := [], gap := true } s
      seqd.foldl (fun t p => deliver1 true p.1 p.2 t) s1

/-! ## Arrival -/

/-- A transaction arrives on a fabric port (R355, R359): refused, served here, or sent on with the partition of its port
(R15, R16, R354). -/
def recv (port0 : Nat) (tx0 : Tx) (s : State) : State :=
  let port := canonPort s port0
  if !portUp s port then s
  else
    let tx := { tx0 with hop := min 1023 (tx0.hop + 1), ptag := portTag s port tx0 }
    let loop := tx.hop = 1023 ∧ !isSelf s tx.dst ∧ (routePort s tx).isSome
    let s0 := if loop then post .routeLoop none [tx.dst.toNat] s else s
    match rxCheck port tx s0 with
    | some st => settle (reject port tx st s0)
    | none =>
      if isSelf s0 tx.dst then settle (resequence port tx s0)
      else { s0 with out := s0.out ++ [tx] }

end Sys2Proof.Machine
end

