-- ==== Sys2Proof/Machine/Items.lean ====
section
/-! DEFINITION. The dispatcher (R162 to R164, R241, R290, R311), the end of vendor items (R165), and the seal item of
PUBLISH_COPY (R108, R287). -/

namespace Sys2Proof.Machine

/-! ## Cores that can take an item -/

/-- The command of an item. -/
def cmdOfItem (s : State) (it : Item) : Option (Queue × Cmd) :=
  match queueOf s it.queue with
  | none => none
  | some q => (cmdOf q it.cmdSeq).map (fun c => (q, c))

/-- The code of an engine's item: a key for the image and its instructions (R237). -/
def cmdCode (engine fw : Nat) (image : Option KernelImage) : Nat × Nat :=
  match image with
  | some i => (5 + 8 * i.digest.toNat, i.codeInstrs)
  | none => (engine + 8 * fw, Config.fwInstrs engine % 8193)

/-- The firmware VERSION that a partition runs for an engine. -/
def partFw (s : State) (p engine : Nat) : Nat :=
  match tget s.parts.parts p with
  | some x => (match tget x.fw engine with | some v => v.version | none => 0)
  | none => 0

/-- The code of an item that runs. -/
def itemCode (s : State) (it : Item) : Nat × Nat :=
  match it.coll with
  | some _ => cmdCode 1 (partFw s it.part 1) none
  | none => match cmdOfItem s it with
    | some (_, c) => cmdCode it.engine c.fw c.image
    | none => (0, 0)

/-- Codes without repetition. -/
def uniqueCodes : List (Nat × Nat) → List (Nat × Nat)
  | [] => []
  | x :: t => if t.any (fun y => y.1 == x.1) then uniqueCodes t else x :: uniqueCodes t

/-- The codes that the contexts of a core use. -/
def codesOn (s : State) (k : Core) : List (Nat × Nat) := uniqueCodes (k.ctxs.map (fun x => itemCode s x.2.item))

/-- Scratchpad slots in use on a core (R180). -/
def slotsOn (k : Core) : Nat := k.ctxs.foldl (fun n x => n + x.2.slotCount) 0

/-- The strip of a logical core (R21). -/
def stripOf (core : Nat) : Nat := core / 32

/-- The junction band of a strip (R411). -/
def bandOf (s : State) (strip : Nat) : Nat :=
  match tget s.phys.strips strip with
  | some d => d.junction / 5000
  | none => 0

/-- Whether the burl map keeps a physical core out at its strip's present band (R411). -/
def quarantined (s : State) (core phys : Nat) : Bool :=
  match tget s.cores.phys phys with
  | some p => p.quarantine.getLsbD (bandOf s (stripOf core))
  | none => false

/-- What an item asks of a core: fields, slots, code, contexts of its image. -/
structure Need where
  part : Nat
  mask : Nat
  slots : Nat
  code : Nat × Nat
  maxCtx : Nat

/-- Whether a core can take an item now (R162, R180, R237, R241). -/
def coreFits (s : State) (n : Need) (c : Nat) (k : Core) : Bool :=
  let codes := codesOn s k
  k.part == some n.part && !k.scrubbing && !k.removing && !k.recovering && (n.mask == 0 || n.mask.testBit (c / 256)) &&
  (match k.phys with | some p => !quarantined s c p | none => false) &&
  decide (k.ctxs.length < 4) && decide (slotsOn k + n.slots ≤ 2048) &&
  decide ((k.ctxs.filter (fun x => (itemCode s x.2.item).1 == n.code.1)).length < n.maxCtx) &&
  (codes.any (fun x => x.1 == n.code.1) || decide ((codes.map (·.2)).sum + n.code.2 ≤ 8192))

/-- The lowest free context of a core. -/
def freeCtxOf (k : Core) : Nat := ((List.range 4).find? (fun i => !thas k.ctxs i)).getD 0

/-- The cores that can take an item. -/
def fitting (s : State) (n : Need) : List (Nat × Core) := s.cores.cores.filter (fun x => coreFits s n x.1 x.2)

/-- Fewest occupied contexts, then the lowest core (R241). -/
def leastBusy (l : List (Nat × Core)) : Option (Nat × Core) :=
  l.foldl (fun best x => match best with
    | none => some x
    | some b => if x.2.ctxs.length < b.2.ctxs.length then some x else best) none

/-- The next strip that has a fitting core after the strip of the item placed last, ascending and wrapping (R290). -/
def nextStrip (l : List (Nat × Core)) (last : Nat) : List (Nat × Core) :=
  let after := if last < 64 then l.filter (fun x => decide (last < stripOf x.1)) else l
  let pool := if after.isEmpty then l else after
  match pool with
  | [] => []
  | x :: _ => pool.filter (fun y => stripOf y.1 == stripOf x.1)

/-- The field whose HBM holds both ends of a MOVE command (R290). -/
def moveField (d : BitVec 512) : Option Nat :=
  if dEngine d ≠ 4 ∨ 3 < dOpcode d then none
  else
    let m := moveArgs d
    let f := fld m.dest 40 38
    if m.destRes && (dOpcode d == 2 || (m.srcRes && fld m.src 40 38 == f)) then some f else none

/-- What a command's items ask of a core. -/
def needOf (q : Queue) (c : Cmd) : Need :=
  let e := q.engine
  let mask := match e, dOpcode c.desc with
    | 3, 3 => (attnArgs false c.desc).mask
    | 3, 4 => (attnArgs true c.desc).mask
    | 5, _ => (applyArgs c.desc).mask
    | _, _ => 0
  { part := q.part, mask := mask,
    slots := match c.image with | some i => i.slots | none => Config.fwSlots e % 2049,
    code := cmdCode e c.fw c.image,
    maxCtx := match c.image with | some i => i.maxCtx | none => 4 }

/-- The core for a command's next item. -/
def placeItem (s : State) (q : Queue) (c : Cmd) : Option (Nat × Core) :=
  let l := fitting s (needOf q c)
  match q.engine with
  | 1 => leastBusy l
  | 5 => leastBusy l
  | _ =>
    let own := match moveField c.desc with | some f => l.filter (fun x => x.1 / 256 == f) | none => []
    leastBusy (nextStrip (if own.isEmpty then l else own) c.lastStrip)

/-! ## Which item is next -/

/-- Whether a command's last item is a seal item, which no core runs (R287). -/
def hasSeal (c : Cmd) : Bool := dEngine c.desc == 4 && dOpcode c.desc == 4 && (pubArgs c.desc).sealIt

/-- The next item of a command for a core: one to replay first, then in index order; a FROM item only inside the window
of its group (R252, R258). -/
def nextItem (s : State) (c : Cmd) : Option Nat :=
  match c.again with
  | i :: _ => some i
  | [] =>
    let lim := if hasSeal c then c.n - 1 else c.n
    if lim ≤ c.next then none
    else if dEngine c.desc = 1 then
      if dOpcode c.desc ≠ 2 then none
      else match cgOf s (rColl c.desc) with
        | some g => if c.next < baseOf g + g.e.window then some c.next else none
        | none => some c.next
    else some c.next

/-- The next item of a queue that order, publication and the limit of 16 commands allow (R108, R158, R162). -/
def queueNext (s : State) (q : Queue) : Option (Cmd × Nat) :=
  q.cmds.findSome? (fun c =>
    if !inOrder q c || heldByPublish s q c || overLimit q c then none
    else (nextItem s c).map (fun i => (c, i)))

/-- Queues of a partition and priority in round-robin order after the one served last. -/
def queueOrder (s : State) (p prio : Nat) : List (Nat × Queue) :=
  let l := s.queues.queues.filter (fun x => x.2.part == p && x.2.prio == prio && x.2.state ≠ .unassigned)
  match tget s.queues.lastServed (4 * p + prio) with
  | none => l
  | some n => l.filter (fun x => decide (n < x.1)) ++ l.filter (fun x => decide (x.1 ≤ n))

/-- The queue, command, item and core to serve next: strict priority, round robin, only what can be placed. -/
def pickItem (s : State) (p : Nat) : Option (Nat × Queue × Cmd × Nat × Nat × Core) :=
  ((List.range 4).map (queueOrder s p)).flatten.findSome? (fun x =>
    match queueNext s x.2 with
    | none => none
    | some (c, i) => (placeItem s x.2 c).map (fun k => (x.1, x.2, c, i, k.1, k.2)))

/-! ## Dispatch -/

/-- Put a context on a core. -/
def putCtx (x : CtxId) (k : Ctx) (s : State) : State := modCore x.core (fun c => { c with ctxs := tset c.ctxs x.ctx k }) s

/-- A context that waits for its arguments or its code before it starts (R237, R239). -/
def startsWith (s : State) (x : CtxId) (code : Nat × Nat) (args : Nat) : Option CtxWait :=
  match coreOf s x.core with
  | some k => if k.istore.any (fun y => y.1 == code.1) then (if args = 0 then none else some .args) else some .code
  | none => none

/-- The argument load of an APPLY item, as an operation that the context waits for (R239). -/
def argToken (a : ApplyArgs) : Token :=
  { serial := 0, op := .load .global a.arg 0 a.argTiles, pc := 0, wild := false, sent := none, done := none }

/-- The context of an APPLY item. -/
def applyCtx (it : Item) (c : Cmd) (img : KernelImage) (replay : Nat) (epoch : BitVec 16) (w : Option CtxWait) : Ctx :=
  let a := applyArgs c.desc
  let k := freshCtx it img.entry (a.seed + BitVec.ofNat 64 it.index) [] img.slots replay epoch
  { k with wait := w, tokens := if a.argTiles = 0 then [] else [(32, argToken a)] }

/-! ## Code (R237) -/

/-- Instructions held by an instruction store. -/
def storeSize (l : List (Nat × Nat)) : Nat := (l.map (·.2)).sum

/-- Make room for an image: images that no context uses give way. -/
def evictCode (used : List Nat) (need : Nat) : List (Nat × Nat) → List (Nat × Nat)
  | [] => []
  | y :: t => if 8192 < storeSize (y :: t) + need ∧ !used.contains y.1 then evictCode used need t else y :: evictCode used need t

/-- An image's code arrives in a core's store. -/
def addCode (used : List Nat) (code : Nat × Nat) (k : Core) : Core :=
  if k.istore.any (fun y => y.1 == code.1) then k else { k with istore := evictCode used code.2 k.istore ++ [code] }

/-- Engine firmware that an item of a core runs is in the core's store from its dispatch on: its fetch is part of the item
(R237; log entry 73). -/
def loadFirmware (core : Nat) (code : Nat × Nat) (s : State) : State :=
  match coreOf s core with
  | none => s
  | some k =>
    let used := code.1 :: (codesOn s k).map (·.1)
    modCore core (addCode used code) s

/-- The counts of an item that a core takes (R447, R450): ITEMS_RUN of the physical core, ITEMS_DISPATCHED of the strip and
of the engine. -/
def countDispatched (part engine core phys : Nat) (s : State) : State :=
  let priv := if engine = 5 then 2 else 1
  occur { Occ.bare 4 (5 * part + engine - 1) 0x80 1 with priv := some priv, part := some part }
    (occur { Occ.bare 1 (stripOf core) 0x22 1 with priv := some priv, part := some part } (bump 0 phys 11 1 s))

/-- An item goes to a core: its context, its run, and the stages DISPATCHED and STARTED (R162, R211, R461). -/
def dispatchItem (qn : Nat) (q : Queue) (c : Cmd) (i core : Nat) (k : Core) (s : State) : State :=
  let x : CtxId := { core := core, ctx := freeCtxOf k }
  let it : Item := { part := q.part, coll := none, queue := qn, cmdSeq := c.seq, index := i, engine := q.engine }
  let rep := tgetD c.faults i 0
  let ctx := match c.image with
    | some img => applyCtx it c img rep s.ext.mapEpoch (startsWith s x (cmdCode 5 0 c.image) (applyArgs c.desc).argTiles)
    | none => freshCtx it 0 0 [] (Config.fwSlots q.engine % 2049) rep s.ext.mapEpoch
  let s1 := modCmd qn c.seq (fun y => { y with
    next := max y.next (i + 1), again := y.again.filter (· ≠ i), lastStrip := stripOf core,
    runs := y.runs ++ [{ item := i, x := x, epoch := s.ext.mapEpoch, replay := rep }] })
    (putCtx x ctx (if c.image.isNone then loadFirmware core (cmdCode q.engine c.fw none) s else s))
  let s2 : State := { s1 with queues := { s1.queues with lastServed := tset s1.queues.lastServed (4 * q.part + q.prio) qn } }
  let ph := k.phys.getD 0xFFF
  tagStage q.part q.engine qn c.seq i 3 ph core x.ctx 0 rep (tagStage q.part q.engine qn c.seq i 2 ph core x.ctx 0 rep
    (countDispatched q.part q.engine core ph s2))

/-- A chunk of a group of the partition whose fold item no core runs yet (R255). -/
def foldWaiting (s : State) (p : Nat) : Option (CGroup × Nat) :=
  (s.groups.filter (fun x => x.2.e.partition == p)).findSome? (fun x =>
    (x.2.chunks.find? (fun c => c.x.isNone)).map (fun c => (x.2, c.chunk)))

/-- A fold item goes to a core, and with it the RUN item of its chunk (R255, R258). -/
def dispatchFold (g : CGroup) (n core : Nat) (k : Core) (s : State) : State :=
  let x : CtxId := { core := core, ctx := freeCtxOf k }
  let it : Item := { part := g.e.partition, coll := some g.e.collId, queue := 0, cmdSeq := 0, index := n, engine := 1 }
  meetRun g.e.collId n (setCg g.e.collId { g with chunks := g.chunks.map (fun c => if c.chunk = n then { c with x := some x } else c) }
    (putCtx x (freshCtx it 0 0 [] (Config.fwSlots 1 % 2049) (match chunkOf g n with | some c => c.faults | none => 0) s.ext.mapEpoch)
      (countDispatched g.e.partition 1 core (k.phys.getD 0xFFF)
        (loadFirmware core (cmdCode 1 (partFw s g.e.partition 1) none) s))))

/-- An item whose checks fail at its dispatch ends so; its queue has been served (R162, R164), and a FROM item's failure aborts its
generation (R264). -/
def failAtDispatch (qn : Nat) (q : Queue) (c : Cmd) (i : Nat) (st : St) (s : State) : State :=
  let s1 := failItems qn c.seq [i] st 0 { s with queues := { s.queues with lastServed := tset s.queues.lastServed (4 * q.part + q.prio) qn } }
  if isFrom c then abortGen (rColl c.desc) (if st = .revoked then 3 else 9) (myNode s) noNode none s1 else s1

/-- The dispatcher of a partition serves one item (R162, R164): fold items first (log entry 20). -/
def dispatchOne (p : Nat) (s : State) : State :=
  if partState s p ≠ .active ∨ s.phys.hold then s
  else
    let fold := match foldWaiting s p with
      | none => none
      | some (g, n) =>
        let need : Need := { part := p, mask := 0, slots := Config.fwSlots 1 % 2049, code := cmdCode 1 (partFw s p 1) none, maxCtx := 4 }
        (leastBusy (fitting s need)).map (fun k => (g, n, k))
    match fold with
    | some (g, n, k) => dispatchFold g n k.1 k.2 s
    | none =>
      match pickItem s p with
      | none => s
      | some (qn, q, c, i, core, k) =>
        match (if rebuildLost s c then some .state else recheck s q c) with
        | some st => failAtDispatch qn q c i st s
        | none => dispatchItem qn q c i core k s

/-- ITEM_DISPATCH (R162). -/
def execItemDispatch (part : Nat) (s : State) : Out := .next (settle (dispatchOne part s))

/-! ## The end of a vendor item -/

/-- The work of a vendor item: the records that a SCAN item selected, else 0. -/
def itemWork (a : Actor) (c : Cmd) (i : Nat) : Io Nat :=
  let d := c.desc
  let unit (p : Io Unit) : Io Nat := do
    p
    pure 0
  match dEngine d, dOpcode d with
  | 2, 1 => unit (rowsWork a d i)
  | 2, 2 => unit (kvWork a d i)
  | 2, 3 => unit (dispatchWork a d i)
  | 2, 4 => unit (combineWork a d i)
  | 3, 1 => scanWork a c i
  | 3, 2 => unit (topkWork a d i)
  | 3, 3 => unit (scoreWork a d i)
  | 3, 4 => unit (attendWork a d i)
  | 4, 1 => unit (copyWork a d i)
  | 4, 2 => unit (fillWork a d i)
  | 4, 3 => unit (convertWork a d i)
  | 4, 4 => unit (publishCopyWork a d i)
  | 4, 5 => unit (rebuildWork d i)
  | _, _ => pure 0

/-- A vendor item runs to its end with the answers of other homes, or waits (R57, R164, R165). -/
def completeItem (x : CtxId) (k : Ctx) (q : Queue) (c : Cmd) (ans : List RemoteAnswer) (s : State) : State :=
  let it := k.item
  match runIo (itemWork (actorOf s x it q c) c it.index) ans s with
  | (.ok n, s1) =>
    settle (endItemAt x it .ok 0 (modCmd it.queue it.cmdSeq (fun y => { y with
      packed := y.packed + n, selected := y.selected + n }) s1))
  | (.error (.fail st d), s1) => settle (if (ctxOf s1 x).isSome then endItemAt x it st d s1 else s1)
  | (.error .wait, s1) => s1

/-- Rows of a REBUILD item that has been stopped: those that it had rebuilt are free. -/
def stopRebuild (d : BitVec 512) (i : Nat) (s : State) : State :=
  let r := rebArgs d
  let n := min 4096 (r.rows - 4096 * i)
  (rebuildRows r.group (r.first + 4096 * i) ((List.range n).filter (fun k => Config.itemKeeps (s.free + k))) none { s with free := s.free + n }).2

/-- What the stores of an APPLY item that has not completed them may have written. -/
def stopStores (a : Actor) (k : Ctx) : Io Unit :=
  k.tokens.forM (fun t => match t.2.op, t.2.sent with
    | .store sp ad slot n, none => do
      let bs ← (List.range n).mapM (fun i => match tget k.slots (slot + i) with
        | some b => if t.2.wild then ioFree else pure b.data
        | none => ioFree)
      ioWrites a ((numberFrom 0 bs).map (fun p => tileWrite (sp == .resident) ad p.1 p.2))
    | _, _ => pure ())

/-- An item is stopped before its end: each of its destinations at this home holds old or new content, which of the two is free
(R44, R164, R404); a SCORE or ATTEND item has written nothing (R312). -/
def stopWork (x : CtxId) (s : State) : State :=
  match ctxOf s x with
  | none => s
  | some k =>
    if k.item.coll.isSome then s
    else match cmdOfItem s k.item with
      | none => s
      | some (q, c) =>
        if k.item.engine = 3 ∧ 3 ≤ dOpcode c.desc then s else
        let a := { actorOf s x k.item q c with stop := true }
        if k.item.engine = 5 then (runIo (stopStores a k) [] s).2
        else if k.item.engine = 4 ∧ dOpcode c.desc = 5 then stopRebuild c.desc k.item.index s
        else (runIo (itemWork a c k.item.index) [] s).2

/-- ITEM_COMPLETE (R165): items of engines 1 to 4. -/
def execItemComplete (x : CtxId) (ans : List RemoteAnswer) (s : State) : Out :=
  match ctxOf s x with
  | none => .next s
  | some k =>
    if k.item.coll.isSome ∨ k.item.engine = 5 then .next s
    else match cmdOfItem s k.item with
      | none => .next s
      | some (q, c) =>
        .next (if k.item.engine = 1 then settle (fromItem x k.item q c ans s) else completeItem x k q c ans s)

/-! ## The seal item (R108, R287) -/

/-- PUBLISH of WRITE_VERSION as from the submitter, at another home: its answer decides. -/
def sealAway (qn : Nat) (q : Queue) (c : Cmd) (n : Node) (slot : Nat) (via : Option Word32) (ans : List RemoteAnswer) (s : State) : State :=
  match ans with
  | [] => s
  | r :: _ =>
    if windowShut s n 1 then s else
    let (tx, s0) := viaTx via { blankTx s with
      dst := n, src := q.submitter, op := 0x2A, cls := 1, offset := mkOffset slot 0 0, mapEpoch := s.ext.mapEpoch,
      version := BitVec.ofNat 32 (dWriteV c.desc), ptag := q.part } s
    let s1 := sendEngine tx s0
    if r.status = 0 then endSeal qn c q .ok 0 s1 else endSeal qn c q .state 1 s1

/-- The seal item at this home: PUBLISH is admitted as from the submitter, or the item fails with DETAIL 1. -/
def sealHere (qn : Nat) (q : Queue) (c : Cmd) (slot : Nat) (e : Extent) (s : State) : State :=
  let v := dWriteV c.desc
  if (holderOf e q.submitter).isSome && e.mode == .versioned && leaseHolder e q.part && v ≠ 0 && v == e.openV && layerOpen e && e.publishing.isNone then
    setExt slot { e with publishing := some (.sealItem qn c.seq) } (modCmd qn c.seq (fun y => { y with sealing := true, next := c.n }) s)
  else endSeal qn c q .state 1 s

/-- The dispatcher runs a seal item once every copy item has ended (R287). -/
def runSeal (qn : Nat) (q : Queue) (c : Cmd) (ans : List RemoteAnswer) (s : State) : State :=
  if !hasSeal c || c.sealing || !c.runs.isEmpty || !c.again.isEmpty || decide (c.done + c.failed + 1 ≠ c.n) then s
  else if 0 < c.failed then endSeal qn c q .state 0 s
  else match recheck s q c with
    | some .revoked => endSeal qn c q .revoked 0 s
    | _ =>
      match placeOf s (pubArgs c.desc).dest with
      | .here slot e => sealHere qn q c slot e s
      | .away n slot via => sealAway qn q c n slot via ans s
      | .nowhere => endSeal qn c q .state 1 s

/-- PUBLISH_COPY_SEAL (R287). -/
def execPublishCopySeal (queue : Nat) (cmdSeq : Word32) (ans : List RemoteAnswer) (s : State) : Out :=
  match queueOf s queue with
  | none => .next s
  | some q => match cmdOf q cmdSeq with
    | none => .next s
    | some c => .next (settle (runSeal queue q c ans s))

/-- The seal step, once the open layer has drained; a seal item that asked for it ends (R108, R287). -/
def sealNow (slot : Nat) (s : State) : State :=
  match extOf s slot with
  | none => s
  | some e =>
    match e.publishing with
    | none => s
    | some w =>
      if !drained s slot e then s
      else
        let s1 := sealStep slot e s
        match w with
        | .host _ _ => s1
        | .sealItem qn c => match queueOf s1 qn with
          | none => s1
          | some q => match cmdOf q c with
            | none => s1
            | some cmd => endSeal qn cmd q .ok 0 s1

/-- PUBLISH_SEAL (R108). -/
def execPublishSeal (slot : Nat) (s : State) : Out := .next (settle (sealNow slot s))

end Sys2Proof.Machine
end

