-- ==== Sys2Proof/Machine/Crypto.lean ====
section
/-! DEFINITION. SHA-256 (FIPS 180-4) and RSASSA-PSS (PKCS #1 v2.2 with SHA-256, MGF1 with SHA-256 and a 32-byte salt),
as R372 names them, and the bytes that they cover in signing blocks, certificates and kernel images (R233, R372, R386).
A byte string is a list of numbers below 256; a digest is the number that its 32 bytes spell, first byte highest. -/

namespace Sys2Proof.Machine

/-! ## Byte strings -/

/-- The `n` bytes of a number, highest first (I2OSP). -/
def beBytes (n v : Nat) : List Nat := (leBytes n v).reverse

/-- The number that bytes spell, highest first (OS2IP). -/
def beNat (l : List Nat) : Nat := l.foldl (fun a b => a * 256 + b) 0

/-! ## SHA-256 -/

/-- The round constants, the first highest: 32 bits of the fraction of the cube root of each of the first 64 primes. -/
def shaFractions : Nat :=
  0x428a2f9871374491b5c0fbcfe9b5dba53956c25b59f111f1923f82a4ab1c5ed5d807aa9812835b01243185be550c7dc372be5d7480deb1fe9bdc06a7c19bf174e49b69c1efbe47860fc19dc6240ca1cc2de92c6f4a7484aa5cb0a9dc76f988da983e5152a831c66db00327c8bf597fc7c6e00bf3d5a7914706ca63511429296727b70a852e1b21384d2c6dfc53380d13650a7354766a0abb81c2c92e92722c85a2bfe8a1a81a664bc24b8b70c76c51a3d192e819d6990624f40e3585106aa07019a4c1161e376c082748774c34b0bcb5391c0cb34ed8aa4a5b9cca4f682e6ff3748f82ee78a5636f84c878148cc7020890befffaa4506cebbef9a3f7c67178f2

/-- The starting state, its first word highest: 32 bits of the fraction of the square root of each of the first eight primes. -/
def shaStart : Nat := 0x6a09e667bb67ae853c6ef372a54ff53a510e527f9b05688c1f83d9ab5be0cd19

/-- Word `i` of a constant of `n` words. -/
def shaWord (c n i : Nat) : Word32 := BitVec.ofNat 32 (c >>> (32 * (n - 1 - i)))

/-- The exclusive or of a word turned right by several distances. -/
def turned (by_ : List Nat) (x : Word32) : Word32 := by_.foldl (fun y n => y ^^^ x.rotateRight n) 0

/-- Four words of which a round pushes one out. -/
structure Quad where
  w : Word32
  x : Word32
  y : Word32
  z : Word32

/-- Push a word in. -/
def Quad.push (q : Quad) (v : Word32) : Quad := { w := v, x := q.w, y := q.x, z := q.y }

/-- The words of a quad, newest first. -/
def Quad.words (q : Quad) : List Word32 := [q.w, q.x, q.y, q.z]

/-- The working state as the two shift chains it is: words a to d, and e to h. -/
structure ShaSt where
  hi : Quad
  lo : Quad

/-- A state from its eight words. -/
def ShaSt.of (f : Nat → Word32) : ShaSt :=
  { hi := { w := f 0, x := f 1, y := f 2, z := f 3 }, lo := { w := f 4, x := f 5, y := f 6, z := f 7 } }

/-- The eight words of a state. -/
def ShaSt.words (s : ShaSt) : List Word32 := s.hi.words ++ s.lo.words

/-- A round pushes one word into each chain: what leaves the lower one, with the round's key, goes into both; the choice and
the majority of FIPS 180-4 are written with one operation less each. -/
def shaRound (key : Word32) (s : ShaSt) : ShaSt :=
  let choice := s.lo.y ^^^ (s.lo.w &&& (s.lo.x ^^^ s.lo.y))
  let most := (s.hi.w &&& s.hi.x) ||| (s.hi.y &&& (s.hi.w ||| s.hi.x))
  let t := key + s.lo.z + choice + turned [6, 11, 25] s.lo.w
  { hi := s.hi.push (t + most + turned [2, 13, 22] s.hi.w), lo := s.lo.push (s.hi.z + t) }

/-- The word of the message schedule that follows sixteen others, oldest first. -/
def shaNext (l : List Word32) : Word32 :=
  let old := l.getD 1 0
  let new := l.getD 14 0
  l.getD 0 0 + l.getD 9 0 + (turned [7, 18] old ^^^ (old >>> 3)) + (turned [17, 19] new ^^^ (new >>> 10))

/-- The last `n` rounds of a block, over the sixteen schedule words that come next. -/
def shaRounds : Nat → List Word32 → ShaSt → ShaSt
  | 0, _, s => s
  | n + 1, l, s => shaRounds n (l.drop 1 ++ [shaNext l]) (shaRound (shaWord shaFractions 64 (63 - n) + l.headD 0) s)

/-- Mix one block, a number of 512 bits, into a state. -/
def shaMix (s : ShaSt) (block : Nat) : ShaSt :=
  let r := (shaRounds 64 ((List.range 16).map (shaWord block 16)) s).words
  ShaSt.of (fun i => s.words.getD i 0 + r.getD i 0)

/-- Mix the last `n` blocks of a padded message, a number, into a state. -/
def shaBlocks : Nat → Nat → ShaSt → ShaSt
  | 0, _, s => s
  | n + 1, m, s => shaBlocks n m (shaMix s (m / 2 ^ (512 * n) % 2 ^ 512))

/-- SHA-256: a message is padded by a one bit, zeros and its length in bits. -/
def sha256 (m : List Nat) : BitVec 256 :=
  let n := m.length
  let blocks := (n + 72) / 64
  let padded := (beNat m * 256 + 128) * 256 ^ (64 * blocks - n - 1) + 8 * n
  BitVec.ofNat 256 ((shaBlocks blocks padded (ShaSt.of (shaWord shaStart 8))).words.foldl (fun d w => d * 2 ^ 32 + w.toNat) 0)

/-- The bytes of a digest. -/
def digestBytes (d : BitVec 256) : List Nat := beBytes 32 d.toNat

/-! ## RSASSA-PSS -/

/-- `b ^ e mod n` by the low `k` bits of `e`. -/
def modPow (n : Nat) : Nat → Nat → Nat → Nat → Nat
  | 0, _, _, acc => acc
  | k + 1, b, e, acc => modPow n k (b * b % n) (e / 2) (if e % 2 = 1 then acc * b % n else acc)

/-- MGF1 with SHA-256: the first `n` bytes. -/
def mgf1 (seed : List Nat) (n : Nat) : List Nat :=
  (((List.range ((n + 31) / 32)).map (fun i => digestBytes (sha256 (seed ++ beBytes 4 i)))).flatten).take n

/-- XOR of byte strings. -/
def xorBytes (a b : List Nat) : List Nat := (a.zip b).map (fun p => p.1 ^^^ p.2)

/-- The hash of M' (PKCS #1, 9.1). -/
def pssHash (mHash salt : List Nat) : List Nat := digestBytes (sha256 (List.replicate 8 0 ++ mHash ++ salt))

/-- Clear the bits of the first byte above the length of the encoded message. -/
def clearTop (bits : Nat) (l : List Nat) : List Nat :=
  match l with
  | [] => []
  | b :: t => b % 2 ^ (8 - bits) :: t

/-- EMSA-PSS verification of an encoded message of `bits` bits. -/
def pssVerify (mHash : List Nat) (bits m : Nat) : Bool :=
  let len := (bits + 7) / 8
  let em := beBytes len m
  let dbLen := len - 33
  let masked := em.take dbLen
  let hsh := (em.drop dbLen).take 32
  let top := 8 * len - bits
  let db := clearTop top (xorBytes masked (mgf1 hsh dbLen))
  decide (66 ≤ len) && decide (m < 256 ^ len) && em.getLast? == some 0xBC &&
  decide ((masked.headD 0) / 2 ^ (8 - top) = 0) &&
  (db.take (dbLen - 33)).all (· == 0) && db.getD (dbLen - 33) 0 == 1 &&
  hsh == pssHash mHash (db.drop (dbLen - 32))

/-- RSASSA-PSS verification of a message under a public key (R372). -/
def rsaVerify (modulus exponent signature : Nat) (m : List Nat) : Bool :=
  decide (1 < modulus) && decide (signature < modulus) &&
  pssVerify (digestBytes (sha256 m)) (Nat.log2 modulus) (modPow modulus 32 signature exponent 1)

/-- EMSA-PSS encoding with a salt. -/
def pssEncode (mHash salt : List Nat) (bits : Nat) : Nat :=
  let len := (bits + 7) / 8
  let dbLen := len - 33
  let hsh := pssHash mHash salt
  let db := List.replicate (dbLen - 33) 0 ++ 1 :: salt
  let masked := clearTop (8 * len - bits) (xorBytes db (mgf1 hsh dbLen))
  beNat (masked ++ hsh ++ [0xBC])

/-- RSASSA-PSS signature with a private exponent and a salt (R378). -/
def rsaSign (key : Nat × Nat) (salt : BitVec 256) (m : List Nat) : Nat :=
  modPow key.1 3072 (pssEncode (digestBytes (sha256 m)) (digestBytes salt) (Nat.log2 key.1)) key.2 1

/-! ## What is hashed and signed -/

/-- A key as offsets 0x080 to 0x203 of a signing block hold it (R233, R372): modulus and exponent, little-endian (R6). -/
def keyBytes (modulus exponent : Nat) : List Nat := leBytes 384 modulus ++ leBytes 4 exponent

/-- The hash by which a key is known (R373, R380). -/
def keyHash (modulus exponent : Nat) : BitVec 256 := sha256 (keyBytes modulus exponent)

/-- Bytes 0x000 to 0x27F of a signing block, its reserved bytes as they were received (R8, R372). -/
def blockBytes (b : SigningBlock) : List Nat :=
  leBytes 4 b.magic.toNat ++ [b.type.toNat, b.keySlot.toNat] ++ leBytes 2 b.resv06.toNat ++ leBytes 4 b.svn ++ leBytes 4 b.version.toNat ++
  leBytes 8 b.length ++ leBytes 8 b.resv18.toNat ++ digestBytes b.sha ++ leBytes 64 b.resv40.toNat ++
  keyBytes b.modulus b.exponent ++ leBytes 124 b.resv204.toNat

/-- The body of a certificate, its reserved bytes as they were received (R8, R386). -/
def certBytes (c : Cert) : List Nat :=
  leBytes 4 c.magic.toNat ++ [c.kind.toNat, c.signers.toNat] ++ leBytes 2 c.device.toNat ++ leBytes 2 c.target.toNat ++ leBytes 2 c.resv0A.toNat ++
  leBytes 4 c.leaseMs.toNat ++ leBytes 8 c.certSeq.toNat ++ leBytes 8 c.bootNonce.toNat ++ leBytes 8 c.challenge.toNat ++
  digestBytes c.charterSha ++ leBytes 56 c.resv48.toNat

/-- The header and code of a kernel image, its reserved bits as they were received (R8, R233, R234). -/
def imageBytes (k : KernelImage) : List Nat :=
  let hd := put k.magic.toNat 480 + put k.format.toNat 472 + put k.codeInstrs 458 + put k.entry 445 + put (k.slots % 4096) 433 +
    put (k.maxCtx % 8) 430 + put (if k.idempotent then 1 else 0) 429 + put (if k.signed then 1 else 0) 428 +
    put k.itemBudget.toNat 396 + put k.kversion.toNat 364 + k.resv.toNat
  leBytes 64 hd ++ (k.code.map (fun w => leBytes 8 w.toNat)).flatten

/-- The bytes that an image's signature covers (R233). -/
def imageSigned (k : KernelImage) : List Nat := imageBytes k ++ digestBytes k.digest ++ keyBytes k.modulus k.exponent

end Sys2Proof.Machine
end

