-- ==== Sys2Proof/Machine/ExtentOps.lean ====
section
/-! DEFINITION. Management operations on extents (R35 to R38, R52, R111 to R113, R46), the force point and
quiescence of a revocation (R41 to R45, R484), map epochs (R48 to R50), re-adoption (R419, R440). Each operation
answers its status, the values its response carries, and whether a map epoch is installed by its success. -/

namespace Sys2Proof.Machine

/-! ## Values read (R32, R33) -/

/-- STATE's code (R34). -/
def stateCode : ExtState → Nat
  | .free => 0 | .active => 1 | .noticed => 2 | .draining => 3 | .migrating => 4 | .arriving => 5

/-- Whether a poison mark lies in a slot (R32). -/
def poisonPresent (s : State) (slot : Nat) : Bool := s.dir.poison.any (fun x => keySlot x.1 == slot)

/-- ZERO_PENDING: some tiles are still to be produced (R31). -/
def zeroLeft (e : Extent) : Bool := e.zeroPending && decide (e.touched.length < 4194304)

/-- A holder's attach-list entry (R33). -/
def holderWord (h : Holder) : Nat :=
  inBits h.node.toNat 31 16 + inBits (holderCode h.hstate) 15 12 + inBits (if h.caching then 1 else 0) 11 11

/-- The extent map entry of a slot, 64 bytes (R32), then its attach list. A FREE slot reads as zeros. -/
def extVals (s : State) (slot : Nat) : List Nat :=
  match extOf s slot with
  | none => List.replicate 64 0
  | some e =>
    let bit (b : Bool) : Nat := if b then 1 else 0
    leBytes 64 (inBits e.homeEpoch.toNat 511 480 + inBits e.latest 479 448 + inBits e.openV 447 416 +
      inBits e.vindexRoot.toNat 415 384 + inBits e.attachList.toNat 383 352 + inBits e.deadline.toNat 351 320 +
      inBits e.mapEpoch.toNat 319 304 + inBits e.fwdNode.toNat 303 288 + inBits e.fwdSlot 287 270 + inBits e.group 269 262 +
      inBits e.base 261 238 + inBits e.holders.length 237 225 + inBits (liveCount e) 224 221 + inBits e.leasePart 220 217 +
      inBits (bit e.leaseValid) 216 216 + inBits e.owner 215 212 + inBits (stateCode e.state) 211 208 +
      inBits (modeCode e.mode) 207 206 + inBits (bit e.disposition) 205 205 + inBits (bit (poisonPresent s slot)) 204 204 +
      inBits (bit (zeroLeft e)) 203 203) ++
    (e.holders.map (fun h => leBytes 4 (holderWord h))).flatten

/-! ## Freeing a slot -/

/-- A slot becomes FREE: nothing of it stays at the home, and its backing is unreadable (R31, R45). -/
def freeSlot (slot : Nat) (s : State) : State :=
  let inSlot (k : Nat) : Bool := keySlot k == slot
  let d : DirSt := { s.dir with
    entries := tdrop s.dir.entries inSlot, log := tdrop s.dir.log inSlot, poison := tdrop s.dir.poison inSlot,
    own := tdrop s.dir.own (fun k => k / 2 ^ 16 == slot) }
  let p : PoolSt := { s.pool with
    cache := tdrop s.pool.cache inSlot, journal := s.pool.journal.filter (fun r => r.started || keySlot r.key ≠ slot) }
  let x : ExtMap := { s.ext with
    entries := tdel s.ext.entries slot, handed := tdrop s.ext.handed inSlot, pulled := tdrop s.ext.pulled inSlot,
    adopted := tdel s.ext.adopted slot, asked := tdrop s.ext.asked inSlot, held := s.ext.held.filter (fun h => h.1 ≠ slot) }
  let s1 := dropVersions slot s
  { s1 with dir := d, pool := p, ext := x }

/-! ## Holders named (R36, R37, R432) -/

/-- The partition of the host-facing port whose peer a node is. -/
def boundPart (s : State) (n : Node) : Option (Option Nat) :=
  (s.ports.ports.find? (fun p => p.2.cfg.role == .host && match p.2.peer with | some (m, _) => m == n | none => false)).map
    (fun p => p.2.cfg.owner)

/-- Whether a named holder passes R432: reach, CACHE, and the binding of its port here. -/
def holderReach (s : State) (owner : Nat) (mode : Mode) (h : HolderSpec) : Bool :=
  mayReach s h.part owner && (!(h.caching && mode == .coherent) || grants s h.part owner (·.cache)) &&
  (match boundPart s h.node with | some p => p == some h.part | none => true)

/-- The statuses of holders that ATTACH or GROW adds to those present. -/
def holdersBad (s : State) (owner : Nat) (mode : Mode) (old : List Holder) (hs : List HolderSpec) : Option St :=
  if !hs.all (holderReach s owner mode) then some .noAccess
  else
    let nodes := hs.map (·.node)
    let agents := (old.filter (·.caching)).length + (hs.filter (·.caching)).length
    if nodes.eraseDups.length ≠ nodes.length || hs.any (fun h => old.any (fun o => o.node == h.node)) ||
       (mode ≠ .coherent && hs.any (·.caching)) || decide (4096 < old.length + hs.length) ||
       (mode == .priv && decide (1 < old.length + hs.length)) || decide (512 < agents) then some .state
    else none

/-- Append holders, a caching one with the lowest agent index that is free: no holder has it, and no entry names an expelled
host by it (R60, R72). -/
def addHolders (dead : List Nat) : List HolderSpec → List Holder → List Holder
  | [], l => l
  | h :: t, l =>
    let a := if h.caching then some (freeAgent (l.filterMap (·.agent) ++ dead) 1024 0) else none
    addHolders dead t (l ++ [{ node := h.node, hstate := .attached, caching := h.caching, part := h.part, agent := a, pins := 0 }])

/-! ## The operations of R35 -/

/-- What an operation answers. -/
structure OpRes where
  st : St
  body : List Nat
  installs : Bool
  s : State

/-- A refused operation changes nothing. -/
def refusedOp (st : St) (s : State) : OpRes := { st := st, body := [], installs := false, s := s }

/-- A successful operation; the entry notes the map epoch under which it changed (R32). -/
def doneOp (slot : Nat) (installs : Bool) (s : State) : OpRes :=
  { st := .ok, body := [], installs := installs,
    s := modExt slot (noted s) s }

/-- Extent slots that a home has (R3). -/
def slotOk (slot : Nat) : Bool := decide (slot ≤ 262143)

/-- Whether the applied template of a partition grants a GiB of a group's data space (R431). -/
def grantedBase (s : State) (p group base : Nat) : Bool :=
  match templateOf s p with
  | some t => t.grants.any (fun g => g.group == group && decide (g.first ≤ base) && decide (base < g.first + g.len))
  | none => false

/-- Whether a partition may own extents of a mode: its template permits it, and VERSIONED needs a sinter area
(R37, R119). -/
def modeGranted (s : State) (p : Nat) (m : Mode) : Bool :=
  match templateOf s p with
  | some t => t.modes.getLsbD (modeCode m) && (m ≠ .versioned || decide (0 < t.sinterGib))
  | none => false

/-- A new entry (R31, R35, R104). The manual names neither the WRITER nor the SEAL_EVENT of the version 1 that ATTACH seals:
they are the owner and 0 (DESIGN CHOICE, log entry 157). -/
def newExtent (mode : Mode) (owner group base slot : Nat) (hs : List Holder) (s : State) : Extent :=
  { homeEpoch := 0, latest := if mode = .versioned then 1 else 0, openV := 0,
    vindexRoot := if mode = .versioned then Config.placement (slot * 4) else 0,
    attachList := Config.placement (slot * 4 + 1), deadline := 0, mapEpoch := s.ext.mapEpoch, fwdNode := 0, fwdSlot := 0,
    group := group, base := base, leasePart := 0, leaseValid := false, owner := owner, state := .active, mode := mode,
    disposition := false, zeroPending := true, holders := hs, touched := [],
    layers := if mode = .versioned then [{ version := 1, sealEvent := 0, tilesWritten := 0, state := .sealed, writer := owner }] else [],
    publishing := none, known := true }

/-- Whether a live extent uses a backing range (R37). -/
def backingUsed (s : State) (group base : Nat) : Bool := s.ext.entries.any (fun x => x.2.group == group && x.2.base == base)

/-- Whether a group was brought up (R439). -/
def groupUp (s : State) (group : Nat) : Bool :=
  match groupOf s group with
  | some g => g.up
  | none => false

/-- ATTACH (R35 to R37). The slot is looked at first, then R37 and R432, then R36 (DEDUCED, log entry 18). -/
def opAttach (slot mode owner group base : Nat) (hs : List HolderSpec) (s : State) : OpRes :=
  let m := modeOf mode
  if !slotOk slot || (extOf s slot).isSome then refusedOp .state s
  else if !modeGranted s owner m || !grantedBase s owner group base then refusedOp .noAccess s
  else match holdersBad s owner m [] hs with
    | some st => refusedOp st s
    | none =>
      if backingUsed s group base || !groupUp s group then refusedOp .state s
      else doneOp slot true (setExt slot (newExtent m owner group base slot (addHolders [] hs []) s) s)

/-- Legal states of GROW and of the revocations. -/
def live (e : Extent) : Bool := e.state == .active || e.state == .noticed

/-- GROW (R35, R36). -/
def opGrow (slot : Nat) (hs : List HolderSpec) (s : State) : OpRes :=
  match extOf s slot with
  | none => refusedOp .state s
  | some e =>
    if !live e then refusedOp .state s
    else match holdersBad s e.owner e.mode e.holders hs with
      | some st => refusedOp st s
      | none => doneOp slot true (setExt slot { e with
          holders := addHolders e.dead hs e.holders, state := .active } s)

/-- Whether every named node is a holder that is not FORCED (R36). -/
def namedOk (e : Extent) (ns : List Node) : Bool :=
  ns.all (fun n => match holderOf e n with | some h => h.hstate ≠ .forced | none => false)

/-- The state of an extent by its holders: NOTICED when every holder that is not FORCED is (R35). -/
def noticeState (hs : List Holder) : ExtState :=
  let l := hs.filter (fun h => h.hstate ≠ .forced)
  if !l.isEmpty && l.all (fun h => h.hstate == .noticed) then .noticed else .active

/-- REVOKE_NOTICE (R35, R36, R40). One that names no holder, of which the manual does not speak, sets the deadline all the same
(DESIGN CHOICE, log entry 157). -/
def opNotice (slot : Nat) (ns : List Node) (deadline : Word32) (s : State) : OpRes :=
  match extOf s slot with
  | none => refusedOp .state s
  | some e =>
    let l := e.holders.filter (fun h => h.hstate ≠ .forced)
    if !live e || !namedOk e ns || (e.state == .noticed && l.all (fun h => ns.contains h.node)) then refusedOp .state s
    else
      let hs := e.holders.map (fun h => if ns.contains h.node then { h with hstate := .noticed } else h)
      let s1 := setExt slot { e with holders := hs, deadline := deadline, state := noticeState hs } s
      doneOp slot false (postHosts e.owner 0x01 slot ns.eraseDups deadline s1)

/-- REVOKE_CANCEL (R35, R36, R40). -/
def opCancel (slot : Nat) (ns : List Node) (s : State) : OpRes :=
  match extOf s slot with
  | none => refusedOp .state s
  | some e =>
    if !live e || !namedOk e ns then refusedOp .state s
    else
      let hs := e.holders.map (fun h => if ns.contains h.node && h.hstate == .noticed then { h with hstate := .attached } else h)
      let d := if hs.any (fun h => h.hstate == .noticed) then e.deadline else 0
      doneOp slot false (setExt slot { e with holders := hs, deadline := d, state := noticeState hs } s)

/-! ## Revocation (R41 to R45, R484) -/

/-- LEASE_LOST to every holder of the lease partition and to the fabric manager (R111). -/
def postLease (n : Ev) (code slot : Nat) (e : Extent) (s : State) : State :=
  postAll n e.owner [slot, e.leasePart] code slot ((e.holders.filter (fun h => h.part == e.leasePart)).map (·.node))
    (fun _ => if code = 0x08 then BitVec.ofNat 32 e.leasePart else 0) s

/-- Commands of the forced holders that name the slot: items not dispatched fail with ST_REVOKED (R42); a FROM
command's failure aborts its generation (R264). -/
def forceItems (slot : Nat) (ns : List Node) (s : State) : State :=
  s.queues.queues.foldl (fun t q =>
    if !ns.contains q.2.submitter then t
    else q.2.cmds.foldl (fun u c =>
      if !(namedSlots u c).contains slot then u
      else
        let u1 := modCmd q.1 c.seq (fun y => { y with forced := true }) u
        let idx := undispatched u c
        if idx.isEmpty then u1
        else
          let u2 := failItems q.1 c.seq idx .revoked 0 u1
          if isFrom c then abortGen (rColl c.desc) 3 (myNode u) noNode none u2 else u2) t) s

/-- Recall every line that the agents of forced holders hold (R43). -/
def forceRecalls (id slot : Nat) (e : Extent) (ns : List Node) (s : State) : State :=
  let agents := ns.filterMap (agentOf e)
  (s.dir.entries.filter (fun x => keySlot x.1 == slot)).foldl (fun t x =>
    let tile := keyTile x.1
    let need := ((holdersIn e x.2).filter (agents.contains ·)).map (fun a => (a, true))
    if need.isEmpty || isBusy t slot tile then t
    else tryFinish slot tile (startRecalls slot tile e (.force id) need t)) s

/-- The force point (R41, R43, R484). -/
def forcePoint (slot : Nat) (e : Extent) (ns : List Node) (toFree : Bool) (s : State) : State :=
  let id := s.ext.nextId
  let hs := e.holders.map (fun h => if ns.contains h.node then { h with hstate := .forced } else h)
  let s1 := setExt slot { e with holders := hs, disposition := toFree, state := if toFree then .draining else e.state } s
  let f : Force := { id := id, slot := slot, holders := ns, toFree := toFree, seq := s.mgmt.eventSeq, stopped := false, poisoned := [] }
  let s2 : State := { s1 with ext := { s1.ext with nextId := id + 1, forces := s1.ext.forces ++ [f] } }
  let s3 := postAll .extentForced e.owner (slot :: ns.map (·.toNat)) 0x02 slot ns (fun _ => 0) s2
  let s4 := forceItems slot ns s3
  let gone : Bool := e.mode == .versioned && e.leaseValid && hs.any (fun h => h.part == e.leasePart) &&
    hs.all (fun h => h.part ≠ e.leasePart || h.hstate == .forced)
  let s5 := if gone then
      postLease .leaseLost 0x09 slot e (modExt slot (fun x => { x with leaseValid := false }) s4)
    else s4
  match e.mode with
  | .coherent => forceRecalls id slot e ns s5
  | .sharedRead =>
    if ns.isEmpty then s5 else
    startInval { id := 0, slot := slot, tile := 0, count := 0, whole := true, writer := none, force := some id,
                 waiting := ns, answered := 0 } s5
  | _ => s5

/-- REVOKE_FORCE (R35, R36, R484). -/
def opForce (slot : Nat) (ns : List Node) (toFree : Bool) (s : State) : OpRes :=
  match extOf s slot with
  | none => refusedOp .state s
  | some e =>
    if !live e || (!toFree && !namedOk e ns) then refusedOp .state s
    else
      let l := if toFree then (e.holders.filter (fun h => h.hstate ≠ .forced)).map (·.node) else ns.eraseDups
      doneOp slot true (forcePoint slot e l toFree s)

/-- Whether a force is quiescent (R44). -/
def quiescent (s : State) (f : Force) (e : Extent) : Bool :=
  let agents := f.holders.filterMap (agentOf e)
  let mine (tx : Tx) : Bool := f.holders.contains tx.src && oSlot tx.offset == f.slot
  !s.home.parked.any (fun p => admitted p && mine p.tx) &&
  !s.home.busy.any (fun b => b.slot == f.slot && (b.why == .force f.id || b.recalls.any (fun r => agents.contains r.agent) ||
    match b.why with | .request _ _ tx => mine tx | _ => false)) &&
  !s.ext.invals.any (fun i => i.force == some f.id || match i.writer with | some (_, tx) => mine tx | none => false) &&
  !(match e.publishing with | some (.host _ tx) => mine tx | _ => false) &&
  !s.queues.queues.any (fun q => f.holders.contains q.2.submitter &&
    q.2.cmds.any (fun c => (!c.runs.isEmpty || !c.again.isEmpty || c.sealing) && (namedSlots s c).contains f.slot)) &&
  !s.dir.entries.any (fun x => keySlot x.1 == f.slot && (holdersIn e x.2).any (agents.contains ·))

/-- REVOKE_DONE (R45): the forced holders leave the attach list with their pins, an extent left without holders is ACTIVE
(R38), and the last force of one that drains frees it. -/
def revokeDone (f : Force) (e : Extent) (s : State) : State :=
  let count (n : Node) : Nat := (f.poisoned.filter (fun p => p.1 == n)).foldl (fun k p => k + p.2) 0
  let s1 := postAll .revokeDone e.owner (f.slot :: (f.holders.map (fun n => [n.toNat, count n])).flatten) 0x03 f.slot f.holders
    (fun n => BitVec.ofNat 32 (count n)) s
  let s2 : State := { s1 with ext := { s1.ext with forces := s1.ext.forces.filter (fun x => x.id ≠ f.id) } }
  let hs := e.holders.filter (fun h => !f.holders.contains h.node)
  let d := if hs.any (fun h => h.hstate == .noticed) then e.deadline else 0
  let st : ExtState := if e.state = .noticed ∧ hs.isEmpty then .active else e.state
  let s3 := modExt f.slot (fun x => noted s { x with holders := hs, deadline := d, state := st }) s2
  if e.state = .draining ∧ hs.isEmpty then freeSlot f.slot s3 else dropDead f.slot s3

/-- A revocation that is quiescent ends; lines granted to forced holders after the force point are recalled (R43,
R44). -/
def quiesce (id : Nat) (s : State) : State :=
  match s.ext.forces.find? (fun f => f.id == id) with
  | none => s
  | some f =>
    match extOf s f.slot with
    | none => { s with ext := { s.ext with forces := s.ext.forces.filter (fun x => x.id ≠ id) } }
    | some e => if quiescent s f e then revokeDone f e s else if e.mode = .coherent then forceRecalls id f.slot e f.holders s else s

/-! ## Requests that end while their tiles are recalled -/

/-- The requests that BUSY tiles are for. -/
def busyReqs (s : State) : List (Nat × Tx) :=
  (s.home.busy.filterMap (fun b => match b.why with | .request id _ tx => some (id, tx) | _ => none)).eraseDups

/-- The BUSY tiles of a request await their recalls for the home alone, its request having ended. -/
def drainReq (id : Nat) (s : State) : State :=
  let mine := busyOfReq s id
  let s1 : State := { s with home := { s.home with busy := s.home.busy.map (fun b =>
    match b.why with | .request i _ _ => if i = id then { b with why := .drain } else b | _ => b) } }
  mine.foldl (fun t b => tryFinish b.slot b.tile t) s1

/-- Requests that recall tiles, and that a test names, end with a status. -/
def dropBusyReqs (st : St) (hit : Tx → Bool) (s : State) : State :=
  ((busyReqs s).filter (fun r => hit r.2)).foldl (fun t r => drainReq r.1 (failReq r.2 st t)) s

/-- INVALIDATE requests and publications of hosts, that a test names, end with a status. -/
def dropHeld (st : St) (hit : Tx → Bool) (s : State) : State :=
  let hitWriter (i : Inval) : Bool := match i.writer with | some (_, tx) => hit tx | none => false
  let hitPub (x : Nat × Extent) : Bool := match x.2.publishing with | some (.host _ tx) => hit tx | _ => false
  let txs := (s.ext.invals.filterMap (fun i => i.writer.map (·.2))).filter hit ++
    s.ext.entries.filterMap (fun x => match x.2.publishing with | some (.host _ tx) => if hit tx then some tx else none | _ => none)
  let x : ExtMap := { s.ext with
    invals := s.ext.invals.filter (fun i => !hitWriter i),
    entries := s.ext.entries.map (fun x => if hitPub x then (x.1, { x.2 with publishing := none }) else x) }
  txs.foldl (fun t tx => answer tx st t) { s with ext := x }

/-- Publications of seal items, that a test names by slot and queue, end, and the seal items with the status given (R124, R287). -/
def dropSeals (st : St) (detail : Word32) (hit : Nat → Queue → Bool) (s : State) : State :=
  s.ext.entries.foldl (fun t x => match x.2.publishing with
    | some (.sealItem qn c) => match queueOf t qn with
      | some q =>
        if !hit x.1 q then t
        else
          let t1 := modExt x.1 (fun e => { e with publishing := none }) t
          match cmdOf q c with | some cmd => endSeal qn cmd q st detail t1 | none => t1
      | none => t
    | _ => t) s

/-! ## The stop of a force (R44) -/

/-- The items of a command that run are stopped where they are (R44, R164). -/
def stopItems (qn : Nat) (q : Queue) (c : Cmd) (s : State) : State :=
  c.runs.foldl (fun t r => if runsItem t qn c.seq r then stopWork r.x t else if isRun c then stopRun q c r t else t) s

/-- 40 ms after the force point (R44): running items of the forced holders stop, and their requests
that wait complete, with ST_REVOKED, those that wait for recalls among them (DEDUCED, log entry 153). -/
def forceStop (id : Nat) (s : State) : State :=
  match s.ext.forces.find? (fun f => f.id == id) with
  | none => s
  | some f =>
    if f.stopped then s
    else
      let s1 : State := { s with ext := { s.ext with forces := s.ext.forces.map (fun x => if x.id = id then { x with stopped := true } else x) } }
      let s2 := s1.queues.queues.foldl (fun t q =>
        if !f.holders.contains q.2.submitter then t
        else q.2.cmds.foldl (fun u c =>
          if !(namedSlots u c).contains f.slot then u
          else
            let idx := c.runs.map (·.item) ++ c.again
            if idx.isEmpty then u
            else
              let u2 := failItems q.1 c.seq idx .revoked 0 (modCmd q.1 c.seq (fun y => { y with forced := true }) (stopItems q.1 q.2 c u))
              if isFrom c then abortGen (rColl c.desc) 3 (myNode u) noNode none u2 else u2) t) s1
      let mine (tx : Tx) : Bool := f.holders.contains tx.src && oSlot tx.offset == f.slot
      let waits := s2.home.parked.filter (fun p => admitted p && f.holders.contains p.tx.src && oSlot p.tx.offset == f.slot)
      dropSeals .revoked 0 (fun slot q => slot == f.slot && f.holders.contains q.submitter)
        (dropHeld .revoked (fun tx => mine tx && tx.op == 0x2A) (dropBusyReqs .revoked mine
        (waits.foldl (fun t p => failWait p .revoked (unpark p.id t)) s2)))

/-! ## Release, rehoming, lease -/

/-- RELEASE (R35). -/
def opRelease (slot : Nat) (s : State) : OpRes :=
  match extOf s slot with
  | none => refusedOp .state s
  | some e =>
    if e.state = .active ∧ e.holders.isEmpty ∧ ¬ e.leaseValid then
      { st := .ok, body := [], installs := true, s := freeSlot slot s }
    else refusedOp .state s

/-- A layer record as it is held here. -/
def layerIn (l : PullLayer) : Layer :=
  { version := l.version, sealEvent := l.sealEvent, tilesWritten := l.tilesWritten, state := layerOf l.code, writer := l.writer }

/-- The entry that an extent record gives (R419). -/
def entryOf (p : PullExt) (owner group base slot : Nat) (n : Node) (srcSlot : Nat) (h : Word32) (draining : Bool) (s : State) : Extent :=
  { newExtent (modeOf p.mode) owner group base slot [] s with
    homeEpoch := h, latest := p.latest, openV := p.openV, leasePart := p.leasePart % 16, leaseValid := p.leaseValid,
    state := .arriving, fwdNode := n, fwdSlot := srcSlot,
    lostFrom := some n,
    holders := if draining then [] else p.holders.map (fun x =>
      { node := x.node, hstate := .attached, caching := x.caching, part := x.part % 16, agent := none, pins := x.pins }),
    layers := (p.layers.take 8).map layerIn }

/-- Re-adopt an extent of this device from what the pool metadata holds of it (R440). -/
def readopt (slot group base srcSlot : Nat) (h : Word32) (m : MetaRec) (s : State) : State :=
  let move {α : Type} (w : Nat) (old new : Table α) : Table α :=
    new.foldl (fun t x => tset t (slot * 2 ^ w + x.1 % 2 ^ w) x.2) old
  let owner := match groupOf s group with | some g => g.receiver | none => m.ext.owner
  let e : Extent := { m.ext with
    homeEpoch := h, group := group, base := base, owner := owner, state := .arriving, fwdNode := myNode s, fwdSlot := srcSlot,
    mapEpoch := s.ext.mapEpoch, publishing := none, disposition := false, known := true, differs := false,
    lostFrom := some (myNode s), dead := [],
    holders := if m.ext.state = .draining then [] else m.ext.holders.map (fun x => { x with hstate := .attached, agent := none }) }
  let v : VersSt := { s.vers with
    heads := move 22 s.vers.heads m.heads, sinter := m.sinter.foldl (fun t x => tset t x.1 x.2) s.vers.sinter }
  let d : DirSt := { s.dir with poison := move 22 s.dir.poison m.poison, own := move 16 s.dir.own m.own }
  let x : ExtMap := { s.ext with adopted := tset s.ext.adopted slot () }
  setExt slot e { s with vers := v, dir := d, ext := x, pool := { s.pool with records := tdel s.pool.records srcSlot } }

/-- REHOME_IN (R35, R52, R419, R439, R440). One whose backing a live extent uses, of which the manual does not speak, is refused
as ATTACH is (DESIGN CHOICE, log entry 157). -/
def opRehomeIn (slot : Nat) (n : Node) (srcSlot : Nat) (h : Word32) (group base : Nat) (s : State) : OpRes :=
  if !slotOk slot || (extOf s slot).isSome || !groupUp s group || backingUsed s group base then refusedOp .state s
  else if n = myNode s then
    match tget s.pool.records srcSlot with
    | none => refusedOp .state s
    | some m => doneOp slot true (readopt slot group base srcSlot h m s)
  else if s.boot.takenOver.any (fun x => x.1 == n) then
    let owner := match groupOf s group with | some g => g.receiver | none => 0
    let r := Config.extentRecord n srcSlot
    let s1 : State := { s with ext := { s.ext with adopted := tset s.ext.adopted slot () } }
    doneOp slot true (setExt slot (entryOf r owner group base slot n srcSlot h false s) s1)
  else
    let e : Extent := { newExtent .priv 0 group base slot [] s with
      homeEpoch := h, state := .arriving, fwdNode := n, fwdSlot := srcSlot, known := false }
    doneOp slot true (askPull e 0 6 1 0 (setExt slot e s))

/-- REHOME_OUT (R35, R53). -/
def opRehomeOut (slot : Nat) (n : Node) (dst : Nat) (h : Word32) (s : State) : OpRes :=
  match extOf s slot with
  | some e =>
    if e.state = .active then
      doneOp slot true (setExt slot { e with state := .migrating, fwdNode := n, fwdSlot := dst, homeEpoch := h } s)
    else refusedOp .state s
  | none => refusedOp .state s

/-- Whether every tile of a slot has been handed over, so that the new home posts REHOME_DONE (R35, R54). -/
def allHanded (s : State) (slot : Nat) : Bool := decide (4194304 ≤ (s.ext.handed.filter (fun x => keySlot x.1 == slot)).length)

/-- REHOME_FINISH (R35, R52): the old home takes REHOME_DONE to have been posted once it has handed over every tile (DEDUCED,
log entry 159). -/
def opRehomeFinish (slot : Nat) (s : State) : OpRes :=
  match extOf s slot with
  | some e =>
    if e.state = .migrating ∧ allHanded s slot then { st := .ok, body := [], installs := true, s := freeSlot slot s }
    else refusedOp .state s
  | none => refusedOp .state s

/-- GRANT_LEASE (R111, R432). -/
def opGrantLease (slot part : Nat) (s : State) : OpRes :=
  match extOf s slot with
  | none => refusedOp .state s
  | some e =>
    if !grants s part e.owner (·.lease) then refusedOp .noAccess s
    else if e.mode = .versioned ∧ live e ∧ ¬ e.leaseValid then
      let e1 := { e with leasePart := part, leaseValid := true }
      doneOp slot false (postLease .leaseGranted 0x08 slot e1 (setExt slot e1 s))
    else refusedOp .state s

/-- REVOKE_LEASE (R111, R112). -/
def opRevokeLease (slot : Nat) (s : State) : OpRes :=
  match extOf s slot with
  | none => refusedOp .state s
  | some e =>
    if e.leaseValid then doneOp slot false (postLease .leaseLost 0x09 slot e (setExt slot { e with leaseValid := false } s))
    else refusedOp .state s

/-- DISCARD_OPEN (R111, R113). While a PUBLISH drains the layer, of which the manual does not speak, it is refused (DESIGN
CHOICE, log entry 157). -/
def opDiscard (slot : Nat) (s : State) : OpRes :=
  match extOf s slot with
  | none => refusedOp .state s
  | some e =>
    if !e.leaseValid && layerOpen e && e.publishing.isNone then doneOp slot false (startDiscard slot s) else refusedOp .state s

/-- SET_RECALL_TIMEOUT (R46). -/
def opRecallTimeout (ms : Nat) (s : State) : OpRes :=
  let ok : Bool := match s.boot.charter with
    | some c => decide (c.device.recallMin ≤ ms) && decide (ms ≤ c.device.recallMax)
    | none => false
  if ok then { st := .ok, body := [], installs := false, s := { s with ext := { s.ext with recallMs := ms } } }
  else refusedOp .state s

/-! ## Batches and map epochs (R38, R48, R50) -/

/-- One operation. -/
def runOp (o : ExtentOp) (s : State) : OpRes :=
  match o with
  | .attach slot mode owner group base hs => opAttach slot mode owner group base hs s
  | .grow slot hs => opGrow slot hs s
  | .notice slot hs d => opNotice slot hs d s
  | .cancel slot hs => opCancel slot hs s
  | .force slot hs r => opForce slot hs r s
  | .release slot => opRelease slot s
  | .rehomeIn slot n ss h g b => opRehomeIn slot n ss h g b s
  | .rehomeOut slot n d h => opRehomeOut slot n d h s
  | .rehomeFinish slot => opRehomeFinish slot s
  | .readExtent slot => { st := .ok, body := extVals s slot, installs := false, s := s }
  | .grantLease slot p => opGrantLease slot p s
  | .revokeLease slot => opRevokeLease slot s
  | .discardOpen slot => opDiscard slot s
  | .setRecallTimeout ms => opRecallTimeout ms s

/-- Whether R35 marks an operation as installing a map epoch. -/
def installing : ExtentOp → Bool
  | .attach _ _ _ _ _ _ => true
  | .grow _ _ => true
  | .force _ _ _ => true
  | .release _ => true
  | .rehomeIn _ _ _ _ _ _ => true
  | .rehomeOut _ _ _ _ => true
  | .rehomeFinish _ => true
  | _ => false

/-- Operations in message order: each one's status and values, and whether one that installs has succeeded. -/
def runOps : List ExtentOp → State → List (St × List Nat) × Bool × State
  | [], s => ([], false, s)
  | o :: l, s =>
    let r := runOp o s
    let t := runOps l r.s
    ((r.st, r.body) :: t.1, r.installs || t.2.1, t.2.2)

/-- The next map epoch, the present one living on (R48). -/
def nextEpoch (s : State) : State :=
  { s with ext := { s.ext with older := some s.ext.mapEpoch, mapEpoch := s.ext.mapEpoch + 1 } }

/-- Apply a batch (R38): one map epoch if an installing operation succeeds, none otherwise. -/
def applyBatch (ops : List ExtentOp) (s : State) : List (St × List Nat) × State :=
  if ops.any installing then
    let r := runOps ops (nextEpoch s)
    if r.2.1 then (r.1, settle r.2.2)
    else
      let q := runOps ops s
      (q.1, settle q.2.2)
  else
    let q := runOps ops s
    (q.1, settle q.2.2)

/-- Whether a batch must wait for the older epoch (R50). -/
def batchWaits (ops : List ExtentOp) (s : State) : Bool := ops.any installing && s.ext.older.isSome

/-- The older epoch is retired by force (R50): its requests that have not begun fail with ST_MAP_STALE, the
recalls they await time out, with the poisoning of R43, and what has been recalled is written back. -/
def forceRetire (s : State) : State :=
  match s.ext.older with
  | none => s
  | some m =>
    let waits := s.home.parked.filter (fun p => admitted p && p.tx.mapEpoch == m)
    let s1 := waits.foldl (fun t p => failWait p .mapStale (unpark p.id t)) s
    let bs := s1.home.busy.filter (fun b => match b.why with | .request _ _ tx => tx.mapEpoch == m | _ => false)
    let s2 := bs.foldl (fun t b => b.recalls.foldl (fun u r => recallExpired b.slot b.tile r u) t) s1
    let s3 := dropBusyReqs .mapStale (fun tx => tx.mapEpoch == m) s2
    settle { s3 with ext := { s3.ext with older := none } }

end Sys2Proof.Machine
end

