-- ==== Sys2Proof/Machine/Spindle.lean ====
section
/-! DEFINITION. The switch core (chapter 13): caldera accounts (R323 to R326), meters (R328, R329, R334), random
early detection (R330, R331), packets cut into cells, the turn (R318 to R321, R327, R337), egress (R321), samples
(R335). Lanes, classes and keys are as State names them. -/

namespace Sys2Proof.Machine

/-- Change the switch core. -/
def modSp (f : SpindleSt → SpindleSt) (s : State) : State := { s with spindle := f s.spindle }

/-! ## Limits of the charter (R324) -/

/-- The limit entry of an account. -/
def limitOf (s : State) (lane cls : Nat) : Limit :=
  match (allLimits s).find? (fun l => l.1 == lane && l.2.1 == cls) with
  | some l => l.2.2
  | none => { reserve := 0, cap := 0, quota := 0 }

/-- The QUOTA of a partition. -/
def quotaOf (s : State) (p : Nat) : Nat :=
  match applied s p with
  | some c => c.quota
  | none => 0

/-- Shared cells that a partition holds, engine holds included (R324). -/
def sharedOf (s : State) (p : Nat) : Nat := tgetD s.spindle.partUse p 0 + holdOf s p

/-- Shared slots in use or promised. -/
def sharedUsed (s : State) : Nat :=
  (s.spindle.accounts.map (fun a => a.2.usedShared + a.2.promisedShared)).sum + ((List.range 16).map (holdOf s)).sum

/-- An account with nothing in it. -/
def Account.empty : Account := { promised := 0, promisedShared := 0, used := 0, usedShared := 0 }

/-- The account of a lane and class. -/
def accountOf (s : State) (k : Nat) : Account := tgetD s.spindle.accounts k .empty

/-- Where R325 takes one more slot from: `some false` the reserve, `some true` shared space. On a trunk the partition
is not known yet (R326). -/
def setAside (s : State) (lane cls : Nat) (part : Option Nat) : Option Bool :=
  let l := limitOf s lane cls
  let a := accountOf s (lane * 8 + cls)
  let n := a.promised + a.used
  let quotaOk : Bool := match part with
    | some p => decide (sharedOf s p < quotaOf s p)
    | none => true
  if n < l.reserve then some false
  else if n < l.cap ∧ quotaOk ∧ sharedUsed s < sharedSpace s then some true
  else none

/-- The bank of a slot: one that works (R323, R337). -/
def pickBank (s : State) (slot : Nat) : Nat :=
  let b := Config.bankOf slot % 64
  ((List.range 64).map (fun i => (b + i) % 64)).find? (fun x => !s.spindle.badBanks.contains x) |>.getD b

/-- An occurrence at a caldera bank. -/
def bankOcc (bank event cls : Nat) (part : Option Nat) : Occ :=
  { Occ.bare 5 bank event 1 with cls := some cls, part := part }

/-- Allocate a slot for a cell: the account has it set aside already. -/
def allocSlot (cls : Nat) (part : Nat) (shared : Bool) (s : State) : (Nat × Nat) × State :=
  let n := s.spindle.nextSlot
  let b := pickBank s n
  let s1 := modSp (fun p => { p with nextSlot := n + 1, bankUse := tupd p.bankUse b 0 (· + 1) }) s
  ((n, b), occur (bankOcc b (if shared then 0xA2 else 0xA1) cls (some part)) (occur (bankOcc b 0xA0 cls (some part)) (bump 5 b 9 1 s1)))

/-- Charge a slot in use to its account and, if shared, to its partition. -/
def charge (lane cls part : Nat) (shared : Bool) (s : State) : State :=
  modSp (fun p => { p with
    accounts := tupd p.accounts (lane * 8 + cls) .empty (fun a => { a with
      used := a.used + 1, usedShared := a.usedShared + (if shared then 1 else 0) }),
    partUse := if shared then tupd p.partUse part 0 (· + 1) else p.partUse }) s

/-- Free the slot of a cell: a geyser cell's once its last output has taken it (R323). -/
def freeCell (c : Cell) (s : State) : State :=
  let left := tgetD s.spindle.slotRefs c.slot 1
  if 1 < left then modSp (fun p => { p with slotRefs := tset p.slotRefs c.slot (left - 1) }) s
  else modSp (fun p => { p with
    slotRefs := tdel p.slotRefs c.slot,
    bankUse := tupd p.bankUse c.bank 0 (· - 1),
    accounts := tupd p.accounts (c.inLane * 8 + c.cls) .empty (fun a => { a with
      used := a.used - 1, usedShared := a.usedShared - (if c.shared then 1 else 0) }),
    partUse := if c.shared then tupd p.partUse c.part 0 (· - 1) else p.partUse }) s

/-! ## Meters (R328, R329) -/

/-- The meter entry of a port, partition and class. -/
def meterCfg (s : State) (port part cls : Nat) : Option MeterEntry :=
  match applied s part with
  | none => none
  | some c => (c.meters.find? (fun m => m.1 == port && m.2.1 == cls)).map (·.2.2)

/-- A meter with full buckets. -/
def Meter.full (m : MeterEntry) : Meter :=
  { tc := m.cbs * 1000, tp := m.pbs * 1000, wtc := m.cbs * 1000, wtp := m.pbs * 1000, red := 0, lastRed := 0, wouldRed := 0,
    held := false }

/-- Two-rate three-colour marking of `b` thousandths of bytes with a colour given before (0 for colour-blind): the
colour and the buckets left. -/
def colourOf (pre b tc tp : Nat) : Nat × Nat × Nat :=
  if pre = 2 ∨ tp < b then (2, tc, tp)
  else if pre = 1 ∨ tc < b then (1, tc, tp - b)
  else (0, tc - b, tp - b)

/-- Meter a packet of `n` cells that enters by a port (R329). -/
def meterPacket (port part : Nat) (tx : Tx) (n : Nat) (s : State) : Nat × State :=
  match meterCfg s port part tx.cls with
  | none => (0, s)
  | some e =>
    if !e.enable then (0, s)
    else
      let k := (port * 16 + part) * 8 + tx.cls
      let m := tgetD s.spindle.meters k (.full e)
      let b := 256000 * n
      let pre := if e.colourAware ∧ portRole s port = .trunk then tx.colour else 0
      let r := colourOf pre b m.tc m.tp
      let w := colourOf pre b m.wtc m.wtp
      let red := if r.1 = 2 then 256 * n else 0
      let m' : Meter := { m with
        tc := r.2.1, tp := r.2.2, wtc := w.2.1, wtp := w.2.2, red := m.red + red,
        wouldRed := m.wouldRed + (if w.1 = 2 then 256 * n else 0) }
      let s1 := modSp (fun p => { p with meters := tset p.meters k m' }) s
      (r.1, if red = 0 then s1 else occur (portOcc port 0x45 red tx (some part)) s1)

/-- Refill every bucket for 64 ns (R329). -/
def refillMeter (s : State) (k : Nat) (m : Meter) : Meter :=
  match meterCfg s (k / 128) (k / 8 % 16) (k % 8) with
  | none => m
  | some e => { m with
      tc := min (e.cbs * 1000) (m.tc + e.cir * 64), tp := min (e.pbs * 1000) (m.tp + e.pir * 64),
      wtc := min (e.cbs * 1000) (m.wtc + e.cir * 64), wtp := min (e.pbs * 1000) (m.wtp + e.pir * 64) }

/-- Return the withheld credit of a HELD meter's packets while Tc ≥ B, Tc ← Tc − B each (R334). -/
def returnHeld (s : State) : State :=
  s.spindle.withheld.foldl (fun t w =>
    let k := (w.port * 16 + w.part) * 8 + w.cls
    match tget t.spindle.meters k with
    | none => t
    | some m =>
      let b := 256000 * w.cells
      if w.held ∧ (!m.held ∨ b ≤ m.tc) then modSp (fun p => { p with
          withheld := p.withheld.erase w,
          meters := tset p.meters k { m with tc := if m.held then m.tc - b else m.tc } }) t
      else t) s

/-! ## Random early detection (R330, R331) -/

/-- Cells queued for an output lane and class, in the egress buffer and the caldera, where a cell has a slot from its admission on
(R323, R331, R335). -/
def cellsFor (s : State) (out cls : Nat) : List Cell :=
  let mids := (s.spindle.mids.filter (fun x => x.1 % 384 == out)).map (·.2)
  let inputs := (s.spindle.inputs.map (·.2)).map (fun cs => cs.filter (fun c => c.links.any (fun l => l.out == out)))
  (tgetD s.spindle.egress out [] ++ mids.flatten ++ inputs.flatten).filter (fun c => c.cls == cls)

/-- The depth of an output queue in cells. -/
def queueDepth (s : State) (out cls : Nat) : Nat := (cellsFor s out cls).length

/-- The profile of a colour (R328, R330). -/
def profileOf (s : State) (e : Option MeterEntry) (colour : Nat) : Option Profile :=
  match s.boot.charter, e with
  | some c, some m => c.profiles[(if colour = 0 then m.profG else if colour = 1 then m.profY else m.profR)]?
  | _, _ => none

/-- Whether a profile acts on a packet that finds depth `d`; the draw is a free value. -/
def redActs (p : Profile) (d n : Nat) : Bool :=
  if d < p.minTh then false
  else if p.maxTh ≤ d then true
  else decide (Config.redDraw n % 16777216 * (256 * (p.maxTh - p.minTh)) < 16777216 * ((p.maxP + 1) * (d - p.minTh)))

/-! ## Lanes (R316) -/

/-- The ingress lane of a port: on a bundle the hash of source node and class picks one of its two. -/
def inLane (s : State) (port : Nat) (tx : Tx) : Nat :=
  if bundled s port then port / 2 * 2 + Config.bundleHash tx.src tx.cls % 2 else port

/-- The egress lane of a port: on a bundle the hash of destination node and class, over the links that are UP. -/
def outLane (s : State) (port : Nat) (tx : Tx) : Nat :=
  if bundled s port then
    let p := port / 2 * 2 + Config.bundleHash tx.dst tx.cls % 2
    if linkUp s p then p else sibling p
  else port

/-- The lane of an internal unit: a request of a core takes one of its strip's two (R187), another's is free; the strip's
or the stack's other lanes carry the traffic of a faulted one (R338). -/
def internalLane (s : State) (tx : Tx) : Nat :=
  let l := match tx.strip with
    | some k => 192 + 2 * (k % 64) + Config.unitLane tx % 2
    | none => 192 + Config.unitLane tx % 192
  if s.spindle.badLanes.contains l then
    let grp := if l < 320 then (List.range 2).map (fun i => l / 2 * 2 + i) else (List.range 4).map (fun i => l / 4 * 4 + i)
    (grp.find? (fun x => !s.spindle.badLanes.contains x)).getD l
  else l

/-- The lane that a transaction leaves the switch core by; none if its destination is unreachable. -/
def destLane (s : State) (tx : Tx) : Option Nat :=
  if isSelf s tx.dst then some (internalLane s tx)
  else if 1023 ≤ tx.hop then none
  else (routePort s tx).map (fun p => outLane s p tx)

/-! ## Cutting a packet into cells -/

/-- Cells that a transaction occupies. -/
def txCells (tx : Tx) : Nat := max 1 (tx.tiles.length + (tx.trailer.len + 255) / 256)

/-- Bytes that a transaction occupies on a link. -/
def txBytes (tx : Tx) : Nat :=
  32 + (if tx.ext then 32 else 0) + 260 * tx.tiles.length + (if tx.trailer.len = 0 then 0 else tx.trailer.len + 4)

/-- The sidecar of cell `i` of a transaction (R125, R322): its tile's own, or that of 256 bytes of its trailer. -/
def cellSidecar (tx : Tx) (i : Nat) : Word32 :=
  match tx.tiles[i]? with
  | some t => t.crc
  | none => crc32c 256 (bitsOf tx.trailer.val (2048 * (i - tx.tiles.length)) 2048)

/-- TARGET of a cell (R322): a core of the strip, or a channel of the stack, behind its output lane; 0 for a fabric lane. -/
def laneTarget (out : Nat) (tx : Tx) : Nat :=
  if out < 192 then 0
  else if out < 320 then (out - 192) / 2 * 32 + Config.unitTarget tx % 32
  else (out - 320) / 4 * 32 + Config.unitTarget tx % 32

/-- Take the slots for a packet's cells: those of an arriving packet were promised with its link's credit, others are
set aside now. -/
def takeSlots (lane cls part : Nat) (promised : Option Nat) : Nat → State → Option (List (Bool × Nat × Nat) × State)
  | 0, s => some ([], s)
  | n + 1, s =>
    let from_ : Option (Bool × State) := match promised with
      | some link =>
        let k := link * 8 + cls
        let a := accountOf s k
        let sh : Bool := decide (a.promised ≤ a.promisedShared) && decide (0 < a.promisedShared)
        some (sh, modSp (fun p => { p with accounts := tset p.accounts k { a with
          promised := a.promised - 1, promisedShared := a.promisedShared - (if sh then 1 else 0) } }) s)
      | none => (setAside s lane cls (some part)).map (fun sh => (sh, s))
    match from_ with
    | none => none
    | some (sh, s1) =>
      let r := allocSlot cls part sh (charge lane cls part sh s1)
      (takeSlots lane cls part promised n r.2).map (fun q => ((sh, r.1.1, r.1.2) :: q.1, q.2))

/-- Put a packet's cells at its input, behind those admitted before (R318): one stored copy for every output lane that
needs it (R323). -/
def putPacket (lane part colour : Nat) (retain : Option Nat) (txs : List (Nat × Tx)) (slots : List (Bool × Nat × Nat)) (s : State) :
    State :=
  match txs.head? with
  | none => s
  | some (out, tx) =>
    let n := slots.length
    let pk := s.spindle.nextPacket
    let cell (i : Nat) (sl : Bool × Nat × Nat) : Cell :=
      { sidecar := cellSidecar tx i, inLane := lane, cls := tx.cls, part := part, colour := colour, mark := tx.mark, first := i == 0, last := i + 1 == n,
        ncells := n - 1, mcast := decide (1 < txs.length), target := laneTarget out tx, arrival := s.timer.toNat % 2 ^ 32, slot := sl.2.1,
        bank := sl.2.2, shared := sl.1, packet := pk,
        links := txs.map (fun x => { out := x.1, seq := none, tx := if i = 0 then some x.2 else none }) }
    let cells := slots.zipIdx.map (fun x => cell x.2 x.1)
    let refs := cells.foldl (fun t c => if 1 < txs.length then tset t c.slot txs.length else t) s.spindle.slotRefs
    modSp (fun p => { p with
      nextPacket := pk + 1, slotRefs := refs,
      packets := tset p.packets pk { left := n * txs.length, cells := n, retain := retain },
      retention := match retain with
        | some k => tupd p.retention k 0 (· + n)
        | none => p.retention,
      inputs := tupd p.inputs lane [] (· ++ cells) }) s

/-- An arriving packet is admitted: metered, perhaps marked or dropped, its slots taken (R326, R329, R331, R336). -/
def admitArrival (link port part : Nat) (tx : Tx) (s : State) : State :=
  match destLane s tx with
  | none => s
  | some out =>
    let n := txCells tx
    let lane := inLane s port tx
    let (colour, s1) := meterPacket port part tx n s
    let (dn, s2) := takeFree s1
    let act : Bool := match profileOf s2 (meterCfg s2 port part tx.cls) colour with
      | some p => redActs p (queueDepth s2 out tx.cls) dn
      | none => false
    if act ∧ 6 ≤ tx.cls then
      let drop := modSp (fun p => { p with accounts := tupd p.accounts (link * 8 + tx.cls) .empty (fun a => { a with
        promised := a.promised - n, promisedShared := min a.promisedShared (a.promised - n) }) }) s2
      occur (portOcc port 0x46 1 tx (some part)) drop
    else
      let marked : Bool := act && decide (1 ≤ tx.cls) && decide (tx.cls ≤ 5)
      let tx1 := { tx with mark := tx.mark || marked, colour := colour, ptag := part, strip := none }
      let s3 := if marked then occur (portOcc port 0x44 1 tx (some part)) s2 else s2
      match takeSlots lane tx.cls part (some link) n s3 with
      | none => s3
      | some (slots, s4) =>
        let k := (port * 16 + part) * 8 + tx.cls
        let held : Bool := decide (colour ≠ 0) && (match tget s4.spindle.meters k with | some m => m.held | none => false)
        let beyond : Bool := portRole s4 port == .trunk && decide (quotaOf s4 part < sharedOf s4 part)
        let w : List Withheld := if held then [{ port := port, cls := tx.cls, part := part, cells := n, held := true }]
          else if beyond then [{ port := port, cls := tx.cls, part := part, cells := n, held := false }] else []
        putPacket lane part colour (some (port * 8 + tx.cls)) [(out, tx1)] slots
          (modSp (fun p => { p with withheld := p.withheld ++ w }) s4)

/-- A transaction of the device, or one re-admitted, whose destination is unreachable (R358): a request is answered,
an EVENT or COMPLETION waits, another is discarded. -/
def unreachableOut (tx : Tx) (s : State) : State :=
  if isRequest tx then refuse tx .noAccess s else s

/-- Whether two transactions are copies on the geyser: the same TC4 message to other destinations. -/
def sameGeyser (a b : Tx) : Bool :=
  a.cls == 4 && { b with dst := a.dst, flowSeq := a.flowSeq, flowStart := a.flowStart, tag := a.tag } == a

/-- Admit a transaction that waits at its source, with the copies behind it, unless it must wait for slots, or for the depth of
its queue to fall below MIN_TH once the profile has acted on it (R325, R331); and whether it was admitted. -/
def admitOne (tx : Tx) (copies : List Tx) (out : Nat) (s : State) : Bool × State :=
  let part := tx.ptag
  let lane := internalLane s tx
  let txs := (tx :: copies).filterMap (fun x => (destLane s x).map (fun o => (o, x)))
  let d := queueDepth s out tx.cls
  let (dn, s1) := takeFree s
  let prof := match s.boot.charter with | some c => c.profiles[0]? | none => none
  let waits := s.spindle.redHeld.contains tx
  let act : Bool := match prof with | some p => if waits then decide (p.minTh ≤ d) else redActs p d dn | none => false
  if act ∧ 6 ≤ tx.cls then (false, if waits then s else modSp (fun p => { p with redHeld := p.redHeld ++ [tx] }) s1)
  else
    let mark (x : Tx) : Tx := { x with mark := x.mark || (act && decide (1 ≤ x.cls)) }
    match takeSlots lane tx.cls part none (txCells tx) s1 with
    | none => (false, s)
    | some (slots, s2) => (true, putPacket lane part 0 none (txs.map (fun x => (x.1, mark x.2))) slots
        (if waits then modSp (fun p => { p with redHeld := p.redHeld.erase tx }) s2 else s2))

/-- Work through the transactions that wait, in order: one that must wait holds back those behind it to the same
destination and class. -/
def admitOutN : Nat → List Tx → List Tx → State → State
  | 0, rest, kept, s => { s with out := kept ++ rest ++ s.out }
  | _ + 1, [], kept, s => { s with out := kept ++ s.out }
  | n + 1, tx :: rest, kept, s =>
    if kept.any (fun k => k.dst == tx.dst && k.cls == tx.cls) then admitOutN n rest (kept ++ [tx]) s
    else match destLane s tx with
      | none =>
        if tx.op = 0x33 ∨ tx.op = 0x34 then admitOutN n rest (kept ++ [tx]) s
        else admitOutN n rest kept (unreachableOut tx s)
      | some out =>
        let copies := rest.takeWhile (fun x => sameGeyser tx x && (destLane s x).isSome)
        match admitOne tx copies out s with
        | (true, s1) => admitOutN n (rest.drop copies.length) kept s1
        | (false, s1) => admitOutN n rest (kept ++ [tx]) s1

/-- Admit what the device has to send. -/
def admitOut (s : State) : State := admitOutN s.out.length s.out [] { s with out := [] }

/-! ## The turn -/

/-- The key of a pair. -/
def pairKey (i o c : Nat) : Nat := (i * 384 + o) * 8 + c

/-- The sequence of a cell that has one link and has left its input. -/
def cellSeq (c : Cell) : Nat :=
  match c.links.head? with
  | some l => l.seq.getD 0
  | none => 0

/-- The output lane of a cell that has one link. -/
def cellOut (c : Cell) : Nat :=
  match c.links.head? with
  | some l => l.out
  | none => 0

/-- Whether R320 lets an input send a cell now: fewer than 384 of each of its pairs in flight. -/
def mayLeave (s : State) (c : Cell) : Bool :=
  c.links.all (fun l => l.seq.isSome ||
    decide ((tgetD s.spindle.sentSeq (pairKey c.inLane l.out c.cls) 0 + 65536 - tgetD s.spindle.recvSeq (pairKey c.inLane l.out c.cls) 0) % 65536 < 384))

/-- The cell that an input sends: TC0 first, then in the order of admission (R318), past cells that R320 holds. -/
def nextCell (s : State) (l : List Cell) : Option (Cell × List Cell) :=
  match takeFirst (fun c => c.cls == 0 && mayLeave s c) l with
  | some r => some r
  | none => takeFirst (mayLeave s) l

/-- An occurrence on a strip lane. -/
def stripOcc (event lane : Nat) (c : Cell) : Occ :=
  { Occ.bare 1 ((lane - 192) / 2) event 1 with priv := some 0, cls := some c.cls, part := some c.part }

/-- Stage 1: input `i` sends a cell to the middle that the turn gives it; a geyser cell is linked into the queue of
every output that needs it. -/
def stage1 (i : Nat) (s : State) : State :=
  let mid := (i + s.spindle.turn) % 384
  if s.spindle.dead.contains mid ∨ s.spindle.badLanes.contains i then s
  else match nextCell s (tgetD s.spindle.inputs i []) with
    | none => s
    | some (c, rest) =>
      let s1 := modSp (fun p => { p with inputs := tset p.inputs i rest }) s
      let s2 := if 192 ≤ i ∧ i < 320 then occur (stripOcc 0x20 i c) s1 else s1
      c.links.foldl (fun t l =>
        let k := pairKey c.inLane l.out c.cls
        let q := l.seq.getD (tgetD t.spindle.sentSeq k 0)
        modSp (fun p => { p with
          sentSeq := if l.seq.isSome then p.sentSeq else tset p.sentSeq k ((q + 1) % 65536),
          mids := tupd p.mids (mid * 384 + l.out) [] (· ++ [{ c with links := [{ l with seq := some q }] }]) }) t) s2

/-- The weight of a class (R327). -/
def weightOf (s : State) (c : Nat) : Nat :=
  match s.boot.charter with
  | some ch => max 1 (ch.device.weights.getD (c - 1) 1)
  | none => 1

/-- The class a middle serves toward an output: TC0 first, else deficit round robin over TC1 to TC7 (R327). Answers the
class and the deficits after one cell. -/
def pickClass (s : State) (k : Nat) (q : List Cell) : Option (Nat × Table Nat) :=
  let d := s.spindle.deficit
  let has (c : Nat) : Bool := q.any (fun x => x.cls == c)
  if has 0 then some (0, d)
  else
    let cur := tgetD d (k * 8) 1
    if has cur ∧ 0 < tgetD d (k * 8 + cur) 0 then some (cur, tset d (k * 8 + cur) (tgetD d (k * 8 + cur) 0 - 1))
    else
      let order := (List.range 7).map (fun i => (cur + i) % 7 + 1)
      match order.find? has with
      | none => none
      | some c =>
        let d1 := order.foldl (fun t x => if has x then t else tdel t (k * 8 + x)) d
        some (c, tset (tset d1 (k * 8) c) (k * 8 + c) (tgetD d1 (k * 8 + c) 0 + weightOf s c - 1))

/-- Whether a cell is next in its pair's sequence at its output. -/
def isNext (s : State) (c : Cell) : Bool := cellSeq c == tgetD s.spindle.recvSeq (pairKey c.inLane (cellOut c) c.cls) 0

/-- Whether a cell of an egress buffer has not been reached by its pair's sequence. -/
def outOfSeq (s : State) (c : Cell) : Bool :=
  let k := pairKey c.inLane (cellOut c) c.cls
  decide ((tgetD s.spindle.recvSeq k 0 + 65536 - cellSeq c) % 65536 = 0 ∨ 32768 ≤ (tgetD s.spindle.recvSeq k 0 + 65536 - cellSeq c) % 65536)

/-- Whether the egress buffer of an output has a place for a cell (R321). -/
def hasPlace (s : State) (out : Nat) (c : Cell) : Bool :=
  let b := tgetD s.spindle.egress out []
  if isNext s c then decide (b.length < 512)
  else decide (b.length < 384) && decide ((b.filter (outOfSeq s)).length < 384)

/-- The next sequence at an output once every consecutive cell present has been received. -/
def advance (b : List Cell) (i o c : Nat) : Nat → Nat → Nat
  | 0, q => q
  | n + 1, q => if b.any (fun x => x.inLane == i && x.cls == c && cellOut x == o && cellSeq x == q) then advance b i o c n ((q + 1) % 65536) else q

/-- Release a copy of a packet's cell (R336). -/
def passed (c : Cell) (s : State) : State :=
  match tget s.spindle.packets c.packet with
  | none => s
  | some p =>
    if 1 < p.left then modSp (fun q => { q with packets := tset q.packets c.packet { p with left := p.left - 1 } }) s
    else modSp (fun q => { q with
      packets := tdel q.packets c.packet,
      retention := match p.retain with
        | some k => tupd q.retention k 0 (· - p.cells)
        | none => q.retention }) s

/-- Shift a CRC-16 register by `n` bits (R322). -/
def crc16Bits : Nat → Nat → Nat
  | 0, c => c
  | n + 1, c => if c < 0x8000 then crc16Bits n (2 * c) else crc16Bits n (2 * c ^^^ 0x11021)

/-- HCRC over bits [255:16] of a header, the highest byte first (R322; log entry 167). -/
def hcrc (h : Nat) : Nat := ((List.range 30).map (fun i => bitsOf h (248 - 8 * i) 8)).foldl (fun c b => crc16Bits 8 (c ^^^ 256 * b)) 0xFFFF

/-- The 32-byte header of a cell at stage 2 (R322). -/
def cellHeader (out : Nat) (c : Cell) : Nat :=
  let h := put c.sidecar.toNat 224 + inBits (cellSeq c) 223 208 + inBits c.inLane 207 199 + inBits out 198 190 + inBits c.cls 189 187 +
    inBits c.part 186 183 + inBits c.colour 182 181 + put (if c.mark then 1 else 0) 180 + put (if c.first then 1 else 0) 179 +
    put (if c.last then 1 else 0) 178 + inBits c.ncells 177 174 + put (if c.mcast then 1 else 0) 173 + inBits c.target 172 161 +
    inBits c.arrival 160 129
  h + hcrc h

/-- A CELL record for each sink that selects it: 1 in 2^n FIRST cells (R463). -/
def fumCell (out : Nat) (c : Cell) (s : State) : State :=
  if !c.first then s
  else
    let n := s.spindle.firstCells
    let r : FumRec := { type := 3, source := out % 8, time := s.timer.toNat, more := false,
                        body := words 4 (cellHeader out c) }
    let take (k : Sink) : Bool := k.cfg.cellLanes.contains out && k.cfg.cellClasses.getLsbD c.cls && decide (n % 2 ^ k.cfg.cellLog2 = 0)
    let s1 : State := { s with mgmt := { s.mgmt with sessions := s.mgmt.sessions.map (fun p =>
      (p.1, match p.2.sink with
        | some k => if take k then { p.2 with sink := some (sinkPut r k) } else p.2
        | none => p.2)) } }
    modSp (fun p => { p with firstCells := n + 1 }) s1

/-- A cell that fails its check at stage 2 (R337): it is resent from its copy with its sequence, in a new slot; a
bank's first failure retires the bank. -/
def resendCell (c : Cell) (s : State) : State :=
  let b := c.bank
  let s1 := bump 5 b 10 1 s
  let s2 : State := if s1.spindle.badBanks.contains b then s1
    else post .calderaBankRetired none [b] (modSp (fun p => { p with badBanks := p.badBanks ++ [b] }) s1)
  let s3 := charge c.inLane c.cls c.part c.shared (freeCell c s2)
  let r := allocSlot c.cls c.part c.shared s3
  modSp (fun p => { p with inputs := tupd p.inputs c.inLane [] (fun l => { c with slot := r.1.1, bank := r.1.2, mcast := false } :: l) }) r.2

/-- Stage 2: middle `j` sends one cell queued for the output it faces; `bad` names the outputs whose cell fails its
check. -/
def stage2 (bad : List Nat) (k : Nat) (s : State) : State :=
  let j := k / 384
  let out := k % 384
  if (j + s.spindle.turn) % 384 ≠ out ∨ s.spindle.dead.contains j ∨ s.spindle.badLanes.contains out then s
  else
    let q := tgetD s.spindle.mids k []
    match pickClass s k q with
    | none => s
    | some (cls, d) =>
      match takeFirst (fun c => c.cls == cls) q with
      | none => s
      | some (c, rest) =>
        if !hasPlace s out c then s
        else
          let s1 := modSp (fun p => { p with mids := tset p.mids k rest, deficit := d }) s
          if bad.contains out then resendCell c s1
          else
            let key := pairKey c.inLane out c.cls
            let b := tgetD s1.spindle.egress out [] ++ [c]
            let s2 := modSp (fun p => { p with
              egress := tset p.egress out b,
              recvSeq := tset p.recvSeq key (advance b c.inLane out c.cls b.length (tgetD p.recvSeq key 0)) }) (passed c (freeCell c s1))
            let s3 := if 192 ≤ out ∧ out < 320 then occur (stripOcc 0x21 out c) s2 else s2
            fumCell out c s3

/-- Remove empty lists from a table of lists. -/
def dropEmpty (t : Table (List Cell)) : Table (List Cell) := t.filter (fun x => !x.2.isEmpty)

/-- The cells of the packet that egress may send next from a buffer: all present and in sequence, TC0 first (R321). -/
def wholePacket (s : State) (out : Nat) : Option (List Cell) :=
  let b := tgetD s.spindle.egress out []
  let ready (c : Cell) : Bool :=
    let k := pairKey c.inLane out c.cls
    c.first && cellSeq c == tgetD s.spindle.takenSeq k 0 && decide (c.ncells < (tgetD s.spindle.recvSeq k 0 + 65536 - cellSeq c) % 65536)
  let pick := match b.find? (fun c => c.cls == 0 && ready c) with
    | some c => some c
    | none => b.find? ready
  pick.map (fun f => b.filter (fun c => c.inLane == f.inLane && c.cls == f.cls && decide ((cellSeq c + 65536 - cellSeq f) % 65536 ≤ f.ncells)))

/-- Credit that a port holds for a class, in cells (R345). -/
def creditOf (p : Port) (cls : Nat) : Nat := p.granted.getD cls 0 - p.used.getD cls 0

/-- Whether a whole packet waits at a port for credit (R450). -/
def stalled (s : State) (out : Nat) : Option Cell :=
  match portOf s out, wholePacket s out with
  | some p, some (c :: cs) => if creditOf p c.cls < (c :: cs).length then some c else none
  | _, _ => none

/-- One turn (R318, R319). -/
def turn (bad : List Nat) (s : State) : State :=
  if s.spindle.stopped then s
  else
    let s1 := admitOut s
    let s2 := (s1.spindle.mids.map (·.1)).foldl (fun t k => stage2 bad k t) s1
    let s3 := (s1.spindle.inputs.map (·.1)).foldl (fun t i => stage1 i t) s2
    let s4 := modSp (fun p => { p with turn := p.turn + 1, inputs := dropEmpty p.inputs, mids := dropEmpty p.mids, egress := dropEmpty p.egress }) s3
    (s4.spindle.egress.filter (fun x => decide (x.1 < 192))).foldl (fun t x =>
      match stalled t x.1 with
      | some c => occur { Occ.bare 2 x.1 0x49 1 with cls := some c.cls, part := some c.part } t
      | none => t) s4

/-- Take a packet out of an egress buffer. -/
def takePacket (out : Nat) (cells : List Cell) (s : State) : State :=
  match cells.find? (·.first) with
  | none => s
  | some f =>
    modSp (fun p => { p with
      egress := tupd p.egress out [] (fun b => b.filter (fun c => !cells.contains c)),
      takenSeq := tset p.takenSeq (pairKey f.inLane out f.cls) ((cellSeq f + f.ncells + 1) % 65536) }) s

/-- Set the n-th number of a list. -/
def addAt (l : List Nat) (n v : Nat) : List Nat := lset l n (l.getD n 0 + v)

/-- Egress of a fabric lane: the packet consumes its credit and waits for the port's frames (R321, R345); the device
writes PTAG and COLOUR on trunks (R354). -/
def sendPort (out : Nat) (p : Port) (cells : List Cell) (s : State) : State :=
  match cells.find? (·.first) with
  | none => s
  | some f => match f.links.head? with
    | none => s
    | some l => match l.tx with
      | none => s
      | some tx =>
        if !p.up ∨ creditOf p f.cls < cells.length then s
        else
          let trunk := p.cfg.role = .trunk
          let tx1 := { tx with ptag := if trunk then f.part else 0, colour := if trunk then f.colour else 0 }
          let s1 := takePacket out cells s
          let s2 := modPort out (fun q => { q with used := addAt q.used f.cls cells.length, sendQ := q.sendQ ++ [tx1] }) s1
          let s3 := if tx.mark then modSp (fun q => { q with marks := tupd q.marks (canonPort s out * 8 + f.cls) (0, 0) (fun m => (m.1, m.2 + 1)) }) s2 else s2
          occur (portOcc out 0x41 1 tx (some f.part)) s3

/-- Egress of a strip or HBM lane: the transaction reaches the unit that serves it (R361). -/
def sendHome (out : Nat) (cells : List Cell) (s : State) : State :=
  match cells.find? (·.first) with
  | none => s
  | some f => match f.links.head? with
    | none => s
    | some l => match l.tx with
      | none => s
      | some tx => settle (resequence (canonPort s f.inLane) tx (takePacket out cells s))

/-! ## Windows and samples -/

/-- The end of a hold window for one meter (R334). -/
def holdStep (k : Nat) (m : Meter) (s : State) : State :=
  let port := k / 128
  let part := k / 8 % 16
  let cls := k % 8
  let role := portRole s port
  let edge : Bool := role == .host || role == .memory
  let need := match s.boot.charter with | some c => c.device.holdMarks | none => 64
  let prev := (tgetD s.spindle.marks (port * 8 + cls) (0, 0)).1
  let enter : Bool := edge && !m.held && decide (need ≤ prev) && decide (m.lastRed ≤ m.red)
  let leave : Bool := m.held && decide (m.wouldRed = 0)
  let held : Bool := (m.held || enter) && !leave
  let m1 : Meter := { m with held := held, lastRed := m.red, red := 0, wouldRed := 0,
                             wtc := if held && m.held then m.wtc else m.tc, wtp := if held && m.held then m.wtp else m.tp }
  let s1 := modSp (fun p => { p with meters := tset p.meters k m1 }) s
  let s2 := if held then bump 2 port 11 1 s1 else s1
  if enter then post .meterHeld (some part) [port, part, cls] s2
  else if leave then post .meterReleased (some part) [port, part, cls] s2
  else s2

/-- The end of a hold window. -/
def holdWindow (s : State) : State :=
  let s1 := s.spindle.meters.foldl (fun t x => holdStep x.1 x.2 t) s
  modSp (fun p => { p with marks := p.marks.map (fun x => (x.1, (x.2.2, 0))) }) s1

/-- Sample one output queue (R335): its head cell is the one admitted first. -/
def sampleQueue (k : Nat) (s : State) : State :=
  let cs := cellsFor s (k / 8) (k % 8)
  let old := tgetD s.spindle.samples k { lastDepth := 0, maxDepth := 0, lastDelay := 0, maxDelay := 0 }
  let now := s.timer.toNat % 2 ^ 32
  let delay := match cs with
    | [] => 0
    | c :: t => t.foldl (fun m x => max m ((now + 2 ^ 32 - x.arrival) % 2 ^ 32)) ((now + 2 ^ 32 - c.arrival) % 2 ^ 32)
  let v : Sample := { lastDepth := cs.length, maxDepth := max old.maxDepth cs.length, lastDelay := delay, maxDelay := max old.maxDelay delay }
  modSp (fun p => { p with samples := tset p.samples k v }) s

/-- Sample every output queue that holds a cell or has been sampled before. -/
def sampleAll (s : State) : State :=
  let cells := (s.spindle.mids.map (·.2)).flatten ++ (s.spindle.egress.map (·.2)).flatten ++ (s.spindle.inputs.map (·.2)).flatten
  let keys := (s.spindle.samples.map (·.1) ++ (cells.map (fun c => c.links.map (fun l => l.out * 8 + c.cls))).flatten).eraseDups
  keys.foldl (fun t k => sampleQueue k t) s

end Sys2Proof.Machine
end

