-- ==== Sys2Proof/Machine/Wire.lean ====
section
/-! DEFINITION. The bytes of transactions and frames on a link, little-endian under R6: the base header and its extensions
(R350 to R352), link messages (R346), and the frame header with its CRC-24 over header and body (R342, R343). -/

namespace Sys2Proof.Machine

/-- A flag as a bit. -/
def bit1 (b : Bool) : Nat := if b then 1 else 0

/-! ## Transactions (R350 to R353) -/

/-- The base header. -/
def txHeader (tx : Tx) : Nat :=
  put tx.dst.toNat 240 + put tx.src.toNat 224 + put tx.flowSeq.toNat 192 + put tx.offset.toNat 144 + put tx.tag.toNat 128 +
  put tx.mapEpoch.toNat 112 + put tx.version.toNat 80 + put tx.op.toNat 72 + put tx.status.toNat 64 + inBits tx.length 63 59 +
  inBits tx.cls 58 56 + inBits tx.hop 55 46 + inBits tx.ptag 45 42 + inBits tx.colour 41 40 + put (bit1 tx.mark) 39 +
  put (bit1 tx.resp) 38 + put (bit1 tx.ext) 37 + put (bit1 tx.flowStart) 36 + put (bit1 tx.engine) 35 + put tx.qual.toNat 32 +
  put tx.origin.toNat 16 + tx.resv.toNat

/-- The extension: the collective one, or the forwarding one. -/
def txExt (tx : Tx) : Nat :=
  match tx.coll, tx.fwd with
  | some c, _ => put c.collId.toNat 208 + put c.generation.toNat 176 + inBits c.chunk 175 152 + put (bit1 c.isPartial) 151 +
      tx.extResv.toNat % 2 ^ 151
  | none, some f => put f.homeEpoch.toNat 224 + inBits f.hopBack 223 222 + put f.fwdFrom.toNat 206 + tx.extResv.toNat
  | none, none => tx.extResv.toNat

/-- A data tile with its sidecar. -/
def tileOctets (t : Tile) : List Nat := leBytes 256 t.data.toNat ++ leBytes 4 t.crc.toNat

/-- The bytes of a transaction in the order sent; what a PULL_STATE response carries besides is device-defined. -/
def txOctets (tx : Tx) : List Nat :=
  leBytes 32 (txHeader tx) ++ (if tx.ext then leBytes 32 (txExt tx) else []) ++ (tx.tiles.map tileOctets).flatten ++
  (match tx.body with | some b => Config.pullOctets b | none => []) ++
  (if tx.trailer.len = 0 then [] else leBytes tx.trailer.len tx.trailer.val ++ leBytes 4 tx.trailer.crc.toNat)

/-! ## Frames (R342, R343, R346) -/

/-- A link message. -/
def linkWord (m : LinkMsg) : Nat :=
  match m with
  | .hello node kind port => put 0x01 248 + put node.toNat 232 + inBits kind 231 230 + inBits port 229 222
  | .setWidth mask fromSeq => put 0x02 248 + put mask.toNat 218 + put fromSeq.toNat 206
  | .down reason => put 0x03 248 + inBits reason 205 198
  | .other word => word.toNat

/-- What a frame's body begins with, before its padding. -/
def bodyOctets (b : FrameBody) : List Nat :=
  match b with
  | .data parts => (parts.map (fun p => (txOctets p.tx).drop p.skip)).flatten
  | .idle => []
  | .link m => leBytes 32 (linkWord m)

/-- The 2,560 bytes of a body: what it carries, its padding, and zeros. -/
def frameOctets (f : Frame) : List Nat :=
  let l := (bodyOctets f.body ++ f.pad.map (·.toNat)).take 2560
  l ++ List.replicate (2560 - l.length) 0

/-- TYPE. -/
def frameType (b : FrameBody) : Nat := match b with | .data _ => 0 | .idle => 1 | .link _ => 2

/-- Bytes 0 to 6 of a frame header. -/
def frameHead (f : Frame) : Nat :=
  put f.crTotal.toNat 48 + inBits f.crClass 47 45 + put f.first.toNat 35 + put f.ack.toNat 23 + put f.seq.toNat 11 +
  put (bit1 f.nak) 10 + inBits (frameType f.body) 9 8 + f.sync.toNat

/-- Shift a CRC-24 register by `n` bits: what leaves at the top brings the polynomial, its own top bit written out, in. -/
def crc24Bits : Nat → Nat → Nat
  | 0, c => c
  | n + 1, c => if c < 0x800000 then crc24Bits n (2 * c) else crc24Bits n (2 * c ^^^ 0x1864CFB)

/-- CRC-24 of a list of bytes from a value (R342). -/
def crc24From : List Nat → Nat → Nat
  | [], c => c
  | b :: l, c => crc24From l (crc24Bits 8 (c ^^^ 65536 * b))

/-- The CRC-24 of R342. -/
def crc24 (l : List Nat) : BitVec 24 := BitVec.ofNat 24 (crc24From l 0xB704CE)

/-- FCRC as a frame's header and body give it. -/
def fcrcOf (f : Frame) : BitVec 24 := crc24 (leBytes 7 (frameHead f) ++ frameOctets f)

/-- A frame that decodes, whose FCRC matches and whose lock pattern stands (R342). -/
def frameOk (f : Frame) : Bool := f.decodes && f.fcrc == fcrcOf f && f.sync == 0xC6

/-- FIRST of a body: where the first transaction that begins in it starts, in 4-byte units; 1,023: none. -/
def firstOf (parts : List TxPart) : BitVec 10 :=
  match parts with
  | [] => 1023
  | p :: rest =>
    if p.skip = 0 then 0
    else if rest.isEmpty then 1023 else BitVec.ofNat 10 (((txOctets p.tx).length - p.skip) / 4)

/-- FIRST of any body. -/
def bodyFirst (b : FrameBody) : BitVec 10 := match b with | .data parts => firstOf parts | _ => 1023

end Sys2Proof.Machine
end

