-- ==== Sys2Proof/Machine/Links.lean ====
section
/-! DEFINITION. The link layer of a fabric port (R342 to R349), a port's fault and its reroute (R360), the arrival of
frames, and the commands of chapters 13 and 14 that act on ports, frames and the switch core. -/

namespace Sys2Proof.Machine

/-! ## Credit (R325, R336, R345) -/

/-- Retention cells that the classes of a port take with each class's guarantee of 16, one class with `more` (R336). -/
def retained16 (s : State) (port : Nat) (p : Port) (cls more : Nat) : Nat :=
  ((List.range 8).map (fun c =>
    max 16 (tgetD s.spindle.retention (canonPort s port * 8 + c) 0 + (p.given.getD c 0 - p.taken.getD c 0) + (if c = cls then more else 0)))).sum

/-- Cells of a class whose credit is withheld at a port: for HELD, or while the partition is above QUOTA. -/
def withheldOf (s : State) (port cls : Nat) : Nat :=
  ((s.spindle.withheld.filter (fun w => w.port == canonPort s port && w.cls == cls &&
    (w.held || decide (quotaOf s w.part < sharedOf s w.part)))).map (·.cells)).sum

/-- The partition against which an ingress sets slots aside; none on a trunk (R326). -/
def ingressPart (p : Port) : Option Nat := if p.cfg.role = .trunk then none else p.cfg.owner

/-- Set aside slots for `n` cells of an ingress account; none if R325 refuses one. -/
def promise (lane cls : Nat) (part : Option Nat) : Nat → State → Option State
  | 0, s => some s
  | n + 1, s =>
    match setAside s lane cls part with
    | none => none
    | some sh => promise lane cls part n (modSp (fun p => { p with
        accounts := tupd p.accounts (lane * 8 + cls) .empty (fun a => { a with
          promised := a.promised + 1, promisedShared := a.promisedShared + (if sh then 1 else 0) }) }) s)

/-- Grant credit of a class in units of 4 cells while R325, R336 and the limit of 1,020 cells outstanding let it. -/
def grantUnits (n port cls : Nat) : Nat → State → State
  | 0, s => s
  | k + 1, s =>
    match portOf s port with
    | none => s
    | some p =>
      let outstanding := p.given.getD cls 0 - p.taken.getD cls 0
      let room := if p.cfg.bundle then 4096 else 2048
      if 1020 < outstanding + withheldOf s port cls + 4 ∨ room < retained16 s port p cls 4 then s
      else match promise port cls (ingressPart p) 4 s with
        | none => occur (bankOcc (pickBank s s.spindle.nextSlot) 0xA3 cls (ingressPart p)) s
        | some s1 => grantUnits n port cls k (modPort port (fun q => { q with given := addAt q.given cls 4 }) s1)

/-- Drop withheld credit whose partition is no longer above QUOTA (R326). -/
def dropWithheld (s : State) : State :=
  modSp (fun p => { p with withheld := p.withheld.filter (fun w => w.held || decide (quotaOf s w.part < sharedOf s w.part)) }) s

/-! ## Sending frames (R343, R344) -/

/-- Pack transactions into a body of `room` bytes: parts, the transaction begun with its bytes left, the queue. A
transaction starts only where 32 bytes remain. -/
def pack : Nat → Nat → Option (Tx × Nat) → List Tx → List TxPart × Option (Tx × Nat) × List Tx
  | 0, _, cur, q => ([], cur, q)
  | n + 1, room, some (tx, left), q =>
    if left ≤ room then
      let r := pack n (room - left) none q
      ({ tx := tx, skip := txBytes tx - left, last := true } :: r.1, r.2)
    else if room = 0 then ([], some (tx, left), q)
    else ([{ tx := tx, skip := txBytes tx - left, last := false }], some (tx, left - room), q)
  | n + 1, room, none, tx :: q => if room < 32 then ([], none, tx :: q) else pack n room (some (tx, txBytes tx)) q
  | _ + 1, _, none, [] => ([], none, [])

/-- Bytes that a queue and a begun transaction still have to send. -/
def bytesLeft (cur : Option (Tx × Nat)) (q : List Tx) : Nat :=
  (match cur with | some (_, n) => n | none => 0) + (q.map txBytes).sum

/-- The frame that a port sends now, around a body, before its FCRC. -/
def headFrame (p : Port) (seq : BitVec 12) (b : FrameBody) : Frame :=
  { decodes := true, fcrc := 0, sync := 0xC6, crTotal := BitVec.ofNat 8 (p.given.getD p.rotate 0 / 4), crClass := p.rotate,
    first := bodyFirst b, ack := p.rxLast, seq := seq, nak := p.nakOut, body := b }

/-- The frame that a port sends now, around a body. -/
def mkFrame (p : Port) (seq : BitVec 12) (b : FrameBody) : Frame :=
  let f := headFrame p seq b
  { f with fcrc := fcrcOf f }

/-- Bytes a port sends or receives: the running window and the event of R450. -/
def countBytes (port dir n : Nat) (tx : Option Tx) (s : State) : State :=
  let s1 : State := { s with obs := { s.obs with winBytes := tupd s.obs.winBytes (port * 2 + dir) 0 (· + n) } }
  match tx with
  | some t => occur (portOcc port (0x42 + dir) n t (some t.ptag)) s1
  | none => s1

/-- The next frame of a port: a replay, else IDLE with 64 frames retained, else a LINK message, else DATA, else IDLE. A
port that trains sends link messages only. -/
def transmit (n : Nat) (s0 : State) : State :=
  match portOf s0 n with
  | none => s0
  | some p0 =>
    if !p0.up && !p0.training then s0
    else
      let s := if p0.up then grantUnits n n p0.rotate 255 (dropWithheld s0) else s0
      let p := (portOf s n).getD p0
      let done (q : Port) (f : Frame) : Port := { q with lastSent := some f, rotate := (q.rotate + 1) % 8 }
      let s1 := if p.nakOut then bump 2 n 10 1 s else s
      match p.replay with
      | f :: rest =>
        let f1 := mkFrame p f.seq f.body
        modPort n (fun q => done { q with replay := rest } f1) s1
      | [] =>
        let idle := mkFrame p (p.txSeq - 1) .idle
        if 64 ≤ p.retained.length then modPort n (fun q => done q idle) s1
        else match p.linkQ with
          | m :: rest =>
            let f := mkFrame p p.txSeq (.link m)
            modPort n (fun q => done { q with linkQ := rest, txSeq := q.txSeq + 1, retained := q.retained ++ [f] } f) s1
          | [] =>
            if !p.up ∨ (p.sending.isNone && p.sendQ.isEmpty) then modPort n (fun q => done q idle) s1
            else
              let r := pack (2 * p.sendQ.length + 2) 2560 p.sending p.sendQ
              let f := mkFrame p p.txSeq (.data r.1)
              let sent := bytesLeft p.sending p.sendQ - bytesLeft r.2.1 r.2.2
              countBytes n 1 sent (r.1.head?.map (·.tx))
                (modPort n (fun q => done { q with
                  sending := r.2.1, sendQ := r.2.2, txSeq := q.txSeq + 1, retained := q.retained ++ [f] } f) s1)

/-! ## Acknowledgement and replay (R344) -/

/-- Whether ACK covers a frame. -/
def covered (ack : BitVec 12) (f : Frame) : Bool := decide ((ack - f.seq).toNat < 2048)

/-- Whether every later frame that holds a part of the transaction that runs on past a frame is covered. -/
def tailCovered (ack : BitVec 12) : List Frame → Bool
  | [] => false
  | f :: fs => covered ack f && match f.body with
    | .data parts => (match parts.head? with
        | some p => p.last || tailCovered ack fs
        | none => tailCovered ack fs)
    | _ => tailCovered ack fs

/-- Whether a frame's last transaction runs on past it. -/
def runsOn (f : Frame) : Bool :=
  match f.body with
  | .data parts => (match parts.getLast? with
    | some p => !p.last
    | none => false)
  | _ => false

/-- The frames still retained under an ACK. -/
def retainFrom (ack : BitVec 12) : List Frame → List Frame
  | [] => []
  | f :: fs =>
    if covered ack f ∧ (!runsOn f ∨ tailCovered ack fs) then retainFrom ack fs else f :: fs

/-- Retained frames from a sequence on. -/
def framesFrom (n : BitVec 12) (l : List Frame) : List Frame := l.dropWhile (fun f => f.seq ≠ n)

/-- ACK, NAK and CR_TOTAL of a frame (R344, R345). -/
def linkFields (f : Frame) (p : Port) : Port :=
  let p1 := if (f.ack - p.acked).toNat ≤ 64 then { p with acked := f.ack, retained := retainFrom f.ack p.retained } else p
  let p2 := if f.nak then
      if p1.replay.isEmpty ∨ p1.nakSeen ≠ some f.ack
      then { p1 with nakSeen := some f.ack, replay := framesFrom (f.ack + 1) p1.retained } else p1
    else p1
  let c := f.crClass
  let inc := 4 * (f.crTotal - p2.grantedLow.getD c 0).toNat
  { p2 with granted := addAt p2.granted c inc, grantedLow := lset p2.grantedLow c f.crTotal }

/-! ## Up and down (R347, R349, R360) -/

/-- Whether the port's field has its clock and is not isolated, and the device is up (R400, R474). -/
def portAlive (s : State) (n : Nat) : Bool :=
  s.boot.phase == .ready && s.phys.refField.getLsbD (n / 24) && !s.phys.isolated.getLsbD (n / 24)

/-- Begin training: link state as at link-up, HELLO as frame 0 (R344, R347). -/
def train (n : Nat) (s : State) : State :=
  if !portAlive s n then s else
  modPort n (fun p => { Port.down p.cfg with
    training := true, removed := p.removed, rejects := p.rejects, discards := p.discards, dups := p.dups,
    linkQ := [.hello (myNode s) 2 n] }) s

/-- The KIND that a role asks of its peer (R347). -/
def kindOf (r : PortRole) : Option Nat :=
  match r with
  | .host => some 0
  | .memory => some 1
  | .trunk => some 2
  | .unused => none

/-- The peer's HELLO (R347). -/
def helloArrives (n : Nat) (node : Node) (kind peerPort : Nat) (s : State) : State :=
  match portOf s n with
  | none => s
  | some p =>
    if !p.training then s
    else
      let nodeOk : Bool := p.cfg.role != .trunk || p.cfg.neighbour.isNone || p.cfg.neighbour == some node
      if kindOf p.cfg.role = some kind ∧ nodeOk then
        post .portUp p.cfg.owner [n] (modPort n (fun q => { q with up := true, training := false, peer := some (node, kind, peerPort) }) s)
      else post .portMismatch p.cfg.owner [n, node.toNat, kind] (modPort n (fun q => { q with training := false }) s)

/-- Transactions with a part in a frame, each once. -/
def txsOf (fs : List Frame) : List Tx :=
  ((fs.map (fun f => match f.body with | .data ps => ps | _ => [])).flatten.foldl (fun acc p =>
    match acc with
    | (h, false) :: t => if h == p.tx then (h, p.last) :: t else (p.tx, p.last) :: acc
    | _ => (p.tx, p.last) :: acc) ([] : List (Tx × Bool))).reverse.map (·.1)

/-- Transactions of cells that are queued for an output, in order. -/
def queuedFor (out : Nat) (cs : List Cell) : List Tx :=
  (cs.map (fun c => c.links.filterMap (fun l => if l.out = out then l.tx else none))).flatten

/-- Take the cells queued for an output out of the switch core, freeing their slots, and restart its pairs. -/
def flushOut (out : Nat) (s : State) : State :=
  let inCore := (tgetD s.spindle.egress out []) ++ ((s.spindle.mids.filter (fun x => x.1 % 384 == out)).map (·.2)).flatten
  let waiting := ((s.spindle.inputs.map (·.2)).flatten).filter (fun c => c.links.any (fun l => l.out == out))
  let mids := ((s.spindle.mids.filter (fun x => x.1 % 384 == out)).map (·.2)).flatten
  let s1 := (mids ++ waiting).foldl (fun t c => passed c (freeCell c t)) s
  let strip (c : Cell) : Cell := { c with links := c.links.filter (fun l => l.out ≠ out) }
  let gone (k : Nat) : Bool := k / 8 % 384 == out
  if inCore.isEmpty && waiting.isEmpty then s
  else modSp (fun p => { p with
    egress := tdel p.egress out, mids := tdrop p.mids (fun k => k % 384 == out),
    inputs := dropEmpty (p.inputs.map (fun x => (x.1, (x.2.map strip).filter (fun c => !c.links.isEmpty)))),
    sentSeq := tdrop p.sentSeq gone, recvSeq := tdrop p.recvSeq gone, takenSeq := tdrop p.takenSeq gone }) s1

/-- A node that could be reached before and cannot be now. -/
def lostPath (s0 s : State) (n : Node) : Bool :=
  let probe (t : State) : Tx := { blankTx t with dst := n }
  reachable s0 (probe s0) && !reachable s (probe s)

/-- What the loss of paths does: modules are lost (R138), generations abort (R264 REASON 1 and 4). -/
def pathLosses (s0 s : State) : State :=
  let mods := (((s.pool.groups.map (·.2.modules)).flatten).eraseDups).filter (lostPath s0 s)
  let s1 := mods.foldl (fun t n => loseModule n t) s
  let hosts (g : CGroup) : Option Node := (g.children.find? (fun c => c.type == 0 && lostPath s0 s c.node)).map (·.node)
  let trunk (g : CGroup) : Option Node :=
    if g.e.role = 1 ∧ lostPath s0 s g.e.parentNode then some g.e.parentNode
    else (g.children.find? (fun c => c.type == 1 && lostPath s0 s c.node)).map (·.node)
  s1.groups.foldl (fun t x =>
    match hosts x.2, trunk x.2 with
    | some n, _ => detectAbort x.2.e.collId 1 n t
    | none, some n => detectAbort x.2.e.collId 4 n t
    | none, none => t) s1

/-- A port is declared faulted (R349): its transactions are re-admitted in their order and routed anew, its credit
and frames discarded (R360). -/
def faultPort (n : Nat) (s : State) : State :=
  match portOf s n with
  | none => s
  | some p =>
    if !p.up ∧ !p.training then s
    else
      let mine := txsOf p.retained ++ (match p.sending with | some (tx, _) => if (txsOf p.retained).contains tx then [] else [tx] | none => []) ++ p.sendQ ++
        queuedFor n ((tgetD s.spindle.egress n []) ++ ((s.spindle.mids.filter (fun x => x.1 % 384 == n)).map (·.2)).flatten ++
          ((s.spindle.inputs.map (·.2)).flatten))
      let clean : Port := { Port.down p.cfg with
        lastSent := p.lastSent, removed := p.removed, rejects := p.rejects, discards := p.discards, dups := p.dups }
      let acct (x : Nat × Account) : Nat × Account :=
        (x.1, if x.1 / 8 = n then { x.2 with promised := 0, promisedShared := 0 } else x.2)
      let s1 := modPort n (fun _ => clean) (modSp (fun q => { q with
        accounts := q.accounts.map acct, withheld := q.withheld.filter (fun w => w.port ≠ canonPort s n) }) (flushOut n s))
      let s2 := if p.up then bump 2 n 9 1 (post .portDown p.cfg.owner [n] { s1 with out := mine ++ s1.out }) else s1
      settle (pathLosses s s2)

/-- Lanes of a mask. -/
def lanesIn (m : BitVec 4) : Nat := ((List.range 4).filter (fun i => m.getLsbD i)).length

/-- Shed a lane of the receiving direction (R348). -/
def shedLane (n lane : Nat) (s : State) : State :=
  match portOf s n with
  | none => s
  | some p =>
    let mask := p.rxLanes &&& ~~~ BitVec.ofNat 4 (2 ^ lane)
    if !p.up ∨ !p.rxLanes.getLsbD lane then s
    else if lanesIn mask < 2 then faultPort n s
    else
      bump 2 n 8 1 (post .laneShed p.cfg.owner [n, mask.toNat]
        (modPort n (fun q => { q with rxLanes := mask, linkQ := q.linkQ ++ [.setWidth mask (q.rxLast + 1)] }) s))

/-- The peer's SET_WIDTH (R348). -/
def widthArrives (n : Nat) (mask : BitVec 4) (fromSeq : BitVec 12) (s : State) : State :=
  match portOf s n with
  | none => s
  | some p =>
    if !p.up then s
    else if lanesIn mask < 2 then faultPort n s
    else bump 2 n 8 1 (post .laneShed p.cfg.owner [n, mask.toNat]
      (modPort n (fun q => { q with txLanes := mask, replay := framesFrom fromSeq q.retained }) s))

/-! ## Frames that arrive (R344, R355) -/

/-- A whole transaction has arrived in frames: its credit is consumed; it is checked (R355), then admitted to the
switch core. -/
def ingress (n : Nat) (tx0 : Tx) (s : State) : State :=
  let port := canonPort s n
  let cost := txCells tx0
  let tx := { tx0 with hop := min 1023 (tx0.hop + 1), ptag := portTag s port tx0, resv := 0, extResv := 0 }
  let loop := tx.hop = 1023 ∧ !isSelf s tx.dst ∧ (routePort s tx).isSome
  let s0 := countBytes n 0 (txBytes tx) (some tx) (occur (portOcc n 0x40 1 tx (bindPart s port tx))
    (modPort n (fun p => { p with taken := addAt p.taken tx.cls cost }) s))
  let s1 := if loop then post .routeLoop none [tx.dst.toNat] s0 else s0
  match rxCheck port tx s1 with
  | some st =>
    settle (reject port tx st (modSp (fun p => { p with accounts := tupd p.accounts (n * 8 + tx.cls) .empty (fun a => { a with
      promised := a.promised - cost, promisedShared := min a.promisedShared (a.promised - cost) }) }) s1))
  | none =>
    admitArrival n port tx.ptag tx s1

/-- A link message that arrives. -/
def linkArrives (n : Nat) (m : LinkMsg) (s : State) : State :=
  match m with
  | .hello node kind port => helloArrives n node kind port s
  | .setWidth mask fromSeq => widthArrives n mask fromSeq s
  | .down _ => faultPort n s
  | .other _ => s

/-- The transactions that end in a body: after link-up one whose beginning was not received is passed over, up to FIRST
(R343). -/
def wholeParts (receiving : Bool) (parts : List TxPart) : List TxPart := parts.filter (fun x => x.last && (receiving || x.skip == 0))

/-- A frame arrives (R344): accepted in order, or discarded with NAK set; its ACK, NAK and credit are processed when its
FCRC matches. -/
def receiveFrame (n : Nat) (f : Frame) (s : State) : State :=
  match portOf s n with
  | none => s
  | some p =>
    if !p.up && !p.training then s
    else if !frameOk f then modPort n (fun q => { q with nakOut := true }) s
    else
      let s1 := modPort n (linkFields f) s
      match f.body with
      | .idle => if f.seq = p.rxLast then modPort n (fun q => { q with nakOut := false }) s1 else s1
      | .link m =>
        if f.seq = p.rxLast + 1 then linkArrives n m (modPort n (fun q => { q with rxLast := f.seq, nakOut := false }) s1)
        else modPort n (fun q => { q with nakOut := true }) s1
      | .data parts =>
        if f.seq = p.rxLast + 1 ∧ p.up then
          let s2 := modPort n (fun q => { q with
            rxLast := f.seq, nakOut := false, receiving := (match parts.getLast? with | some x => !x.last | none => q.receiving) }) s1
          (wholeParts p.receiving parts).foldl (fun t x => ingress n x.tx t) s2
        else modPort n (fun q => { q with nakOut := true }) s1

/-! ## Events to hosts (R175, R177) -/

/-- The 32-byte event record (R175). -/
def eventRecord (me : Node) (e : HostEvent) : Nat :=
  put e.seq 192 + put me.toNat 176 + put e.code 168 + put e.part 164 + put e.slot 146 + put e.arg.toNat 114 + put e.epoch.toNat 98

/-- Send the oldest event held for a host, if a path exists (R177, R358). -/
def deliverEvent (h : Node) (s : State) : State :=
  match tgetD s.mgmt.hostEvents h.toNat [] with
  | [] => s
  | e :: rest =>
    let tx := { blankTx s with dst := h, op := 0x34, cls := 5, ptag := e.part, trailer := mkTrailer 32 (eventRecord (myNode s) e) }
    if !reachable s tx then s
    else send tx { s with mgmt := { s.mgmt with hostEvents :=
      (if rest.isEmpty then tdel s.mgmt.hostEvents h.toNat else tset s.mgmt.hostEvents h.toNat rest) } }

/-! ## Commands -/

/-- FRAME_RECEIVE (R344, R345, R355). -/
def execFrameReceive (port : Nat) (fr : Frame) (s : State) : Out := .next (receiveFrame port fr s)
/-- FRAME_TRANSMIT (R343, R344, R345). -/
def execFrameTransmit (port : Nat) (s : State) : Out := .next (transmit port s)
/-- REPLAY_TIMEOUT (R344): replay from the oldest frame retained. -/
def execReplayTimeout (port : Nat) (s : State) : Out := .next (modPort port (fun p => { p with replay := p.retained }) s)
/-- HELLO (R347). -/
def execHello (port : Nat) (node : Node) (kind : Nat) (s : State) : Out := .next (helloArrives port node kind 0 s)
/-- SET_WIDTH (R348). -/
def execSetWidth (port : Nat) (mask : BitVec 4) (fromSeq : BitVec 12) (s : State) : Out := .next (widthArrives port mask fromSeq s)
/-- DOWN (R349): the peer sends DOWN, whatever its REASON. -/
def execLinkDown (port : Nat) (_ : Nat) (s : State) : Out := .next (faultPort port s)
/-- LANE_FAULT (R348). -/
def execLaneFault (port : Nat) (lane : Nat) (s : State) : Out := .next (shedLane port lane s)
/-- PORT_FAULT (R349, R360). -/
def execPortFault (port : Nat) (s : State) : Out := .next (faultPort port s)
/-- PORT_RETRAIN (R347): a faulted port retrains. After a loss of its field's clock the row stands for the clock's return
(R474; log entry 25). -/
def execPortRetrain (port : Nat) (s : State) : Out :=
  .next (if linkUp s port ∨ !dataUp s ∨ !thas s.ports.ports port then s
    else train port { s with phys := { s.phys with refField := s.phys.refField ||| BitVec.ofNat 8 (1 <<< (port / 24)) } })
/-- EGRESS_SEND (R321). -/
def execEgressSend (lane : Nat) (s : State) : Out :=
  match wholePacket s lane with
  | none => .next s
  | some cells =>
    if 192 ≤ lane then .next (sendHome lane cells s)
    else match portOf s lane with
      | some p => .next (sendPort lane p cells s)
      | none => .next s
/-- SPINDLE_TURN (R318, R319). -/
def execSpindleTurn (bad : List Nat) (s : State) : Out := .next (if dataUp s then turn bad s else s)
/-- METER_REFILL (R329, R334). -/
def execMeterRefill (s : State) : Out :=
  .next (returnHeld (modSp (fun p => { p with meters := p.meters.map (fun x => (x.1, refillMeter s x.1 x.2)) }) s))
/-- HOLD_WINDOW_END (R334). -/
def execHoldWindowEnd (s : State) : Out := .next (holdWindow s)
/-- QUEUE_SAMPLE (R335). -/
def execQueueSample (s : State) : Out := .next (sampleAll s)
/-- EVENT_DELIVER (R177). -/
def execEventDeliver (host : Node) (s : State) : Out := .next (deliverEvent host s)

end Sys2Proof.Machine
end

