-- ==== Sys2Proof/Machine/Mgmt.lean ====
section
/-! DEFINITION. Management requests (R380 to R385): what a session may send, the reply log, the event sequence that a
change takes, the batches that wait (R50), and the rows whose effect another file has: extents, leases, sources,
stripe groups, collective groups, routes, ports, events. -/

namespace Sys2Proof.Machine

/-! ## Admission of a request (R375, R380, R382, R384, R390, R436) -/

/-- Messages of code `c` that supervisors may send (R384). -/
def svCode (c : Nat) : Bool :=
  c == 0x10 || c == 0x11 || (decide (0x50 ≤ c) && decide (c ≤ 0x54)) || c == 0x71 || c == 0x80 || c == 0x81

/-- Whether R384 defines a code that a client may send. -/
def codeDefined (c : Nat) : Bool :=
  (decide (0x10 ≤ c) && decide (c ≤ 0x17)) || (decide (0x20 ≤ c) && decide (c ≤ 0x25)) ||
  (decide (0x30 ≤ c) && decide (c ≤ 0x41)) || (decide (0x50 ≤ c) && decide (c ≤ 0x54)) ||
  (decide (0x58 ≤ c) && decide (c ≤ 0x5A)) || (decide (0x60 ≤ c) && decide (c ≤ 0x62)) ||
  (decide (0x70 ≤ c) && decide (c ≤ 0x73)) || c == 0x80 || c == 0x81

/-- What a recovery session accepts (R375). -/
def recoveryCode (c : Nat) : Bool := c == 0x10 || c == 0x11 || c == 0x15 || c == 0x16

/-- What the device serves between step 5 and DEVICE_READY (R436). -/
def startCode (c : Nat) : Bool := c == 0x10 || c == 0x11 || c == 0x25 || c == 0x80 || c == 0x81 || c == 0x15

/-- What a fenced device serves (R390); a certificate meets its own check 2 (R387). -/
def fencedCode (c : Nat) : Bool :=
  c == 0x10 || c == 0x11 || c == 0x25 || c == 0x39 || (decide (0x70 ≤ c) && decide (c ≤ 0x73)) || c == 0x80 || c == 0x81 ||
  c == 0x12

/-- The status that refuses a request before its own rule is looked at: a reserved CODE, a message that the session's
kind may not send or that names another partition, a message that the device's state does not serve. -/
def refusal (s : State) (k : SessKind) (code part : Nat) : Option St :=
  let allowed : Bool := match k with
    | .fm => true
    | .supervisor p => svCode code && part == p
    | .recovery => true
  if !codeDefined code then some .opcode
  else if !allowed then some .noAccess
  else if k = .recovery then (if recoveryCode code then none else some .state)
  else if s.boot.fenced then (if fencedCode code then none else some .fenced)
  else if s.boot.phase = .ready then none
  else if startCode code then none else some .state

/-- What a request's own rule answers; `wait`: the answer is given apart from it, now or later. -/
inductive MRes where
  | done (st : St) (body : List Nat) (change : Bool) (s : State)
  | wait (s : State)

/-- Whether a waiting operation came with this REQ_ID. -/
def waitsAs (h : Mgmt) (w : MgmtWait) : Bool :=
  let g : Mgmt := match w with
    | .batch g _ _ => g
    | .compose g _ _ => g
    | .grow g _ _ => g
    | .shrink g _ _ => g
  g.sess == h.sess && g.reqId == h.reqId

/-- A management request: a repeated REQ_ID is answered from the log (R383); the checks of R382 come before the
message's own rule, which names its own status for an ill length where `own` is set. A message that no session
carries has no effect. -/
def request (code : Nat) (own : Bool) (h : Mgmt) (go : SessKind → State → MRes) (s : State) : Out :=
  match tget s.mgmt.sessions h.sess with
  | none => .next s
  | some k =>
    match k.log.find? (fun r => r.reqId == h.reqId) with
    | some r => .next { s with replies := s.replies ++ [r] }
    | none =>
      if s.mgmt.waiting.any (waitsAs h) then .next s
      else match refusal s k.kind code h.part with
        | some st => .next (reply h code st [] 0 s)
        | none =>
          if !h.lenOk && !own then .next (reply h code .state [] 0 s)
          else match go k.kind s with
            | .done st body change t => .next (answered h code s.mgmt.eventSeq st body change t)
            | .wait t => .next t

/-- A refused operation: nothing changes. -/
def no (st : St) (s : State) : MRes := .done st [] false s

/-- A change that succeeds. -/
def yes (s : State) : MRes := .done .ok [] true s

/-! ## Extent operations and batches (R35 to R38, R50) -/

/-- Whether an operation changes something when it succeeds. -/
def changes : ExtentOp → Bool
  | .readExtent _ => false
  | _ => true

/-- Whether an operation must wait for the receiving partition to come up (R414). -/
def waitsForReset (s : State) : ExtentOp → Bool
  | .rehomeIn _ n _ _ group _ => s.boot.takenOver.any (fun x => x.1 == n) && match groupOf s group with
    | some g => partState s g.receiver == .resetting
    | none => false
  | _ => false

/-- Whether operations wait, those behind a waiting batch among them (R38, R50). -/
def mustWait (ops : List ExtentOp) (s : State) : Bool :=
  batchWaits ops s || ops.any (waitsForReset s) || s.mgmt.waiting.any (fun w => match w with | .batch _ _ _ => true | _ => false)

/-- Apply operations and answer: one alone answers its own status and values, a batch each one's (R38). -/
def runBatch (h : Mgmt) (code : Nat) (ops : List ExtentOp) (s : State) : State :=
  let q0 := s.mgmt.eventSeq
  let r := applyBatch ops s
  let changed := (r.1.zip ops).any (fun x => x.1.1 == .ok && changes x.2)
  if code = 0x3A then
    answered h code q0 .ok (r.1.map (fun x => (stCode x.1).toNat :: x.2.length :: x.2)).flatten changed r.2
  else match r.1 with
    | [x] => answered h code q0 x.1 x.2 changed r.2
    | _ => answered h code q0 .state [] false r.2

/-- A request of extent operations. -/
def extentReq (h : Mgmt) (code : Nat) (ops : List ExtentOp) (s : State) : Out :=
  request code false h (fun _ t =>
    if code = 0x3A ∧ (ops.isEmpty ∨ 4096 < ops.length) then no .state t
    else if mustWait ops t then .wait { t with mgmt := { t.mgmt with waiting := t.mgmt.waiting ++ [.batch h code ops] } }
    else .wait (runBatch h code ops t)) s

/-- ATTACH (R35 to R37). -/
def execAttach (h : Mgmt) (slot mode owner group base : Nat) (holders : List HolderSpec) (s : State) : Out :=
  extentReq h 0x30 [.attach slot mode owner group base holders] s

/-- GROW (R35, R36). -/
def execGrow (h : Mgmt) (slot : Nat) (holders : List HolderSpec) (s : State) : Out := extentReq h 0x31 [.grow slot holders] s

/-- REVOKE_NOTICE (R35, R40). -/
def execRevokeNotice (h : Mgmt) (slot : Nat) (holders : List Node) (deadline : Word32) (s : State) : Out :=
  extentReq h 0x32 [.notice slot holders deadline] s

/-- REVOKE_CANCEL (R35). -/
def execRevokeCancel (h : Mgmt) (slot : Nat) (holders : List Node) (s : State) : Out := extentReq h 0x33 [.cancel slot holders] s

/-- REVOKE_FORCE (R35, R41). -/
def execRevokeForce (h : Mgmt) (slot : Nat) (holders : List Node) (toFree : Bool) (s : State) : Out :=
  extentReq h 0x34 [.force slot holders toFree] s

/-- RELEASE (R35). -/
def execReleaseExt (h : Mgmt) (slot : Nat) (s : State) : Out := extentReq h 0x35 [.release slot] s

/-- REHOME_IN (R35, R52, R419, R440). -/
def execRehomeIn (h : Mgmt) (slot : Nat) (srcNode : Node) (srcSlot : Nat) (homeEpoch : Word32) (group base : Nat) (s : State) : Out :=
  extentReq h 0x36 [.rehomeIn slot srcNode srcSlot homeEpoch group base] s

/-- REHOME_OUT (R35, R53). -/
def execRehomeOut (h : Mgmt) (slot : Nat) (dstNode : Node) (dstSlot : Nat) (homeEpoch : Word32) (s : State) : Out :=
  extentReq h 0x37 [.rehomeOut slot dstNode dstSlot homeEpoch] s

/-- REHOME_FINISH (R35, R52). -/
def execRehomeFinish (h : Mgmt) (slot : Nat) (s : State) : Out := extentReq h 0x38 [.rehomeFinish slot] s

/-- READ_EXTENT (R32). -/
def execReadExtent (h : Mgmt) (slot : Nat) (s : State) : Out := extentReq h 0x39 [.readExtent slot] s

/-- BATCH (R38). -/
def execBatch (h : Mgmt) (ops : List ExtentOp) (s : State) : Out := extentReq h 0x3A ops s

/-- GRANT_LEASE (R111). -/
def execGrantLease (h : Mgmt) (slot part : Nat) (s : State) : Out := extentReq h 0x3B [.grantLease slot part] s

/-- REVOKE_LEASE (R112). -/
def execRevokeLease (h : Mgmt) (slot : Nat) (s : State) : Out := extentReq h 0x3C [.revokeLease slot] s

/-- DISCARD_OPEN (R113). -/
def execDiscardOpen (h : Mgmt) (slot : Nat) (s : State) : Out := extentReq h 0x3D [.discardOpen slot] s

/-- SET_RECALL_TIMEOUT (R46). -/
def execSetRecallTimeout (h : Mgmt) (ms : Nat) (s : State) : Out := extentReq h 0x3F [.setRecallTimeout ms] s

/-- The first waiting batch, and the other operations that wait. -/
def firstBatch (l : List MgmtWait) : Option ((Mgmt × Nat × List ExtentOp) × List MgmtWait) :=
  match takeFirst (fun w => match w with | .batch _ _ _ => true | _ => false) l with
  | some (.batch h code ops, r) => some ((h, code, ops), r)
  | _ => none

/-- Apply the first waiting batch if it need wait no longer (R50). -/
def resumeBatch (s : State) : State :=
  match firstBatch s.mgmt.waiting with
  | none => s
  | some ((h, code, ops), r) =>
    if batchWaits ops s || ops.any (waitsForReset s) then s
    else runBatch h code ops { s with mgmt := { s.mgmt with waiting := r } }

/-- BATCH_INSTALL_RESUME (R50). -/
def execBatchInstallResume (s : State) : Out := .next (resumeBatch s)

/-- EPOCH_RETIRE_TIMEOUT (R50): the epoch retires and the batch installs. -/
def execEpochRetireTimeout (s : State) : Out :=
  match firstBatch s.mgmt.waiting with
  | some ((_, _, ops), _) => .next (if batchWaits ops s then resumeBatch (forceRetire s) else s)
  | none => .next s

/-! ## Sources, stripe groups, collective groups -/

/-- RESET_SOURCE (R97, R98). -/
def execResetSource (h : Mgmt) (src : Node) (s : State) : Out :=
  request 0x3E false h (fun _ t => yes (settle (resetLedger src t))) s

/-- STATE's code in a stripe group table entry (R130). -/
def gstateCode : GState → Nat
  | .unused => 0 | .optimal => 1 | .degraded => 2 | .rebuilding => 3 | .failed => 4

/-- MODULES of a stripe group table entry: a position that the group has not holds 0xFFFF (R130). -/
def moduleBits (f : Nat → Nat) : Nat := ((List.range 18).map (fun i => inBits (f i) (239 + 16 * i) (224 + 16 * i))).sum

/-- A stripe group table entry, 64 bytes (R130); one that is not in use is UNUSED. -/
def groupEntry (s : State) (gi : Nat) : List Nat :=
  match groupOf s gi with
  | none => leBytes 64 (moduleBits (fun _ => 0xFFFF))
  | some g => leBytes 64 (moduleBits (fun i => if i < widthOf g then (modAt g i).toNat else 0xFFFF) +
      inBits g.lost.toNat 223 206 + inBits g.rebuildPos 205 201 + inBits (match g.pass with | some p => p | none => g.cursor) 200 161 +
      inBits g.gib 160 145 + inBits g.k 144 140 + inBits g.m 139 138 + inBits (gstateCode g.state) 137 135 + inBits g.rate 134 119)

/-- READ_GROUP (R130). -/
def execReadGroup (h : Mgmt) (group : Nat) (s : State) : Out :=
  request 0x40 false h (fun _ t => if 256 ≤ group then no .state t else .done .ok (groupEntry t group) false t) s

/-- Lost positions of a group. -/
def lostPositions (g : Group) : List Nat := (List.range (widthOf g)).filter (fun i => g.lost.getLsbD i)

/-- A replacement for a lost position (R141): a DEGRADED group rebuilds it at once; a FAILED one holds it until every
lost position has one, and is then re-formed (R144). -/
def replaceAt (g : Group) (pos : Nat) (n : Node) : Option Group :=
  if !(decide (pos < widthOf g) && g.lost.getLsbD pos && !g.replaced.contains pos) then none
  else
    let g1 : Group := { g with modules := lset g.modules pos n, replaced := g.replaced ++ [pos] }
    match g.state with
    | .degraded => some { g1 with state := .rebuilding, rebuildPos := pos, cursor := 0, broken := false }
    | .failed =>
      if g.pass.isNone && (lostPositions g).all (g1.replaced.contains ·) then some { g1 with pass := some 0, passPos := lostPositions g }
      else some g1
    | _ => none

/-- The undispatched items of REBUILD commands on a group that left REBUILDING through another loss have failed with ST_STATE
before it is rebuilt again (R289). -/
def failBroken (gi : Nat) (g : Group) (s : State) : State :=
  if !g.broken then s
  else s.queues.queues.foldl (fun t q => q.2.cmds.foldl (fun u c =>
    if rebuildLost u c && (rebArgs c.desc).group == gi then failItems q.1 c.seq (undispatched u c) .state 0 u else u) t) s

/-- REPLACE_MODULE (R141, R144). -/
def execReplaceModule (h : Mgmt) (group pos : Nat) (node : Node) (s : State) : Out :=
  request 0x41 false h (fun _ t =>
    match groupOf t group with
    | none => no .state t
    | some g => match replaceAt g pos node with
      | none => no .state t
      | some g1 => yes (settle (modGroup group (fun _ => g1) (failBroken group g t)))) s

/-- GROUP_REGISTER (R248, R250, R251). -/
def execGroupRegister (h : Mgmt) (e : GroupEntry) (children : List Child) (s : State) : Out :=
  request 0x58 false h (fun _ t => let r := registerGroup e children t; .done r.1 [] (r.1 == .ok) r.2) s

/-- GROUP_RELEASE (R248). -/
def execGroupRelease (h : Mgmt) (collId : BitVec 48) (s : State) : Out :=
  request 0x59 false h (fun _ t => let r := releaseGroup collId t; .done r.1 [] (r.1 == .ok) r.2) s

/-- GROUP_READ (R248). -/
def execGroupRead (h : Mgmt) (collId : BitVec 48) (s : State) : Out :=
  request 0x5A false h (fun _ t => match cgOf t collId with
    | none => no .state t
    | some g => .done .ok (groupVals g) false t) s

/-! ## Routes and ports (R347, R356) -/

/-- The peer's node at a port, or at either half of a bundle. -/
def peerIs (s : State) (n : Nat) (node : Node) : Bool :=
  let at1 (m : Nat) : Bool := match portOf s m with
    | some p => match p.peer with | some (x, _) => x == node | none => false
    | none => false
  at1 n || (bundled s n && at1 (sibling n))

/-- Whether a routing entry may name a port for a node (R17, R356). -/
def routePortOk (s : State) (node : Node) (n : Nat) : Bool :=
  (portRole s n == .trunk || peerIs s n node) && canonPort s n == n

/-- Whether an entry lies in its encoding. -/
def routeIn (r : Route) : Bool :=
  r.ports.length == 4 && (List.range 4).all (fun k => !r.valid.getLsbD k || decide (r.ports.getD k 255 < 192)) && decide (r.kind < 3)

/-- Write one entry; entry 0xFFFF always reads UNREACHABLE (R356). -/
def setRoute (x : Node × Route) (s : State) : St × State :=
  let ok := (List.range 4).all (fun k => !x.2.valid.getLsbD k || routePortOk s x.1 (x.2.ports.getD k 255))
  if !ok then (.state, s)
  else if x.1 = noNode then (.ok, s)
  else (.ok, { s with ports := { s.ports with routes := tset s.ports.routes x.1.toNat x.2 } })

/-- Write entries in order. -/
def setRoutes : List (Node × Route) → State → List St × State
  | [], s => ([], s)
  | x :: l, s =>
    let r := setRoute x s
    let t := setRoutes l r.2
    (r.1 :: t.1, t.2)

/-- ROUTE_SET (R356). -/
def execRouteSet (h : Mgmt) (routes : List (Node × Route)) (s : State) : Out :=
  request 0x60 false h (fun _ t =>
    if routes.isEmpty || decide (4096 < routes.length) || !routes.all (fun x => routeIn x.2) then no .state t
    else
      let r := setRoutes routes t
      .done .ok (r.1.map (fun x => (stCode x).toNat)) (r.1.contains .ok) r.2) s

/-- The values of a routing entry (R356). -/
def routeVals (s : State) (n : Node) : List Nat :=
  match tget s.ports.routes n.toNat with
  | some r => r.ports ++ [r.valid.toNat, r.kind]
  | none => [0, 0, 0, 0, 0, 0]

/-- ROUTE_READ (R356). -/
def execRouteRead (h : Mgmt) (nodes : List Node) (s : State) : Out :=
  request 0x61 false h (fun _ t => .done .ok ((nodes.map (routeVals t)).flatten) false t) s

/-- PORT_RESET (R17, R347): the port, of a bundle both links, goes down, with its traffic rerouted, and trains again. -/
def execPortReset (h : Mgmt) (port : Nat) (s : State) : Out :=
  request 0x62 false h (fun _ t =>
    if portRole t port = .unused ∨ canonPort t port ≠ port then no .state t
    else yes ((halves t port).foldl (fun u n => train n (faultPort n u)) t)) s

/-! ## Events (R385) -/

/-- EVENT_SUBSCRIBE (R385). -/
def execEventSubscribe (h : Mgmt) (s : State) : Out :=
  request 0x80 false h (fun _ t =>
    yes { t with mgmt := { t.mgmt with sessions := tmod t.mgmt.sessions h.sess (fun k =>
      { k with subscribed := true, readUpTo := t.mgmt.eventSeq }) } }) s

/-- EVENT_READ (R385): the events held from a sequence onward that the session may have, and EVENTS_LOST. -/
def execEventRead (h : Mgmt) (start : Nat) (s : State) : Out :=
  request 0x81 false h (fun k t =>
    let evs := t.mgmt.events.filter (fun e => decide (start ≤ e.seq) && evFor e k)
    let body := t.mgmt.eventsLost :: (evs.map (fun e => e.seq :: e.name.ctorIdx :: e.args.length :: e.args)).flatten
    .done .ok body false { t with mgmt := { t.mgmt with sessions := tmod t.mgmt.sessions h.sess (fun x =>
      { x with readUpTo := if start ≤ x.readUpTo then t.mgmt.eventSeq else x.readUpTo }) } }) s

/-! ## Sessions -/

/-- SESSION_CLOSE (R383, R465): its sink and log end with it. -/
def execSessionClose (sess : Nat) (s : State) : Out :=
  .next { s with mgmt := { s.mgmt with sessions := tdel s.mgmt.sessions sess } }

/-- MGMT_RESERVED_CODE (R382). A code that R384 defines is not this row's, and has no effect here. -/
def execMgmtReservedCode (h : Mgmt) (code : Nat) (s : State) : Out :=
  if codeDefined code then .next s else request code true h (fun _ t => no .opcode t) s

end Sys2Proof.Machine
end

