-- ==== Sys2Proof/Machine/Kernels.lean ====
section
/-! DEFINITION. Queues brought into use and given up (R149, R150), and kernels loaded, unloaded and listed (R233 to
R236, R486). -/

namespace Sys2Proof.Machine

/-! ## Queues (R149, R150) -/

/-- Whether the template that a partition applies assigns it a queue number (R149, R430). -/
def queueAssigned (s : State) (p q : Nat) : Bool :=
  match templateOf s p with
  | some t => decide (t.queueBase ≤ q) && decide (q < t.queueBase + t.queueCount) && decide (q < 4096)
  | none => false

/-- Whether a partition has current firmware of an engine (R374, R444). -/
def hasFw (s : State) (p engine : Nat) : Bool :=
  match tget s.parts.parts p with
  | some x => thas x.fw engine
  | none => false

/-- Whether a node is the peer of a host-facing port of another partition here (R150). -/
def foreignHost (s : State) (p : Nat) (n : Node) : Bool :=
  match boundPart s n with
  | some q => q ≠ some p
  | none => false

/-- A queue just created: rings and status tile zeroed (R150). -/
def newQueue (p engine depth : Nat) (submitter : Node) (prio : Nat) : Queue :=
  { part := p, engine := engine, submitter := submitter, depthLog2 := Nat.log2 depth, prio := prio, tail := 0, head := 0,
    cqHead := 0, haltSeq := 0, state := .active, written := 0, ring := [], cq := [], cmds := [] }

/-- A depth that R150 allows. -/
def depthOk (d : Nat) : Bool := decide (64 ≤ d) && decide (d ≤ 65536) && d == 2 ^ Nat.log2 d

/-- QUEUE_CREATE (R150, R374). -/
def execQueueCreate (h : Mgmt) (queue engine depth : Nat) (submitter : Node) (prio : Nat) (s : State) : Out :=
  request 0x50 false h (fun _ t =>
    if !queueAssigned t h.part queue || foreignHost t h.part submitter then no .noAccess t
    else if (queueOf t queue).isSome || !(decide (1 ≤ engine) && decide (engine ≤ 5)) || !depthOk depth || decide (3 < prio) ||
        !hasFw t h.part engine then no .state t
    else yes { t with queues := { t.queues with
      queues := tset t.queues.queues queue (newQueue h.part engine depth submitter prio) } }) s

/-- QUEUE_DESTROY (R150): legal once every command read has its record. -/
def execQueueDestroy (h : Mgmt) (queue : Nat) (s : State) : Out :=
  request 0x51 false h (fun _ t =>
    match queueOf t queue with
    | none => no (if queueAssigned t h.part queue then .state else .noAccess) t
    | some q =>
      if q.part ≠ h.part then no .noAccess t
      else if q.written ≠ q.head || !q.cmds.isEmpty then no .state t
      else yes { t with queues := { t.queues with queues := tdel t.queues.queues queue } }) s

/-! ## Kernel images (R233, R234, R486) -/

/-- The length that CODE_INSTRS and SIGNED give (R233). -/
def imageLength (k : KernelImage) : Nat := 64 + 8 * k.codeInstrs + 32 + (if k.signed then 772 else 0)

/-- Whether R216 to R221 define a word's CLASS and OP (R215). -/
def insnDefined (w : Word64) : Bool := (insnOf w { core := 0, ctx := 0 }).isSome

/-- Test 3 of R486. -/
def imageForm (k : KernelImage) : Bool :=
  k.magic == 0x4B524E31 && k.format == 1 && decide (1 ≤ k.codeInstrs) && decide (k.codeInstrs ≤ 8192) && decide (k.entry < k.codeInstrs) &&
  decide (1 ≤ k.slots) && decide (k.slots ≤ 2048) && decide (1 ≤ k.maxCtx) && decide (k.maxCtx ≤ 4) && k.length == imageLength k &&
  k.code.length == k.codeInstrs && k.code.all insnDefined

/-- Test 5 of R486. -/
def imageTrusted (s : State) (k : KernelImage) : Bool :=
  match s.boot.charter with
  | none => false
  | some c =>
    if k.signed then
      (match c.keys.kernelKey with | some hk => keyHash k.modulus k.exponent == hk | none => true) &&
      rsaVerify k.modulus k.exponent k.signature (imageSigned k)
    else !c.keys.signedKernels

/-- Commands of a partition's APPLY queues, with the images they are bound to (R236). -/
def applyCmds (s : State) (p : Nat) : List Cmd :=
  ((s.queues.queues.filter (fun q => q.2.part == p && q.2.engine == 5)).map (fun q => q.2.cmds)).flatten

/-- A handle without the retiring images that no command is bound to any more (R236). -/
def freeRetired (cmds : List Cmd) (k : Kernel) : Kernel :=
  { k with retiring := k.retiring.filter (fun i => cmds.any (fun c => c.image == some i)) }

/-- A partition's handles, retired images freed. -/
def freeImages (p : Nat) (s : State) : State :=
  let cmds := applyCmds s p
  { s with cores := { s.cores with kernels := s.cores.kernels.map (fun x =>
      if x.1 / 64 = p then (x.1, freeRetired cmds x.2) else x) } }

/-- Bytes of a partition's kernel area in use (R234, R235). -/
def kernelUse (s : State) (p : Nat) : Nat :=
  ((s.cores.kernels.filter (fun x => x.1 / 64 == p)).map (fun x =>
    ((x.2.current.toList ++ x.2.retiring).map (·.length)).sum)).sum

/-- The size of a partition's kernel area (R430: 0 stands for 16 MiB); none unless it is composed. -/
def kernelArea (s : State) (p : Nat) : Nat :=
  match templateOf s p with
  | some t => if partState s p = .active then (if t.kernelMib = 0 then 16 else t.kernelMib) * 1048576 else 0
  | none => 0

/-- A handle's entry. -/
def kernelOf (s : State) (p handle : Nat) : Kernel := tgetD s.cores.kernels (p * 64 + handle) { current := none, retiring := [] }

/-- Write a handle's entry. -/
def setKernel (p handle : Nat) (k : Kernel) (s : State) : State :=
  { s with cores := { s.cores with kernels := tset s.cores.kernels (p * 64 + handle) k } }

/-- A handle's current image retires (R235). -/
def retireCurrent (k : Kernel) (new : Option KernelImage) : Kernel :=
  { current := new, retiring := k.retiring ++ k.current.toList }

/-- KERNEL_LOAD (R235, R486). A load is one step, so no other load of the handle is in progress. -/
def execKernelLoad (h : Mgmt) (handle : Nat) (image : KernelImage) (s : State) : Out :=
  request 0x52 true h (fun _ t =>
    if 63 < handle then no .state t
    else if !(h.lenOk && imageForm image) then no .opcode t
    else if image.digest ≠ sha256 (imageBytes image) then no .checksum t
    else if !imageTrusted t image then no .noAccess t
    else
      let u := freeImages h.part t
      if kernelArea t h.part < kernelUse u h.part + image.length then no .state t
      else yes (freeImages h.part (setKernel h.part handle (retireCurrent (kernelOf u h.part handle) (some image)) u))) s

/-- KERNEL_UNLOAD (R235). -/
def execKernelUnload (h : Mgmt) (handle : Nat) (s : State) : Out :=
  request 0x53 false h (fun _ t =>
    let k := kernelOf t h.part handle
    if 63 < handle || k.current.isNone then no .state t
    else yes (freeImages h.part (setKernel h.part handle (retireCurrent k none) t))) s

/-- What KERNEL_LIST returns for a handle: whether it has a current image, KVERSION, digest, commands bound. -/
def kernelVals (s : State) (p handle : Nat) : List Nat :=
  let n := ((applyCmds s p).filter (fun c => (applyArgs c.desc).kernel == handle)).length
  match (kernelOf s p handle).current with
  | some i => [1, i.kversion.toNat, i.digest.toNat, n]
  | none => [0, 0, 0, n]

/-- KERNEL_LIST (R235). -/
def execKernelList (h : Mgmt) (s : State) : Out :=
  request 0x54 false h (fun _ t => .done .ok ((List.range 64).map (kernelVals t h.part)).flatten false t) s

end Sys2Proof.Machine
end

