-- ==== Sys2Proof/Machine/Areas.lean ====
section
/-! DEFINITION. What a partition is made of: its record in the charter (R429, R430), its areas and whether they fit
(R399, R433, R446), its channel list, mirrored copies and resident segments (R146, R224, R431), the firmware loaded into
it (R374, R444), and cores, spares and fields (R21, R207). -/

namespace Sys2Proof.Machine

/-! ## Numbering (R21) -/

/-- The field of a channel. -/
def channelField (c : Nat) : Nat := c / 64

/-- The logical core that a physical core serves. -/
def logicalOf (s : State) (phys : Nat) : Option (Nat × Core) := s.cores.cores.find? (fun x => x.2.phys == some phys)

/-- The working spares of a strip (R207). -/
def sparesOf (s : State) (strip : Nat) : List Nat :=
  ((s.cores.phys.filter (fun x => physStrip x.1 == strip && x.2.working && !x.2.retired && (logicalOf s x.1).isNone))).map (·.1)

/-- A channel; an unlisted one is idle. -/
def channelAt (s : State) (c : Nat) : Channel :=
  tgetD s.parts.channels c { retired := false, scrubbing := false, part := none, removing := false }

/-- Write a channel. -/
def setChannel (c : Nat) (x : Channel) (s : State) : State :=
  { s with parts := { s.parts with channels := tset s.parts.channels c x } }

/-! ## Areas (R399, R430) -/

/-- A mebibyte, and a channel's 4 GiB. -/
def mib (n : Nat) : Nat := n * 1048576
def channelBytes : Nat := 4294967296

/-- The bytes of a template's areas without the home-cache share: the mirrored ones twice (R64, R94, R119, R430). -/
def areaBytes (t : Template) : Nat :=
  16 * 2 ^ t.dirLog2 +
  2 * (32 * 1024 * t.ledgerK + mib t.vindexMib + mib (if t.journalMib = 0 then 256 else t.journalMib)) +
  mib (if t.kernelMib = 0 then 16 else t.kernelMib) + mib (if t.fwMib = 0 then 16 else t.fwMib) + mib t.queueMib +
  (t.resident.map (fun r => mib r.2)).sum

/-- Whether the areas fit in a number of channels, the home cache giving way (R399, R400). -/
def areasFit (t : Template) (channels : Nat) : Bool := decide (areaBytes t ≤ channels * channelBytes)

/-- The channels of a list that work. -/
def liveChannels (s : State) (l : List Nat) : List Nat := l.filter (fun c => !(channelAt s c).retired)

/-- Whether the positions of the mirrored copies lie on the list, on stacks of different fields (R430, R431). -/
def mirrorsOk (t : Template) (l : List Nat) : Bool :=
  match l[t.mirrorA]?, l[t.mirrorB]? with
  | some a, some b => channelField a ≠ channelField b
  | _, _ => false

/-- Whether the resident segments lie on the list (R431). -/
def segmentsOk (t : Template) (l : List Nat) : Bool := t.resident.all (fun r => decide (r.1 < l.length))

/-! ## Records (R429, R444, R446) -/

/-- The running charter's record of a partition. -/
def charterRecord (s : State) (p : Nat) : Option PartCfg :=
  match s.boot.charter with
  | some c => c.parts[p]?
  | none => none

/-- The running charter's template of a partition. -/
def charterTemplate (s : State) (p : Nat) : Option Template :=
  match charterRecord s p with
  | some r => r.template
  | none => none

/-- The VERSION of the running charter. -/
def runningVersion (s : State) : Word32 :=
  match s.boot.charterImage with
  | some i => i.block.version
  | none => 0

/-- Whether counts lie within a template. -/
def countsOk (t : Template) (cores channels : Nat) : Bool :=
  decide (t.coresMin ≤ cores) && decide (cores ≤ t.coresMax) && decide (t.channelsMin ≤ channels) && decide (channels ≤ t.channelsMax)

/-- The ports that a record names: a bundle by its even port (R17). -/
def portsIn (r : PartCfg) : List Nat := (r.ports.filter (fun y => !(y.2.bundle && y.1 % 2 == 1))).map (·.1)

/-- The links of a port under a record. -/
def linksIn (r : PartCfg) (n : Nat) : List Nat := if r.ports.any (fun y => y.1 == n && y.2.bundle) then [n, n + 1] else [n]

/-- Whether a record fits what a partition holds (R446). -/
def recordFits (s : State) (x : Part) (r : PartCfg) : Bool :=
  match r.template with
  | none => false
  | some t =>
    countsOk t x.cores.length x.channels.length && areasFit t (liveChannels s x.channels).length && mirrorsOk t x.channels &&
    segmentsOk t x.channels && x.ports.all (fun n => r.ports.any (fun y => y.1 == n))

/-! ## Mirrored copies (R146) -/

/-- The mirrored structures of a partition. -/
def mirrorsOf (p : Nat) : List Mirror := [.ledger p, .dirtyLog p, .versionIndex p, .journal p, .attachLists p, .bitmaps p]

/-- The partition of a mirrored structure. -/
def mirrorPart : Mirror → Option Nat
  | .ledger p => some p
  | .dirtyLog p => some p
  | .versionIndex p => some p
  | .journal p => some p
  | .attachLists p => some p
  | .bitmaps p => some p
  | .extentMap => none
  | .groupTable => none
  | .routing => none

/-- A place for a copy: a working channel of the partition, in a field other than the surviving copy's. Which of them the
device takes is free. -/
def placeCopy (s : State) (l : List Nat) (other : Nat) : Option Nat :=
  let live := (liveChannels s l).filter (fun x => channelField x ≠ channelField other)
  if live.isEmpty then none else live[(Config.freeWord s.free).toNat % live.length]?

/-- The mirrored copies placed on working channels: a copy on a retired one moves. -/
def placeMirrors (s : State) (l : List Nat) (m : Nat × Nat) : Nat × Nat :=
  let bad (c : Nat) : Bool := (channelAt s c).retired
  let a := if bad m.1 then (placeCopy s l m.2).getD m.1 else m.1
  (a, if bad m.2 then (placeCopy s l a).getD m.2 else m.2)

/-- The channels of a template's mirrored copies. -/
def templateMirrors (t : Template) (l : List Nat) : Nat × Nat := (l.getD t.mirrorA 0, l.getD t.mirrorB 0)

/-! ## Resident segments (R224) -/

/-- The segments that a template gives on a channel list, on channels that work. -/
def segmentsOf (s : State) (p : Nat) (t : Template) (l : List Nat) : List (Nat × Segment) :=
  t.resident.filterMap (fun r => match l[r.1]? with
    | some c => if (channelAt s c).retired || r.2 = 0 then none else some (c, { part := p, tiles := r.2 * 4096 })
    | none => none)

/-- Every resident segment of a partition goes, and those of a template take its place, each tile reading zero. -/
def setSegments (p : Nat) (segs : List (Nat × Segment)) (s : State) : State :=
  let mine (c : Nat) : Bool := match tget s.cores.segments c with | some x => x.part == p | none => false
  { s with cores := { s.cores with
      resident := tdrop s.cores.resident (fun k => mine (k / 2 ^ 32)),
      segments := segs.foldl (fun t x => tset t x.1 x.2) (tdrop s.cores.segments mine) } }

/-! ## Firmware and instruction stores (R208, R237, R444) -/

/-- A firmware image as a partition holds it. -/
def fwImage (i : Image) : FwImage := { version := i.block.version.toNat, digest := i.digest, svn := i.block.svn }

/-- The firmware that a partition composed now receives: the running image of each engine. -/
def runningFw (s : State) : Table FwImage := s.boot.engineFw.map (fun x => (x.1, fwImage x.2))

/-- Codes in order while they fit an instruction store of 8,192 instructions. -/
def fitCodes : Nat → List (Nat × Nat) → List (Nat × Nat)
  | _, [] => []
  | left, c :: l => if c.2 ≤ left then c :: fitCodes (left - c.2) l else fitCodes left l

/-- What a new core of a partition is loaded with: engine firmware and kernel images, as far as they fit (R208). -/
def loadFor (s : State) (p : Nat) : List (Nat × Nat) :=
  let fw := match tget s.parts.parts p with | some x => x.fw.map (fun e => cmdCode e.1 e.2.version none) | none => []
  let ks := (s.cores.kernels.filter (fun x => x.1 / 64 == p)).filterMap (fun x => x.2.current.map (fun i => cmdCode 5 0 (some i)))
  fitCodes 8192 (fw ++ ks)

end Sys2Proof.Machine
end

