-- ==== Sys2Proof/Machine/Fence.lean ====
section
/-! DEFINITION. Dead hosts (R72, R388), the fence of the device (R389, R390), and the checks of a quorum certificate
(R386, R387). TAKEOVER's effect has a file of its own. -/

namespace Sys2Proof.Machine

/-! ## Requests that end -/

/-- Whether a waiting request is an ATOMIC that holds a PENDING entry, which completes first (R97). -/
def pendingAtomic (p : Parked) : Bool := p.tx.op == 0x04 && hasEntry p.why

/-- Requests that wait, and that a test names, end with a status. -/
def dropParked (st : St) (hit : Parked → Bool) (s : State) : State :=
  (s.home.parked.filter hit).foldl (fun t p => failWait p st (unpark p.id t)) s

/-! ## Queues (R171) -/

/-- A queue becomes DISABLED: its undispatched items fail with ST_FENCED (R171), and a FROM command's failure aborts its
generation (R264). The submitter and the fabric manager are told (R176). -/
def disableQueue (qn : Nat) (s : State) : State :=
  match queueOf s qn with
  | none => s
  | some q =>
    if q.state = .disabled then s
    else
      let s1 := modQueue qn (fun x => { x with state := .disabled }) s
      let s2 := postAll .queueDisabled q.part [qn, q.submitter.toNat] 0x0A 0 [q.submitter] (fun _ => BitVec.ofNat 32 qn) s1
      q.cmds.foldl (fun t c =>
        let idx := undispatched t c
        if idx.isEmpty then t
        else
          let u := failItems qn c.seq idx .fenced 0 t
          if isFrom c then abortGen (rColl c.desc) 9 (myNode t) noNode none u else u) s2

/-- Queues that a test names become DISABLED. -/
def disableQueues (hit : Queue → Bool) (s : State) : State :=
  (s.queues.queues.filter (fun q => hit q.2)).foldl (fun t q => disableQueue q.1 t) s

/-! ## A dead host (R72, R388) -/

/-- Send RECALL_INV to the sharers of a tile that a dead host held dirty; the tile goes to I, one that is BUSY once its recalls
have been answered (R72). -/
def expelSharers (slot tile : Nat) (s : State) : State :=
  match extOf s slot, dirOf s slot tile with
  | some e, some d =>
    let need := (holdersIn e d).map (fun a => (a, true))
    match busyOf s slot tile with
    | some b => (need.filter (fun p => !b.recalls.any (fun r => r.agent == p.1 && r.inv))).foldl (fun t p =>
        sendRecall slot tile e p.1 true t) (modBusy slot tile (fun x => { x with toI := true }) s)
    | none => if need.isEmpty then s else tryFinish slot tile (startRecalls slot tile e .expel need s)
  | _, _ => s

/-- Recalls of a tile that went to a dead host count as answered with RECALL_ACK (R72). -/
def ackFor (n : Node) (slot tile : Nat) (s : State) : State :=
  match busyOf s slot tile with
  | some b => tryFinish slot tile ((b.recalls.filter (fun r => r.node == n)).foldl (fun t r => recallAnswered slot tile r none t) s)
  | none => s

/-- A tile that the log records as the dead host's: it is poisoned, the record goes, its sharers are recalled (R72). -/
def expelDirty (n : Node) (key : Nat) (s : State) : State :=
  let slot := keySlot key
  let tile := keyTile key
  let a := match extOf s slot with | some e => agentOf e n | none => none
  let s1 := delLog slot tile (setPoison slot tile s)
  let s2 := match a with | some k => removeAgent slot tile k s1 | none => s1
  ackFor n slot tile (expelSharers slot tile s2)

/-- A dead host is a caching agent of an extent no more: recalls that it owes count as answered, its entries lose it when they
are next touched, and until then its agent index is not free (R72). -/
def expelAgent (n : Node) (slot : Nat) (s : State) : State :=
  match extOf s slot with
  | none => s
  | some e => match agentOf e n with
    | none => s
    | some a =>
      let s1 := (s.home.busy.filter (fun b => b.slot == slot && b.recalls.any (fun r => r.node == n))).foldl (fun t b =>
        ackFor n slot b.tile t) s
      modExt slot (fun x => { x with dead := a :: x.dead,
                                     holders := x.holders.map (fun h => if h.node = n then { h with agent := none } else h) }) s1

/-- A host is dead to this home (R72, R97, R171, R264, R388). -/
def hostDead (n : Node) (s : State) : State :=
  let s1 : State := { s with boot := { s.boot with expelled := n :: s.boot.expelled } }
  let s2 := ((s1.dir.log.filter (fun x => x.2 == n)).map (·.1)).foldl (fun t k => expelDirty n k t) s1
  let s3 := (s2.ext.entries.map (·.1)).foldl (fun t slot => expelAgent n slot t) s2
  let s4 := dropSeals .state 1 (fun _ q => q.submitter == n) <| dropHeld .fenced (fun tx => tx.src == n) (dropBusyReqs .fenced (fun tx => tx.src == n && tx.op ≠ 0x04)
    (dropParked .fenced (fun p => p.tx.src == n && !pendingAtomic p) s3))
  let s5 := abortWhere 2 n (fun g => g.children.any (fun c => c.type == 0 && c.node == n)) (resetLedger n s4)
  let s6 := disableQueues (fun q => q.submitter == n) s5
  settle { s6 with mgmt := { s6.mgmt with hostEvents := tdel s6.mgmt.hostEvents n.toNat } }

/-! ## The fence (R389, R390) -/

/-- The device fences itself (R390): every request ends with ST_FENCED, every generation aborts, every queue is
DISABLED, and DEVICE_FENCED is posted. FAULT_N falls (R470). -/
def fenceDevice (s : State) : State :=
  if s.boot.fenced then s
  else
    let s1 : State := { s with boot := { s.boot with fenced := true, leaseMs := none }, phys := { s.phys with faultN := true } }
    let s2 := post .deviceFenced none [] s1
    let s3 := abortWhere 2 noNode (fun _ => true) s2
    let s4 := dropSeals .state 1 (fun _ _ => true) <| dropHeld .fenced (fun _ => true) (dropBusyReqs .fenced (fun _ => true) (dropParked .fenced (fun _ => true) s3))
    settle (disableQueues (fun _ => true) s4)

/-- LEASE_EXPIRY (R389): a device whose lease has run out fences itself. -/
def execLeaseExpiry (s : State) : Out :=
  .next (if s.boot.phase = .ready ∧ s.boot.leaseMs.isSome then fenceDevice s else s)

/-! ## Certificates (R386, R387) -/

/-- Bits of SIGNERS that are set. -/
def signersOf (c : Cert) : List Nat := (List.range 8).filter (fun i => c.signers.getLsbD i)

/-- Check 1: MAGIC, KIND and length, and DEVICE. -/
def certForm (s : State) (c : Cert) (lenOk : Bool) : Bool :=
  c.magic == 0x51435431 && decide (1 ≤ c.kind.toNat) && decide (c.kind.toNat ≤ 5) && lenOk &&
  c.len == 128 + 384 * (signersOf c).length && c.sigs.length == (signersOf c).length && c.device == myNode s

/-- Check 3: BOOT_NONCE and the charter's digest. -/
def certDevice (s : State) (c : Cert) : Bool :=
  c.bootNonce == s.boot.bootNonce && match s.boot.charterImage with
    | some i => c.charterSha == i.digest
    | none => false

/-- Check 4: each signature verifies against its charter key, and at least k are present. -/
def certSigned (s : State) (c : Cert) : Bool :=
  match s.boot.charter with
  | none => false
  | some ch =>
    decide (ch.keys.quorumK ≤ c.sigs.length) && ((signersOf c).zip c.sigs).all (fun x =>
      match ch.keys.quorum[x.1]? with
      | some k => rsaVerify k.1 k.2 x.2 (certBytes c)
      | none => false)

/-- LEASE_MS of a renewal: 0 stands for the charter's lease length. -/
def leaseOf (s : State) (c : Cert) : Nat :=
  if c.leaseMs = 0 then match s.boot.charter with | some ch => ch.device.leaseMs | none => 0 else c.leaseMs.toNat

/-- Check 6: what each kind asks. A lease lies between 250 ms and 60 s (R389). -/
def certKind (s : State) (c : Cert) : Bool :=
  match c.kind.toNat with
  | 1 => !s.boot.expelled.contains c.target
  | 2 => s.boot.expelled.contains c.target
  | 4 => c.challenge == s.boot.challenge && decide (250 ≤ leaseOf s c) && decide (leaseOf s c ≤ 60000)
  | _ => true

/-- The checks of R387 in order; none: the certificate is accepted. -/
def certCheck (s : State) (c : Cert) (lenOk : Bool) : Option St :=
  if !certForm s c lenOk then some .opcode
  else if s.boot.fenced then some .fenced
  else if !certDevice s c then some .state
  else if !certSigned s c then some .noAccess
  else if (match s.boot.certSeq with | some q => decide (c.certSeq.toNat ≤ q.toNat) | none => false) then some .state
  else if !certKind s c then some .state
  else none

/-- A certificate is accepted: its CERT_SEQ is noted and CERT_ACCEPTED is posted (R387). -/
def acceptCert (c : Cert) (s : State) : State :=
  post .certAccepted none [c.kind.toNat, c.target.toNat, c.certSeq.toNat] { s with boot := { s.boot with certSeq := some c.certSeq } }

/-- CERT_SUBMIT of the kind that a row stands for; a certificate of another kind is another row's, and has no effect
here. -/
def submitCert (kind : Nat) (h : Mgmt) (c : Cert) (effect : State → State) (s : State) : Out :=
  if c.kind.toNat ≠ kind then .next s
  else request 0x12 true h (fun _ t =>
    match certCheck t c h.lenOk with
    | some st => no st t
    | none => yes (effect (acceptCert c t))) s

/-- EXPEL_NODE (R388). -/
def execExpelNode (h : Mgmt) (cert : Cert) (s : State) : Out := submitCert 1 h cert (hostDead cert.target) s

/-- READMIT_NODE (R388). -/
def execReadmitNode (h : Mgmt) (cert : Cert) (s : State) : Out :=
  submitCert 2 h cert (fun t => { t with boot := { t.boot with expelled := t.boot.expelled.filter (· ≠ cert.target) } }) s

/-- FENCE_DEVICE (R388). -/
def execFenceDevice (h : Mgmt) (cert : Cert) (s : State) : Out := submitCert 3 h cert fenceDevice s

/-- RENEW_LEASE (R386, R388): the lease runs anew, and a new CHALLENGE is drawn. -/
def execRenewLease (h : Mgmt) (cert : Cert) (s : State) : Out :=
  submitCert 4 h cert (fun t => { t with
    free := t.free + 1, boot := { t.boot with leaseMs := some (leaseOf t cert), challenge := Config.freeWord t.free } }) s

/-- A certificate of a reserved KIND fails check 1 (R386, R387); one of a defined KIND is another row's. -/
def execCertSubmitReservedKind (h : Mgmt) (cert : Cert) (s : State) : Out :=
  if 1 ≤ cert.kind.toNat ∧ cert.kind.toNat ≤ 5 then .next s
  else request 0x12 true h (fun _ t => match certCheck t cert h.lenOk with | some st => no st t | none => no .opcode t) s

end Sys2Proof.Machine
end

