-- ==== Sys2Proof/Machine/Recovery.lean ====
section
/-! DEFINITION. Core faults and hangs (R401 to R405), tephra (R406 to R408), retirement (R207 to R210), the burl map
(R411, R412), and the reset of a partition with its memory channels (R73, R74, R172, R409). -/

namespace Sys2Proof.Machine

/-! ## Tephra (R406 to R408) -/

/-- Bytes of a sample in a steward's buffer: state record and 64 tile records, or the state record alone (R407, R408). -/
def tephraBytes (t : Tephra) : Nat := if t.reach = 3 then 64 else 16704

/-- Bytes in use of a field's 20 MiB tephra buffer. -/
def tephraUsed (s : State) (field : Nat) : Nat :=
  ((s.obs.tephra.filter (fun t => physField t.phys == field)).map tephraBytes).sum

/-- Whether a partition's template omits the slots of a sample (R406, R430). -/
def omitsSlots (s : State) (p : Nat) : Bool :=
  match templateOf s p with
  | some t => t.omitSlots
  | none => false

/-- The slots that a sample does not read, as a mask: those past the context's count, and all where none is read. -/
def unreadMask (reach count : Nat) : Word64 :=
  if reach = 0 then BitVec.ofNat 64 (2 ^ 64 - 2 ^ min 64 count) else 0xFFFFFFFFFFFFFFFF

/-- The sampled tiles: what the item has written, else what lay there before, which is free; zero where not read. -/
def sampleTiles (reach : Nat) (k : Ctx) (f : Nat) : List Tile :=
  if reach = 3 then []
  else (List.range 64).map (fun i =>
    if reach ≠ 0 ∨ k.slotCount ≤ i then { data := 0, crc := 0 }
    else match tget k.slots i with
      | some t => t
      | none => mkTile (Config.freeBlock (f + i)))

/-- The token entries held, a bit for each (R407). -/
def tokenMask (k : Ctx) : Word32 :=
  k.tokens.foldl (fun m e => if e.1 < 32 then m ||| BitVec.ofNat 32 (1 <<< e.1) else m) 0

/-- The sample of one context (R407). -/
def sampleOf (s : State) (seq phys core ctx cause reach : Nat) (k : Ctx) : Tephra :=
  { seq := seq, phys := phys, core := core, ctx := ctx, part := k.item.part, cause := cause, queue := k.item.queue,
    cmdSeq := k.item.cmdSeq, item := k.item.index, pc := k.pc, engine := k.item.engine, tokens := tokenMask k,
    flags := BitVec.ofNat 3 ((if k.of then 1 else 0) + (if k.uf then 2 else 0) + (if k.nv then 4 else 0)), reach := reach,
    unreadable := unreadMask reach k.slotCount, tiles := sampleTiles reach k s.free }

/-- Add the samples of a core's contexts to the buffer of its field's steward; one that finds the buffer full is
NOT_SAMPLED (R408). -/
def sampleCtxs (seq phys core cause : Nat) (lost : Bool) : List (Nat × Ctx) → State → State
  | [], s => s
  | (i, k) :: l, s =>
    let reach := if 20971520 < tephraUsed s (physField phys) + 16704 then 3 else if lost then 2
      else if omitsSlots s k.item.part then 1 else 0
    let t := sampleOf s seq phys core i cause reach k
    sampleCtxs seq phys core cause lost l { s with free := s.free + 64, obs := { s.obs with tephra := s.obs.tephra ++ [t] } }

/-- The steward of a field samples cores that are about to be reset and posts TEPHRA_READY; a core that holds no item
gives no sample. -/
def takeTephra (field cause : Nat) (lost : Bool) (cores : List (Nat × Core)) (s : State) : State :=
  let l := cores.filter (fun x => !x.2.ctxs.isEmpty)
  if l.isEmpty then s
  else
    let seq := s.mgmt.eventSeq
    let s1 := l.foldl (fun t x => sampleCtxs seq (x.2.phys.getD 0xFFF) x.1 cause lost x.2.ctxs t) s
    post .tephraReady none (field :: cause :: l.map (fun x => x.2.phys.getD 0xFFF)) s1

/-! ## Items on a core that faults (R404, R405) -/

/-- DETAIL of an item that is killed (R404). -/
def killedDetail (cause core : Nat) : Word32 := BitVec.ofNat 32 (cause * 16777216 + core % 2048)

/-- A tagged item enters FAULTED (R461). -/
def tagFaulted (x : CtxId) (k : Ctx) (s : State) : State :=
  if k.item.coll.isSome then s
  else tagStage k.item.part k.item.engine k.item.queue k.item.cmdSeq k.item.index 4
    (match coreOf s x.core with | some c => c.phys.getD 0xFFF | none => 0xFFF) x.core x.ctx 0 k.replay s

/-- What an item that a core's fault or reset stops has written: its destinations hold old or new content, but those of a
FILTER item the old, since it writes only at its end (R206, R312, R315, R403). -/
def cutWork (x : CtxId) (k : Ctx) (s : State) : State := if k.item.engine = 3 then s else stopWork x s

/-- An item is killed: ST_KILLED with its cause (R404). -/
def killItem (x : CtxId) (k : Ctx) (cause : Nat) (s : State) : State :=
  bump 4 (5 * k.item.part + k.item.engine - 1) 13 1 (endItemAt x k.item .killed (killedDetail cause x.core) (cutWork x k s))

/-- An item goes back to its dispatcher, to run again from its start (R405); on a DISABLED queue it is one that is not dispatched,
and fails (R171, R264). -/
def replayItem (x : CtxId) (k : Ctx) (s : State) : State :=
  let n (c : Cmd) : Table Nat := tset c.faults k.item.index (tgetD c.faults k.item.index 0 + 1)
  let s1 := bump 4 (5 * k.item.part + k.item.engine - 1) 12 1
    (modCmd k.item.queue k.item.cmdSeq (fun c => { c with
      runs := c.runs.filter (fun r => r.item ≠ k.item.index), again := c.again ++ [k.item.index], faults := n c })
      (freeCtx x (dropItemBusy x (cutWork x k s))))
  match cmdOfItem s1 k.item with
  | none => s1
  | some (q, c) =>
    if q.state ≠ .disabled then s1
    else
      let s2 := failItems k.item.queue c.seq [k.item.index] .fenced 0 s1
      if isFrom c then abortGen (rColl c.desc) 9 (myNode s1) noNode none s2 else s2

/-- The RUN item of a chunk whose fold item goes back is dispatched anew with it. -/
def dropRun (g : CGroup) (n : Nat) (s : State) : State :=
  match g.run with
  | none => s
  | some r => modCmd r.queue r.cmdSeq (fun c => { c with runs := c.runs.filter (fun w => w.item ≠ n) }) s

/-- A fold item on a core that faults refolds on another; the third fault aborts the generation (R263). -/
def faultFold (x : CtxId) (id : BitVec 48) (s : State) : State :=
  match cgOf s id with
  | none => freeCtx x s
  | some g =>
    match g.chunks.find? (fun c => c.x == some x) with
    | none => freeCtx x s
    | some c =>
      if 2 ≤ c.faults then detectAbort id 5 noNode s
      else dropRun g c.chunk <| bump 4 (5 * g.e.partition) 12 1
        (setCg id { g with chunks := g.chunks.map (fun y => if y.x = some x then { y with x := none, faults := y.faults + 1 } else y) }
          (freeCtx x (dropItemBusy x s)))

/-- Whether an APPLY item may be replayed (R232, R405). -/
def replayable (c : Cmd) (k : Ctx) : Bool :=
  match c.image with
  | some i => i.idempotent && decide (k.tatomCount ≤ 1024)
  | none => true

/-- The outcome of a core fault for an item on the core (R405). -/
def faultItem (x : CtxId) (s : State) : State :=
  match ctxOf s x with
  | none => s
  | some k =>
    match k.item.coll with
    | some id => faultFold x id s
    | none =>
      match cmdOfItem s k.item with
      | none => freeCtx x s
      | some (_, c) =>
        let third := decide (2 ≤ tgetD c.faults k.item.index 0)
        if k.item.engine = 1 then (if third then detectAbort (rColl c.desc) 5 noNode s else replayItem x k s)
        else if !replayable c k then killItem x k 2 s
        else if third then killItem x k 3 s
        else replayItem x k s

/-- The outcome of a hang for an item on the core (R403, R405), or of its removal under another cause (R367). -/
def hangItem (cause : Nat) (x : CtxId) (s : State) : State :=
  match ctxOf s x with
  | none => s
  | some k =>
    match k.item.coll with
    | some id => detectAbort id 5 noNode s
    | none =>
      match cmdOfItem s k.item with
      | none => freeCtx x s
      | some (_, c) => if k.item.engine = 1 then detectAbort (rColl c.desc) 5 noNode s else killItem x k cause s

/-- Treat every context of a core in turn. -/
def eachCtx (core : Nat) (f : CtxId → State → State) (s : State) : State :=
  (List.range 4).foldl (fun t i => f { core := core, ctx := i } t) s

/-! ## The burl map and retirement (R207 to R210, R411, R412) -/

/-- Bands b − 1, b and b + 1. -/
def nearBands (b : Nat) : BitVec 23 := BitVec.ofNat 23 ((1 <<< b) + (1 <<< (b + 1)) + (if b = 0 then 0 else 1 <<< (b - 1)))

/-- Bands set in a mask. -/
def bandCount (m : BitVec 23) : Nat := ((List.range 23).filter (fun i => m.getLsbD i)).length

/-- Change a listed physical core. -/
def modPhys (phys : Nat) (f : Phys → Phys) (s : State) : State :=
  { s with cores := { s.cores with phys := tmod s.cores.phys phys f } }

/-- A core fault or hang marks the burl map (R411). -/
def markBurl (phys band : Nat) (s : State) : State :=
  match tget s.cores.phys phys with
  | none => s
  | some p =>
    let q := p.quarantine ||| nearBands band
    let s1 := modPhys phys (fun x => { x with faultBands := x.faultBands ||| BitVec.ofNat 23 (1 <<< band), quarantine := q }) s
    if q = p.quarantine then s1 else post .coreQuarantined none [0, phys, q.toNat] s1

/-- A sentinel trip in drag mode quarantines the strip's cores at its band (R412). -/
def markStrip (strip band : Nat) (s : State) : State :=
  let mine (x : Nat × Phys) : Bool := physStrip x.1 == strip
  let new := s.cores.phys.any (fun x => mine x && x.2.quarantine ||| nearBands band ≠ x.2.quarantine)
  let s1 : State := { s with cores := { s.cores with
    phys := s.cores.phys.map (fun x => if mine x then (x.1, { x.2 with quarantine := x.2.quarantine ||| nearBands band }) else x) } }
  if new then post .coreQuarantined none [1, strip, (nearBands band).toNat] s1 else s1

/-- A physical core is retired: its logical index goes to the lowest working spare of the strip, or is ABSENT (R208,
R209). For a spare CORE_RETIRED names no logical core (2,048). -/
def retireCore (phys : Nat) (s : State) : State :=
  let l := logicalOf s phys
  let s1 := modPhys phys (fun x => { x with retired := true }) s
  let spares := sparesOf s1 (physStrip phys)
  match l with
  | none => post .coreRetired none [phys, 2048, spares.length] s1
  | some (c, k) =>
    match spares with
    | n :: r =>
      let load := match k.part with | some p => loadFor s1 p | none => []
      let fresh : Core := { freshCore (some n) k.part with scrubbing := k.scrubbing, removing := k.removing, istore := load }
      post .coreRetired k.part [phys, c, r.length] (modCore c (fun _ => fresh) s1)
    | [] =>
      let gone : Core := { freshCore none k.part with scrubbing := k.scrubbing, removing := k.removing }
      post .coreAbsent k.part [phys, c] (post .coreRetired k.part [phys, c, 0] (modCore c (fun _ => gone) s1))

/-! ## Core faults and hangs (R401, R403) -/

/-- A core is reset: it keeps its place and its partition (R401). -/
def resetCore (core : Nat) (recovering : Bool) (s : State) : State :=
  modCore core (fun k => { freshCore k.phys k.part with scrubbing := k.scrubbing, removing := k.removing, recovering := recovering }) s

/-- Three faulted bands retire a core (R411). -/
def thirdBand (phys : Nat) (s : State) : State :=
  match tget s.cores.phys phys with
  | some p => if 3 ≤ bandCount p.faultBands then retireCore phys s else s
  | none => s

/-- A core stops for a fault or a hang: its tephra is taken, its items end or go back, it is reset, and the burl map is
marked. One that is already in recovery, or whose partition is being reset, is not looked at again (R401, R414). -/
def stopCore (phys : Nat) (n : Ev) (args : List Nat) (counter cause : Nat) (items : CtxId → State → State) (s : State) : State :=
  match tget s.cores.phys phys with
  | none => s
  | some p =>
    if !p.working || p.retired then s
    else
      let band := bandOf s (physStrip phys)
      match logicalOf s phys with
      | none => thirdBand phys (markBurl phys band (post n none (args ++ [band]) (bump 0 phys counter 1 s)))
      | some (c, k) =>
        if k.recovering || (match k.part with | some q => partState s q == .resetting | none => false) then s
        else
          let s1 := eachCtx c (fun x t => match ctxOf t x with | some y => tagFaulted x y t | none => t) s
          let s2 := post n k.part (args ++ [band]) (bump 0 phys counter 1 s1)
          let s3 := takeTephra (physField phys) cause false [(c, k)] s2
          let s4 := resetCore c true (eachCtx c items s3)
          settle (thirdBand phys (markBurl phys band s4))

/-- CORE_FAULT (R401, R405, R411). -/
def execCoreFault (phys check : Nat) (s : State) : Out := .next (stopCore phys .coreFault [phys, check] 9 1 faultItem s)

/-- CORE_HANG (R403, R405, R411). -/
def execCoreHang (phys : Nat) (s : State) : Out := .next (stopCore phys .coreHang [phys] 10 2 (hangItem 1) s)

/-- CORE_RETURN_TO_SERVICE (R401): a failing self-test retires the core. -/
def execCoreReturnToService (phys : Nat) (ok : Bool) (s : State) : Out :=
  .next (match logicalOf s phys with
    | none => s
    | some (c, k) =>
      if !k.recovering then s
      else if ok then modCore c (fun x => { x with recovering := false }) s
      else retireCore phys s)

/-- PATTERN_SWEEP (R206, R413): only a core that holds no context is swept. A failing sweep counts as a core fault: it is
posted, the check that it names free (log entry 100), and marks the burl map; then the core is retired. -/
def execPatternSweep (phys : Nat) (ok : Bool) (s : State) : Out :=
  .next (match tget s.cores.phys phys with
    | none => s
    | some p =>
      let busy := match logicalOf s phys with | some (_, k) => !k.ctxs.isEmpty | none => false
      if ok || busy || !p.working || p.retired then s
      else
        let (n, s1) := takeFree (bump 0 phys 9 1 s)
        let band := bandOf s (physStrip phys)
        let owner := match logicalOf s phys with | some (_, k) => k.part | none => none
        retireCore phys (markBurl phys band (post .coreFault owner [phys, (Config.freeWord n).toNat, band] s1)))

/-! ## The reset of a partition begins (R73, R409 steps 1 to 3) -/

/-- Logical cores of a partition. -/
def coresOf (s : State) (p : Nat) : List (Nat × Core) := s.cores.cores.filter (fun x => x.2.part == some p)

/-- The waiting GROW or SHRINK of a partition ends with ST_STATE; what waits to leave stays (R368). -/
def endWaits (p : Nat) (s : State) : State :=
  let hit (w : MgmtWait) : Option (Mgmt × Nat) := match w with
    | .grow h q _ => if q = p then some (h, 0x21) else none
    | .shrink h q _ => if q = p then some (h, 0x22) else none
    | _ => none
  let gone := s.mgmt.waiting.filterMap hit
  let ch (x : Nat × Channel) : Nat × Channel := if x.2.part = some p then (x.1, { x.2 with removing := false }) else x
  let co (x : Nat × Core) : Nat × Core := if x.2.part = some p then (x.1, { x.2 with removing := false }) else x
  let s1 : State := { s with
    mgmt := { s.mgmt with waiting := s.mgmt.waiting.filter (fun w => (hit w).isNone) },
    parts := { s.parts with channels := s.parts.channels.map ch },
    cores := { s.cores with cores := s.cores.cores.map co } }
  gone.foldl (fun t x => reply x.1 x.2 .state [] 0 t) s1

/-- BUSY tiles of a partition's extents go; a tile whose recalled data has not reached the home is poisoned, since its
transition has not ended and the log still names it (R67, R74). -/
def dropBusyOf (p : Nat) (s : State) : State :=
  let mine (b : Busy) : Bool := ownerOf s b.slot == p
  let s1 : State := { s with home := { s.home with busy := s.home.busy.filter (fun b => !mine b) } }
  (s.home.busy.filter (fun b => mine b && b.data.isSome)).foldl (fun t b => setPoison b.slot b.tile t) s1

/-- Every request to a partition's extents that has not completed ends with ST_DOMAIN_RESET (R73). -/
def resetRequests (p : Nat) (s : State) : State :=
  let mine (tx : Tx) : Bool := ownerOf s (oSlot tx.offset) == p && isRequest tx && tx.op.toNat < 0x30 && tx.op ≠ 0x06
  let s1 := dropParked .domainReset (fun q => mine q.tx) s
  let reqs := (busyReqs s1).filter (fun r => mine r.2)
  let s2 := reqs.foldl (fun t r => failReq r.2 .domainReset t) s1
  dropBusyOf p (dropSeals .state 1 (fun slot q => ownerOf s slot == p || q.part == p) (dropHeld .domainReset mine s2))

/-- Contexts of a partition are gone with their items; the commands stay until R172 reports them. -/
def dropContexts (p : Nat) (s : State) : State :=
  let s1 := (coresOf s p).foldl (fun t x => resetCore x.1 false (eachCtx x.1 (fun c u => dropItemBusy c u) t)) s
  { s1 with queues := { s1.queues with queues := s1.queues.queues.map (fun q =>
    if q.2.part = p then (q.1, { q.2 with cmds := q.2.cmds.map (fun c => { c with runs := [], sealing := false, ending := none }) }) else q) } }

/-- A partition begins to be reset with its memory channels (R73, R264, R368, R406, R409). `unit`: a keeper's fault is the
cause; `ring`: a completion ring lay on a lost channel. -/
def beginReset (p : Nat) (unit ring : Bool) (s : State) : State :=
  if partState s p ≠ .active then s
  else
    let s1 := modPart p (fun x => { x with state := .resetting, unitFault := unit, ringLost := ring }) s
    let s2 := postAll .domainReset p [p] 0x04 0 (holdersOfPart s1 p) (fun _ => 0) s1
    let s3 := abortWhere 8 noNode (fun g => g.e.partition == p) s2
    let s4 := endWaits p (resetRequests p s3)
    let s5 := (List.range 8).foldl (fun t f => takeTephra f 3 false ((coresOf t p).filter (fun x => match x.2.phys with
      | some n => physField n == f | none => false)) t) s4
    settle (dropContexts p s5)

/-! ## The reset of a partition ends (R74, R172, R409 steps 4 to 6) -/

/-- The tiles that the log names are poisoned, and the log and the directory of the domain start empty (R74). -/
def poisonLog (p : Nat) (s : State) : State :=
  let mine (k : Nat) : Bool := ownerOf s (keySlot k) == p
  let s1 := (s.dir.log.filter (fun x => mine x.1)).foldl (fun t x => setPoison (keySlot x.1) (keyTile x.1) t) s
  { s1 with dir := { s1.dir with log := tdrop s1.dir.log mine, entries := tdrop s1.dir.entries mine } }

/-- Clean tiles of the home-cache share go; dirty ones have their journal records (R147, R409). -/
def dropClean (p : Nat) (s : State) : State :=
  { s with pool := { s.pool with cache := s.pool.cache.filter (fun x => x.2.dirty || lineOwner s x.1 ≠ p) } }

/-- A keeper that fails its test during the reset is retired, and the partition takes a spare; none left leaves the
partition without (R398). The pool of 20 is read as 20 sets, one for each composed partition (DEDUCED, log entry 21). -/
def testKeeper (p : Nat) (ok : Bool) (s : State) : State :=
  match tget s.parts.parts p with
  | none => s
  | some x =>
    if !x.unitFault || ok then s
    else
      let used := (s.parts.parts.filter (fun y => y.2.state ≠ .empty)).length
      if used ≤ s.parts.keepers - 1 then { s with parts := { s.parts with keepers := s.parts.keepers - 1 } }
      else modPart p (fun y => { y with keeperFailed := true }) s

/-- The newest record of the charter is applied if it fits, else CHARTER_DEFERRED is posted (R444 to R446). -/
def applyRecord (p : Nat) (s : State) : State :=
  match tget s.parts.parts p, charterRecord s p with
  | some x, some r =>
    if x.applied = some r then modPart p (fun y => { y with charterVersion := runningVersion s, deferred := false }) s
    else if recordFits s x r then
      let links := x.ports.flatMap (halves s)
      let s1 := modPart p (fun y => { y with
        applied := some r, charterVersion := runningVersion s, deferred := false, ports := (portsIn r).filter links.contains }) s
      r.ports.foldl (fun t c => if links.contains c.1 then modPort c.1 (fun q => { q with cfg := c.2 }) t else t) s1
    else post .charterDeferred (some p) [p] (modPart p (fun y => { y with deferred := true }) s)
  | _, _ => s

/-- The areas are placed again: mirrored copies on working channels, resident segments, the rest as R364 leaves free. -/
def placeAgain (p : Nat) (s : State) : State :=
  match tget s.parts.parts p, templateOf s p with
  | some x, some t =>
    let back := s.parts.degraded.filter (fun m => mirrorPart m == some p)
    let s1 := setSegments p (segmentsOf s p t x.channels) { s with
      free := s.free + 1, parts := { s.parts with degraded := s.parts.degraded.filter (fun m => mirrorPart m ≠ some p) } }
    let s2 := modPart p (fun y => { y with mirrors := placeMirrors s x.channels x.mirrors, placing := s.free, placedOn := liveChannels s x.channels }) s1
    back.foldl (fun u m => post .mirrorRestored (some p) [m.ctorIdx, p] u) s2
  | _, _ => s

/-- Kernel handles are EMPTY, groups are FREE, retiring firmware goes, and cores are reset (R238, R265, R409). -/
def emptyPart (p : Nat) (s : State) : State :=
  let s1 := (coresOf s p).foldl (fun t x => resetCore x.1 false t) s
  modPart p (fun y => { y with fwRetiring := [] }) { s1 with
    cores := { s1.cores with kernels := tdrop s1.cores.kernels (fun k => k / 64 == p) },
    groups := s1.groups.filter (fun g => g.2.e.partition ≠ p) }

/-- The commands of a queue that R172 reports: those from CQ_HEAD to TAIL − 1 but for the ones whose records stand. -/
def reported (q : Queue) (ring : Bool) : List Word32 :=
  ((List.range (q.tail - q.cqHead).toNat).map (fun i => q.cqHead + BitVec.ofNat 32 i)).filter (fun c =>
    ring || !precedes c q.head || q.cmds.any (fun y => y.seq == c))

/-- The descriptor of a reported command, where the device read it or can still read its slot (R172). -/
def knownDesc (q : Queue) (ring : Bool) (c : Word32) : Option (BitVec 512) :=
  match cmdOf q c with
  | some y => some y.desc
  | none => if ring && !precedes c q.head then none else some (tgetD q.ring (c.toNat % depthOf q) 0)

/-- The records of a queue whose partition has been reset, and its state after (R172). -/
def reportQueue (qn : Nat) (ring : Bool) (s : State) : State :=
  match queueOf s qn with
  | none => s
  | some q =>
    let rs := reported q ring
    let desc (c : Word32) : BitVec 512 := (knownDesc q ring c).getD 0
    let rec_ (c : Word32) : BitVec 256 := recordOf q qn c (dUserTag (desc c)) .domainReset (s.mgmt.eventSeq - 1) 0 0 0 true
    let base := if ring then [] else q.cq
    let cq := rs.foldl (fun t c => tset t (c.toNat % depthOf q) (rec_ c)) base
    let s1 := modQueue qn (fun x => { x with
      cq := cq, ring := if ring then [] else x.ring, cmds := [], unread := [], head := x.tail, written := x.tail,
      haltSeq := match rs with | c :: _ => c | [] => x.haltSeq, state := if x.state = .disabled then .disabled else .reset }) s
    rs.foldl (fun t c => if dNotify (desc c) then notify q (rec_ c) t else t) s1

/-- The reset of a partition ends: DOMAIN_UP, then the queue records (R172, R409). -/
def endReset (p : Nat) (s : State) : State :=
  let ring : Bool := match tget s.parts.parts p with | some x => x.ringLost | none => false
  let s1 := modPart p (fun x => { x with state := .active, unitFault := false, ringLost := false }) s
  let s2 := postAll .domainUp p [p] 0x05 0 (holdersOfPart s1 p) (fun _ => 0) s1
  (s2.queues.queues.filter (fun q => q.2.part == p)).foldl (fun t q => reportQueue q.1 ring t) s2

/-- Whether a partition's areas fit its working channels (R399, R400). -/
def stillFits (s : State) (p : Nat) : Bool :=
  match tget s.parts.parts p, templateOf s p with
  | some x, some t => areasFit t (liveChannels s x.channels).length
  | _, _ => true

/-- A partition that cannot be placed stays RESETTING (R400). -/
def stall (p : Nat) (s : State) : State := post .partStalled (some p) [p] (modPart p (fun x => { x with stalled := true }) s)

/-- PARTITION_RESET_COMPLETE (R409). -/
def execPartitionResetComplete (part : Nat) (unitOk : Bool) (s : State) : Out :=
  .next (match tget s.parts.parts part with
    | none => s
    | some x =>
      if x.state ≠ .resetting || x.stalled then s
      else
        let s1 := applyRecord part (testKeeper part unitOk s)
        if !stillFits s1 part then stall part s1
        else settle (endReset part (placeAgain part (emptyPart part (dropClean part (poisonLog part s1))))))

/-- PARTITION_UNIT_FAULT (R73, R409): a home agent, directory slice or keeper of a partition faults. -/
def execPartitionUnitFault (part : Nat) (_ : PartUnit) (s : State) : Out := .next (beginReset part true false s)

/-- PART_RESET (R365, R409). -/
def execPartReset (h : Mgmt) (part : Nat) (s : State) : Out :=
  request 0x23 false h (fun _ t => if partState t part = .active then yes (beginReset part false false t) else no .state t) s

end Sys2Proof.Machine
end

