-- ==== Sys2Proof/Machine/Faults.lean ====
section
/-! DEFINITION. Faults of channels, fields and spindle lanes (R146, R147, R338, R339, R399, R400), drag mode and the power
cap (R182, R410, R412, R469), and the switchover of the RTP (R369). -/

namespace Sys2Proof.Machine

/-! ## Channels (R146, R147, R399) -/

/-- What of a partition lies on a channel and is not mirrored: the areas of R364, a resident segment, a dirty line (R147). -/
def unmirrored (s : State) (p : Nat) (x : Part) (c : Nat) : Bool :=
  areasOn x c ≠ 0 || thas s.cores.segments c ||
  s.pool.cache.any (fun y => y.2.dirty && lineOwner s y.1 == p && lineChannel x.channels y.1 == some c)

/-- Whether a queue's rings lie on a channel. -/
def ringOn (x : Part) (c : Nat) : Bool := (areasOn x c).getLsbD 1

/-- The clean lines on a channel go (R147). -/
def dropLines (p : Nat) (x : Part) (c : Nat) (s : State) : State :=
  { s with pool := { s.pool with cache := s.pool.cache.filter (fun y =>
    y.2.dirty || lineOwner s y.1 ≠ p || lineChannel x.channels y.1 ≠ some c) } }

/-- One copy of some mirrored structures of a partition is lost: MIRROR_DEGRADED (R146). -/
def degrade (p : Nat) (ms : List Mirror) (s : State) : State :=
  let new := ms.filter (fun m => !s.parts.degraded.contains m)
  new.foldl (fun t m => post .mirrorDegraded (some p) [m.ctorIdx, p] t) { s with parts := { s.parts with degraded := s.parts.degraded ++ new } }

/-- A channel is retired: CHANNEL_RETIRED (R399). -/
def retireChannel (c : Nat) (s : State) : State :=
  let x := channelAt s c
  post .channelRetired x.part [c] (setChannel c { x with retired := true, scrubbing := false } s)

/-- A channel faults (R146, R147, R399): masked, or its partition is reset with its memory channels. A second fault of a
mirrored structure before its resilver counts as its keeper's fault. -/
def faultChannel (c : Nat) (s : State) : State :=
  let ch := channelAt s c
  if ch.retired || decide (512 ≤ c) then s
  else
    let s1 := retireChannel c s
    match ch.part with
    | none => s1
    | some p =>
      match tget s1.parts.parts p with
      | none => s1
      | some x =>
        if x.state ≠ .active then (if ringOn x c then modPart p (fun y => { y with ringLost := true }) s1 else s1)
        else
          let mirror := x.mirrors.1 == c || x.mirrors.2 == c
          let second := mirror && s1.parts.degraded.any (fun m => mirrorPart m == some p)
          let s2 := if mirror then degrade p (mirrorsOf p) s1 else s1
          if unmirrored s1 p x c || second then beginReset p second (ringOn x c) s2 else dropLines p x c s2

/-- CHANNEL_FAULT (R399). -/
def execChannelFault (channel : Nat) (s : State) : Out := .next (if dataUp s then faultChannel channel s else s)

/-- HBM_SCRUB (R437): a row of a channel is written and verified; a channel that fails is retired. -/
def execHbmScrub (channel : Nat) (ok : Bool) (s : State) : Out :=
  .next (if 512 ≤ channel ∨ s.boot.phase ≠ .ready then s
    else if ok then bump 3 channel 10 1 s else faultChannel channel s)

/-- A bank of a structure held in two SRAM copies is retired (R146). The loss of its last one is not described, and has no
effect here (DESIGN CHOICE, log entry 163). -/
def loseBank (copy : Nat) (have_ : Bool × Bool) : Bool × Bool :=
  if copy = 0 then (if have_.2 then (false, have_.2) else have_) else if have_.1 then (have_.1, false) else have_

/-- A copy of a mirrored structure fails a check (R128, R146): the other one serves. In a channel it is placed anew; before its
resilver a second fault is its keeper's (R147). -/
def failCopy (m : Mirror) (copy : Nat) (s : State) : State :=
  match m, mirrorPart m with
  | .extentMap, _ =>
    let r := loseBank copy (s.ext.copyA, s.ext.copyB)
    if r = (s.ext.copyA, s.ext.copyB) then s
    else post .mirrorDegraded none [m.ctorIdx] { s with ext := { s.ext with copyA := r.1, copyB := r.2 } }
  | .groupTable, _ =>
    let r := loseBank copy (s.pool.copyA, s.pool.copyB)
    if r = (s.pool.copyA, s.pool.copyB) then s
    else post .mirrorDegraded none [m.ctorIdx] { s with pool := { s.pool with copyA := r.1, copyB := r.2 } }
  | .routing, _ =>
    let r := loseBank copy (s.ports.copyA, s.ports.copyB)
    if r = (s.ports.copyA, s.ports.copyB) then s
    else post .mirrorDegraded none [m.ctorIdx] { s with ports := { s.ports with copyA := r.1, copyB := r.2 } }
  | _, some p =>
    if partState s p ≠ .active then s
    else if s.parts.degraded.contains m then beginReset p true false s else degrade p [m] s
  | _, none => s

/-- A new copy of a mirrored structure is complete: MIRROR_RESTORED. The first one after a channel's fault moves the copies to a
working channel. -/
def resilver (m : Mirror) (s : State) : State :=
  if !s.parts.degraded.contains m then s
  else match mirrorPart m with
    | none => s
    | some p =>
      match tget s.parts.parts p with
      | none => s
      | some x =>
        let ms := placeMirrors s x.channels x.mirrors
        if (channelAt s ms.1).retired || (channelAt s ms.2).retired || channelField ms.1 == channelField ms.2 then s
        else
          let s1 := modPart p (fun y => { y with mirrors := ms }) { s with
            free := s.free + 1, parts := { s.parts with degraded := s.parts.degraded.filter (· ≠ m) } }
          post .mirrorRestored (some p) [m.ctorIdx, p] s1

/-- MIRROR_RESILVER (R146): a copy fails a check, or a new copy is complete. -/
def execMirrorResilver (news : MirrorNews) (s : State) : Out :=
  .next (if !dataUp s then s else match news with
    | .failing m copy => failCopy m copy s
    | .complete m => resilver m s)

/-! ## Fields (R400) -/

/-- A core of an isolated field is killed as a hang and becomes ABSENT (R209, R400). -/
def loseCore (c : Nat) (s : State) : State :=
  match coreOf s c with
  | none => s
  | some k =>
    let s1 := eachCtx c (hangItem 1) s
    match k.phys with
    | none => s1
    | some ph => post .coreAbsent k.part [ph, c] (modCore c (fun x => { freshCore none x.part with scrubbing := x.scrubbing, removing := x.removing }) s1)

/-- A partition with a channel in an isolated field is reset, and one that no longer fits stalls (R400). -/
def isolatePart (f p : Nat) (s : State) : State :=
  match tget s.parts.parts p with
  | none => s
  | some x =>
    let here := x.channels.filter (fun c => channelField c == f)
    if here.isEmpty || x.state = .empty then s
    else
      let ring := here.any (ringOn x)
      let s1 := if x.state = .active then beginReset p false ring s else modPart p (fun y => { y with ringLost := y.ringLost || ring }) s
      if stillFits s1 p || x.stalled then s1 else stall p s1

/-- FIELD_ISOLATED (R338, R400). -/
def isolateField (f : Nat) (s : State) : State :=
  if 8 ≤ f ∨ s.phys.isolated.getLsbD f then s
  else
    let lanes := (List.range 16).map (fun i => 192 + 16 * f + i) ++ (List.range 8).map (fun i => 320 + 8 * f + i)
    let s1 : State := { s with
      phys := { s.phys with isolated := s.phys.isolated ||| BitVec.ofNat 8 (1 <<< f) },
      spindle := { s.spindle with badLanes := (s.spindle.badLanes ++ lanes).eraseDups } }
    let s2 := post .fieldIsolated none [f] s1
    let mine := s2.cores.cores.filter (fun x => x.1 / 256 == f)
    let s3 := (mine.map (·.1)).foldl (fun t c => loseCore c t) (takeTephra f 2 true mine s2)
    let s4 : State := { s3 with cores := { s3.cores with
      phys := s3.cores.phys.map (fun x => if physField x.1 = f then (x.1, { x.2 with retired := true }) else x) } }
    let s5 := ((List.range 64).map (fun i => 64 * f + i)).foldl (fun t c => if (channelAt t c).retired then t else retireChannel c t) s4
    let s6 := (List.range 16).foldl (fun t p => isolatePart f p t) s5
    settle (((List.range 24).map (fun i => 24 * f + i)).foldl (fun t n => faultPort n t) s6)

/-- FIELD_ISOLATED (R400). -/
def execFieldIsolated (field : Nat) (s : State) : Out := .next (if dataUp s then isolateField field s else s)

/-! ## Lanes that do not complete a turn (R338, R339) -/

/-- The next middle that works after `j`, wrapping. -/
def nextMiddle (dead : List Nat) (j : Nat) : Option Nat := ((List.range 384).map (fun i => (j + 1 + i) % 384)).find? (fun m => !dead.contains m)

/-- A middle dies: its cells are relinked at the next live middle, and a ninth hole stops the spindle and fences the device
(R339). -/
def loseMiddle (j : Nat) (s : State) : State :=
  if s.spindle.dead.contains j ∨ 384 ≤ j then s
  else
    let dead := j :: s.spindle.dead
    let moved := match nextMiddle dead j with
      | none => s.spindle.mids
      | some m => (s.spindle.mids.filter (fun x => x.1 / 384 == j)).foldl (fun t x =>
          tset t (m * 384 + x.1 % 384) (tgetD t (m * 384 + x.1 % 384) [] ++ x.2)) (s.spindle.mids.filter (fun x => x.1 / 384 ≠ j))
    let s1 := modSp (fun q => { q with dead := dead, mids := moved }) s
    if 9 ≤ dead.length then fenceDevice (post .spindleFailed none [j] (modSp (fun q => { q with stopped := true }) s1)) else s1

/-- A strip or HBM lane is lost: the unit's other lanes carry its traffic, and with none left the strip's cores or the
stack's channels are faulted (R338). -/
def loseUnitLane (lane : Nat) (s : State) : State :=
  if s.spindle.badLanes.contains lane then s
  else
    let s1 := modSp (fun q => { q with badLanes := lane :: q.badLanes }) s
    if lane < 320 then
      let strip := (lane - 192) / 2
      if s1.spindle.badLanes.contains (192 + 2 * strip) && s1.spindle.badLanes.contains (193 + 2 * strip) then
        (List.range 36).foldl (fun t i => if (logicalOf t (36 * strip + i)).isSome
          then stopCore (36 * strip + i) .coreFault [36 * strip + i, 255] 9 1 faultItem t else t) s1
      else s1
    else
      let stack := (lane - 320) / 4
      if (List.range 4).all (fun i => s1.spindle.badLanes.contains (320 + 4 * stack + i)) then
        (List.range 32).foldl (fun t i => faultChannel (32 * stack + i) t) s1
      else s1

/-- The input or output part of a lane is lost. -/
def loseLane (lane : Nat) (s : State) : State :=
  if lane < 192 then faultPort lane s else if lane < 384 then loseUnitLane lane s else s

/-- The part of a lane that did not complete a turn. -/
def losePart (p : LanePart) (s : State) : State :=
  match p with
  | .middle j => loseMiddle j s
  | .input lane => loseLane lane s
  | .output lane => loseLane lane s

/-- SPINDLE_TURN_TIMEOUT (R338). -/
def execSpindleTurnTimeout (parts : List LanePart) (s : State) : Out :=
  .next (if dataUp s then parts.foldl (fun t p => losePart p t) s else s)

/-! ## Drag mode (R183, R410, R412) -/

/-- A strip; an unlisted one is not in drag mode. -/
def stripAt (s : State) (n : Nat) : Drag := tgetD s.phys.strips n { own := false, rtp := false, junction := 0, since := 0 }

/-- Whether a strip is in drag mode. -/
def inDrag (d : Drag) : Bool := d.own || d.rtp

/-- Write a strip: the event and the counter of entering or leaving drag mode follow from the change (R410, R447). -/
def setStrip (n : Nat) (d : Drag) (s : State) : State :=
  let old := stripAt s n
  let enter := inDrag d && !inDrag old
  let leave := inDrag old && !inDrag d
  let d1 := if enter then { d with since := s.timer.toNat } else d
  let s1 : State := { s with phys := { s.phys with strips := tset s.phys.strips n d1 } }
  if enter then post .dragEnter none [n] s1
  else if leave then post .dragExit none [n] (bump 1 n 9 (s.timer.toNat - old.since) s1)
  else s1

/-- SENTINEL_TRIP (R410, R412). -/
def execSentinelTrip (strip : Nat) (s : State) : Out :=
  .next (if 64 ≤ strip ∨ !dataUp s then s
    else
      let d := stripAt s strip
      let s1 := bump 1 strip 10 1 s
      let s2 := if inDrag d then markStrip strip (bandOf s strip) s1 else s1
      setStrip strip { d with own := true } s2)

/-- JUNCTION_DRAG (R410): the junction sensor's value; drag mode from 100 °C. -/
def execJunctionDrag (strip mC : Nat) (s : State) : Out :=
  .next (if 64 ≤ strip ∨ !dataUp s then s
    else
      let d := stripAt s strip
      setStrip strip { d with junction := mC, own := d.own || decide (100000 ≤ mC) } (reading 1 strip 11 mC s))

/-- DRAG_EXIT (R410): both conditions have held for 10 ms; a drag that the RTP imposes stays. -/
def execDragExit (strip mC : Nat) (s : State) : Out :=
  .next (if 64 ≤ strip ∨ !dataUp s then s
    else
      let d := stripAt s strip
      setStrip strip { d with junction := mC, own := d.own && decide (97000 < mC) } (reading 1 strip 11 mC s))

/-! ## The power cap (R181, R182, R469) -/

/-- The charter's power cap in watts and its VDD_CORE target in millivolts (R429). -/
def powerCap (s : State) : Nat := match s.boot.charter with | some c => c.device.powerCapW | none => 10500
def vddTarget (s : State) : Nat := match s.boot.charter with | some c => c.device.vddMv | none => 700

/-- A set point between two others; which one the RTP takes is free. -/
def between (lo hi f : Nat) : Nat := lo + (Config.freeWord f).toNat % (hi - lo + 1)

/-- POWER_ESTIMATE (R181, R469): above the cap VDD_CORE goes down, otherwise toward the target. While COOLANT_OK is low
it stays at 0.70 V (R476). -/
def execPowerEstimate (watts : Nat) (s : State) : Out :=
  .next (if !dataUp s then s else
    let v := s.phys.vddMv
    let lim := powerCap s < watts
    let v1 := if s.phys.coolantFell.isSome then v else if lim then between 700 v s.free else between v (max v (vddTarget s)) s.free
    { s with free := s.free + 1, phys := { s.phys with watts := watts, vddMv := v1 } })

/-- Impose drag on every strip of a field (R182). -/
def dragField (f : Nat) (s : State) : State :=
  (List.range 8).foldl (fun t i => setStrip (8 * f + i) { stripAt t (8 * f + i) with rtp := true } t) s

/-- Lift it; a strip whose junction is above 97 °C stays in drag mode of itself (R410). -/
def liftField (f : Nat) (s : State) : State :=
  (List.range 8).foldl (fun t i =>
    let d := stripAt t (8 * f + i)
    if d.rtp then setStrip (8 * f + i) { d with rtp := false, own := d.own || decide (97000 < d.junction) } t else t) s

/-- POWER_LIMITED (R182): the estimate exceeds the cap at 0.70 V; the next field enters drag mode, and with every field in
it dispatch is held. -/
def execPowerLimited (s : State) : Out :=
  .next (if s.phys.watts ≤ powerCap s ∨ s.phys.vddMv ≠ 700 ∨ s.boot.phase ≠ .ready then s
    else
      let s1 := if s.phys.limiting then s else post .powerLimited none [s.phys.watts] { s with phys := { s.phys with limiting := true } }
      match (List.range 8).find? (fun f => (List.range 8).any (fun i => !(stripAt s1 (8 * f + i)).rtp)) with
      | some f => dragField f s1
      | none => { s1 with phys := { s1.phys with hold := true } })

/-- POWER_RELEASED (R182): the estimate has stayed below 95 % of the cap; the hold and then the drag are lifted, field by
field in descending order. -/
def execPowerReleased (s : State) : Out :=
  .next (if !s.phys.limiting ∨ powerCap s * 95 ≤ s.phys.watts * 100 then s
    else
      let s1 : State := { s with phys := { s.phys with hold := false, limiting := false } }
      settle (post .powerReleased none [s.phys.watts] ((List.range 8).reverse.foldl (fun t f => liftField f t) s1)))

/-! ## The RTP (R369, R370) -/

/-- RTP_SWITCHOVER (R369, R370): the standby pair takes over; with both pairs failed management stops. -/
def execRtpSwitchover (s : State) : Out :=
  .next (let a := s.boot.activePair
    let ok := s.boot.pairOk
    let left : Bool × Bool := if a = 0 then (false, ok.2) else (ok.1, false)
    let up : Bool := match s.boot.phase with | .off => false | .dark => false | _ => true
    if !up || left = ok then s
    else
      let s1 : State := { s with boot := { s.boot with pairOk := left } }
      if left.1 || left.2 then post .rtpSwitchover none [a] { s1 with boot := { s1.boot with activePair := 1 - a } }
      else { s1 with mgmt := { s1.mgmt with sessions := [], waiting := [] } })

end Sys2Proof.Machine
end

