-- ==== Sys2Proof/Machine/Flags.lean ====
section
/-! DEFINITION. The sticky flags OF, UF and NV of a context (R203): what conversions, vector operations and the
special-function unit set. -/

namespace Sys2Proof.Machine

/-- A context's flags raised by a conversion or a lane. -/
def raiseFlags (k : Ctx) (of uf nv : Bool) : Ctx := { k with of := k.of || of, uf := k.uf || uf, nv := k.nv || nv }

/-- The flags of a list of conversions. -/
def raiseConvs (k : Ctx) (cs : List Conv) : Ctx := raiseFlags k (cs.any (·.of)) (cs.any (·.uf)) (cs.any (·.nv))

/-- FCLR: the flags clear. -/
def clearFlags (k : Ctx) : Ctx := { k with of := false, uf := false, nv := false }

/-- The flags as SYS reads them (R222): bit 0 OF, bit 1 UF, bit 2 NV. -/
def flagWord (k : Ctx) : Nat := (if k.of then 1 else 0) + (if k.uf then 2 else 0) + (if k.nv then 4 else 0)

/-- A lane's result rounded once into a format (R205): a NaN from operands that are not NaN sets NV (R203). -/
def laneConv (f : Byte) (ins : List FVal) (v : FVal) : Conv :=
  let c := convert f v none
  if v = .nan ∧ !ins.contains .nan then { c with nv := true } else c

/-- Whether a value is an integer. -/
def isInteger : FVal → Bool
  | .fin _ m e => decide (0 ≤ e) || m % 2 ^ (-e).toNat == 0
  | _ => false

/-- Whether the exact value of a special function is a binary32 number where the result is below the smallest normal
(R203, R205): a power of two's reciprocal, EXP2 of an integer down to −149 or of −∞, zeros of SINPI and COSPI, TANH of
zero, LOG2 of one, the root of zero, RCP and RSQRT of infinity. -/
def sfuExact (fn : Nat) (x : Word32) : Bool :=
  match fn, f32 x with
  | _, .nan => true
  | 0, .inf _ => true
  | 0, .fin _ m _ => m == 2 ^ Nat.log2 m
  | 2, .inf _ => true
  | 3, .inf _ => true
  | 3, .fin s m e => isInteger (.fin s m e) && (!s || decide ((if 0 ≤ e then m * 2 ^ e.toNat else m / 2 ^ (-e).toNat) ≤ 149))
  | 5, v => isInteger v
  | 6, v => isInteger (fscale v 1)
  | 7, .fin _ m _ => m == 0
  | 1, .fin _ m _ => m == 0
  | 4, .fin _ m e => m == 2 ^ Nat.log2 m && ratLog2 m 1 + e == 0
  | _, _ => false

/-- A special-function lane: its result, NV where a NaN comes from an operand that is not one, UF where the result is
below the smallest normal and inexact. -/
def sfuLane (fn : Nat) (x : Word32) : Conv :=
  let r := sfu fn x
  { Conv.pure r.toNat with nv := decide (r = nan32) && decide (f32 x ≠ .nan),
                           uf := decide (r.toNat % 2 ^ 31 < 2 ^ 23) && !sfuExact fn x }

end Sys2Proof.Machine
end

