-- ==== Sys2Proof/Machine/Operands.lean ====
section
/-! DEFINITION. Operands of core instructions (R211, R214, R215): general registers, predicates, immediates, pairs of
vector registers, scratchpad slots and their hazards (R228), and the lathe's rows. What a context has not written is
free (R180, R211); once read it stays what it was. -/

namespace Sys2Proof.Machine

/-! ## Registers, predicates, immediates -/

/-- General register `r`; g0 reads as zero. -/
def gget (k : Ctx) (r : Nat) : Word64 := if r = 0 then 0 else (k.g[r]?).getD 0

/-- Write general register `r`; g0 ignores writes. -/
def gset (k : Ctx) (r : Nat) (v : Word64) : Ctx := if r = 0 then k else { k with g := k.g.setIfInBounds r v }

/-- Predicate `r`; p0 reads as 1. -/
def pget (k : Ctx) (r : Nat) : Bool := r == 0 || k.p.getLsbD r

/-- Write predicate `r`; p0 ignores writes. -/
def pset (k : Ctx) (r : Nat) (v : Bool) : Ctx :=
  if r = 0 then k else { k with p := if v then k.p ||| (1 <<< r : Byte) else k.p &&& ~~~(1 <<< r : Byte) }

/-- The guard (R213): whether the instruction executes. -/
def guardOk (k : Ctx) (o : Ops) : Bool := pget k o.pred != o.pneg

/-- The immediate, sign-extended. -/
def immS (o : Ops) : Word64 := o.i.signExtend 64

/-- The immediate, zero-extended. -/
def immZ (o : Ops) : Word64 := o.i.zeroExtend 64

/-- A field of the immediate. -/
def immF (o : Ops) (hi lo : Nat) : Nat := fld o.i hi lo

/-- A predicate field (R215). -/
def predOk (r : Nat) : Bool := decide (r < 8)

/-- A vt field names the even register of a pair (R215). -/
def vtOk (r : Nat) : Bool := r % 2 == 0 && decide (r < 8)

/-! ## Vector registers -/

/-- Vector register `r`. -/
def vtRead (r : Nat) (k : Ctx) (s : State) : Block × Ctx × State :=
  match tget k.vt r with
  | some b => (b, k, s)
  | none =>
    let b := Config.freeBlock s.free
    (b, { k with vt := tset k.vt r b }, { s with free := s.free + 1 })

/-- Write vector register `r`. -/
def vtWrite (r : Nat) (b : Block) (k : Ctx) : Ctx := { k with vt := tset k.vt r b }

/-- The 512 bytes of a pair, as a number. -/
def pairRead (r : Nat) (k : Ctx) (s : State) : Nat × Ctx × State :=
  let (a, k1, s1) := vtRead r k s
  let (b, k2, s2) := vtRead (r + 1) k1 s1
  (a.toNat + put b.toNat 2048, k2, s2)

/-- Write a pair. -/
def pairWrite (r v : Nat) (k : Ctx) : Ctx := vtWrite (r + 1) (BitVec.ofNat 2048 (v >>> 2048)) (vtWrite r (BitVec.ofNat 2048 v) k)

/-- The lanes of a pair in a format of FMT 0x0 to 0x2 (R220). -/
def lanesOf (fmt v : Nat) : List Nat := (List.range (2 * fmtPerTile fmt)).map (fun i => (v >>> (fmtBits fmt * i)) % 2 ^ fmtBits fmt)

/-- Lanes as a number. -/
def packLanes (fmt : Nat) (l : List Nat) : Nat := packNat (fmtBits fmt) l

/-! ## Slots -/

/-- The tile of slot `n`. -/
def slotRead (n : Nat) (k : Ctx) (s : State) : Tile × Ctx × State :=
  match tget k.slots n with
  | some t => (t, k, s)
  | none =>
    let t := mkTile (Config.freeBlock s.free)
    (t, { k with slots := tset k.slots n t }, { s with free := s.free + 1 })

/-- The tiles of `c` slots from `n`. -/
def slotReads : Nat → Nat → Ctx → State → List Tile × Ctx × State
  | 0, _, k, s => ([], k, s)
  | c + 1, n, k, s =>
    let (t, k1, s1) := slotRead n k s
    let (ts, k2, s2) := slotReads c (n + 1) k1 s1
    (t :: ts, k2, s2)

/-- Write slots from `n`. -/
def slotWrites (n : Nat) : List Tile → Ctx → Ctx
  | [], k => k
  | t :: ts, k => slotWrites (n + 1) ts { k with slots := tset k.slots n t }

/-- Fresh free tiles. -/
def freeTiles (c : Nat) (s : State) : List Tile × State :=
  ((List.range c).map (fun i => mkTile (Config.freeBlock (s.free + i))), { s with free := s.free + c })

/-- Slots inside the context's SLOTS (R215). -/
def slotsOk (k : Ctx) (first : Word64) (c : Nat) : Bool := decide (first.toNat + c ≤ k.slotCount)

/-! ## Hazards (R228) -/

/-- Slots first and count. -/
abbrev Span := Nat × Nat

/-- Whether two spans share a slot. -/
def spansMeet (a b : Span) : Bool := decide (0 < a.2) && decide (0 < b.2) && decide (a.1 < b.1 + b.2) && decide (b.1 < a.1 + a.2)

/-- The slots that an operation reads, and those that it writes. -/
def opSpans (op : AsyncOp) : List Span × List Span :=
  match op with
  | .load _ _ s c => ([], [(s, c)])
  | .store _ _ s c => ([(s, c)], [])
  | .copy a b c => ([(a, c)], [(b, c)])
  | .zero b c => ([], [(b, c)])
  | .atomic .. => ([], [])
  | .lathe => ([], [])

/-- Tiles of `n` elements of an operand. -/
def operandTiles (f : Byte) (n : Nat) : Nat := cdiv n (fmtPerTile (fsFmt f))

/-- Scale tiles of `n` elements of an operand. -/
def scaleTiles (f : Byte) (n : Nat) : Nat := if fsScaled f then cdiv (cdiv n 32) 256 else 0

/-- The slots that a lathe operation reads, and those that it writes (R219, R230). -/
def latheSpans (op : LatheOp) : List Span × List Span :=
  match op with
  | .zero => ([], [])
  | .pass k a b sa sb m fa fb =>
    ([(a, operandTiles fa (m * k)), (b, operandTiles fb (64 * k)), (sa, scaleTiles fa (m * k)), (sb, scaleTiles fb (64 * k))], [])
  | .store rows slot scale f _ _ => ([], [(slot, operandTiles f (64 * rows)), (scale, scaleTiles f (64 * rows))])
  | .load rows slot => ([(slot, rows)], [])

/-- Whether an instruction that reads and writes spans conflicts with an outstanding operation. -/
def conflicts (rs ws : List Span) (op : List Span × List Span) : Bool :=
  op.2.any (fun a => (rs ++ ws).any (spansMeet a)) || op.1.any (fun a => ws.any (spansMeet a))

/-- Whether an instruction's spans conflict with anything outstanding in its context. -/
def hazard (rs ws : List Span) (x : CtxId) (k : Ctx) (s : State) : Bool :=
  k.tokens.any (fun t => t.2.done.isNone && conflicts rs ws (opSpans t.2.op)) ||
  (match coreOf s x.core with
   | some c => c.holder == some x.ctx && c.latheQ.any (fun e => !e.dead && conflicts rs ws (latheSpans e.op))
   | none => false)

/-- Operations of which an instruction that writes spans has touched the slots become wild. -/
def markWild (ws : List Span) (x : CtxId) (k : Ctx) (s : State) : Ctx × State :=
  ({ k with tokens := k.tokens.map (fun t => (t.1, if conflicts [] ws (opSpans t.2.op) then { t.2 with wild := true } else t.2)) },
   modCore x.core (fun c => { c with latheQ := c.latheQ.map (fun e =>
     if c.holder = some x.ctx ∧ !e.dead ∧ conflicts [] ws (latheSpans e.op) then { e with wild := true } else e) }) s)

/-- Read slots for an instruction: what an outstanding operation writes reads as a free value. -/
def insnReads (first c : Nat) (x : CtxId) (k : Ctx) (s : State) : List Tile × Ctx × State :=
  if hazard [(first, c)] [] x k s then
    let (ts, s1) := freeTiles c s
    (ts, k, s1)
  else slotReads c first k s

/-- Write slots for an instruction: a write that R228 leaves unpredictable writes free values. -/
def insnWrites (first : Nat) (ts : List Tile) (x : CtxId) (k : Ctx) (s : State) : Ctx × State :=
  if hazard [] [(first, ts.length)] x k s then
    let (fs, s1) := freeTiles ts.length s
    let (k2, s2) := markWild [(first, ts.length)] x k s1
    (slotWrites first fs k2, s2)
  else (slotWrites first ts k, s)

/-! ## Accumulator rows -/

/-- Row `i` of the accumulator array of a core. -/
def accRow (c : Core) (i : Nat) : Block := tgetD c.acc i 0

/-- Write a row. -/
def setRow (i : Nat) (b : Block) (c : Core) : Core := { c with acc := tset c.acc i b }

/-- Word `j` of a row. -/
def rowWord (b : Block) (j : Nat) : Word32 := BitVec.ofNat 32 (elemAt 0 b j)

/-! ## The item of a context -/

/-- The image that a context runs: APPLY items only (R236). -/
def imageOf (s : State) (k : Ctx) : Option KernelImage :=
  match cmdOfItem s k.item with
  | some (_, c) => c.image
  | none => none

/-- The instructions that a context's image holds. -/
def codeLen (s : State) (k : Ctx) : Nat :=
  match imageOf s k with
  | some i => i.codeInstrs
  | none => 0

/-- Instructions that an item may issue in one run; none: no budget (R242). -/
def budgetOf (s : State) (k : Ctx) : Option Nat :=
  match imageOf s k with
  | some i => if i.itemBudget = 0 then none else some (i.itemBudget.toNat * 65536)
  | none => none

/-- What an item's accesses act for: its addresses are data (R225). -/
def itemActor (s : State) (x : CtxId) (k : Ctx) (wild : Bool) : Option Actor :=
  match cmdOfItem s k.item with
  | some (q, c) => some { actorOf s x k.item q c with wild := wild, data := true }
  | none => none

end Sys2Proof.Machine
end

