-- ==== Sys2Proof/Machine/Issue.lean ====
section
/-! DEFINITION. Issue (R212, R213), waits (R221, R226, R229), the end of an APPLY item (R227, R242) and the checks that
fail one (R215). A command of a core instruction is the issue of that instruction by a context; a context that cannot
issue stays as it is. -/

namespace Sys2Proof.Machine

/-! ## Counts (R450) -/

/-- Count an event of the core that runs a context, carrying privilege, class, partition and slot. -/
def countCore (x : CtxId) (part event n : Nat) (cls slot : Option Nat) (s : State) : State :=
  match coreOf s x.core with
  | some { phys := some p, .. } => occur { Occ.bare 0 p event n with priv := some 2, part := some part, cls := cls, slot := slot } s
  | _ => s

/-! ## Failing and ending -/

/-- The item of a context fails: the context issues nothing more and its lathe is released; the first failure
stands (R215, R227). -/
def failCtx (x : CtxId) (st : St) (d : Word32) (s : State) : State :=
  modCore x.core (fun c =>
    let c1 := releaseLathe x.ctx c
    { c1 with ctxs := tmod c1.ctxs x.ctx (fun k => { k with wait := none, failing := some (k.failing.getD (st, d)) }) }) s

/-- Operations of a context that have not completed. -/
def openTokens (k : Ctx) : List Token := (k.tokens.map (·.2)).filter (fun t => t.done.isNone)

/-- Whether lathe operations of a context are queued. -/
def latheBusy (s : State) (x : CtxId) : Nat :=
  match coreOf s x.core with
  | some c => if c.holder = some x.ctx then (c.latheQ.filter (fun e => !e.dead)).length else 0
  | none => 0

/-- Nothing of a context is outstanding. -/
def quiet (s : State) (x : CtxId) (k : Ctx) : Bool := (openTokens k).isEmpty && latheBusy s x == 0

/-- The item ends, once nothing of it is outstanding: with ST_OK after END, else with the status of its failure (R227,
R242). -/
def endIf (x : CtxId) (k : Ctx) (s : State) : State :=
  if !quiet s x k then s
  else match k.failing with
    | some (st, d) => settle (endItemAt x k.item st d s)
    | none => if k.wait = some .ending then settle (endItemAt x k.item .ok 0 s) else s

/-- The context goes on at an instruction; one outside the code fails the item (R215). -/
def setPc (x : CtxId) (n : Nat) (k : Ctx) (s : State) : State :=
  if n < codeLen s k then putCtx x { k with pc := n, wait := none } s
  else failCtx x .opcode (BitVec.ofNat 32 n) (putCtx x k s)

/-! ## Tokens (R226) -/

/-- The token of an entry. -/
def tokenWord (e serial : Nat) : Word64 := BitVec.ofNat 64 (e + 32 * serial)

/-- The entry that a token names, if it still matches. -/
def tokenMatch (k : Ctx) (t : Word64) : Option Token :=
  match tget k.tokens (t.toNat % 32) with
  | some e => if tokenWord (t.toNat % 32) e.serial = t then some e else none
  | none => none

/-- Whether a WAIT is over. -/
def waitOver (k : Ctx) (o : Ops) : Bool :=
  match tokenMatch k (gget k o.a) with
  | some e => e.done.isSome
  | none => true

/-- WAIT returns: the TATOM's result, its entry freed, or 0. -/
def waitEnd (k : Ctx) (o : Ops) : Ctx :=
  match tokenMatch k (gget k o.a) with
  | some e => gset { k with tokens := tdel k.tokens ((gget k o.a).toNat % 32) } o.d (BitVec.ofNat 64 (e.done.getD 0).toNat)
  | none => gset k o.d 0

/-- The lowest free entry. -/
def freeEntry (k : Ctx) : Option Nat := (List.range 32).find? (fun i => !thas k.tokens i)

/-- Whether TATOMs hold every entry in use: no WAIT has named them, answered or not (R226). -/
def tatomsHold (k : Ctx) : Bool :=
  k.tokens.all (fun t => decide (32 ≤ t.1) || (match t.2.op with | .atomic _ _ _ _ _ _ _ _ => true | _ => false))

/-- The home that an operation's request goes to, and its class: TLD and TST on TC1, TATOM on TC2 (R225). -/
def opHome (t : Token) : Option (Node × Nat) :=
  match t.op with
  | .load .global a _ _ => some (t.sent.getD (aNode a), 1)
  | .store .global a _ _ => some (t.sent.getD (aNode a), 1)
  | .atomic a _ _ _ _ _ _ _ => some (t.sent.getD (aNode a), 2)
  | _ => none

/-- Whether a context waits for a request to a home (R221). -/
def fencePending (k : Ctx) (n : Node) : Bool :=
  (openTokens k).any (fun t => match opHome t with | some h => h.1 == n | none => false)

/-! ## Waits -/

/-- LRD: two accumulator rows into a pair (R219). -/
def doLrd (x : CtxId) (o : Ops) (k : Ctx) (s : State) : Ctx :=
  match coreOf s x.core with
  | some c =>
    let r := (gget k o.a).toNat
    vtWrite (o.d + 1) (accRow c (r + 1)) (vtWrite o.d (accRow c r) k)
  | none => k

/-- LWR: a pair into two accumulator rows (R219). -/
def doLwr (x : CtxId) (o : Ops) (k : Ctx) (s : State) : Ctx × State :=
  let r := (gget k o.a).toNat
  let (a, k1, s1) := vtRead o.d k s
  let (b, k2, s2) := vtRead (o.d + 1) k1 s1
  (k2, modCore x.core (fun c => setRow (r + 1) b (setRow r a c)) s2)

/-- Whether what a context waits for has happened, or its failed or ended item can end (R212, R221, R226, R227, R229). -/
def due (s : State) (x : CtxId) (k : Ctx) : Bool :=
  if k.failing.isSome then quiet s x k
  else match k.wait with
    | none => false
    | some .code => false
    | some .args => false
    | some .ending => quiet s x k
    | some (.wait o) => waitOver k o
    | some .waitall => (openTokens k).isEmpty
    | some (.fence n) => !fencePending k n
    | some .lacq => (coreOf s x.core).any (fun c => c.holder == some x.ctx && !c.releasing)
    | some (.lrd _) => latheBusy s x == 0
    | some (.lwr _) => latheBusy s x == 0
    | some (.lsync n) => decide (latheBusy s x ≤ n)
    | some .token => (freeEntry k).isSome
    | some .room => decide (latheBusy s x < 8)
    | some (.window h) => !windowFull s k.item.part h

/-- The context goes on: the waiting instruction completes, the context may issue again, or the item ends. -/
def goOn (x : CtxId) (k : Ctx) (s : State) : State :=
  if k.failing.isSome then endIf x k s
  else match k.wait with
    | none => s
    | some .code => s
    | some .args => s
    | some .ending => endIf x k s
    | some (.wait o) => setPc x (k.pc + 1) (waitEnd k o) s
    | some .waitall => setPc x (k.pc + 1) { k with tokens := [] } s
    | some (.fence _) => setPc x (k.pc + 1) k s
    | some .lacq => setPc x (k.pc + 1) k s
    | some (.lrd o) => setPc x (k.pc + 1) (doLrd x o k s) s
    | some (.lwr o) => let r := doLwr x o k s; setPc x (k.pc + 1) r.1 r.2
    | some (.lsync _) => setPc x (k.pc + 1) k s
    | some .token => putCtx x { k with wait := none } s
    | some .room => putCtx x { k with wait := none } s
    | some (.window _) => putCtx x { k with wait := none } s

/-- A context that is due goes on. -/
def wakeCtx (s : State) (x : CtxId) : State :=
  match ctxOf s x with
  | none => s
  | some k => if due s x k then goOn x k s else s

/-- Wake the contexts of a core; an item that ends may let another have the lathe. -/
def wakeCore (c : Nat) (s : State) : State :=
  ((List.range 4).flatMap (fun _ => List.range 4)).foldl (fun t i => wakeCtx t { core := c, ctx := i }) s

/-! ## Issue -/

/-- What an instruction does: it completes and the next one follows, it completes and another follows, it is issued and
waits, it is not issued for want of room, or it fails the item. -/
inductive IOut where
  | go (k : Ctx) (s : State)
  | jump (pc : Nat) (k : Ctx) (s : State)
  | stay (w : CtxWait) (k : Ctx) (s : State)
  | hold (w : CtxWait)
  | fail (st : St) (d : Word32)

/-- A failure whose DETAIL is the PC (R215). -/
def failPc (k : Ctx) (st : St) : IOut := .fail st (BitVec.ofNat 32 k.pc)

/-- An ST_OPCODE case of R215. -/
def badInsn (k : Ctx) : IOut := failPc k .opcode

/-- The context, if it can issue (R212): it runs an APPLY item and waits for nothing. -/
def canIssue (s : State) (x : CtxId) : Option Ctx :=
  match coreOf s x.core, ctxOf s x with
  | some c, some k =>
    if c.recovering || partState s k.item.part != .active || k.item.engine != 5 || k.item.coll.isSome || k.wait.isSome ||
      k.failing.isSome || decide (codeLen s k ≤ k.pc) then none else some k
  | _, _ => none

/-- The word of code that a context has come to (R213). -/
def codeAt (s : State) (k : Ctx) : Option Word64 :=
  match imageOf s k with
  | some i => i.code[k.pc]?
  | none => none

/-- The instruction that a context has come to. -/
def insnAt (s : State) (x : CtxId) (k : Ctx) : Option Instr :=
  match codeAt s k with
  | some w => insnOf w x
  | none => none

/-- Whether it is a context's turn (R212): none of the contexts that follow the last to issue, and come before it, is able
to issue. -/
def hisTurn (s : State) (x : CtxId) : Bool :=
  match coreOf s x.core with
  | none => false
  | some c => ((List.range 4).map (fun i => (c.last + 1 + i) % 4)).find? (fun i => (canIssue s { core := x.core, ctx := i }).isSome) == some x.ctx

/-- Whether an item has issued all that its budget allows (R242). -/
def spent (s : State) (k : Ctx) : Bool :=
  match budgetOf s k with
  | some n => decide (n ≤ k.issued)
  | none => false

/-- A context of a partition has issued an instruction: it is the last of its core to issue (R212), and the instruction is
counted (R450). -/
def didIssue (x : CtxId) (part : Nat) (s : State) : State :=
  countCore x part 0x04 1 none none (modCore x.core (fun c => { c with last := x.ctx }) s)

/-- What follows an instruction's effect; one that is not issued leaves nothing but the wait. -/
def conclude (x : CtxId) (k0 k : Ctx) (s : State) (r : IOut) : State :=
  match r with
  | .go k1 s1 => didIssue x k.item.part (setPc x (k.pc + 1) k1 s1)
  | .jump n k1 s1 => didIssue x k.item.part (setPc x n k1 s1)
  | .stay w k1 s1 => didIssue x k.item.part (putCtx x { k1 with wait := some w } s1)
  | .hold w => putCtx x { k0 with wait := some w } s
  | .fail st d => didIssue x k.item.part (failCtx x st d (putCtx x k s))

/-- Issue one instruction in a context's turn: the one that its code holds at the PC, which the command names; past its
budget the item fails (R242); an instruction whose guard fails does nothing (R213). -/
def issueOne (c : Instr) (x : CtxId) (o : Ops) (body : Ctx → State → IOut) (s : State) : State :=
  match canIssue s x with
  | none => s
  | some k0 =>
    if !hisTurn s x || insnAt s x k0 != some c then s
    else if spent s k0 then failCtx x .state 0xFFFFFFFF s
    else
      let k := { k0 with issued := k0.issued + 1 }
      conclude x k0 k s (if guardOk k o then body k s else .go k s)

/-- The issue of an instruction by a context, between what the contexts of the core then may do. -/
def insn (c : Instr) (x : CtxId) (o : Ops) (body : Ctx → State → IOut) (s : State) : Out :=
  .next (wakeCore x.core (wakeCtx (issueOne c x o body (wakeCore x.core s)) x))

/-- ITEM_BUDGET_EXCEEDED (R242). -/
def execItemBudgetExceeded (x : CtxId) (s : State) : Out :=
  match canIssue s x with
  | none => .next s
  | some k => .next (wakeCore x.core (if spent s k then failCtx x .state 0xFFFFFFFF s else s))

end Sys2Proof.Machine
end

