-- ==== Sys2Proof/Machine/Lathe.lean ====
section
/-! DEFINITION. The lathe class (R189 to R191, R219, R229, R230) and the completion of queued lathe operations. -/

namespace Sys2Proof.Machine

/-! ## Holding the lathe (R229) -/

/-- Whether a context holds the lathe and has not released it. -/
def holdsLathe (s : State) (x : CtxId) : Bool := (coreOf s x.core).any (fun c => c.holder == some x.ctx && !c.releasing)

/-- A lathe instruction other than LACQ: by a context that does not hold the lathe it fails the item. -/
def latheInsn (c : Instr) (x : CtxId) (o : Ops) (body : Ctx → State → IOut) (s : State) : Out :=
  insn c x o (fun k t => if holdsLathe t x then body k t else failPc k .state) s

/-- Ask for the lathe: granted at once if it is free, else in request order. -/
def askLathe (x : CtxId) (c : Core) : Core :=
  let c1 := { c with waiters := c.waiters ++ [x.ctx] }
  if c.holder = none then grantNext c1 else c1

/-- LACQ (R229). -/
def execLacq (x : CtxId) (o : Ops) (s : State) : Out :=
  insn (.lacq x o) x o (fun k t => if holdsLathe t x then .go k t else .stay .lacq k (modCore x.core (askLathe x) t)) s

/-- LREL (R229). -/
def execLrel (x : CtxId) (o : Ops) (s : State) : Out :=
  latheInsn (.lrel x o) x o (fun k t => .go k (modCore x.core (releaseLathe x.ctx) t)) s

/-! ## Queued operations -/

/-- Steps of a pass but for its fill (R190). -/
def passSteps (k m : Nat) (fa fb : Byte) : Nat :=
  let w := max (fmtBits (fsFmt fa)) (fmtBits (fsFmt fb))
  if w = 4 then k else if w ≤ 8 then cdiv m 64 * k else cdiv m 32 * k

/-- The lathe steps that an operation takes; the fill of a pass overlaps with a pass queued before it (R190). -/
def latheSteps (op : LatheOp) (c : Core) : Nat :=
  match op with
  | .pass k _ _ _ _ m fa fb =>
    let after : Bool := match c.latheQ.getLast? with
      | some { op := .pass .., .. } => true
      | _ => false
    passSteps k m fa fb + (if after then 0 else 16)
  | _ => 0

/-- Put an operation into the queue; one that conflicts with what is outstanding is wild (R228). -/
def enqueue (x : CtxId) (op : LatheOp) (k : Ctx) (s : State) : Ctx × State :=
  let (rs, ws) := latheSpans op
  let wild := hazard rs ws x k s
  let (k1, s1) := markWild ws x k s
  let n := match coreOf s x.core with | some c => latheSteps op c | none => 0
  let s2 := if n = 0 then s1 else countCore x k.item.part 0x01 n none none s1
  (k1, modCore x.core (fun c => { c with latheQ := c.latheQ ++ [{ op := op, wild := wild }] }) s2)

/-- Queue an operation; a ninth waits for room. -/
def queueLathe (x : CtxId) (op : LatheOp) (k : Ctx) (s : State) : IOut :=
  if 8 ≤ latheBusy s x then .hold .room
  else
    let (k1, s1) := enqueue x op k s
    .go k1 s1

/-- LZERO (R219). -/
def execLzero (x : CtxId) (o : Ops) (s : State) : Out := latheInsn (.lzero x o) x o (fun k t => queueLathe x .zero k t) s

/-- K of LPASS (R189, R215). -/
def kOk (v : Word64) : Bool := v.toNat % 32 == 0 && decide (32 ≤ v.toNat) && decide (v.toNat ≤ 32768)

/-- Whether spans of slots lie inside the context's. -/
def spansOk (k : Ctx) (l : List Span) : Bool := l.all (fun p => p.2 == 0 || decide (p.1 + p.2 ≤ k.slotCount))

/-- LPASS (R189, R215, R219). -/
def execLpass (x : CtxId) (o : Ops) (s : State) : Out :=
  latheInsn (.lpass x o) x o (fun k t =>
    let fb : Byte := BitVec.ofNat 8 (immF o 19 12)
    if !kOk (gget k o.d) || !pairOk o.f fb then badInsn k
    else
      let c := gget k o.c
      let op : LatheOp := .pass (gget k o.d).toNat (gget k o.a).toNat (gget k o.b).toNat (fld c 15 0) (fld c 31 16) (immF o 11 5 + 1) o.f fb
      if !spansOk k (latheSpans op).1 then failPc k .noAccess else queueLathe x op k t) s

/-- The row register of LRD and LWR (R215). -/
def rowOk (v : Word64) : Bool := v.toNat % 2 == 0 && decide (v.toNat ≤ 126)

/-- LRD (R219, R229). -/
def execLrd (x : CtxId) (o : Ops) (s : State) : Out :=
  latheInsn (.lrd x o) x o (fun k t =>
    if !vtOk o.d || !rowOk (gget k o.a) then badInsn k
    else if latheBusy t x = 0 then .go (doLrd x o k t) t else .stay (.lrd o) k t) s

/-- LWR (R219, R229). -/
def execLwr (x : CtxId) (o : Ops) (s : State) : Out :=
  latheInsn (.lwr x o) x o (fun k t =>
    if !vtOk o.d || !rowOk (gget k o.a) then badInsn k
    else if latheBusy t x = 0 then
      let (k1, t1) := doLwr x o k t
      .go k1 t1
    else .stay (.lwr o) k t) s

/-- LST (R219): it takes room in the queue and a token. -/
def execLst (x : CtxId) (o : Ops) (s : State) : Out :=
  latheInsn (.lst x o) x o (fun k t =>
    let rows := immF o 6 0 + 1
    let op (e : Nat) : LatheOp := .store rows (gget k o.b).toNat (gget k o.c).toNat o.f e k.seed
    if !fsOk o.f then badInsn k
    else if !spansOk k (latheSpans (op 0)).2 then failPc k .noAccess
    else if 8 ≤ latheBusy t x then .hold .room
    else match freeEntry k with
      | none => if tatomsHold k then failPc k .state else .hold .token
      | some e =>
        let n := k.nextSerial + 1
        let (k1, t1) := enqueue x (op e) k t
        let k2 := gset { k1 with nextSerial := n } o.d (tokenWord e n)
        .go { k2 with tokens := tset k2.tokens e { serial := n, op := .lathe, pc := k.pc, wild := false, sent := none, done := none } } t1) s

/-- LLD (R219). -/
def execLld (x : CtxId) (o : Ops) (s : State) : Out :=
  latheInsn (.lld x o) x o (fun k t =>
    let op : LatheOp := .load (immF o 6 0 + 1) (gget k o.b).toNat
    if !spansOk k (latheSpans op).1 then failPc k .noAccess else queueLathe x op k t) s

/-- LSYNC (R219). -/
def execLsync (x : CtxId) (o : Ops) (s : State) : Out :=
  latheInsn (.lsync x o) x o (fun k t => if latheBusy t x ≤ immF o 3 0 then .go k t else .stay (.lsync (immF o 3 0)) k t) s

/-! ## Completion -/

/-- The elements of an operand in slots, with the scale of each block (R197, R198). -/
def readOperand (f : Byte) (n slot scale : Nat) (k : Ctx) (s : State) : List Nat × List Nat × Ctx × State :=
  let (ts, k1, s1) := slotReads (operandTiles f n) slot k s
  let (ss, k2, s2) := slotReads (scaleTiles f n) scale k1 s1
  (((ts.map (fun t => elemsOf (fsFmt f) t.data)).flatten).take n, (ss.map (fun t => elemsOf 8 t.data)).flatten, k2, s2)

/-- Row `i` of an A operand of `m` rows in panels 32 columns wide, with the scale of each run (R230). -/
def aRow (f : Byte) (m k i : Nat) (codes scales : List Nat) : List FVal × List Nat :=
  (((List.range (k / 32)).map (fun p => (codes.drop (p * 32 * m + 32 * i)).take 32)).flatten.map (decodeFmt (fsFmt f)),
   if fsScaled f then (List.range (k / 32)).map (fun p => scales.getD (p * m + i) 0x7F) else [])

/-- Column `j` of a B operand of `k` rows (R230). -/
def bCol (f : Byte) (k j : Nat) (codes scales : List Nat) : List FVal × List Nat :=
  (((codes.drop (j * k)).take k).map (decodeFmt (fsFmt f)), if fsScaled f then (scales.drop (j * (k / 32))).take (k / 32) else [])

/-- One row of a pass, with the flags of its words (R191, R203). -/
def passRow (narrow : Bool) (row : Block) (a : List FVal × List Nat) (cols : List (List FVal × List Nat)) : Block × List LatheSum :=
  let ws := (numberFrom 0 cols).map (fun p => latheSum narrow (rowWord row p.1) a.1 p.2.1 a.2 p.2.2)
  (packElems 0 (ws.map (fun w => w.word.toNat)), ws)

/-- Free rows of the accumulator. -/
def freeRows (m : Nat) (c : Core) (s : State) : Core × State :=
  ((List.range m).foldl (fun c1 i => setRow i (Config.freeBlock (s.free + i)) c1) c, { s with free := s.free + m })

/-- The rows of a pass one after another, with the flags of their words. -/
def passRows (narrow : Bool) (a : Nat → List FVal × List Nat) (cols : List (List FVal × List Nat)) : List Nat → Core → Core × List LatheSum
  | [], c => (c, [])
  | i :: is, c =>
    let r := passRow narrow (accRow c i) (a i) cols
    let q := passRows narrow a cols is (setRow i r.1 c)
    (q.1, r.2 ++ q.2)

/-- A pass: C ← C + A · B; its results set UF and NV (R191, R203). -/
def runPass (kk a b sa sb m : Nat) (fa fb : Byte) (wild : Bool) (k : Ctx) (c : Core) (s : State) : Ctx × Core × State :=
  if wild then
    let (c1, s1) := freeRows m c s
    (k, c1, s1)
  else
    let (ac, as, k1, s1) := readOperand fa (m * kk) a sa k s
    let (bc, bs, k2, s2) := readOperand fb (64 * kk) b sb k1 s1
    let cols := (List.range 64).map (fun j => bCol fb kk j bc bs)
    let (c1, ws) := passRows (narrowFmt fa) (fun i => aRow fa m kk i ac as) cols (List.range m) c
    (raiseFlags k2 false (ws.any (·.uf)) (ws.any (·.nv)), c1, s2)

/-- The rows of the accumulator in panel order (R230). -/
def panelWords (rows : Nat) (c : Core) : List Word32 :=
  ((List.range 2).map (fun p => ((List.range rows).map (fun i => (List.range 32).map (fun j => rowWord (accRow c i) (32 * p + j)))).flatten)).flatten

/-- Blocks of converted elements, what the last holds past them free. -/
def padLast (fmt n : Nat) (bs : List Block) (s : State) : List Block × State :=
  ((numberFrom 0 bs).map (fun p => padWith fmt (min (fmtPerTile fmt) (n - fmtPerTile fmt * p.1)) p.2 (Config.freeBlock (s.free + p.1))),
   { s with free := s.free + bs.length })

/-- LST: rows are converted into slots, scales into theirs (R200, R202, R203, R230). -/
def runStore (rows slot scale : Nat) (f : Byte) (entry : Nat) (seed : Word64) (wild : Bool) (k : Ctx) (c : Core) (s : State) : Ctx × State :=
  let n := 64 * rows
  let r := convertAll f seed 0 ((panelWords rows c).map f32)
  let k1 := { raiseFlags k r.of r.uf r.nv with tokens := tdel k.tokens entry }
  if wild then
    let (ts, s1) := freeTiles (operandTiles f n) s
    let (ss, s2) := freeTiles (scaleTiles f n) s1
    (slotWrites scale ss (slotWrites slot ts k1), s2)
  else
    let (bs, s1) := padLast (fsFmt f) n (packTiles (fsFmt f) r.codes) s
    let (cs, s2) := padLast 8 r.scales.length (packTiles 8 r.scales) s1
    (slotWrites scale (cs.map mkTile) (slotWrites slot (bs.map mkTile) k1), s2)

/-- LLD: rows take binary32 values from slots (R230). -/
def runLoad (rows slot : Nat) (wild : Bool) (k : Ctx) (c : Core) (s : State) : Ctx × Core × State :=
  if wild then
    let (c1, s1) := freeRows rows c s
    (k, c1, s1)
  else
    let (ts, k1, s1) := slotReads rows slot k s
    let v := (ts.map (fun t => elemsOf 0 t.data)).flatten
    let c1 := (List.range rows).foldl (fun c0 i => setRow i
      (packElems 0 (((v.drop (32 * i)).take 32) ++ ((v.drop (32 * rows + 32 * i)).take 32))) c0) c
    (k1, c1, s1)

/-- The first queued operation of a core runs; the lathe of a holder that has released it is granted on once its queue
is empty (R229). -/
def latheDone (n : Nat) (s : State) : State :=
  match coreOf s n with
  | none => s
  | some c =>
    match c.latheQ, c.holder with
    | e :: rest, some h =>
      let x : CtxId := { core := n, ctx := h }
      let ends (acc : Table Block) (y : Core) : Core :=
        let y1 := { y with acc := acc, latheQ := rest }
        if rest.isEmpty && y.releasing then grantNext y1 else y1
      if e.dead then modCore n (ends c.acc) s
      else match ctxOf s x with
      | none => s
      | some k =>
        let (k1, c1, s1) := match e.op with
          | .zero => (k, { c with acc := [] }, s)
          | .pass kk a b sa sb m fa fb => runPass kk a b sa sb m fa fb e.wild k c s
          | .store rows slot scale f entry seed =>
            let (k2, s2) := runStore rows slot scale f entry seed e.wild k c s
            (k2, c, s2)
          | .load rows slot => runLoad rows slot e.wild k c s
        putCtx x k1 (modCore n (ends c1.acc) s1)
    | _, _ => s

/-- LATHE_OP_COMPLETE (R229). -/
def execLatheOpComplete (core : Nat) (s : State) : Out :=
  .next (if (coreOf s core).any (·.recovering) then s else wakeCore core (latheDone core s))

end Sys2Proof.Machine
end

