-- ==== Sys2Proof/Machine/Images.lean ====
section
/-! DEFINITION. The bytes of a charter image (R427 to R431): its header, its section directory, and the templates of section
0x07, little-endian under R6. The contents of the other sections have no byte layout in the source, so a charter carries them
field by field beside its bytes (log entry 165). -/

namespace Sys2Proof.Machine

/-- The number that `n` bytes from `off` spell, lowest first (R6). -/
def wordAt (l : List Byte) (off n : Nat) : Nat := ((l.drop off).take n).foldr (fun b v => v * 256 + b.toNat) 0

/-! ## Header and directory (R427, R428) -/

/-- Whether a charter's header holds these fields; its reserved bits are ignored (R8, R427). -/
def headerHeld (c : Charter) : Bool :=
  let h := wordAt c.bytes 0 64
  decide (64 ≤ c.bytes.length) && bitsOf h 480 32 == c.magic.toNat && bitsOf h 472 8 == c.format.toNat &&
  bitsOf h 456 16 == c.node.toNat && bitsOf h 384 64 == c.serial.toNat && bitsOf h 368 16 == c.compiler.toNat

/-- SECTIONS. -/
def sectionCount (c : Charter) : Nat := bitsOf (wordAt c.bytes 0 64) 448 8

/-- An entry of the section directory (R428). -/
structure SectionEntry where
  id : Nat
  offset : Nat
  size : Nat
  crc : Nat
  deriving DecidableEq, Repr

/-- The directory: SECTIONS entries of 16 bytes after the header (R428). -/
def directory (c : Charter) : List SectionEntry :=
  (List.range (sectionCount c)).map (fun i =>
    let w := wordAt c.bytes (64 + 16 * i) 16
    { id := bitsOf w 120 8, offset := bitsOf w 64 32, size := bitsOf w 32 32, crc := bitsOf w 0 32 })

/-- Whether an entry lies within the image, 64-byte aligned, with a passing CRC (R428, R433). -/
def sectionOk (c : Charter) (e : SectionEntry) : Bool :=
  decide (1 ≤ e.id) && decide (e.id ≤ 8) && e.offset % 64 == 0 && decide (e.offset + e.size ≤ c.bytes.length) &&
  (crc32c e.size (wordAt c.bytes e.offset e.size)).toNat == e.crc

/-- Check 1 of R433 on the directory: 1 to 32 entries, each within the image with a passing CRC, no ID twice or reserved. -/
def directoryOk (c : Charter) : Bool :=
  let d := directory c
  decide (1 ≤ sectionCount c) && decide (sectionCount c ≤ 32) && decide (64 + 16 * sectionCount c ≤ c.bytes.length) &&
  d.all (sectionOk c) && (d.map (·.id)).eraseDups.length == d.length

/-- The bytes of a section; none if the charter has no such section (R429). -/
def sectionBytes (c : Charter) (id : Nat) : List Byte :=
  match (directory c).find? (fun e => e.id == id) with
  | some e => (c.bytes.drop e.offset).take e.size
  | none => []

/-! ## Templates (R430, R431) -/

/-- The header of a template. -/
def templateHeader (h : Nat) : Template := {
  partition := bitsOf h 508 4, autostart := bitOf h 507, omitSlots := bitOf h 506, modes := BitVec.ofNat 4 (bitsOf h 502 4),
  coresMin := bitsOf h 490 12, coresMax := bitsOf h 478 12, channelsMin := bitsOf h 468 10, channelsMax := bitsOf h 458 10,
  queueBase := bitsOf h 446 12, queueCount := bitsOf h 435 11, groupQuota := bitsOf h 422 13, watchdog := bitsOf h 411 11,
  dirLog2 := bitsOf h 406 5, ledgerK := bitsOf h 391 15, vindexMib := bitsOf h 375 16, sinterGib := bitsOf h 359 16,
  sinterGroup := bitsOf h 351 8, journalMib := bitsOf h 338 13, kernelMib := bitsOf h 329 9, fwMib := bitsOf h 321 8,
  queueMib := bitsOf h 305 16, cacheGib := bitsOf h 294 11, mirrorA := bitsOf h 284 10, mirrorB := bitsOf h 274 10,
  supKeys := [], grants := [], resident := [], reach := [] }

/-- A supervisor key hash: 32 bytes, the first highest (FIPS 180-4). -/
def readKeyHash (l : List Byte) (off : Nat) : BitVec 256 := BitVec.ofNat 256 (beNat (((l.drop off).take 32).map (·.toNat)))

/-- A GRANTS entry. -/
def readGrant (l : List Byte) (off : Nat) : Grant :=
  let w := wordAt l off 8
  { group := bitsOf w 56 8, first := bitsOf w 32 24, len := bitsOf w 8 24 }

/-- A RESIDENT entry: position and size. -/
def readResident (l : List Byte) (off : Nat) : Nat × Nat :=
  let w := wordAt l off 4
  (bitsOf w 22 10, bitsOf w 0 22)

/-- A REACH entry (R431, R432). -/
def readReach (l : List Byte) (off : Nat) : Reach :=
  let w := wordAt l off 4
  { owner := bitsOf w 28 4, hold := bitOf w 24, write := bitOf w 25, lease := bitOf w 26, cache := bitOf w 27 }

/-- The template that a list of bytes begins with, and its length: the header and the lists that it counts (R430, R431). -/
def readTemplate (l : List Byte) : Option (Template × Nat) :=
  let h := wordAt l 0 64
  let grants := 64 + 32 * bitsOf h 270 4
  let resident := grants + 8 * bitsOf h 262 8
  let reach := resident + 4 * bitsOf h 255 7
  let len := reach + 4 * bitsOf h 250 5
  if l.length < len then none
  else some ({ templateHeader h with
    supKeys := (List.range (bitsOf h 270 4)).map (fun i => readKeyHash l (64 + 32 * i)),
    grants := (List.range (bitsOf h 262 8)).map (fun i => readGrant l (grants + 8 * i)),
    resident := (List.range (bitsOf h 255 7)).map (fun i => readResident l (resident + 4 * i)),
    reach := (List.range (bitsOf h 250 5)).map (fun i => readReach l (reach + 4 * i)) }, len)

/-- The templates of section 0x07, at most 16: one after another, a partition without one taking no bytes (log entry 165). -/
def readTemplates : Nat → List Byte → Option (List Template)
  | n, l =>
    if l.isEmpty then some []
    else match n with
      | 0 => none
      | k + 1 => match readTemplate l with
        | none => none
        | some (t, len) => (readTemplates k (l.drop len)).map (t :: ·)

/-- The templates of a charter. -/
def templatesOf (c : Charter) : List Template := c.parts.filterMap (·.template)

/-- Whether section 0x07 holds the charter's templates. -/
def templatesHeld (c : Charter) : Bool := readTemplates 16 (sectionBytes c 7) == some (templatesOf c)

end Sys2Proof.Machine
end

