-- ==== Sys2Proof/Machine/Parts.lean ====
section
/-! DEFINITION. Composing, growing, shrinking, dissolving and reading a partition (R364 to R368, R441), the scrub of what
leaves one (R25, R366), and the removal timeout (R367). -/

namespace Sys2Proof.Machine

/-! ## Resources (R24, R364, R366) -/

/-- Whether a resource is scrubbing. -/
def scrubs (s : State) (r : Resources) : Bool :=
  r.cores.any (fun c => match coreOf s c with | some k => k.scrubbing | none => false) ||
  r.channels.any (fun c => (channelAt s c).scrubbing) || r.ports.any (fun n => thas s.parts.portScrub n)

/-- A core that is idle, or will be once it has been scrubbed; an ABSENT index is no resource. -/
def coreFree (s : State) (c : Nat) : Bool := match coreOf s c with | some k => k.part.isNone && k.phys.isSome | none => false

/-- A channel that is idle, or will be. -/
def channelFree (s : State) (c : Nat) : Bool :=
  decide (c < 512) && !s.phys.isolated.getLsbD (channelField c) && !(channelAt s c).retired && (channelAt s c).part.isNone

/-- A port that the record gives and no partition holds; a bundle is named by its even port (R17). -/
def portFree (s : State) (r : PartCfg) (n : Nat) : Bool :=
  (portsIn r).contains n && !s.parts.parts.any (fun x => x.2.ports.contains n)

/-- A share that the charter gives a partition and it does not hold. -/
def shareFree (s : State) (p n : Nat) : Bool :=
  (match s.boot.charter with
   | some c => c.sharedPorts.any (fun y => y.1 == n && y.2.shares.contains p && !(y.2.bundle && n % 2 == 1))
   | none => false) && !(match tget s.parts.parts p with | some x => x.shares.contains n | none => false)

/-- Whether no resource is named twice. -/
def onceEach (r : Resources) : Bool :=
  let ok (l : List Nat) : Bool := l.eraseDups.length == l.length
  ok r.cores && ok r.channels && ok r.ports && ok r.shares

/-- Whether every named resource may join a partition under a record. -/
def mayJoin (s : State) (p : Nat) (c : PartCfg) (r : Resources) : Bool :=
  onceEach r && r.cores.all (coreFree s) && r.channels.all (channelFree s) && r.ports.all (portFree s c) && r.shares.all (shareFree s p)

/-! ## Joining -/

/-- A port's configuration in a record. -/
def cfgIn (c : PartCfg) (n : Nat) (old : PortCfg) : PortCfg :=
  match c.ports.find? (fun y => y.1 == n) with
  | some y => y.2
  | none => old

/-- Cores, channels, ports and shares join a partition, a bundle with both its links (R17). -/
def join (p : Nat) (c : PartCfg) (r : Resources) (s : State) : State :=
  let s1 := r.cores.foldl (fun t n => modCore n (fun k => freshCore k.phys (some p)) t) s
  let s2 := r.channels.foldl (fun t n => setChannel n { channelAt t n with part := some p, removing := false } t) s1
  let s3 := (r.ports.flatMap (linksIn c)).foldl (fun t n => modPort n (fun q => { q with removed := false, cfg := cfgIn c n q.cfg }) t) s2
  (r.shares.flatMap (halves s)).foldl (fun t n => modPort n (fun q => { q with cfg := { q.cfg with shares := p :: q.cfg.shares } }) t) s3

/-- A partition just composed: its areas placed and zeroed, its firmware loaded (R365). -/
def composed (p : Nat) (c : PartCfg) (t : Template) (r : Resources) (s : State) : State :=
  let used := (s.parts.parts.filter (fun y => y.2.state ≠ .empty)).length
  let x : Part := {
    state := .active, stalled := false, keeperFailed := decide (s.parts.keepers ≤ used), applied := some c,
    charterVersion := runningVersion s, deferred := false, cores := r.cores, channels := r.channels, ports := r.ports,
    shares := r.shares, fw := runningFw s, fwRetiring := [], mirrors := templateMirrors t r.channels, placing := s.free,
    placedOn := r.channels, unitFault := false, ringLost := false }
  let s1 : State := { s with
    free := s.free + 1, parts := { s.parts with parts := tset s.parts.parts p x },
    ledger := { s.ledger with entries := s.ledger.entries.filter (fun l => l.area ≠ p) },
    cores := { s.cores with kernels := tdrop s.cores.kernels (fun k => k / 64 == p) } }
  post .partUp (some p) [p] (setSegments p (segmentsOf s p t r.channels) (join p c r s1))

/-- The checks of PART_COMPOSE (R365, R431): none if it is legal. -/
def composeCheck (s : State) (p : Nat) (r : Resources) : Except St (PartCfg × Template) :=
  match charterRecord s p with
  | none => .error .noAccess
  | some c => match c.template with
    | none => .error .noAccess
    | some t =>
      if partState s p = .empty && countsOk t r.cores.length r.channels.length && mayJoin s p c r && mirrorsOk t r.channels &&
        segmentsOk t r.channels && areasFit t r.channels.length then .ok (c, t) else .error .state

/-- PART_COMPOSE, now or when what it names has been scrubbed (R366). -/
def compose (h : Mgmt) (p : Nat) (r : Resources) (s : State) : MRes :=
  match composeCheck s p r with
  | .error st => no st s
  | .ok (c, t) =>
    if scrubs s r then .wait { s with mgmt := { s.mgmt with waiting := s.mgmt.waiting ++ [.compose h p r] } }
    else yes (composed p c t r s)

/-- The checks of PART_GROW (R365): counts against the template that the partition applies (R445). -/
def growCheck (s : State) (p : Nat) (r : Resources) : Except St PartCfg :=
  match tget s.parts.parts p, applied s p, templateOf s p with
  | some x, some c, some t =>
    if x.state = .active && decide (x.cores.length + r.cores.length ≤ t.coresMax) &&
      decide (x.channels.length + r.channels.length ≤ t.channelsMax) && mayJoin s p c r then .ok c else .error .state
  | _, _, _ => .error .state

/-- Resources join a partition that serves. -/
def grown (p : Nat) (c : PartCfg) (r : Resources) (s : State) : State :=
  join p c r (modPart p (fun x => { x with
    cores := x.cores ++ r.cores, channels := x.channels ++ r.channels, ports := x.ports ++ r.ports, shares := x.shares ++ r.shares }) s)

/-- PART_GROW, now or when what it names has been scrubbed (R366). -/
def grow (h : Mgmt) (p : Nat) (r : Resources) (s : State) : MRes :=
  match growCheck s p r with
  | .error st => no st s
  | .ok c =>
    if scrubs s r then .wait { s with mgmt := { s.mgmt with waiting := s.mgmt.waiting ++ [.grow h p r] } }
    else yes (grown p c r s)

/-- PART_COMPOSE (R365, R366). -/
def execPartCompose (h : Mgmt) (part : Nat) (r : Resources) (s : State) : Out :=
  request 0x20 false h (fun _ t => if 16 ≤ part then no .state t else compose h part r t) s

/-- PART_GROW (R365, R366). -/
def execPartGrow (h : Mgmt) (part : Nat) (r : Resources) (s : State) : Out := request 0x21 false h (fun _ t => grow h part r t) s

/-! ## Shrinking (R25, R264, R365, R367) -/

/-- Whether an area lies on a channel: a mirrored copy, a resident segment, or one of the others. -/
def areaOn (s : State) (x : Part) (c : Nat) : Bool :=
  x.mirrors.1 == c || x.mirrors.2 == c || thas s.cores.segments c || areasOn x c ≠ 0

/-- The checks of PART_SHRINK (R365). -/
def shrinkOk (s : State) (p : Nat) (r : Resources) : Bool :=
  match tget s.parts.parts p, templateOf s p with
  | some x, some t =>
    x.state == .active && onceEach r && r.cores.all x.cores.contains && r.channels.all x.channels.contains &&
    r.ports.all x.ports.contains && r.shares.all x.shares.contains &&
    decide (t.coresMin + r.cores.length ≤ x.cores.length) && decide (t.channelsMin + r.channels.length ≤ x.channels.length) &&
    !r.channels.any (areaOn s x) && !r.cores.any (fun c => match coreOf s c with | some k => k.removing | none => true) &&
    !r.channels.any (fun c => (channelAt s c).removing)
  | _, _ => false

/-- Ports and shares leave at once: new requests are refused (R25), and generations with a host child behind a port abort, that
member lost (R262, R264). -/
def dropPorts (p : Nat) (ports shares : List Nat) (s : State) : State :=
  let s1 := ports.foldl (fun t n => (halves t n).foldl (fun u m => modPort m (fun q => { q with removed := true }) u)
    { t with parts := { t.parts with portScrub := tset t.parts.portScrub n p } }) s
  let s2 := (shares.flatMap (halves s)).foldl (fun t n => modPort n (fun q => { q with cfg := { q.cfg with shares := q.cfg.shares.filter (· ≠ p) } }) t) s1
  let s3 := modPart p (fun x => { x with ports := x.ports.filter (!ports.contains ·), shares := x.shares.filter (!shares.contains ·) }) s2
  (s3.groups.filter (fun g => g.2.e.partition == p)).foldl (fun t g =>
    match g.2.children.find? (fun c => c.type == 0 && ports.contains c.port) with
    | some c => detectAbort g.2.e.collId 3 c.node t
    | none => t) s3

/-- What PART_SHRINK starts: no item is placed on its cores, its channels take leave once they are clean (R367). -/
def startShrink (h : Mgmt) (p : Nat) (r : Resources) (s : State) : State :=
  let s1 := r.cores.foldl (fun t c => modCore c (fun k => { k with removing := true }) t) s
  let s2 := r.channels.foldl (fun t c => setChannel c { channelAt t c with removing := true } t) s1
  let s3 := dropPorts p r.ports r.shares s2
  settle { s3 with mgmt := { s3.mgmt with waiting := s3.mgmt.waiting ++ [.shrink h p r] } }

/-- PART_SHRINK (R365, R367). -/
def execPartShrink (h : Mgmt) (part : Nat) (r : Resources) (s : State) : Out :=
  request 0x22 false h (fun _ t => if shrinkOk t part r then .wait (startShrink h part r t) else no .state t) s

/-- REMOVAL_TIMEOUT (R367): items still running on cores that are to leave are killed. -/
def execRemovalTimeout (part : Nat) (s : State) : Out :=
  .next (settle (((coresOf s part).filter (fun x => x.2.removing)).foldl (fun t x => eachCtx x.1 (hangItem 4) t) s))

/-! ## Dissolving (R365, R400) -/

/-- Whether a partition may be dissolved: it serves, owns no extent, has no group, no queue and no current kernel; or it
is stalled (R400). -/
def dissolveOk (s : State) (p : Nat) : Bool :=
  match tget s.parts.parts p with
  | none => false
  | some x =>
    (x.state == .resetting && x.stalled) || (x.state == .active && !s.ext.entries.any (fun e => e.2.owner == p) &&
      !s.groups.any (fun g => g.2.e.partition == p) && !s.queues.queues.any (fun q => q.2.part == p) &&
      !s.cores.kernels.any (fun k => k.1 / 64 == p && k.2.current.isSome))

/-- What a stalled partition still has goes with it (DEDUCED, log entry 22). -/
def clearStalled (p : Nat) (s : State) : State :=
  let s1 := ((s.ext.entries.filter (fun e => e.2.owner == p)).map (·.1)).foldl (fun t slot => freeSlot slot t) s
  { s1 with
    groups := s1.groups.filter (fun g => g.2.e.partition ≠ p),
    queues := { s1.queues with queues := s1.queues.queues.filter (fun q => q.2.part ≠ p) },
    cores := { s1.cores with kernels := tdrop s1.cores.kernels (fun k => k / 64 == p) } }

/-- A partition is dissolved: every resource scrubs, STATE is EMPTY, PART_DOWN (R365, R366). Its sampling ends (R460). -/
def dissolve (p : Nat) (s : State) : State :=
  match tget s.parts.parts p with
  | none => s
  | some x =>
    let s1 := dropPorts p x.ports x.shares (clearStalled p s)
    let s2 := (coresOf s1 p).foldl (fun t c => leaveCore c.1 p c.2 t) s1
    let hs := (s2.parts.channels.filter (fun c => c.2.part == some p)).map (·.1)
    let s3 := hs.foldl (fun t c => dropCounters 3 c (setChannel c { channelAt t c with part := none, removing := false, scrubbing := !(channelAt t c).retired } t)) s2
    let s4 := setSegments p [] s3
    let s5 : State := { s4 with
      parts := { s4.parts with parts := tdel s4.parts.parts p, degraded := s4.parts.degraded.filter (fun m => mirrorPart m ≠ some p) },
      ledger := { s4.ledger with entries := s4.ledger.entries.filter (fun l => l.area ≠ p) },
      obs := { s4.obs with sampling := tdrop s4.obs.sampling (fun k => k / 8 == p) } }
    settle (post .partDown (some p) [p] s5)

/-- PART_DISSOLVE (R365). -/
def execPartDissolve (h : Mgmt) (part : Nat) (s : State) : Out :=
  request 0x24 false h (fun _ t => if dissolveOk t part then yes (dissolve part t) else no .state t) s

/-! ## Scrubbing (R366) -/

/-- A resource becomes idle; a port once no request that came by it is left. -/
def scrubbed (r : Resource) (s : State) : State :=
  match r with
  | .core c => modCore c (fun k => { k with scrubbing := false }) s
  | .channel c => if (channelAt s c).scrubbing then setChannel c { channelAt s c with scrubbing := false } s else s
  | .port n =>
    let left := s.home.parked.any (fun p => p.port == n && admitted p) ||
      s.home.busy.any (fun b => match b.why with | .request _ m _ => m == n | _ => false)
    if left then s else { s with parts := { s.parts with portScrub := tdel s.parts.portScrub n } }

/-- A waiting COMPOSE or GROW that names nothing scrubbing any more is carried out, its checks made again. -/
def resumeWait (w : MgmtWait) (s : State) : State :=
  let go (h : Mgmt) (code : Nat) (r : Resources) (f : State → MRes) : State :=
    if scrubs s r then s
    else
      let t : State := { s with mgmt := { s.mgmt with waiting := s.mgmt.waiting.filter (· ≠ w) } }
      match f t with
      | .done st body change u => answered h code s.mgmt.eventSeq st body change u
      | .wait u => u
  match w with
  | .compose h p r => go h 0x20 r (compose h p r)
  | .grow h p r => go h 0x21 r (grow h p r)
  | _ => s

/-- RESOURCE_SCRUB_DONE (R366): what waits for the resource goes on, in the order it came. -/
def execResourceScrubDone (r : Resource) (s : State) : Out :=
  .next (let s1 := scrubbed r s
    settle (s1.mgmt.waiting.foldl (fun t w => resumeWait w t) s1))

/-! ## Reading (R365, R385, R444) -/

/-- A partition state's code. -/
def pstateCode : PState → Nat
  | .empty => 0 | .active => 1 | .resetting => 2

/-- A list with its length before it. -/
def counted (l : List Nat) : List Nat := l.length :: l

/-- The values of a template in the order of R430 and R431. -/
def templateVals (t : Template) : List Nat :=
  [t.partition, if t.autostart then 1 else 0, if t.omitSlots then 1 else 0, t.modes.toNat, t.coresMin, t.coresMax, t.channelsMin,
   t.channelsMax, t.queueBase, t.queueCount, t.groupQuota, t.watchdog, t.dirLog2, t.ledgerK, t.vindexMib, t.sinterGib, t.sinterGroup,
   t.journalMib, t.kernelMib, t.fwMib, t.queueMib, t.cacheGib, t.mirrorA, t.mirrorB] ++
  counted (t.supKeys.map (·.toNat)) ++ counted (t.grants.map (fun g => (g.group * 16777216 + g.first) * 16777216 + g.len)) ++
  counted (t.resident.map (fun r => r.1 * 4194304 + r.2)) ++
  counted (t.reach.map (fun r => r.owner * 16 + (if r.hold then 1 else 0) + (if r.write then 2 else 0) + (if r.lease then 4 else 0) +
    (if r.cache then 8 else 0)))

/-- Resources that are still scrubbing: cores, channels, and ports that have left the partition (R366). -/
def scrubVals (s : State) (p : Nat) : List Nat :=
  counted ((s.cores.cores.filter (fun x => x.2.scrubbing)).map (·.1)) ++
  counted ((s.parts.channels.filter (fun x => x.2.scrubbing)).map (·.1)) ++
  counted ((s.parts.portScrub.filter (fun x => x.2 == p)).map (·.1))

/-- What PART_READ returns: state, resources, the template and the charter VERSION applied, scrub progress, EVENTS_LOST. -/
def partVals (s : State) (p : Nat) : List Nat :=
  let own : List Nat := match tget s.parts.parts p with
    | none => [0, 0] ++ counted [] ++ counted [] ++ counted [] ++ counted []
    | some x => [pstateCode x.state, x.charterVersion.toNat] ++ counted x.cores ++ counted x.channels ++ counted x.ports ++ counted x.shares
  let t : List Nat := match templateOf s p with
    | some t => 1 :: templateVals t
    | none => match charterTemplate s p with | some t => 1 :: templateVals t | none => [0]
  own ++ t ++ scrubVals s p ++ [s.mgmt.eventsLost]

/-- PART_READ (R365). -/
def execPartRead (h : Mgmt) (part : Nat) (s : State) : Out :=
  request 0x25 false h (fun _ t => if 16 ≤ part then no .state t else .done .ok (partVals t part) false t) s

end Sys2Proof.Machine
end

