-- ==== Sys2Proof/Machine/Trust.lean ====
section
/-! DEFINITION. The root of trust: fuses (R371), signed images and flash slots (R372 to R376, R424 to R426), the checks of a
charter (R433), sessions (R380), attestation (R377, R378, R395), and images in service (R442 to R446). -/

namespace Sys2Proof.Machine

/-! ## Fuses (R371) -/

/-- A field of the fuse bank. -/
def fuse (f : BitVec 4096) (lo w : Nat) : Nat := bitsOf f.toNat lo w

/-- SERIAL and LIFECYCLE. -/
def fuseSerial (f : BitVec 4096) : Nat := fuse f 1728 64
def lifecycle (f : BitVec 4096) : Nat := fuse f 1524 4

/-- The lowest bit of the SVN field of an image type: 1 RTP firmware, 2 engine firmware, 3 charter. -/
def svnBase (type : Nat) : Nat := if type = 1 then 1664 else if type = 2 then 1600 else 1536

/-- Blown bits of a field. -/
def blown (f : BitVec 4096) (lo w : Nat) : Nat := ((List.range w).filter (fun i => f.getLsbD (lo + i))).length

/-- The count of an SVN field. -/
def svnCount (f : BitVec 4096) (type : Nat) : Nat := blown f (svnBase type) 64

/-- The hash of a signing-key slot, and whether the slot is revoked: the owner bank signs charters, the vendor bank the
rest (R373). -/
def slotHash (f : BitVec 4096) (owner : Bool) (i : Nat) : BitVec 256 :=
  BitVec.ofNat 256 (fuse f ((if owner then 2048 else 3072) + 256 * i) 256)
def slotRevoked (f : BitVec 4096) (owner : Bool) (i : Nat) : Bool := f.getLsbD ((if owner then 1528 else 1532) + i)

/-- Blow fuses by their numbers: they can only be blown (R371). -/
def blow (l : List Nat) (f : BitVec 4096) : BitVec 4096 := l.foldl (fun g i => g ||| BitVec.ofNat 4096 (2 ^ i)) f

/-! ## Signed images (R372, R373, R425) -/

/-- The bytes of a flash slot (R424). -/
def slotBytes : FlashSlot → Nat
  | .identity => 1048576
  | .rtp _ => 8388608
  | .charter _ => 16777216
  | .engine _ _ => 8388608

/-- The image type of a slot. -/
def slotType : FlashSlot → Nat
  | .identity => 0
  | .rtp _ => 1
  | .engine _ _ => 2
  | .charter _ => 3

/-- Whether an image's contents are of the slot's kind; an engine's image names its engine (R425). -/
def contentFits (l : FlashSlot) (c : Content) : Bool :=
  match l, c with
  | .rtp _, .rtpFw => true
  | .charter _, .charter _ => true
  | .engine e _, .engineFw n => e == n
  | _, _ => false

/-- What a slot holds. -/
def slotImage (s : State) (l : FlashSlot) : Option Image := (s.boot.flash.find? (fun x => x.1 == l)).map (·.2)

/-- Whether the digest matches the image (R373): a charter's is that of its bytes. -/
def digestOk (i : Image) : Bool :=
  i.block.sha == i.digest && match i.content with
    | .charter c => i.digest == sha256 (c.bytes.map (·.toNat))
    | _ => true

/-- Whether the key slot and the signature pass (R373). -/
def signatureOk (f : BitVec 4096) (type : Nat) (i : Image) : Bool :=
  let owner := type == 3
  let k := i.block.keySlot.toNat
  decide (k < 4) && !slotRevoked f owner k && keyHash i.block.modulus i.block.exponent == slotHash f owner k &&
  rsaVerify i.block.modulus i.block.exponent i.block.signature (blockBytes i.block)

/-- The other conditions of R373 and R425: MAGIC and TYPE, SVN, count, fit, contents. -/
def formOk (f : BitVec 4096) (l : FlashSlot) (i : Image) : Bool :=
  i.block.magic == 0x53474E31 && i.block.type.toNat == slotType l && decide (svnCount f (slotType l) ≤ i.block.svn) &&
  decide (i.block.svn ≤ 64) && i.count == i.block.length && decide (4096 + i.count + 1024 ≤ slotBytes l) && contentFits l i.content &&
  (match i.content with | .charter c => i.count == c.bytes.length | _ => true)

/-! ## The charter (R433) -/

/-- The ranges that R430 and R431 give the fields of a template. -/
def templateIn (p : Nat) (t : Template) : Bool :=
  t.partition == p && decide (t.coresMin ≤ t.coresMax) && decide (t.coresMax ≤ 2048) && decide (1 ≤ t.channelsMin) &&
  decide (t.channelsMin ≤ t.channelsMax) && decide (t.channelsMax ≤ 512) && decide (t.queueBase + t.queueCount ≤ 4096) &&
  decide (t.queueCount ≤ 1024) && decide (t.groupQuota ≤ 4096) && (t.watchdog == 0 || (decide (50 ≤ t.watchdog) && decide (t.watchdog ≤ 2000))) &&
  decide (t.dirLog2 ≤ 30) && decide (t.ledgerK ≤ 16384) && decide (t.vindexMib < 65536) && decide (t.sinterGib < 65536) &&
  decide (t.sinterGroup < 256) && (t.journalMib == 0 || (decide (64 ≤ t.journalMib) && decide (t.journalMib ≤ 4096))) &&
  decide (t.kernelMib ≤ 256) && (t.fwMib == 0 || (decide (8 ≤ t.fwMib) && decide (t.fwMib ≤ 255))) && decide (t.queueMib < 65536) &&
  decide (t.cacheGib ≤ 1536) && decide (t.mirrorA < 1024) && decide (t.mirrorB < 1024) && decide (t.supKeys.length ≤ 8) &&
  decide (t.grants.length ≤ 255) && decide (t.resident.length ≤ 64) && decide (t.reach.length ≤ 16)

/-- The values that R130 gives a stripe group. -/
def groupIn (g : GroupCfg) : Bool :=
  decide (g.group < 256) && [1, 4, 6, 8, 12, 16].contains g.k && (g.m == 1 || g.m == 2) && g.modules.length == g.k + g.m &&
  decide (1 ≤ g.moduleGib) && decide (g.moduleGib ≤ 65535) && decide (1 ≤ g.rebuildRate) && decide (g.rebuildRate ≤ 65535) &&
  decide (g.receiver < 16)

/-- Whether two queue ranges meet. -/
def rangesMeet (a b : Template) : Bool := decide (a.queueBase < b.queueBase + b.queueCount) && decide (b.queueBase < a.queueBase + a.queueCount)

/-- Whether every pair of a list passes. -/
def allPairs {α : Type} (p : α → α → Bool) : List α → Bool
  | [] => true
  | x :: l => l.all (p x) && allPairs p l

/-- Whether a bundle's two ports stand in one record with the same role and owner (R17). -/
def bundlePaired (l : List (Nat × PortCfg)) (x : Nat × PortCfg) : Bool :=
  !x.2.bundle || l.any (fun y => y.1 == sibling x.1 && y.2.bundle && y.2.role == x.2.role && y.2.owner == x.2.owner)

/-- Whether every bundle of a charter is a pair of ports (R17). -/
def bundlesOk (c : Charter) : Bool := (c.sharedPorts :: c.parts.map (·.ports)).all (fun l => l.all (bundlePaired l))

/-- The ranges of the DEVICE section (R46, R181, R334, R335, R367, R389, R468). -/
def deviceIn (d : DeviceCfg) : Bool :=
  decide (700 ≤ d.vddMv) && decide (d.vddMv ≤ 850) && decide (d.powerCapW ≤ 10500) && decide (250 ≤ d.leaseMs) && decide (d.leaseMs ≤ 60000) &&
  ((List.range 11).map (fun i => 2 ^ (6 + i))).contains d.holdWindowUs && decide (8 ≤ d.sampleLog2) && decide (d.sampleLog2 ≤ 20) &&
  decide (d.sinterWarnPct ≤ 100) && decide (1 ≤ d.recallMin) && decide (d.recallMin ≤ d.recallMax) && decide (d.recallMax ≤ 40) &&
  decide (10 ≤ d.removalMs) && decide (d.removalMs ≤ 1000)

/-- The ranges of a limit entry, of a meter entry and of a profile (R324, R328, R330). -/
def limitIn (l : Limit) : Bool := decide (l.reserve ≤ l.cap) && decide (l.cap < 1048576) && decide (l.quota < 1048576)
def meterIn (e : MeterEntry) : Bool :=
  decide (1 ≤ e.pir) && decide (e.pir ≤ 200000) && decide (e.cir ≤ e.pir) && decide (4096 ≤ e.pbs) && decide (e.pbs < 16777216) &&
  decide (4096 ≤ e.cbs) && decide (e.cbs < 16777216) && decide (e.profG < 16) && decide (e.profY < 16) && decide (e.profR < 16)
def profileIn (p : Profile) : Bool := decide (p.minTh < p.maxTh) && decide (p.maxTh < 1048576) && decide (p.maxP < 256)

/-- The ranges of a partition's records of CALDERA and METERS. -/
def recordIn (c : PartCfg) : Bool :=
  decide (c.quota < 1048576) && c.limits.all (fun l => limitIn l.2.2) && c.meters.all (fun m => meterIn m.2.2)

/-- Check 3 of R433 on the sections without a byte layout. -/
def rangesIn (c : Charter) : Bool :=
  deviceIn c.device && c.profiles.all profileIn && (c.profiles.isEmpty || c.profiles.length == 16) && c.parts.all recordIn &&
  c.retired.all (fun n => decide (n < 2304))

/-- Check 4 of R433, as far as reserves go. -/
def reservesFit (c : Charter) : Bool :=
  decide (((c.parts.map (fun p => (p.limits.map (fun l => l.2.2.reserve)).sum)).sum) ≤ 1048576)

/-- The checks of R433. What their order decides is only whether the image is refused as a whole. -/
def charterOk (f : BitVec 4096) (c : Charter) : Bool :=
  c.magic == 0x4A574B31 && c.format == 1 && headerHeld c && directoryOk c &&
  (c.serial.toNat == 0 || c.serial.toNat == fuseSerial f) && c.node ≠ noNode &&
  c.fieldsOk && rangesIn c && templatesHeld c && bundlesOk c && c.parts.length == 16 && (c.parts.zip (List.range 16)).all (fun x => match x.1.template with
    | some t => templateIn x.2 t | none => true) && c.groups.all groupIn &&
  reservesFit c && (templatesOf c).all (fun t => areasFit t (t.channelsMin - 1)) &&
  allPairs (fun a b => !rangesMeet a b) (templatesOf c) && decide (((templatesOf c).map (fun t => t.ledgerK * 1024)).sum ≤ 16777216) &&
  decide (1 ≤ c.keys.quorumK) && decide (c.keys.quorumK ≤ c.keys.quorum.length) && decide (c.keys.quorum.length ≤ 7) &&
  (let all := (c.groups.map (·.modules)).flatten
   c.groups.all (fun g => g.partner.isNone || g.modules.all (fun m => all.count m == 1)))

/-- An image that a slot may be activated with: R373, R425, and for a charter R433; or the status that refuses it (R442). -/
def slotCheck (s : State) (l : FlashSlot) : Except St Image :=
  match slotImage s l with
  | none => .error .state
  | some i =>
    if !digestOk i then .error .checksum
    else if !signatureOk s.boot.fuses (slotType l) i then .error .noAccess
    else if !formOk s.boot.fuses l i then .error .state
    else match i.content with
      | .charter c => if charterOk s.boot.fuses c then .ok i else .error .state
      | _ => .ok i

/-! ## Sessions (R375, R380) -/

/-- The supervisor keys of a partition: those of the template it applies, else of the charter's. -/
def supKeysOf (s : State) (p : Nat) : List (BitVec 256) :=
  match templateOf s p with
  | some t => t.supKeys
  | none => match charterTemplate s p with | some t => t.supKeys | none => []

/-- The session that a client's key opens, if any. -/
def sessionFor (s : State) (key : BitVec 256) : Option SessKind :=
  if s.boot.phase = .recovery then
    (if (List.range 4).any (fun i => !slotRevoked s.boot.fuses true i && slotHash s.boot.fuses true i == key) then some .recovery else none)
  else match s.boot.charter with
    | none => none
    | some c => if c.keys.fmKeys.contains key then some .fm
      else ((List.range 16).find? (fun p => (supKeysOf s p).contains key)).map .supervisor

/-- Whether management runs: the device is past its firmware, and a lockstep pair works (R369, R436). -/
def mgmtUp (s : State) : Bool :=
  (s.boot.pairOk.1 || s.boot.pairOk.2) && match s.boot.phase with
    | .off => false
    | .dark => false
    | _ => true

/-- A session just opened. -/
def newSession (k : SessKind) (key : BitVec 256) : Session :=
  { kind := k, key := key, subscribed := false, readUpTo := 0, log := [], sink := none }

/-- SESSION_OPEN (R380): at most 32; a client that connects finds the management ports up again after a loss of their
clock (R474; log entry 23). -/
def execSessionOpen (key : BitVec 256) (s : State) : Out :=
  .next (match sessionFor s key with
    | none => s
    | some k =>
      if !mgmtUp s || decide (32 ≤ s.mgmt.sessions.length) then s
      else
        let id := ((List.range 32).find? (fun i => !thas s.mgmt.sessions i)).getD 0
        { s with
          phys := { s.phys with refMgmt := true },
          mgmt := { s.mgmt with sessions := tset s.mgmt.sessions id (newSession k key) } })

/-! ## Identity and attestation (R377, R378, R395) -/

/-- IDENTITY_CERT (R377). -/
def execIdentityCert (h : Mgmt) (s : State) : Out :=
  request 0x11 false h (fun _ t => .done .ok (t.boot.identity.map (·.toNat)) false t) s

/-- LEASE_CHALLENGE (R386). -/
def execLeaseChallenge (h : Mgmt) (s : State) : Out :=
  request 0x13 false h (fun _ t => .done .ok [t.boot.bootNonce.toNat, t.boot.challenge.toNat] false t) s

/-- Whether no stack's channels lie in two partitions (R395). -/
def stacksOwn (s : State) : Bool :=
  (List.range 16).all (fun k => ((s.parts.channels.filter (fun c => c.1 / 32 == k)).filterMap (fun c => c.2.part)).eraseDups.length ≤ 1)

/-- Whether each key of a partition's supervisors is no fabric manager's and no other partition's (R395). -/
def supDistinct (c : Charter) : Bool :=
  let ts := templatesOf c
  ts.all (fun t => t.supKeys.all (fun k => !c.keys.fmKeys.contains k && ts.all (fun u => u.partition == t.partition || !u.supKeys.contains k)))

/-- Whether every slot that the charter lists for revocation has been revoked (R376, R395). -/
def revokesDone (f : BitVec 4096) (c : Charter) : Bool :=
  (List.range 4).all (fun i => (!c.keys.revokeVendor.getLsbD i || slotRevoked f false i) && (!c.keys.revokeOwner.getLsbD i || slotRevoked f true i))

/-- EVALUATED (R395). -/
def evaluated (s : State) : Nat :=
  match s.boot.charter with
  | none => 0
  | some c =>
    let bits := [lifecycle s.boot.fuses == 7, c.keys.signedKernels, decide (2 ≤ c.keys.quorumK) && decide (3 ≤ c.keys.quorum.length),
      decide (c.device.leaseMs ≤ 2000), stacksOwn s,
      c.sharedPorts.all (fun p => decide (p.2.shares.length ≤ 1)), supDistinct c, revokesDone s.boot.fuses c]
    (bits.zip (List.range 8)).foldl (fun n x => if x.1 then n + 2 ^ x.2 else n) 0

/-- The digest over the engine firmware loaded in a partition; zero where none is (R378). -/
def fwDigest (s : State) (p : Nat) : BitVec 256 :=
  match tget s.parts.parts p with
  | none => 0
  | some x => if x.fw.isEmpty then 0 else sha256 ((x.fw.map (fun f => digestBytes f.2.digest)).flatten)

/-- The digest over a partition's current kernels in handle order, a handle as one byte (R378; log entry 24). -/
def kernelDigest (s : State) (p : Nat) : BitVec 256 :=
  let ks := (s.cores.kernels.filter (fun k => k.1 / 64 == p)).filterMap (fun k => k.2.current.map (fun i => (k.1 % 64, i.digest)))
  if ks.isEmpty then 0 else sha256 ((ks.map (fun k => k.1 :: digestBytes k.2)).flatten)

/-- Bytes of an ASCII text, zero-filled. -/
def textBytes (n : Nat) (t : List Nat) : List Nat := t ++ List.replicate (n - t.length) 0

/-- "EVH-BX9-2048-LC". -/
def orderingCode : List Nat := [0x45, 0x56, 0x48, 0x2D, 0x42, 0x58, 0x39, 0x2D, 0x32, 0x30, 0x34, 0x38, 0x2D, 0x4C, 0x43]

/-- The lowest SVN among engine images current in any partition (R443); 0 if there is none. -/
def engineSvn (s : State) : Nat :=
  match (s.parts.parts.map (fun p => p.2.fw.map (fun f => f.2.svn))).flatten with
  | [] => 0
  | x :: l => l.foldl min x

/-- SVN of the running image of a type. -/
def runningSvn (s : State) (type : Nat) : Nat :=
  let of_ (i : Option Image) : Nat := match i with | some x => x.block.svn | none => 0
  match type with
  | 1 => of_ s.boot.rtpFw
  | 2 => engineSvn s
  | _ => of_ s.boot.charterImage

/-- Bytes 0x000 to 0x57F of the report (R378). `only`: the partition of a supervisor's session. -/
def reportBytes (s : State) (nonce : BitVec 256) (only : Option Nat) : List Nat :=
  let shows (p : Nat) : Bool := only.isNone || only == some p
  let ver (i : Option Image) : Nat := match i with | some x => x.block.version.toNat | none => 0
  let dig (i : Option Image) : BitVec 256 := match i with | some x => x.digest | none => 0
  let f := s.boot.fuses
  leBytes 4 0x41545431 ++ leBytes 2 1 ++ leBytes 2 0xA0 ++ leBytes 8 (fuseSerial f) ++ textBytes 32 orderingCode ++ digestBytes nonce ++
  leBytes 8 (if only.isNone then s.mgmt.eventSeq - 1 else 0) ++ leBytes 8 s.boot.bootNonce.toNat ++
  [lifecycle f, if only.isNone then s.boot.fwSlots.toNat else 0, s.boot.activePair, svnCount f 1, svnCount f 2, svnCount f 3,
   runningSvn s 1, runningSvn s 2, runningSvn s 3] ++ List.replicate 23 0 ++
  leBytes 4 (ver s.boot.rtpFw) ++ leBytes 4 (ver s.boot.charterImage) ++ List.replicate 24 0 ++
  digestBytes (dig s.boot.rtpFw) ++ digestBytes (dig s.boot.charterImage) ++
  ((List.range 16).map (fun p => digestBytes (if shows p then fwDigest s p else 0))).flatten ++
  ((List.range 16).map (fun p => digestBytes (if shows p then kernelDigest s p else 0))).flatten ++
  digestBytes (Config.certId 0) ++ digestBytes (Config.certId 1) ++ leBytes 4 (evaluated s) ++ List.replicate 92 0

/-- DEVICE_SEED (R371). -/
def deviceSeed (f : BitVec 4096) : BitVec 256 := BitVec.ofNat 256 (fuse f 1792 256)

/-- ATTEST (R378): the report and its signature by the identity key; a DECOMMISSIONED device has no key (R371). -/
def execAttest (h : Mgmt) (nonce : BitVec 256) (s : State) : Out :=
  request 0x10 false h (fun k t =>
    if lifecycle t.boot.fuses = 15 then no .state t
    else
      let only := match k with | .supervisor p => some p | _ => none
      let r := reportBytes t nonce only
      let sig := rsaSign (Config.identityKey (deviceSeed t.boot.fuses)) (Config.pssSalt t.free) r
      .done .ok (r ++ beBytes 384 sig) false { t with free := t.free + 1 }) s

/-! ## COMMIT_SVN (R376) -/

/-- Fuses of a thermometer field that are to be blown to reach a count. -/
def svnFuses (f : BitVec 4096) (type count : Nat) : List Nat :=
  let clear := ((List.range 64).map (fun i => svnBase type + i)).filter (fun i => !f.getLsbD i)
  clear.take (min count 64 - svnCount f type)

/-- The revoke fuses that the charter lists and that are not blown. -/
def revokeFuses (f : BitVec 4096) (c : Charter) : List Nat :=
  ((List.range 4).filter (fun i => c.keys.revokeVendor.getLsbD i && !slotRevoked f false i)).map (fun i => 1532 + i) ++
  ((List.range 4).filter (fun i => c.keys.revokeOwner.getLsbD i && !slotRevoked f true i)).map (fun i => 1528 + i)

/-- Key slots that signed a running image: vendor slots of firmware, owner slots of the charter (R376). -/
def signingFuses (s : State) : List Nat :=
  (s.boot.rtpFw.toList ++ s.boot.engineFw.map (·.2)).map (fun i => 1532 + i.block.keySlot.toNat) ++
  s.boot.charterImage.toList.map (fun i => 1528 + i.block.keySlot.toNat)

/-- COMMIT_SVN (R376). Where a fuse does not blow, how many before it have is free. -/
def execCommitSvn (h : Mgmt) (type : Nat) (blows : Bool) (s : State) : Out :=
  request 0x14 false h (fun _ t =>
    let f := t.boot.fuses
    let rev := if type = 3 then (match t.boot.charter with | some c => revokeFuses f c | none => []) else []
    let all := svnFuses f type (runningSvn t type) ++ rev
    if type = 0 || decide (3 < type) then no .state t
    else if rev.any (signingFuses t).contains then no .state t
    else if blows || all.isEmpty then yes { t with boot := { t.boot with fuses := blow all f } }
    else
      let n := (Config.freeWord t.free).toNat % all.length
      .done .state [] true (post .fuseFault none [type] { t with
        free := t.free + 1, boot := { t.boot with fuses := blow (all.take n) f } })) s

/-! ## Images in service (R442 to R446) -/

/-- The slots of the flash without one of them. -/
def otherSlots (s : State) (l : FlashSlot) : List (FlashSlot × Image) := s.boot.flash.filter (fun x => x.1 ≠ l)

/-- Whether a write lies in its slot. -/
def writeFits (l : FlashSlot) : FlashData → Bool
  | .image i => l ≠ .identity && decide (4096 + i.count + 1024 ≤ slotBytes l)
  | .bytes o d => decide (o + d.length ≤ slotBytes l) && decide (d.length ≤ 16777216)

/-- Write bytes over a list from an offset, erased flash reading ones. -/
def spliceBytes (o : Nat) (d old : List Byte) : List Byte :=
  let base := old ++ List.replicate (o + d.length - old.length) 0xFF
  base.take o ++ d ++ base.drop (o + d.length)

/-- What a write leaves in flash: an image whole, or bytes, which leave no image in an image slot (log entry 3). -/
def flashed (l : FlashSlot) (d : FlashData) (s : State) : State :=
  match l, d with
  | .identity, .bytes o b => { s with boot := { s.boot with identity := spliceBytes o b s.boot.identity } }
  | .identity, .image _ => s
  | _, .image i => { s with boot := { s.boot with flash := (l, i) :: otherSlots s l } }
  | _, .bytes _ b => if b.isEmpty then s else { s with boot := { s.boot with flash := otherSlots s l } }

/-- FLASH_WRITE (R442). -/
def execFlashWrite (h : Mgmt) (slot : FlashSlot) (data : FlashData) (s : State) : Out :=
  request 0x15 false h (fun _ t =>
    let life := lifecycle t.boot.fuses
    if slot = .identity && !(life == 1 || life == 3) then no .noAccess t
    else if !writeFits slot data then no .state t
    else yes (flashed slot data t)) s

/-- The device sections and shared records of two charters are the same (R445). -/
def sameDevice (a b : Charter) : Bool :=
  a.device == b.device && a.keys == b.keys && a.sharedPorts == b.sharedPorts && a.profiles == b.profiles && a.groups == b.groups &&
  a.retired == b.retired && [1, 2, 6, 8].all (fun i => sectionBytes a i == sectionBytes b i)

/-- A charter that passes takes effect at once, or at the next full start (R445). -/
def activateCharter (i : Image) (s : State) : State :=
  match i.content with
  | .charter c =>
    let same := match s.boot.charter with | some old => sameDevice old c | none => false
    if same then post .charterActivated none [i.block.version.toNat] { s with boot := {
        s.boot with charter := some c, charterImage := some i, fwSlots := s.boot.fwSlots &&& 0x7D } }
    else post .charterStaged none [i.block.version.toNat] { s with boot := { s.boot with staged := some i } }
  | _ => s

/-- FLASH_ACTIVATE (R442, R445): kind 1 or 3, slot A. -/
def execFlashActivate (h : Mgmt) (kind : Nat) (slotB : Bool) (s : State) : Out :=
  request 0x16 false h (fun _ t =>
    if slotB || !(kind == 1 || kind == 3) then no .state t
    else match slotCheck t (if kind = 1 then .rtp false else .charter false) with
      | .error st => no st t
      | .ok i => yes (if kind = 3 then activateCharter i t else t)) s

/-- Whether a retiring image of an engine is still bound by a command of the partition or by a generation that runs
(R443). -/
def retiringHeld (s : State) (p e : Nat) (i : FwImage) : Bool :=
  s.queues.queues.any (fun q => q.2.part == p && q.2.engine == e && q.2.cmds.any (fun c => c.fw == i.version)) ||
  (e == 1 && s.groups.any (fun g => g.2.e.partition == p && g.2.running))

/-- Whether a partition can take a new image of an engine. -/
def canUpdate (s : State) (p e : Nat) : Bool :=
  match tget s.parts.parts p with
  | none => false
  | some x => x.state ≠ .empty && match tget x.fwRetiring e with
    | some i => !retiringHeld s p e i
    | none => true

/-- An image becomes current in a partition, the one before it retiring (R443, R444). -/
def updateFw (e : Nat) (i : Image) (p : Nat) (s : State) : State :=
  modPart p (fun x => { x with
    fwRetiring := if x.state = .resetting then [] else match tget x.fw e with
      | some old => tset x.fwRetiring e old
      | none => tdel x.fwRetiring e,
    fw := tset x.fw e (fwImage i) }) s

/-- ENGINE_FW_UPDATE (R442, R443). -/
def execEngineFwUpdate (h : Mgmt) (engine : Nat) (slotB : Bool) (parts : BitVec 16) (all : Bool) (s : State) : Out :=
  request 0x17 false h (fun _ t =>
    let ps := (List.range 16).filter (fun i => parts.getLsbD i)
    if engine = 0 || decide (5 < engine) then no .state t
    else match slotCheck t (.engine engine slotB) with
      | .error st => no st t
      | .ok i =>
        if !ps.all (fun p => canUpdate t p engine) then no .state t
        else
          let t1 := ps.foldl (fun u p => updateFw engine i p u) t
          let bit : BitVec 7 := BitVec.ofNat 7 (2 ^ (engine + 1))
          let slots := if slotB then t1.boot.fwSlots ||| bit else t1.boot.fwSlots &&& ~~~bit
          yes (if all then { t1 with boot := { t1.boot with engineFw := tset t1.boot.engineFw engine i, fwSlots := slots } } else t1)) s

end Sys2Proof.Machine
end

