-- ==== Sys2Proof/Machine/Start.lean ====
section
/-! DEFINITION. From power-good to ready (R422, R426, R434 to R441), power removed (R471), rails and clocks (R472, R474),
coolant and temperature (R476, R479, R480), and the takeover of a lost device's groups (R418). -/

namespace Sys2Proof.Machine

/-! ## What power removal leaves (R422, R440, R471) -/

/-- The version records of a tile that the pool holds: a copy whose sinter tile has not reached it is gone with the journal, and
with it the content that replaced it (R122; DEDUCED, log entry 161). -/
def keptHead (s : State) (e : Extent) (x : Nat × Head) : Option (Nat × Head) :=
  let left := x.2.copies.filter (fun c => match c.content with
    | .sinter k => !s.pool.journal.any (fun r => r.key == sinterLine + k)
    | _ => true)
  if left = x.2.copies then some x
  else
    let h : Head := { backVersion := e.latest, copies := left }
    if headDead e h left then none else some (x.1, h)

/-- What the pool metadata area of a partnered group holds of an extent (R122, R416). -/
def metaRec (s : State) (slot : Nat) (e : Extent) : MetaRec :=
  let hs := (s.vers.heads.filter (fun x => keySlot x.1 == slot)).filterMap (keptHead s e)
  { ext := e, heads := hs, sinter := s.vers.sinter.filter (fun x => hs.any (fun h => (sinterKeys h.2.copies).contains x.1)),
    poison := s.dir.poison.filter (fun x => keySlot x.1 == slot), own := s.dir.own.filter (fun x => x.1 / 2 ^ 16 == slot) }

/-- Whether a group is partnered. -/
def partnered (s : State) (gi : Nat) : Bool := match groupOf s gi with | some g => g.partner.isSome | none => false

/-- The extent records that the pool keeps: those of an earlier start, and those of this device's extents now. -/
def keptRecords (s : State) : Table MetaRec :=
  (s.ext.entries.filter (fun x => partnered s x.2.group)).foldl (fun t x => tset t x.1 (metaRec s x.1 x.2)) s.pool.records

/-- The device without power: flash, fuses and the pool's modules keep what they hold, and everything else is empty
(R422). -/
def wiped (s : State) : State :=
  { State.reset with
    pending := s.pending, free := s.free, replies := s.replies,
    boot := { BootSt.reset with flash := s.boot.flash, fuses := s.boot.fuses, identity := s.boot.identity },
    pool := { PoolSt.reset with
      units := s.pool.units, loss := s.pool.loss, intent := s.pool.intent, records := keptRecords s, claims := s.pool.claims } }

/-- POWER_DOWN (R471, R481): the device stops in whatever state it is. -/
def execPowerDown (s : State) : Out := .next (if s.phys.pwrgd then wiped s else s)

/-! ## Steps 1 to 6 (R434) -/

/-- What was provisioned on the board: fuses can only be blown (R371; log entry 3). -/
def provision (b : Option Board) (s : State) : State :=
  match b with
  | none => s
  | some x => { s with boot := { s.boot with flash := x.slots, identity := x.identity, fuses := s.boot.fuses ||| x.fuses } }

/-- The image of a kind at start: slot A, or slot B when A fails (R426), and whether it is slot B. -/
def bootImage (s : State) (l : Bool → FlashSlot) : Option (Image × Bool) :=
  match slotCheck s (l false) with
  | .ok i => some (i, false)
  | .error _ => match slotCheck s (l true) with
    | .ok i => some (i, true)
    | .error _ => none

/-- A bit of FW_SLOTS (R378). -/
def slotBit (n : Nat) (b : Bool) (s : State) : State :=
  if b then { s with boot := { s.boot with fwSlots := s.boot.fwSlots ||| BitVec.ofNat 7 (2 ^ n) } } else s

/-- The engine firmware of each engine (R374, R435). -/
def loadEngine (e : Nat) (s : State) : State :=
  match bootImage s (.engine e) with
  | some (i, b) => slotBit (e + 1) b { s with boot := { s.boot with engineFw := tset s.boot.engineFw e i } }
  | none => post .engineFwMissing none [e] s

/-- Steps 4 to 6: the charter, engine firmware, VDD_CORE at its target. -/
def startCharter (s : State) : State :=
  if lifecycle s.boot.fuses = 15 then { s with boot := { s.boot with phase := .recovery } }
  else match bootImage s .charter with
    | some ({ content := .charter c, count := n, digest := d, block := k }, b) =>
      let i : Image := { content := .charter c, count := n, digest := d, block := k }
      let s1 := slotBit 1 b { s with boot := { s.boot with charter := some c, charterImage := some i, phase := .waitCoolant } }
      let s2 := [1, 2, 3, 4, 5].foldl (fun t e => loadEngine e t) s1
      { s2 with phys := { s2.phys with vddMv := c.device.vddMv } }
    | _ => { s with boot := { s.boot with phase := .recovery } }

/-- Step 3: RTP firmware. -/
def startRtp (s : State) : State :=
  match bootImage s .rtp with
  | some (i, b) => startCharter (slotBit 0 b { s with boot := { s.boot with rtpFw := some i } })
  | none => { s with boot := { s.boot with phase := .recovery } }

/-- POWER_GOOD (R434 steps 1 to 6, R435): BOOT_NONCE and CHALLENGE are drawn, the images are verified, and the device
waits for COOLANT_OK. -/
def execPowerGood (board : Option Board) (pair0Ok pair1Ok : Bool) (s : State) : Out :=
  .next (if s.phys.pwrgd then s
    else
      let s1 := provision board (wiped s)
      let s2 : State := { s1 with
        free := s1.free + 2, phys := { s1.phys with pwrgd := true },
        boot := { s1.boot with
          phase := .dark, pairOk := (pair0Ok, pair1Ok), activePair := if pair0Ok then 0 else 1,
          bootNonce := Config.freeWord s1.free, challenge := Config.freeWord (s1.free + 1) } }
      if pair0Ok || pair1Ok then startRtp s2 else { s2 with phys := { s2.phys with faultN := true } })

/-! ## Steps 7 and 8 (R207, R435, R437, R438) -/

/-- The physical cores after self-test. -/
def testedCores (bad retired : List Nat) : Table Phys :=
  (List.range 2304).map (fun i => (i, { working := !bad.contains i, retired := retired.contains i, faultBands := 0, quarantine := 0 }))

/-- The logical cores of a strip: index i is the i-th working slot that the charter does not exclude (R207). -/
def mappedStrip (ps : Table Phys) (strip : Nat) : Table Core :=
  let ws := (ps.filter (fun x => physStrip x.1 == strip && x.2.working && !x.2.retired)).map (·.1)
  (List.range 32).map (fun i => (32 * strip + i, freshCore ws[i]? none))

/-- Map the cores; an index without a core is ABSENT (R209). -/
def mapCores (t : StartTests) (s : State) : State :=
  let retired := match s.boot.charter with | some c => c.retired | none => []
  let ps := testedCores t.badCores retired
  let cs := ((List.range 64).map (fun strip => mappedStrip ps strip)).flatten
  let s1 : State := { s with cores := { s.cores with phys := ps, cores := cs } }
  (cs.filter (fun x => x.2.phys.isNone)).foldl (fun u x => post .coreAbsent none [0xFFF, x.1] u) s1

/-- Failing caldera banks are retired before any cell is allocated (R337, R438). -/
def testBanks (bad : List Nat) (s : State) : State :=
  let l := (bad.filter (decide <| · < 64)).eraseDups
  l.foldl (fun u b => post .calderaBankRetired none [b] u) (modSp (fun p => { p with badBanks := l }) s)

/-- Failing channels are retired (R399, R437). -/
def testChannels (bad : List Nat) (s : State) : State :=
  (bad.filter (decide <| · < 512)).eraseDups.foldl (fun u c => retireChannel c u) s

/-! ## Step 9 (R347, R439) -/

/-- The ports as the charter configures them: one that a partition owns serves it from its compose on, and so a share
(R18, R365). -/
def charterPorts (c : Charter) : Table Port :=
  let own := ((c.parts.map (fun p => p.ports)).flatten).map (fun x => (x.1, { Port.down x.2 with removed := true }))
  let shared := c.sharedPorts.map (fun x => (x.1, Port.down { x.2 with shares := [] }))
  (own ++ shared).foldl (fun t x => tset t x.1 x.2) []

/-- Links train, and their peers' HELLOs arrive (R347). A port that the tests name no peer for stays down. -/
def trainPorts (peers : List (Nat × Node × Nat)) (s : State) : State :=
  peers.foldl (fun u p => helloArrives p.1 p.2.1 p.2.2 0 (train p.1 u)) s

/-- A stripe group of the charter, brought up under a claim epoch. -/
def charterGroup (g : GroupCfg) (epoch : Nat) (up : Bool) : Group :=
  { modules := g.modules, lost := 0, rebuildPos := 0, cursor := 0, gib := g.moduleGib, k := g.k, m := g.m, state := .optimal,
    rate := g.rebuildRate, replaced := [], pass := none, passPos := [], up := up, claimEpoch := epoch, partner := g.partner,
    receiver := g.receiver }

/-- The claim record of a group: what its modules serve, else what this device last wrote there. -/
def claimRecord (t : StartTests) (s : State) (gi : Nat) : Option (Node × Nat) :=
  match t.claimRecords.find? (fun x => x.1 == gi) with
  | some x => some x.2
  | none => tget s.pool.claims gi

/-- The epoch of a claim at start: the charter's, or that of a claim record naming this device if it is higher. -/
def startEpoch (t : StartTests) (s : State) (g : GroupCfg) : Nat :=
  match claimRecord t s g.group with
  | some (n, e) => if n = myNode s then max e g.claimEpoch else g.claimEpoch
  | none => g.claimEpoch

/-- Claim one group at start (R439): a refusal leaves it down. Its marked regions await their resync (R137). -/
def claimGroup (t : StartTests) (g : GroupCfg) (s : State) : State :=
  let epoch := startEpoch t s g
  let refused := g.modules.any (fun n => t.refusingModules.contains n)
  let p := s.pool
  let marked := p.intent.filter (fun x => x.1 / 2 ^ 40 == g.group)
  let cg := charterGroup g epoch (!refused)
  let groups := tset p.groups g.group cg
  claimModules g.group cg epoch false (t.silentModules ++ t.refusingModules) <|
  if refused then post .groupClaimRefused none [g.group] { s with pool := { p with groups := groups } }
  else { s with pool := { p with
    groups := groups, claims := tset p.claims g.group (myNode s, epoch), resync := marked.foldl (fun r x => tset r x.1 ()) p.resync } }

/-- Claim every group of the charter; a module that does not answer is lost (R138, R439). -/
def claimGroups (t : StartTests) (c : Charter) (s : State) : State :=
  t.silentModules.eraseDups.foldl (fun u n => loseModule n u) (c.groups.foldl (fun u g => claimGroup t g u) s)

/-! ## Steps 10 and 11 (R389, R441) -/

/-- The resources that an AUTOSTART partition gets: the lowest idle ones that meet the minima, and its record's ports. -/
def autoResources (s : State) (r : PartCfg) (t : Template) : Resources :=
  { cores := ((s.cores.cores.map (·.1)).filter (coreFree s)).take t.coresMin,
    channels := ((List.range 512).filter (channelFree s)).take t.channelsMin,
    ports := portsIn r, shares := [] }

/-- Compose one AUTOSTART partition, or leave it EMPTY (R435, R441). -/
def autoStart (p : Nat) (s : State) : State :=
  match charterRecord s p, charterTemplate s p with
  | some c, some t =>
    if !t.autostart then s
    else
      let r := autoResources s c t
      match composeCheck s p r with
      | .ok (c, t) => composed p c t r s
      | .error _ => post .startPartFailed (some p) [p] s
  | _, _ => s

/-- Steps 9 to 11. -/
def bringUp (t : StartTests) (c : Charter) (s : State) : State :=
  let ms := if c.device.recallMin ≤ 5 ∧ 5 ≤ c.device.recallMax then 5 else c.device.recallMin
  let s1 : State := { s with
    boot := { s.boot with phase := .ready }, ext := { s.ext with recallMs := ms }, ports := { s.ports with ports := charterPorts c } }
  let s2 := claimGroups t c (trainPorts t.peers s1)
  let s3 := (List.range 16).foldl (fun u p => autoStart p u) s2
  post .deviceReady none [] { s3 with boot := { s3.boot with leaseMs := some c.device.leaseMs } }

/-- More than eight dead middles: the device never becomes ready and is fenced (R435). -/
def spindleFails (j : Nat) (s : State) : State :=
  let s1 := post .spindleFailed none [j] (modSp (fun p => { p with stopped := true }) s)
  fenceDevice { s1 with boot := { s1.boot with phase := .failed } }

/-- Steps 7 to 11 (R434). -/
def continueStart (t : StartTests) (s : State) : State :=
  match s.boot.charter with
  | none => s
  | some c =>
    let s1 := mapCores t (testChannels t.badChannels { s with boot := { s.boot with tests := none } })
    let dead := (t.deadMiddles.filter (decide <| · < 384)).eraseDups
    let s2 := testBanks t.badBanks (modSp (fun p => { p with dead := dead }) s1)
    if 8 < dead.length then spindleFails (dead.getD 8 0) s2 else bringUp t c s2

/-- Whether start waits at step 6. -/
def waits6 (s : State) : Bool := s.boot.phase == .waitCoolant && !s.boot.fenced

/-- COOLANT_OK_ASSERT (R434, R435): a rail out of range holds the start still. -/
def execCoolantOkAssert (t : StartTests) (s : State) : Out :=
  .next (if !waits6 s then s
    else
      let s1 : State := { s with phys := { s.phys with coolantOk := true } }
      if s.phys.railsOk then continueStart t s1 else { s1 with boot := { s1.boot with tests := some t } })

/-- COOLANT_OK_FALL_BEFORE_READY (R481). -/
def execCoolantOkFallBeforeReady (s : State) : Out :=
  .next (if !waits6 s then s
    else { s with phys := { s.phys with coolantOk := false }, boot := { s.boot with tests := none } })

/-- RAIL_IN_RANGE (R435, R472). -/
def execRailInRange (s : State) : Out :=
  .next (if !waits6 s then s
    else
      let s1 : State := { s with phys := { s.phys with railsOk := true } }
      match s.boot.tests with
      | some t => continueStart t s1
      | none => s1)

/-- START_WAIT (R435): posted every 10 s while start is held at step 6. -/
def execStartWait (s : State) : Out := .next (if waits6 s then post .startWait none [] s else s)

/-! ## Rails and clocks (R469, R472, R474) -/

/-- A rail leaves its range, numbered in the order of R468. -/
def failRail (rail : Nat) (s : State) : State :=
  match s.boot.phase with
  | .ready => fenceDevice (post .railFault none [rail] { s with phys := { s.phys with faultN := true } })
  | .waitCoolant => { s with phys := { s.phys with railsOk := false } }
  | _ => s

/-- RAIL_FAULT (R472). -/
def execRailFault (rail : Nat) (s : State) : Out := .next (failRail rail s)

/-- VR_ALERT (R469): the regulator is that of VDD_CORE, rail 0 of R468. -/
def execVrAlert (s : State) : Out := .next (failRail 0 s)

/-- REFCLK_SYS_LOSS (R474); the event names no rail of R468 (8). -/
def execRefclkSysLoss (s : State) : Out :=
  .next (if s.boot.phase = .off ∨ s.boot.phase = .tripped ∨ !s.phys.refSys then s
    else
      let s1 : State := { s with phys := { s.phys with refSys := false, faultN := true } }
      fenceDevice (if mgmtUp s then post .railFault none [8] s1 else s1))

/-- REFCLK_FIELD_LOSS (R474): every port of the field faults (R349). -/
def execRefclkFieldLoss (field : Nat) (s : State) : Out :=
  .next (if 8 ≤ field ∨ !dataUp s then s
    else
      let s1 : State := { s with phys := { s.phys with refField := s.phys.refField &&& ~~~ BitVec.ofNat 8 (1 <<< field) } }
      ((List.range 24).map (fun i => 24 * field + i)).foldl (fun t n => faultPort n t) s1)

/-- REFCLK_MGMT_LOSS (R474): sessions end, and the lease still runs. -/
def execRefclkMgmtLoss (s : State) : Out :=
  .next (if mgmtUp s then { s with phys := { s.phys with refMgmt := false }, mgmt := { s.mgmt with sessions := [] } } else s)

/-! ## Coolant and temperature (R476, R479, R480) -/

/-- COOLANT_LOST (R476): VDD_CORE goes to 0.70 V. -/
def execCoolantLost (s : State) : Out :=
  .next (if s.boot.phase ≠ .ready ∨ s.phys.coolantFell.isSome then s
    else post .coolantLost none [] { s with phys := { s.phys with coolantOk := false, coolantFell := some s.phys.vddMv, vddMv := 700 } })

/-- COOLANT_RESTORED (R476): the set point is restored. -/
def execCoolantRestored (s : State) : Out :=
  .next (match s.phys.coolantFell with
    | none => s
    | some mv => if s.boot.phase ≠ .ready then s
      else post .coolantRestored none [] { s with phys := { s.phys with coolantOk := true, coolantFell := none, vddMv := mv } })

/-- COOLANT_FENCE (R476): COOLANT_OK has stayed low for 2 s. -/
def execCoolantFence (s : State) : Out :=
  .next (if s.boot.phase ≠ .ready ∨ s.phys.coolantFell.isNone then s
    else fenceDevice { s with phys := { s.phys with coolantFell := none, faultN := true } })

/-- THERMAL_TRIP (R480): the data hierarchy stops, and every lane is dark, until power is removed. -/
def execThermalTrip (s : State) : Out :=
  .next (if !dataUp s then s
    else { s with
      out := [],
      boot := { s.boot with phase := .tripped, fenced := true, leaseMs := none },
      phys := { s.phys with faultN := true, thermtripN := true },
      home := HomeSt.reset,
      spindle := { SpindleSt.reset with dead := s.spindle.dead, badBanks := s.spindle.badBanks, stopped := true },
      ports := { s.ports with ports := s.ports.ports.map (fun x => (x.1, { Port.down x.2.cfg with removed := x.2.removed })) },
      groups := s.groups.map (fun x => (x.1, { x.2 with running := false, chunks := [], run := none, froms := [] })),
      queues := { s.queues with queues := s.queues.queues.map (fun x => (x.1, { x.2 with state := .disabled, cmds := [] })) },
      cores := { s.cores with cores := s.cores.cores.map (fun x => (x.1, { freshCore x.2.phys x.2.part with scrubbing := x.2.scrubbing })) } })

/-- STACK_HOT (R479): the stack's refresh is doubled. -/
def execStackHot (stack : Nat) (s : State) : Out :=
  .next (if 16 ≤ stack ∨ !dataUp s then s
    else { s with phys := { s.phys with stackHot := s.phys.stackHot ||| BitVec.ofNat 16 (1 <<< stack) } })

/-! ## Takeover (R418) -/

/-- A group of the lost device is claimed: its claim record, its loss map, its marked regions. -/
def takeGroup (target : Node) (epoch gi : Nat) (s : State) : State :=
  let p := s.pool
  let regions := Config.intentRecord target gi
  let mark (t : Table Unit) : Table Unit := regions.foldl (fun u r => tset u (gi * 2 ^ 40 + r % 2 ^ 40) ()) t
  { s with pool := { p with
    groups := tmod p.groups gi (fun g => { g with up := true, claimEpoch := epoch }),
    claims := tset p.claims gi (myNode s, epoch),
    intent := mark p.intent, resync := mark p.resync,
    loss := (Config.lossRecord target gi).foldl (fun u d => tset u (lossKey gi (d % 2 ^ 50)) ()) p.loss } }

/-- Whether a group has a module of a list. -/
def hasAny (g : Group) (l : List Node) : Bool := (g.modules.take (widthOf g)).any l.contains

/-- An extent that was arriving from the lost device takes what it has not taken yet from the pool metadata (R56, R419), and the
requests that waited for a pull go on. -/
def adoptArriving (target : Node) (slot : Nat) (s : State) : State :=
  match extOf s slot with
  | none => s
  | some e =>
    if e.state ≠ .arriving ∨ e.fwdNode ≠ target then s
    else
      let owner := match groupOf s e.group with | some g => g.receiver | none => e.owner
      let e1 : Extent := if e.known then { e with lostFrom := some target }
        else entryOf (Config.extentRecord target e.fwdSlot) owner e.group e.base slot target e.fwdSlot e.homeEpoch false s
      let s1 := setExt slot (noted s e1) { s with ext := { s.ext with
        adopted := tset s.ext.adopted slot (), asked := tdrop s.ext.asked (fun k => keySlot k == slot) } }
      (s1.home.parked.filter (fun p => match p.why with | .pull sl _ => sl == slot | _ => false)).foldl (fun t p => serveParked p t) s1

/-- The effect of an accepted TAKEOVER certificate (R418). -/
def takeOver (target : Node) (epoch : Nat) (silent refusing : List Node) (s : State) : State :=
  let gs := s.pool.groups.filter (fun g => g.2.partner == some target)
  let s1 := gs.foldl (fun t g => claimModules g.1 g.2 epoch true (silent ++ refusing) (takeGroup target epoch g.1 t)) s
  let mine (n : Node) : Bool := gs.any (fun g => hasAny g.2 [n])
  let s2 := ((silent ++ refusing).eraseDups.filter mine).foldl (fun t n => loseModule n t) s1
  let s3 := (gs.filter (fun g => hasAny g.2 refusing)).foldl (fun t g => post .groupClaimRefused none [g.1] t) s2
  let s4 : State := { s3 with boot := { s3.boot with takenOver := s3.boot.takenOver ++ [(target, epoch)] } }
  let regions := (s4.pool.resync.filter (fun x => gs.any (fun g => x.1 / 2 ^ 40 == g.1))).length
  let s5 := (s4.ext.entries.map (·.1)).foldl (fun t slot => adoptArriving target slot t) s4
  settle (post .takeoverDone none (target.toNat :: regions :: gs.map (·.1)) s5)

/-- TAKEOVER (R388, R418). -/
def execTakeover (h : Mgmt) (cert : Cert) (silent refusing : List Node) (s : State) : Out :=
  submitCert 5 h cert (takeOver cert.target (cert.certSeq.toNat % 2 ^ 32) silent refusing) s

end Sys2Proof.Machine
end

