-- ==== Sys2Proof/Machine/Observe.lean ====
section
/-! DEFINITION. Observation: counters and their configuration (R447 to R451), snapshots (R454 to R457), windows (R458, R459),
random item tagging (R460), and the fumarole's sinks and export (R462 to R465). -/

namespace Sys2Proof.Machine

/-! ## Counter blocks (R447, R450) -/

/-- Blocks of a type. -/
def blockCount : Nat → Nat
  | 0 => 2304 | 1 => 64 | 2 => 192 | 3 => 512 | 4 => 80 | 5 => 64 | 6 => 3072 | _ => 0

/-- Fixed counters of a type. -/
def fixedIdx : Nat → List Nat
  | 0 => [8, 9, 10, 11] | 1 => [8, 9, 10, 11] | 2 => [8, 9, 10, 11, 28, 29, 30, 31] | 3 => [8, 9, 10]
  | 4 => [8, 9, 10, 11, 12, 13] | 5 => [8, 9, 10] | 6 => [0, 1, 2, 3] | _ => []

/-- Programmable counters of a type: none for QUEUE. -/
def progIdx (type : Nat) : List Nat := if type < 6 then List.range 8 else []

/-- Whether an event is listed for a block type (R450). -/
def eventListed (type event : Nat) : Bool :=
  let within (lo hi : Nat) : Bool := decide (lo ≤ event) && decide (event ≤ hi)
  match type with
  | 0 => within 0x01 0x08
  | 1 => within 0x20 0x23
  | 2 => within 0x40 0x49
  | 3 => within 0x60 0x66
  | 4 => within 0x80 0x85
  | 5 => within 0xA0 0xA3
  | _ => false

/-! ## COUNTER_CONFIG (R448, R449, R451, R458, R459) -/

/-- Whether a control word and its counters may be programmed. -/
def programOk (type lo hi idx : Nat) (c : Control) : Bool :=
  eventListed type c.event && decide (idx < 8) && decide (lo ≤ hi) && decide (hi < blockCount type) && decide (c.masterKind < 3) &&
  decide (c.slotLo ≤ c.slotHi) && decide (c.slotHi < 262144) && decide (c.part < 16) &&
  (c.masterKind ≠ 2 || decide (c.master < 192))

/-- Program and zero the counters that a message names. -/
def program (type lo hi idx : Nat) (c : Control) (s : State) : State :=
  let put1 (t : Table Counter) (b : Nat) : Table Counter :=
    tset t (ckey type b idx) { ctl := c, value := 0, wrapped := false, latched := 0 }
  { s with obs := { s.obs with counters := ((List.range (hi + 1 - lo)).map (· + lo)).foldl put1 s.obs.counters } }

/-- COUNTER_CONFIG (R448). -/
def execCounterConfig (h : Mgmt) (cfg : CounterCfg) (s : State) : Out :=
  request 0x70 false h (fun _ t => match cfg with
    | .program type lo hi idx c => if programOk type lo hi idx c then yes (program type lo hi idx c t) else no .state t
    | .portWindow n =>
      if 10 ≤ n ∧ n ≤ 30 then yes { t with obs := { t.obs with windowLog2 := n } } else no .state t
    | .supervisorWindow ms =>
      if 10 ≤ ms ∧ ms ≤ 10000 then yes { t with obs := { t.obs with supWindowMs := ms } } else no .state t) s

/-! ## Values (R447, R456, R457) -/

/-- Whether the block lies in an isolated field (R21, R457). -/
def inIsolated (s : State) (type block : Nat) : Bool :=
  match type with
  | 0 => s.phys.isolated.getLsbD (physField block)
  | 1 => s.phys.isolated.getLsbD (block / 8)
  | 2 => s.phys.isolated.getLsbD (block / 24)
  | 3 => s.phys.isolated.getLsbD (channelField block)
  | _ => false

/-- Whether the unit of a block is retired. -/
def unitRetired (s : State) (type block : Nat) : Bool :=
  match type with
  | 0 => match tget s.cores.phys block with | some p => p.retired | none => false
  | 3 => (channelAt s block).retired
  | 5 => s.spindle.badBanks.contains block
  | _ => false

/-- Whether a programmable counter counts what this model does not: stalls, what engine firmware issues and moves beyond the
steps and handshakes of R314, and channel events by privilege, class or master (log entry 26). -/
def uncounted (type : Nat) (c : Control) : Bool :=
  c.enable && ((type == 0 && c.event == 5) ||
    (type == 0 && c.priv.getLsbD 1 && [2, 4, 6, 7].contains c.event) ||
    (type == 3 && (c.priv ≠ 15 || c.classes ≠ 0xFF || c.masterKind ≠ 0)))

/-- Whether a fixed counter counts what this model does not: handshakes and ECC events (log entry 26). -/
def uncountedFixed (type idx : Nat) : Bool :=
  (idx == 8 && (type == 0 || type == 1 || type == 3)) || (idx == 9 && type == 3)

/-- A free 48-bit value. -/
def freeCount (f : Nat) : BitVec 48 := (Config.freeWord f).truncate 48

/-- The value of a fixed counter or reading, and its WRAPPED bit; `f` indexes the free value of one that is not counted. -/
def fixedValue (s : State) (type block idx f : Nat) : BitVec 48 × Bool :=
  let v := tgetD s.obs.fixed (ckey type block idx) (0, false)
  if uncountedFixed type idx then (freeCount f, (Config.freeWord f).getLsbD 48)
  else if type = 1 ∧ idx = 9 then
    let d := stripAt s block
    if inDrag d then addWrap v.1 v.2 (s.timer.toNat - d.since) else v
  else if type = 5 ∧ idx = 8 then (BitVec.ofNat 48 (tgetD s.spindle.bankUse block 0), false)
  else if type = 6 then
    let q := tgetD s.spindle.samples block { lastDepth := 0, maxDepth := 0, lastDelay := 0, maxDelay := 0 }
    (BitVec.ofNat 48 (match idx with | 0 => q.lastDepth | 1 => q.maxDepth | 2 => q.lastDelay | _ => q.maxDelay), false)
  else v

/-- A counter as it is listed; one never programmed holds zero and counts nothing. -/
def counterAt (s : State) (type block idx : Nat) : Option Counter := tget s.obs.counters (ckey type block idx)

/-- The value of a programmable counter and its WRAPPED bit. -/
def progValue (s : State) (type block idx f : Nat) : BitVec 48 × Bool :=
  match counterAt s type block idx with
  | none => (0, false)
  | some c => if uncounted type c.ctl then (freeCount f, (Config.freeWord f).getLsbD 48) else (c.value, c.wrapped)

/-! ## Snapshots (R454 to R457) -/

/-- A snapshot record's 16 bytes (R456). -/
def snapRecord (value offset block type idx : Nat) (wrapped silent retired : Bool) : Nat :=
  put value 80 + put offset 60 + put block 47 + put type 43 + put idx 38 + put (if wrapped then 1 else 0) 37 +
  put (if silent then 1 else 0) 36 + put (if retired then 1 else 0) 35

/-- A snapshot header's 64 bytes (R455). -/
def snapHeader (seq evSeq first skew records part : Nat) (coarse : Bool) : Nat :=
  put seq 448 + put evSeq 384 + put first 320 + put skew 300 + put records 268 + put part 264 + put (if coarse then 1 else 0) 263

/-- Whether a scope names a block; a scope entry is a type with its first and last index. -/
def inScope (scope : List (Nat × Nat × Nat)) (type block : Nat) : Bool :=
  scope.any (fun x => x.1 == type && decide (x.2.1 ≤ block) && decide (block ≤ x.2.2))

/-- Whether every entry of a scope lies in its block type. -/
def scopeOk (scope : List (Nat × Nat × Nat)) : Bool :=
  scope.all (fun x => decide (x.1 < 7) && decide (x.2.1 ≤ x.2.2) && decide (x.2.2 < blockCount x.1))

/-- The counters of a scope in read order: ascending type, block, index (R454). -/
def readOrder (scope : List (Nat × Nat × Nat)) : List (Nat × Nat × Nat) :=
  ((List.range 7).map (fun type =>
    let blocks := if scope.any (fun x => x.1 == type) then (List.range (blockCount type)).filter (inScope scope type) else []
    let idx := progIdx type ++ fixedIdx type
    (blocks.map (fun b => idx.map (fun i => (type, b, i)))).flatten)).flatten

/-- Counters of every block. -/
def allCounters : Nat := ((List.range 7).map (fun t => blockCount t * ((progIdx t).length + (fixedIdx t).length))).sum

/-- Whether an index of a type is a programmable counter. -/
def isProg (type idx : Nat) : Bool := decide (type < 6) && decide (idx < 8)

/-- Read counters in order from a free value's index on: the records and the last offset. The times of the reads are free
within the bound of R454, and never decrease. -/
def readAll (s : State) (silent : List (Nat × Nat)) (bound : Nat) : List (Nat × Nat × Nat) → Nat → Nat → List Nat × Nat
  | [], _, o => ([], o)
  | (type, b, i) :: l, f, o =>
    let mute := silent.contains (type, b) || inIsolated s type b
    let v := if mute then (0, false) else if isProg type i then progValue s type b i f else fixedValue s type b i f
    let r := readAll s silent bound l (f + 2) (o + (Config.freeWord (f + 3)).toNat % (bound - o + 1))
    (snapRecord v.1.toNat o b type i v.2 mute (unitRetired s type b) :: r.1, if l.isEmpty then o else r.2)

/-- What reading a counter clears: WRAPPED (R451), and the largest value since the last read (R335, R458). -/
def clearRead (silent : List (Nat × Nat)) (s : State) (x : Nat × Nat × Nat) : State :=
  let key := ckey x.1 x.2.1 x.2.2
  if silent.contains (x.1, x.2.1) || inIsolated s x.1 x.2.1 then s
  else if isProg x.1 x.2.2 then { s with obs := { s.obs with counters := tmod s.obs.counters key (fun c => { c with wrapped := false }) } }
  else if x.1 = 6 then
    modSp (fun p => { p with samples := tmod p.samples x.2.1 (fun q =>
      if x.2.2 = 1 then { q with maxDepth := 0 } else if x.2.2 = 3 then { q with maxDelay := 0 } else q) }) s
  else if x.1 = 2 ∧ (x.2.2 = 29 ∨ x.2.2 = 31) then { s with obs := { s.obs with fixed := tdel s.obs.fixed key } }
  else { s with obs := { s.obs with fixed := tmod s.obs.fixed key (fun v => (v.1, false)) } }

/-- Take a snapshot of a scope: header, records, and what the reads clear. -/
def snapshot (scope : List (Nat × Nat × Nat)) (silent : List (Nat × Nat)) (s : State) : Nat × List Nat × State :=
  let l := readOrder scope
  let bound := 400000 * l.length / allCounters
  let r := readAll s silent bound l s.free 0
  let seq := s.obs.snapSeq + 1
  let s1 := l.foldl (clearRead silent) s
  (snapHeader seq (s.mgmt.eventSeq - 1) s.timer.toNat r.2 l.length 0 false, r.1,
   { s1 with free := s1.free + 2 * l.length + 2, obs := { s1.obs with snapSeq := seq } })

/-! ## What a supervisor sees (R459) -/

/-- Whether a block is one of a partition's cores, channels or host-facing ports. -/
def ownBlock (s : State) (p type block : Nat) : Bool :=
  match type with
  | 0 => match logicalOf s block with | some (_, k) => k.part == some p | none => false
  | 2 => match portOf s block with | some q => q.cfg.role == .host && q.cfg.owner == some p && !q.removed | none => false
  | 3 => (channelAt s block).part == some p
  | _ => false

/-- Whether a supervisor of a partition receives a counter. STRIP, BANK and QUEUE records never go to one. -/
def supSees (s : State) (p : Nat) (x : Nat × Nat × Nat) : Bool :=
  if x.1 = 1 ∨ x.1 = 5 ∨ x.1 = 6 then false
  else if isProg x.1 x.2.2 then
    ownBlock s p x.1 x.2.1 || match counterAt s x.1 x.2.1 x.2.2 with
      | some c => c.ctl.partEn && c.ctl.part == p
      | none => false
  else x.1 == 4 && x.2.1 / 5 == p

/-- The coarsened value: that of the end of the last completed supervisor window, rounded down. -/
def coarse (s : State) (x : Nat × Nat × Nat) (f : Nat) : Nat :=
  let v : BitVec 48 :=
    if isProg x.1 x.2.2 then match counterAt s x.1 x.2.1 x.2.2 with
      | some c => if uncounted x.1 c.ctl then freeCount f else c.latched
      | none => 0
    else tgetD s.obs.fixedLatched (ckey x.1 x.2.1 x.2.2) 0
  v.toNat / 4096 * 4096

/-- Coarsened records, each with a free value's index of its own. -/
def coarseAll (s : State) (silent : List (Nat × Nat)) : List (Nat × Nat × Nat) → Nat → List Nat
  | [], _ => []
  | x :: l, f =>
    let mute := silent.contains (x.1, x.2.1) || inIsolated s x.1 x.2.1
    snapRecord (if mute then 0 else coarse s x f) 0 x.2.1 x.1 x.2.2 false mute (unitRetired s x.1 x.2.1) :: coarseAll s silent l (f + 1)

/-- A supervisor's snapshot. -/
def supSnapshot (p : Nat) (scope : List (Nat × Nat × Nat)) (silent : List (Nat × Nat)) (s : State) : Nat × List Nat × State :=
  let l := (readOrder scope).filter (supSees s p)
  let seq := s.obs.snapSeq + 1
  (snapHeader seq 0 s.obs.supWindowEnd 0 l.length p true, coarseAll s silent l s.free,
   { s with free := s.free + l.length, obs := { s.obs with snapSeq := seq } })

/-- COUNTER_READ (R454): `silent` names the monitors that do not answer within 1 µs (R457). -/
def execCounterRead (h : Mgmt) (scope : List (Nat × Nat × Nat)) (silent : List (Nat × Nat)) (s : State) : Out :=
  request 0x71 false h (fun k t =>
    if !scopeOk scope then no .state t
    else
      let r := match k with
        | .supervisor p => supSnapshot p scope silent t
        | _ => snapshot scope silent t
      .done .ok (r.1 :: r.2.1) false r.2.2) s

/-! ## Windows (R458, R459) -/

/-- The four window counters of a port. -/
def portWindow (n : Nat) (s : State) : State :=
  let rx := tgetD s.obs.winBytes (2 * n) 0
  let tx := tgetD s.obs.winBytes (2 * n + 1) 0
  let old (i : Nat) : Nat := (tgetD s.obs.fixed (ckey 2 n i) (0, false)).1.toNat
  reading 2 n 31 (max (old 31) tx) (reading 2 n 30 tx (reading 2 n 29 (max (old 29) rx) (reading 2 n 28 rx s)))

/-- PORT_WINDOW_END (R458). -/
def execPortWindowEnd (s : State) : Out :=
  .next (if !dataUp s then s
    else
      let s1 := (s.ports.ports.map (·.1)).foldl (fun t n => portWindow n t) s
      { s1 with obs := { s1.obs with winBytes := [] } })

/-- SUPERVISOR_WINDOW_END (R459): the counts are latched; windows are aligned on the reference timer. -/
def execSupervisorWindowEnd (s : State) : Out :=
  .next (if s.phys.pwrgd then
      let w := max 1 (s.obs.supWindowMs * 1000000)
      { s with obs := { s.obs with
          supWindowEnd := s.timer.toNat / w * w,
          counters := s.obs.counters.map (fun x => (x.1, { x.2 with latched := x.2.value })),
          fixedLatched := s.obs.fixed.map (fun x => (x.1, x.2.1)) } }
    else s)

/-! ## Sampling (R460) -/

/-- SAMPLE_CONFIG (R460). -/
def execSampleConfig (h : Mgmt) (engine part n : Nat) (seed : Word32) (enable : Bool) (s : State) : Out :=
  request 0x73 false h (fun _ t =>
    if engine = 0 ∨ 5 < engine ∨ 16 ≤ part ∨ 20 < n then no .state t
    else
      let c : SampleCfg := { n := n, seed := seed, enable := enable }
      yes { t with obs := { t.obs with sampling := tset t.obs.sampling (part * 8 + engine) c } }) s

/-! ## The fumarole (R462 to R465) -/

/-- Whether TRACE_CONFIG's fields lie in their ranges. -/
def traceOk (c : TraceCfg) : Bool :=
  c.types.all (fun t => decide (1 ≤ t) && decide (t ≤ 6)) && c.cellLanes.all (decide <| · < 384) && decide (c.snapLog2 ≤ 16) &&
  decide (1 ≤ c.rateGbps) && decide (c.rateGbps ≤ 40)

/-- Sessions that are sinks. -/
def sinkCount (s : State) : Nat := (s.mgmt.sessions.filter (fun x => x.2.sink.isSome)).length

/-- A session's sink takes a configuration; a new one starts with nothing. -/
def setSink (c : TraceCfg) (k : Session) : Session :=
  match k.sink with
  | some x => { k with sink := some { x with cfg := c } }
  | none => { k with sink := some { cfg := c, fseq := 0, buffer := [], bytes := 0, losses := 0, taken := [] } }

/-- TRACE_CONFIG (R463, R465): at most two sinks. -/
def execTraceConfig (h : Mgmt) (cfg : TraceCfg) (s : State) : Out :=
  request 0x72 false h (fun _ t =>
    let mine := match tget t.mgmt.sessions h.sess with | some k => k.sink.isSome | none => false
    if !traceOk cfg || (!mine && decide (2 ≤ sinkCount t)) then no .state t
    else yes { t with mgmt := { t.mgmt with sessions := tmod t.mgmt.sessions h.sess (setSink cfg) } }) s

/-- Cut a list into parts of a length, with fuel. -/
def chunksOf (n : Nat) : Nat → List Nat → List (List Nat)
  | 0, _ => []
  | k + 1, l => if l.length ≤ n then [l] else l.take n :: chunksOf n k (l.drop n)

/-- The bodies of a snapshot's parts (R464): the header opens the first, and each holds whole records within 262,140
bytes. -/
def snapParts (header : Nat) (records : List Nat) : List (List Nat) :=
  let body (l : List Nat) : List Nat := (l.map (words 2)).flatten
  let rest := records.drop 16379
  (words 8 header ++ body (records.take 16379)) ::
    (if rest.isEmpty then [] else (chunksOf 16383 (rest.length + 1) rest).map body)

/-- Add the parts of a snapshot to a sink: after a part that is dropped the later ones are dropped too (R464). -/
def putParts (t : Nat) : List (List Nat) → Bool → Sink → Sink
  | [], _, k => k
  | b :: l, lost, k =>
    let r : FumRec := { type := 4, source := 8, time := t, more := !l.isEmpty, body := b }
    let k1 := if lost then { k with fseq := k.fseq + 1, losses := k.losses + 1 } else sinkPut r k
    putParts t l (lost || decide (k.losses < k1.losses)) k1

/-- Every block. -/
def fullScope : List (Nat × Nat × Nat) := (List.range 7).map (fun t => (t, 0, blockCount t - 1))

/-- TRACE_SNAPSHOT (R463): a snapshot of every block for a sink that has the type on. -/
def execTraceSnapshot (sess : Nat) (s : State) : Out :=
  .next (match tget s.mgmt.sessions sess with
    | some { sink := some k, .. } =>
      if !k.cfg.types.contains 4 then s
      else
        let r := snapshot fullScope [] s
        let k1 := putParts s.timer.toNat (snapParts r.1 r.2.1) false k
        { r.2.2 with mgmt := { r.2.2.mgmt with sessions := tmod r.2.2.mgmt.sessions sess (fun x => { x with sink := some k1 }) } }
    | _ => s)

/-- A record's 16-byte header (R462): LENGTH counts 4-byte units. -/
def fumHeader (q : Word32) (r : FumRec) : Nat :=
  inBits r.time 127 64 + put q.toNat 32 + inBits r.type 31 24 + inBits (2 * r.body.length) 23 8 + inBits r.source 7 4 +
  put (if r.more then 1 else 0) 3

/-- The message that carries a record (R465): code 0x72, header and body. -/
def fumMsg (sess : Nat) (q : Word32) (r : FumRec) : Reply :=
  { sess := sess, reqId := 0, code := 0x72, status := .ok, evSeq := 0, body := words 2 (fumHeader q r) ++ r.body, kind := 2 }

/-- A LOSS record is formed as soon as space has returned (R465). -/
def formLoss (t : Nat) (k : Sink) : Sink :=
  let r : FumRec := { type := 5, source := 8, time := t, more := false, body := [k.losses] }
  if k.losses = 0 ∨ 67108864 < k.bytes + fumBytes r then k
  else { k with fseq := k.fseq + 1, losses := 0, buffer := k.buffer ++ [(k.fseq, r)], bytes := k.bytes + fumBytes r }

/-- What names a tephra sample. -/
def tephraKey (t : Tephra) : Nat × Nat := (t.seq, 4 * t.phys + t.ctx)

/-- The 64-byte state record of a sample (R407). -/
def tephraState (t : Tephra) : Nat :=
  inBits t.seq 511 448 + inBits t.phys 447 436 + inBits t.core 435 425 + inBits t.ctx 424 423 + inBits t.part 422 419 +
  inBits t.cause 418 416 + inBits t.queue 415 404 + put t.cmdSeq.toNat 372 + inBits t.item 371 348 + inBits t.pc 347 335 +
  inBits t.engine 334 331 + put t.tokens.toNat 299 + put t.flags.toNat 296 + inBits t.reach 295 294 + put t.unreadable.toNat 230

/-- The body of a TEPHRA record: the state record, then the tiles with their sidecars, 260 bytes each (R407). -/
def tephraBody (t : Tephra) : List Nat :=
  words 8 (tephraState t) ++
  words ((260 * t.tiles.length + 7) / 8) (packNat 2080 (t.tiles.map (fun x => x.data.toNat + put x.crc.toNat 2048)))

/-- Samples that every sink has taken leave the stewards' buffers (R408, R465). -/
def pruneTephra (s : State) : State :=
  let sinks := s.mgmt.sessions.filterMap (fun x => x.2.sink)
  if sinks.isEmpty then s
  else { s with obs := { s.obs with tephra := s.obs.tephra.filter (fun t => !sinks.all (fun k => k.taken.contains (tephraKey t))) } }

/-- Write a session's sink. -/
def setSinkOf (sess : Nat) (k : Sink) (s : State) : State :=
  { s with mgmt := { s.mgmt with sessions := tmod s.mgmt.sessions sess (fun x => { x with sink := some k }) } }

/-- Deliver the next record of a sink: its buffer in order, then the samples that it has not taken. -/
def export1 (sess : Nat) (k : Sink) (s : State) : State :=
  match k.buffer with
  | (q, r) :: l =>
    let k1 := formLoss s.timer.toNat { k with buffer := l, bytes := k.bytes - fumBytes r }
    setSinkOf sess k1 { s with replies := s.replies ++ [fumMsg sess q r] }
  | [] =>
    match s.obs.tephra.find? (fun t => !k.taken.contains (tephraKey t)) with
    | none => setSinkOf sess (formLoss s.timer.toNat k) s
    | some t =>
      let r : FumRec := { type := 2, source := physField t.phys, time := s.timer.toNat, more := false, body := tephraBody t }
      pruneTephra (setSinkOf sess { k with fseq := k.fseq + 1, taken := k.taken ++ [tephraKey t] }
        { s with replies := s.replies ++ [fumMsg sess k.fseq r] })

/-- FUMAROLE_EXPORT (R465): one record, under the sink's rate. -/
def execFumaroleExport (sess : Nat) (s : State) : Out :=
  .next (match tget s.mgmt.sessions sess with
    | some { sink := some k, .. } => export1 sess k s
    | _ => s)

end Sys2Proof.Machine
end

