-- ==== Sys2Proof/Machine/Phioc.lean ====
section
/-! DEFINITION. The commands of chapters 2 to 6, 10 and 14 that are transactions arriving on a fabric port, and the
timers and background work of the home and the pool. -/

namespace Sys2Proof.Machine

/-- A transaction of an op arrives. -/
def recvOp (op : Byte) (resp : Bool) (port : Nat) (tx : Tx) (s : State) : Out :=
  .next (recv port { tx with op := op, resp := resp } s)

/-! ## Transactions -/

/-- RD_TILE (R30, R39, R107, R136). -/
def execRdTile (port : Nat) (tx : Tx) (s : State) : Out := recvOp 0x01 false port tx s
/-- WR_TILE (R81, R116, R133). -/
def execWrTile (port : Nat) (tx : Tx) (s : State) : Out := recvOp 0x02 false port tx s
/-- WR_PARTIAL (R127). -/
def execWrPartial (port : Nat) (tx : Tx) (s : State) : Out := recvOp 0x03 false port tx s
/-- ATOMIC (R86 to R99). -/
def execAtomic (port : Nat) (tx : Tx) (s : State) : Out := recvOp 0x04 false port tx s
/-- ATOMIC_ACK (R91, R92). -/
def execAtomicAck (port : Nat) (tx : Tx) (s : State) : Out := recvOp 0x05 false port tx s
/-- FENCE (R82). -/
def execFence (port : Nat) (tx : Tx) (s : State) : Out := recvOp 0x06 false port tx s
/-- RD_SHARED (R68). -/
def execRdShared (port : Nat) (tx : Tx) (s : State) : Out := recvOp 0x10 false port tx s
/-- RD_OWN (R68). -/
def execRdOwn (port : Nat) (tx : Tx) (s : State) : Out := recvOp 0x11 false port tx s
/-- UPGRADE (R68). -/
def execUpgrade (port : Nat) (tx : Tx) (s : State) : Out := recvOp 0x12 false port tx s
/-- MARK_DIRTY (R68). -/
def execMarkDirty (port : Nat) (tx : Tx) (s : State) : Out := recvOp 0x13 false port tx s
/-- WB_DIRTY (R68, R485). -/
def execWbDirty (port : Nat) (tx : Tx) (s : State) : Out := recvOp 0x14 false port tx s
/-- EVICT_CLEAN (R68). -/
def execEvictClean (port : Nat) (tx : Tx) (s : State) : Out := recvOp 0x15 false port tx s
/-- RECALL_ACK (R69). -/
def execRecallAck (port : Nat) (tx : Tx) (s : State) : Out := recvOp 0x16 false port tx s
/-- RECALL_DATA (R68, R485). -/
def execRecallData (port : Nat) (tx : Tx) (s : State) : Out := recvOp 0x17 false port tx s
/-- INVALIDATE (R76). -/
def execInvalidate (port : Nat) (tx : Tx) (s : State) : Out := recvOp 0x20 false port tx s
/-- The answer to an INVALIDATE (R76, R77). -/
def execInvalidateResponse (port : Nat) (tx : Tx) (s : State) : Out := recvOp 0x20 true port tx s
/-- SNAP_OPEN (R107). -/
def execSnapOpen (port : Nat) (tx : Tx) (s : State) : Out := recvOp 0x28 false port tx s
/-- SNAP_CLOSE (R107, R110, R113). -/
def execSnapClose (port : Nat) (tx : Tx) (s : State) : Out := recvOp 0x29 false port tx s
/-- PUBLISH (R108). -/
def execPublish (port : Nat) (tx : Tx) (s : State) : Out := recvOp 0x2A false port tx s
/-- CMD_PUSH (R153). -/
def execCmdPush (port : Nat) (tx : Tx) (s : State) : Out := recvOp 0x30 false port tx s
/-- DOORBELL (R155, R156). -/
def execDoorbell (port : Nat) (tx : Tx) (s : State) : Out := recvOp 0x31 false port tx s
/-- RD_WINDOW (R153, R157). -/
def execRdWindow (port : Nat) (tx : Tx) (s : State) : Out := recvOp 0x32 false port tx s
/-- CONTRIBUTE (R253). -/
def execContribute (port : Nat) (tx : Tx) (s : State) : Out := recvOp 0x38 false port tx s
/-- The parent's answer to a partial (R254). -/
def execContributeResponse (port : Nat) (tx : Tx) (s : State) : Out := recvOp 0x38 true port tx s
/-- COLL_RESULT (R260). -/
def execCollResult (port : Nat) (tx : Tx) (s : State) : Out := recvOp 0x39 false port tx s
/-- COLL_STATUS (R261, R265). -/
def execCollStatus (port : Nat) (tx : Tx) (s : State) : Out := recvOp 0x3A false port tx s
/-- MODULE_STATUS (R138). -/
def execModuleStatus (port : Nat) (tx : Tx) (s : State) : Out := recvOp 0x41 false port tx s
/-- PULL_STATE (R54). -/
def execPullState (port : Nat) (tx : Tx) (s : State) : Out := recvOp 0x48 false port tx s
/-- The response to PULL_STATE (R54). -/
def execPullStateResponse (port : Nat) (tx : Tx) (s : State) : Out := recvOp 0x48 true port tx s
/-- YIELD (R55). -/
def execYieldMsg (port : Nat) (tx : Tx) (s : State) : Out := recvOp 0x49 false port tx s

/-- A pool module's response to a read, a write or a claim, with the op it answers (R128, R133, R145). -/
def execModuleResponse (port : Nat) (tx : Tx) (s : State) : Out := .next (recv port { tx with resp := true } s)

/-- A transaction for another node (R357 to R359). -/
def execTransitForward (port : Nat) (tx : Tx) (s : State) : Out := .next (if isSelf s tx.dst then s else recv port tx s)

/-- A transaction that fails check 1 of R355. -/
def execUndefinedOp (port : Nat) (tx : Tx) (s : State) : Out :=
  .next (if opDefined tx.op && (opClasses tx).contains tx.cls && bodyOk tx then s else recv port tx s)

/-- Gap loss of a flow (R361). -/
def execFlowGapLoss (src : Node) (cls : Nat) (s : State) : Out := .next (settle (gapLoss src cls s))

/-! ## Timers and waiting requests of the home -/

/-- The recall timeout of a BUSY tile passes (R70): every recall still unanswered expires. -/
def execRecallTimeout (slot tile : Nat) (s : State) : Out :=
  match busyOf s slot tile with
  | none => .next s
  | some b =>
    let s1 := b.recalls.foldl (fun t r => recallExpired slot tile r t) s
    .next (settle (tryFinish slot tile s1))

/-- The recall timeout of an INVALIDATE passes (R77). -/
def execInvalidateTimeout (id : Nat) (s : State) : Out :=
  match s.ext.invals.find? (fun i => i.id == id) with
  | none => .next s
  | some i => .next (settle (endInval i s))

/-- The first of the requests that a test names is served (R69). -/
def serveFirst (p : Parked → Bool) (s : State) : State :=
  match s.home.parked.find? p with
  | none => s
  | some x => serveParked x s

/-- The request at the head of a tile's waiting list is served once BUSY is clear (R69). -/
def execWaitingRequestServe (slot tile : Nat) (s : State) : Out :=
  .next (if isBusy s slot tile then s else settle (serveFirst (fun p => p.why == .tile slot tile) s))

/-- An ATOMIC that waits for ledger space proceeds (R95). -/
def execLedgerSpaceResume (part : Nat) (s : State) : Out :=
  .next (if ledgerFull s part then s else settle (serveFirst (fun p => p.why == .ledger part) s))

/-- BUSY tiles whose end waited for space end now. -/
def retryBusy (part : Nat) (s : State) : State :=
  (s.home.busy.filter (fun b => b.recalls.isEmpty && ownerOf s b.slot == part)).foldl (fun t b => tryFinish b.slot b.tile t) s

/-- Tiles of ARRIVING extents whose data waited for space are taken, and the requests that waited for them go on (R54). -/
def retryHeld (s : State) : State :=
  let l := s.ext.held
  let s1 := l.foldl (fun t h => takeTile h.1 h.2 t) { s with ext := { s.ext with held := [] } }
  (l.map (·.1)).eraseDups.foldl (fun t slot => (pullsDone t slot).foldl (fun u p => serveParked p u) (rehomeCheck slot t)) s1

/-- A write that waits for a journal record proceeds (R134, R417). -/
def execJournalSpaceResume (part : Nat) (s : State) : Out :=
  .next (if journalFull s part then s else settle (serveFirst (fun p => p.why == .journal part) (retryHeld (retryBusy part s))))

/-- A write that waits at copy-on-write gets space, or fails once none is left to sweep (R120). -/
def execSinterSpaceResume (part : Nat) (s : State) : Out :=
  .next (settle (serveFirst (fun p => p.why == .sinter part) (retryBusy part s)))

/-- 40 ms after a force point (R44). -/
def execRevokeStopTimer (id : Nat) (s : State) : Out := .next (settle (forceStop id s))

/-- A revocation becomes quiescent (R45). -/
def execRevokeQuiescent (id : Nat) (s : State) : Out := .next (settle (quiesce id s))

/-! ## Versions in the background -/

/-- Tiles of a slot written in its open layer (R113). -/
def openTiles (s : State) (slot : Nat) (e : Extent) : List Nat :=
  (s.vers.heads.filter (fun x => keySlot x.1 == slot && x.2.backVersion == e.openV && !x.2.copies.isEmpty)).map (·.1)

/-- The last tile has been handled: the layer record is FREE and LAYER_DISCARDED is posted (R113). -/
def endDiscard (slot : Nat) (e : Extent) (s : State) : State :=
  let v := e.openV
  let s1 := modExt slot (fun x => noted s { x with
    openV := 0, layers := x.layers.map (fun l => if l.version = v ∧ l.state = .discarding then freeLayer else l) }) s
  postAll .layerDiscarded e.owner [slot, v] 0x07 slot (e.holders.map (·.node)) (fun _ => BitVec.ofNat 32 v) s1

/-- A discarding layer that has drained is restored tile by tile (R113). -/
def execDiscardRestore (slot : Nat) (s : State) : Out :=
  match extOf s slot with
  | none => .next s
  | some e =>
    if e.openV ≠ 0 ∧ e.layers.any (fun l => l.version == e.openV && l.state == .discarding) ∧ drained s slot e then
      match restoreAll slot (openTiles s slot e) s with
      | (true, s1) => .next (settle (match extOf s1 slot with | some e1 => endDiscard slot e1 s1 | none => s1))
      | (false, s1) => .next (settle s1)
    else .next s

/-- The sweep after a layer dies (R118). -/
def execVersionSweep (slot : Nat) (s : State) : Out := .next (settle (sweepSlot slot s))

/-- The lowest tile of a slot that has not been taken. -/
def nextPull (s : State) (slot : Nat) : Nat :=
  freeSinter ((s.ext.pulled.filter (fun x => keySlot x.1 == slot)).map (fun x => keyTile x.1)) 0

/-- The background pull of an ARRIVING extent (R54, R419): its next tile, or its own state first. One that is not answered yet
is sent again, as R332 has it of TC6 (log entry 169). -/
def execRehomePull (slot : Nat) (s : State) : Out :=
  match extOf s slot with
  | none => .next s
  | some e =>
    if e.state ≠ .arriving then .next s
    else if !e.known then .next (askPull e 0 6 1 0 s)
    else
      let t := nextPull s slot
      if 4194304 ≤ t then .next (settle (rehomeCheck slot s))
      else if thas s.ext.adopted slot then .next (settle (rehomeCheck slot (adoptTile slot t e s)))
      else .next (if s.ext.held.any (fun h => h.1 == slot && h.2.tile == t) then s
        else if tget s.ext.asked (tkey slot t) = some 6 then sendPull e t 6 s else askTile slot e t 6 s)

/-! ## The pool in the background -/

/-- An intent bit is cleared once its region has no write that is not committed and awaits no resync (R137). -/
def execIntentClear (group region : Nat) (s : State) : Out :=
  .next (if s.pool.journal.any (fun r => r.group == group && r.row / 4096 == region) ∨ thas s.pool.resync (group * 2 ^ 40 + region) then s
         else { s with pool := { s.pool with intent := tdel s.pool.intent (group * 2 ^ 40 + region) } })

/-- An ownership bit is cleared once its region holds no M or O tile (R416). -/
def execOwnershipBitmapClear (slot region : Nat) (s : State) : Out :=
  .next (if s.dir.entries.any (fun x => keySlot x.1 == slot && keyTile x.1 / 64 == region && (x.2.state == .m || x.2.state == .o)) then s
         else { s with dir := { s.dir with own := tdel s.dir.own (slot * 2 ^ 16 + region) } })

/-- A pool module is lost (R138). -/
def execModuleLost (node : Node) (s : State) : Out := .next (settle (loseModule node s))

/-- Rewrite the parity units of a row that disagree with its data, read or solved (R137, R144). A row whose data cannot be had
keeps its parity. -/
def reparity (gi : Nat) (g : Group) (row : Nat) (s : State) : State :=
  match wholeRow s gi g row with
  | none => s
  | some ds => (List.range g.m).foldl (fun t j =>
    let pp := posOf g row (g.k + j)
    let want := mkTile (if g.k = 1 then foldCols 0 (ds.take 1) else foldCols j ds)
    if isMissing s gi g row pp || storedUnit s (modAt g pp) row == want then t else rewriteUnit 0 6 gi (modAt g pp) row want t) s

/-- Read every present unit of a row, and repair those whose sidecars fail (R128). -/
def repairRow (gi : Nat) (g : Group) (row : Nat) (s : State) : State :=
  let here := (List.range (widthOf g)).filter (fun c => !isMissing s gi g row (posOf g row c))
  (here.filter (fun c => !tileOk (storedUnit s (modAt g (posOf g row c)) row))).foldl (fun t c =>
    match solveCol t gi g row c with
    | some d => rewriteUnit 0 6 gi (modAt g (posOf g row c)) row (mkTile d) t
    | none => t) (here.foldl (fun t c => askCol none 0 6 gi g row c t) s)

/-- The patrol scrub of one row (R144). -/
def execPatrolScrub (group row : Nat) (s : State) : Out :=
  match groupOf s group with
  | none => .next s
  | some g => if row < rowsOf g ∧ g.up then .next (reparity group g row (repairRow group g row s)) else .next s

/-- One row of the metered background rebuild (R141) or of a re-forming pass (R144). A fenced device writes to no module
(R390), so it rebuilds no row. -/
def execRebuildRow (group : Nat) (s : State) : Out :=
  match groupOf s group with
  | none => .next s
  | some g =>
    if s.boot.fenced then .next s
    else match g.pass with
    | some p => .next (endPass group (modGroup group (fun x => { x with pass := some (p + 1) }) (formRow group g p s)))
    | none =>
      if g.state ≠ .rebuilding then .next s
      else
        let row := g.cursor
        let s1 := rebuildUnit 0 6 group g row g.rebuildPos (askHelpers 0 6 group g row (colAt g row g.rebuildPos) s)
        .next (endRebuild group (modGroup group (fun x => { x with cursor := row + 1 }) s1))

/-- Parity of every row of a marked region is recomputed, and the writes that waited for it proceed (R137, R418). -/
def execMarkedRegionResync (group region : Nat) (s : State) : Out :=
  match groupOf s group with
  | none => .next s
  | some g =>
    if s.boot.fenced ∨ thas s.pool.resync (group * 2 ^ 40 + region) = false then .next s
    else
      let rows := (List.range 4096).map (fun i => region * 4096 + i)
      let s1 := (rows.filter (fun r => decide (r < rowsOf g))).foldl (fun t r => reparity group g r (repairRow group g r t)) s
      let s2 : State := { s1 with pool := { s1.pool with resync := tdel s1.pool.resync (group * 2 ^ 40 + region) } }
      let waits := s2.home.parked.filter (fun p => p.why == .region group region)
      .next (settle (waits.foldl (fun t p => serveParked p t) (retryHeld
        ((s2.home.busy.filter (fun b => b.recalls.isEmpty)).foldl (fun t b => tryFinish b.slot b.tile t) s2))))

/-! ## REDUCE -/

/-- A chunk commits (R259), or a contribution that its item reads fails its check (R337). -/
def execChunkCommit (collId : BitVec 48) (chunk : Nat) (news : ChunkNews) (s : State) : Out :=
  .next (settle (match news with
    | .folded ans => commitChunk collId chunk ans s
    | .heldFails child => failHeld collId chunk child s))

/-- GEN_TIMEOUT passes with the generation unended (R264). -/
def execGenerationTimeout (collId : BitVec 48) (s : State) : Out :=
  match cgOf s collId with
  | none => .next s
  | some g => .next (if g.e.genTimeout ≠ 0 ∧ g.running then settle (detectAbort collId 6 noNode s) else s)

end Sys2Proof.Machine
end

