-- ==== Sys2Proof/Machine/Scalar.lean ====
section
/-! DEFINITION. The scalar and branch classes (R216, R217). -/

namespace Sys2Proof.Machine

/-- gD ← f(gA, gB). -/
def regOp (c : Instr) (x : CtxId) (o : Ops) (f : Word64 → Word64 → Word64) (s : State) : Out :=
  insn c x o (fun k t => .go (gset k o.d (f (gget k o.a) (gget k o.b))) t) s

/-- gD ← f(gA). -/
def immOp (c : Instr) (x : CtxId) (o : Ops) (f : Word64 → Word64) (s : State) : Out :=
  insn c x o (fun k t => .go (gset k o.d (f (gget k o.a))) t) s

/-- pD ← f(gA, gB); a predicate field above 7 is an ST_OPCODE case (R215). -/
def cmpOp (c : Instr) (x : CtxId) (o : Ops) (f : Word64 → Word64 → Bool) (s : State) : Out :=
  insn c x o (fun k t => if predOk o.d then .go (pset k o.d (f (gget k o.a) (gget k o.b))) t else badInsn k) s

/-- pD ← f(gA). -/
def cmpImm (c : Instr) (x : CtxId) (o : Ops) (f : Word64 → Bool) (s : State) : Out :=
  insn c x o (fun k t => if predOk o.d then .go (pset k o.d (f (gget k o.a))) t else badInsn k) s

/-- Unsigned quotient; by zero all ones (R216). -/
def divOf (a b : Word64) : Word64 := if b = 0 then BitVec.allOnes 64 else a / b

/-- Unsigned remainder; by zero the dividend (R216). -/
def remOf (a b : Word64) : Word64 := if b = 0 then a else a % b

/-- The unsigned high 64 bits of a product (R216). -/
def mulHigh (a b : Word64) : Word64 := BitVec.ofNat 64 ((a.toNat * b.toNat) >>> 64)

/-- A shift count: bits [5:0] (R215). -/
def shiftOf (b : Word64) : Nat := b.toNat % 64

/-- ADD (R216). -/
def execAdd (x : CtxId) (o : Ops) (s : State) : Out := regOp (.add x o) x o (fun a b => a + b) s
/-- SUB (R216). -/
def execSub (x : CtxId) (o : Ops) (s : State) : Out := regOp (.sub x o) x o (fun a b => a - b) s
/-- MUL: the low 64 bits (R216). -/
def execMul (x : CtxId) (o : Ops) (s : State) : Out := regOp (.mul x o) x o (fun a b => a * b) s
/-- MULHU (R216). -/
def execMulhu (x : CtxId) (o : Ops) (s : State) : Out := regOp (.mulhu x o) x o mulHigh s
/-- DIVU (R216). -/
def execDivu (x : CtxId) (o : Ops) (s : State) : Out := regOp (.divu x o) x o divOf s
/-- REMU (R216). -/
def execRemu (x : CtxId) (o : Ops) (s : State) : Out := regOp (.remu x o) x o remOf s
/-- AND (R216). -/
def execAndR (x : CtxId) (o : Ops) (s : State) : Out := regOp (.andR x o) x o (fun a b => a &&& b) s
/-- OR (R216). -/
def execOrR (x : CtxId) (o : Ops) (s : State) : Out := regOp (.orR x o) x o (fun a b => a ||| b) s
/-- XOR (R216). -/
def execXor (x : CtxId) (o : Ops) (s : State) : Out := regOp (.xor x o) x o (fun a b => a ^^^ b) s
/-- SHL (R215, R216). -/
def execShl (x : CtxId) (o : Ops) (s : State) : Out := regOp (.shl x o) x o (fun a b => a <<< shiftOf b) s
/-- SHR (R215, R216). -/
def execShr (x : CtxId) (o : Ops) (s : State) : Out := regOp (.shr x o) x o (fun a b => a >>> shiftOf b) s
/-- SAR (R215, R216). -/
def execSar (x : CtxId) (o : Ops) (s : State) : Out := regOp (.sar x o) x o (fun a b => a.sshiftRight (shiftOf b)) s
/-- MIN_S (R216). -/
def execMinS (x : CtxId) (o : Ops) (s : State) : Out := regOp (.minS x o) x o (fun a b => if a.toInt ≤ b.toInt then a else b) s
/-- MAX_S (R216). -/
def execMaxS (x : CtxId) (o : Ops) (s : State) : Out := regOp (.maxS x o) x o (fun a b => if a.toInt ≤ b.toInt then b else a) s
/-- ADDI: the immediate sign-extended (R214, R216). -/
def execAddi (x : CtxId) (o : Ops) (s : State) : Out := immOp (.addi x o) x o (fun a => a + immS o) s
/-- ANDI: the immediate zero-extended (R216). -/
def execAndi (x : CtxId) (o : Ops) (s : State) : Out := immOp (.andi x o) x o (fun a => a &&& immZ o) s
/-- ORI: the immediate zero-extended (R216). -/
def execOri (x : CtxId) (o : Ops) (s : State) : Out := immOp (.ori x o) x o (fun a => a ||| immZ o) s
/-- XORI: the immediate zero-extended (R216). -/
def execXori (x : CtxId) (o : Ops) (s : State) : Out := immOp (.xori x o) x o (fun a => a ^^^ immZ o) s
/-- SHLI: by I[5:0] (R216). -/
def execShli (x : CtxId) (o : Ops) (s : State) : Out := immOp (.shli x o) x o (fun a => a <<< immF o 5 0) s
/-- SHRI: by I[5:0] (R216). -/
def execShri (x : CtxId) (o : Ops) (s : State) : Out := immOp (.shri x o) x o (fun a => a >>> immF o 5 0) s
/-- MOVI (R216). -/
def execMovi (x : CtxId) (o : Ops) (s : State) : Out := immOp (.movi x o) x o (fun _ => immS o) s
/-- SETP.EQ (R216). -/
def execSetpEq (x : CtxId) (o : Ops) (s : State) : Out := cmpOp (.setpEq x o) x o (fun a b => a == b) s
/-- SETP.NE (R216). -/
def execSetpNe (x : CtxId) (o : Ops) (s : State) : Out := cmpOp (.setpNe x o) x o (fun a b => a != b) s
/-- SETP.LT_S (R216). -/
def execSetpLtS (x : CtxId) (o : Ops) (s : State) : Out := cmpOp (.setpLtS x o) x o (fun a b => decide (a.toInt < b.toInt)) s
/-- SETP.LT_U (R216). -/
def execSetpLtU (x : CtxId) (o : Ops) (s : State) : Out := cmpOp (.setpLtU x o) x o (fun a b => decide (a.toNat < b.toNat)) s
/-- SETP.GE_S (R216). -/
def execSetpGeS (x : CtxId) (o : Ops) (s : State) : Out := cmpOp (.setpGeS x o) x o (fun a b => decide (b.toInt ≤ a.toInt)) s
/-- SETP.GE_U (R216). -/
def execSetpGeU (x : CtxId) (o : Ops) (s : State) : Out := cmpOp (.setpGeU x o) x o (fun a b => decide (b.toNat ≤ a.toNat)) s
/-- SETPI.EQ (R216). -/
def execSetpiEq (x : CtxId) (o : Ops) (s : State) : Out := cmpImm (.setpiEq x o) x o (fun a => a == immS o) s
/-- SETPI.LT_S (R216). -/
def execSetpiLtS (x : CtxId) (o : Ops) (s : State) : Out := cmpImm (.setpiLtS x o) x o (fun a => decide (a.toInt < (immS o).toInt)) s

/-- pD ← f(pA, pB). -/
def predOp (c : Instr) (x : CtxId) (o : Ops) (two : Bool) (f : Bool → Bool → Bool) (s : State) : Out :=
  insn c x o (fun k t => if predOk o.d && predOk o.a && (!two || predOk o.b) then .go (pset k o.d (f (pget k o.a) (pget k (if two then o.b else 0)))) t
    else badInsn k) s

/-- PAND (R216). -/
def execPand (x : CtxId) (o : Ops) (s : State) : Out := predOp (.pand x o) x o true (fun a b => a && b) s
/-- POR (R216). -/
def execPor (x : CtxId) (o : Ops) (s : State) : Out := predOp (.por x o) x o true (fun a b => a || b) s
/-- PNOT (R216). -/
def execPnot (x : CtxId) (o : Ops) (s : State) : Out := predOp (.pnot x o) x o false (fun a _ => !a) s

/-! ## Branches (R217) -/

/-- The target of a branch with an offset, if it lies in the code (R215). -/
def targetOf (s : State) (k : Ctx) (o : Ops) : Option Nat :=
  let t : Int := (k.pc : Int) + o.i.toInt
  if 0 ≤ t ∧ t < codeLen s k then some t.toNat else none

/-- Go to a branch's target. -/
def branchTo (k : Ctx) (k1 : Ctx) (o : Ops) (s : State) : IOut :=
  match targetOf s k o with
  | some n => .jump n k1 s
  | none => badInsn k

/-- Go to the instruction that a register names. -/
def jumpTo (k : Ctx) (v : Word64) (s : State) : IOut := if v.toNat < codeLen s k then .jump v.toNat k s else badInsn k

/-- BR (R217). -/
def execBranch (x : CtxId) (o : Ops) (s : State) : Out := insn (.branch x o) x o (fun k t => branchTo k k o t) s
/-- LOOP (R217). -/
def execLoop (x : CtxId) (o : Ops) (s : State) : Out :=
  insn (.loop x o) x o (fun k t =>
    let k1 := gset k o.a (gget k o.a - 1)
    if gget k1 o.a = 0 then .go k1 t else branchTo k k1 o t) s
/-- CALL (R217). -/
def execCallR (x : CtxId) (o : Ops) (s : State) : Out :=
  insn (.callR x o) x o (fun k t => branchTo k (gset k 31 (BitVec.ofNat 64 (k.pc + 1))) o t) s
/-- RET (R217). -/
def execRet (x : CtxId) (o : Ops) (s : State) : Out := insn (.ret x o) x o (fun k t => jumpTo k (gget k 31) t) s
/-- JR (R217). -/
def execJr (x : CtxId) (o : Ops) (s : State) : Out := insn (.jr x o) x o (fun k t => jumpTo k (gget k o.a) t) s

end Sys2Proof.Machine
end

