-- ==== Sys2Proof/Machine/Sync.lean ====
section
/-! DEFINITION. The sync and system classes (R221, R222, R242), and code that arrives in an instruction store (R237). -/

namespace Sys2Proof.Machine

/-! ## Sync -/

/-- WAIT (R221, R226). -/
def execWait (x : CtxId) (o : Ops) (s : State) : Out :=
  insn (.wait x o) x o (fun k t => if waitOver k o then .go (waitEnd k o) t else .stay (.wait o) k t) s

/-- WAITALL (R221). -/
def execWaitall (x : CtxId) (o : Ops) (s : State) : Out :=
  insn (.waitall x o) x o (fun k t => if (openTokens k).isEmpty then .go { k with tokens := [] } t else .stay .waitall k t) s

/-- FENCE of the sync class (R221). -/
def execSyncFence (x : CtxId) (o : Ops) (s : State) : Out :=
  insn (.syncFence x o) x o (fun k t =>
    let n := aNode (gget k o.a)
    if fencePending k n then .stay (.fence n) k t else .go k t) s

/-- YIELD of the sync class: no effect on the context (R221). -/
def execSyncYield (x : CtxId) (o : Ops) (s : State) : Out := insn (.syncYield x o) x o (fun k t => .go k t) s

/-! ## System -/

/-- The value of a system register (R222); none: the number is not defined. -/
def sysReg (x : CtxId) (n : Nat) (k : Ctx) (s : State) : Option Word64 :=
  match cmdOfItem s k.item with
  | none => none
  | some (_, c) =>
    let a := applyArgs c.desc
    let i := k.item.index
    match n with
    | 0x00 => some (BitVec.ofNat 64 i)
    | 0x01 => some (BitVec.ofNat 64 (i % a.nx))
    | 0x02 => some (BitVec.ofNat 64 (i / a.nx % a.ny))
    | 0x03 => some (BitVec.ofNat 64 (i / (a.nx * a.ny)))
    | 0x04 => some (BitVec.ofNat 64 a.nx)
    | 0x05 => some (BitVec.ofNat 64 a.ny)
    | 0x06 => some (BitVec.ofNat 64 a.nz)
    | 0x07 => some a.arg
    | 0x08 => some a.inline_
    | 0x09 => some k.seed
    | 0x0A => some (BitVec.ofNat 64 (flagWord k))
    | 0x0B => some (BitVec.ofNat 64 k.replay)
    | 0x0C => some (BitVec.ofNat 64 x.ctx)
    | 0x0D => some (BitVec.ofNat 64 x.core)
    | _ => none

/-- SYS (R221, R222). -/
def execSys (x : CtxId) (o : Ops) (s : State) : Out :=
  insn (.sys x o) x o (fun k t => match sysReg x o.f.toNat k t with
    | some v => .go (gset k o.d v) t
    | none => badInsn k) s

/-- SEED (R221). -/
def execSeed (x : CtxId) (o : Ops) (s : State) : Out := insn (.seed x o) x o (fun k t => .go { k with seed := gget k o.a } t) s

/-- FCLR (R203, R221). -/
def execFclr (x : CtxId) (o : Ops) (s : State) : Out := insn (.fclr x o) x o (fun k t => .go (clearFlags k) t) s

/-- FAIL (R221, R242). -/
def execFailItem (x : CtxId) (o : Ops) (s : State) : Out :=
  insn (.failItem x o) x o (fun k _ => .fail .state (BitVec.ofNat 32 (gget k o.a).toNat)) s

/-- END (R221, R242): the item completes once its outstanding operations and lathe queue have ended. -/
def execEndItem (x : CtxId) (o : Ops) (s : State) : Out := insn (.endItem x o) x o (fun k t => .stay .ending k t) s

/-! ## Code (R237) -/

/-- Whether a context waits for the code of a handle of a partition. -/
def waitsFor (s : State) (part handle : Nat) (k : Ctx) : Bool :=
  k.wait == some .code && k.item.part == part && k.item.engine == 5 && match cmdOfItem s k.item with
    | some (_, c) => (applyArgs c.desc).kernel == handle
    | none => false

/-- The code of a handle arrives: contexts that waited for it go on to their arguments, or may issue. -/
def codeArrives (core part handle : Nat) (s : State) : State :=
  match coreOf s core with
  | none => s
  | some k =>
    let mine := k.ctxs.filter (fun p => waitsFor s part handle p.2)
    let used := (codesOn s k).map (·.1)
    mine.foldl (fun t p =>
      modCore core (fun c =>
        let c1 := addCode used (itemCode s p.2.item) c
        { c1 with ctxs := tmod c1.ctxs p.1 (fun y => { y with wait := if thas y.tokens 32 then some .args else none }) }) t) s

/-- CODE_FETCH_COMPLETE (R212, R237). -/
def execCodeFetchComplete (core part handle : Nat) (s : State) : Out := .next (codeArrives core part handle s)

end Sys2Proof.Machine
end

