-- ==== Sys2Proof/Machine/Tiles.lean ====
section
/-! DEFINITION. The tile memory class (R218, R223 to R228), TATOM (R225, R231, R232), and the completion of asynchronous
operations. -/

namespace Sys2Proof.Machine

/-! ## Requests to other homes -/

/-- Where the tile of an operation lies now: here, or at another home. -/
def awayHome (s : State) (a : Word64) : Option (Node × Nat) :=
  match placeOf s a with
  | .away n slot _ => some (n, slot)
  | _ => none

/-- The tiles that an operation names. -/
def opTiles (op : AsyncOp) : Nat :=
  match op with
  | .load _ _ _ c => c
  | .store _ _ _ c => c
  | _ => 1

/-- The atomic block of a TATOM (R89). -/
def atomBlock (aop size : Nat) (v cmp : Word64) (aseq : Word32) (retry : Nat) : Nat :=
  put cmp.toNat 384 + put v.toNat 256 + put aseq.toNat 224 + put (aop % 64) 186 + put size 183 + put retry 181

/-- The request of an operation whose tile lies at another home (R225, R231). -/
def opTx (a : Actor) (op : AsyncOp) (n : Node) (slot : Nat) (ts : List Tile) (retry : Nat) (s : State) : Tx :=
  match op with
  | .load _ ad _ c => askTx a 0x01 n slot (aTile ad) c a.rv [] (mkTrailer 0 0) s
  | .store _ ad _ c => askTx a 0x02 n slot (aTile ad) c a.wv ts (mkTrailer 0 0) s
  | .atomic ad aop size v cmp tag aseq _ =>
    { askTx a 0x04 n slot (aTile ad) 1 a.wv [] (mkTrailer 64 (atomBlock aop size v cmp aseq retry)) s with
      cls := 2, tag := tag, offset := mkOffset slot (aTile ad) (aByte ad) }
  | _ => blankTx s

/-- Send the request of an operation if its tile lies at another home whose window has room (R333), past the gate of this one
where its extent is MIGRATING; the home it went to. -/
def sendOp (x : CtxId) (k : Ctx) (op : AsyncOp) (ad : Word64) (ts : List Tile) (s : State) : Option Node × State :=
  match placeOf s ad, itemActor s x k false with
  | .away n slot via, some a =>
    let tx0 := opTx a op n slot ts 0 s
    if (gateOf s a ad (aTile ad) (opTiles op)).isSome || windowShut s n tx0.cls then (none, s)
    else
      let (tx, s1) := viaTx via tx0 s
      (some n, sendEngine tx s1)
  | _, _ => (none, s)

/-! ## Issue of an asynchronous operation (R226) -/

/-- Take the lowest free entry and write the token into gD. A table full of TATOMs that no WAIT has named fails the
item; any other full table holds the instruction back. -/
def takeToken (o : Ops) (k : Ctx) (s : State) (go : Nat → Ctx → State → IOut) : IOut :=
  match freeEntry k with
  | none => if tatomsHold k then failPc k .state else .hold .token
  | some e =>
    let n := k.nextSerial + 1
    go e (gset { k with nextSerial := n } o.d (tokenWord e n)) s

/-- Put an operation into its entry. -/
def putToken (e : Nat) (op : AsyncOp) (wild : Bool) (sent : Option Node) (k : Ctx) : Ctx :=
  { k with tokens := tset k.tokens e { serial := k.nextSerial, op := op, pc := k.pc, wild := wild, sent := sent, done := none } }

/-- Start an operation that touches slots: those that it conflicts with become wild, as it does itself (R228). -/
def startOp (x : CtxId) (o : Ops) (op : AsyncOp) (send : Ctx → State → Option Node × State) (k : Ctx) (s : State) : IOut :=
  takeToken o k s (fun e k1 s1 =>
    let (rs, ws) := opSpans op
    let wild := hazard rs ws x k s1
    let (k2, s2) := markWild ws x k1 s1
    let (sent, s3) := send k2 s2
    .go (putToken e op wild sent k2) s3)

/-- SPACE of a TLD or TST; 2 and 3 are reserved (R223). -/
def spaceOf (o : Ops) : Option Space :=
  match immF o 5 4 with
  | 0 => some .global
  | 1 => some .resident
  | _ => none

/-- TLD (R218). -/
def execTld (x : CtxId) (o : Ops) (s : State) : Out :=
  insn (.tld x o) x o (fun k t =>
    let c := immF o 3 0 + 1
    match spaceOf o with
    | none => badInsn k
    | some sp =>
      if !slotsOk k (gget k o.b) c then failPc k .noAccess
      else
        let op : AsyncOp := .load sp (gget k o.a) (gget k o.b).toNat c
        startOp x o op (fun k1 t1 => if sp = .global then sendOp x k1 op (gget k o.a) [] t1 else (none, t1)) k t) s

/-- TST (R218). Slots stored to another home are read when the request leaves. -/
def execTst (x : CtxId) (o : Ops) (s : State) : Out :=
  insn (.tst x o) x o (fun k t =>
    let c := immF o 3 0 + 1
    match spaceOf o with
    | none => badInsn k
    | some sp =>
      if !slotsOk k (gget k o.b) c then failPc k .noAccess
      else
        let first := (gget k o.b).toNat
        let op : AsyncOp := .store sp (gget k o.a) first c
        if sp = .global ∧ (awayHome t (gget k o.a)).isSome then
          let (ts, k1, t1) := insnReads first c x k t
          startOp x o op (fun k2 t2 => sendOp x k2 op (gget k o.a) ts t2) k1 t1
        else startOp x o op (fun _ t1 => (none, t1)) k t) s

/-- TCPY (R218). -/
def execTcpy (x : CtxId) (o : Ops) (s : State) : Out :=
  insn (.tcpy x o) x o (fun k t =>
    let c := immF o 10 0 + 1
    if !slotsOk k (gget k o.a) c || !slotsOk k (gget k o.b) c then failPc k .noAccess
    else startOp x o (.copy (gget k o.a).toNat (gget k o.b).toNat c) (fun _ t1 => (none, t1)) k t) s

/-- TZERO (R218). -/
def execTzero (x : CtxId) (o : Ops) (s : State) : Out :=
  insn (.tzero x o) x o (fun k t =>
    let c := immF o 10 0 + 1
    if !slotsOk k (gget k o.b) c then failPc k .noAccess
    else startOp x o (.zero (gget k o.b).toNat c) (fun _ t1 => (none, t1)) k t) s

/-! ## TATOM (R231, R232) -/

/-- The home of a TATOM: that of the latest resolution of its address. -/
def atomHome (s : State) (a : Word64) : Node :=
  match awayHome s a with
  | some (n, _) => n
  | none => aNode a

/-- A new TATOM takes its tag and ASEQ and is recorded; one beyond the window waits. -/
def newAtomic (x : CtxId) (o : Ops) (aop size : Nat) (k : Ctx) (s : State) : IOut :=
  let ad := gget k o.a
  let h := atomHome s ad
  match itemActor s x k false with
  | none => .hold (.window h)
  | some a =>
    if windowFull s a.part h then .hold (.window h)
    else takeToken o k s (fun e k1 s1 =>
      let (op, s2) := takeAtomic a h k.item k.tatomCount
        (fun tag aseq => .atomic ad aop size (gget k o.b) (gget k o.c) tag aseq k.tatomCount) s1
      let s3 := if (recAt s k.item k.tatomCount).isSome then s2 else addRec k.item { addr := ad, aop := aop, status := none, result := 0 } s2
      let (sent, s4) := sendOp x k op ad [] s3
      .go (putToken e op false sent { k1 with tatomCount := k.tatomCount + 1 }) s4)

/-- A TATOM that an earlier run of the item has issued is not sent again: the operation waits for the record, unless it
was to this home and had not been applied. -/
def againAtomic (x : CtxId) (o : Ops) (aop size : Nat) (r : TatomRec) (k : Ctx) (s : State) : IOut :=
  let ad := gget k o.a
  if r.addr ≠ ad ∨ r.aop ≠ aop then failPc k .state
  else match r.status, sentFor s k.item k.tatomCount with
    | none, none => newAtomic x o aop size k s
    | _, old => takeToken o k s (fun e k1 s1 =>
      let (h, tag, aseq) := match old with | some (h, y) => (h, y.tag, y.aseq) | none => (myNode s, 0, 0)
      let op : AsyncOp := .atomic ad aop size (gget k o.b) (gget k o.c) tag aseq k.tatomCount
      .go (putToken e op false (if h = myNode s then none else some h) { k1 with tatomCount := k.tatomCount + 1 }) s1)

/-- TATOM (R85, R218, R231). -/
def execTatom (x : CtxId) (o : Ops) (s : State) : Out :=
  insn (.tatom x o) x o (fun k t =>
    let aop := o.f.toNat
    let size := immF o 0 0
    if !aopOk aop size || decide (64 ≤ aop) then badInsn k
    else match recAt t k.item k.tatomCount with
      | some r => againAtomic x o aop size r k t
      | none => newAtomic x o aop size k t) s

/-! ## Instructions on slots -/

/-- LDS (R218). -/
def execLds (x : CtxId) (o : Ops) (s : State) : Out :=
  insn (.lds x o) x o (fun k t =>
    if immF o 7 0 % 8 ≠ 0 then badInsn k
    else if !slotsOk k (gget k o.a) 1 then failPc k .noAccess
    else
      let (ts, k1, t1) := insnReads (gget k o.a).toNat 1 x k t
      .go (gset k1 o.d (BitVec.ofNat 64 (bytesAt (ts.headD zeroTile).data (immF o 7 0) 8))) t1) s

/-- STS: the sidecar is updated (R127, R218). -/
def execSts (x : CtxId) (o : Ops) (s : State) : Out :=
  insn (.sts x o) x o (fun k t =>
    if immF o 7 0 % 8 ≠ 0 then badInsn k
    else if !slotsOk k (gget k o.a) 1 then failPc k .noAccess
    else
      let n := (gget k o.a).toNat
      let (ts, k1, t1) := insnReads n 1 x k t
      let old := ts.headD zeroTile
      let (k2, t2) := insnWrites n [changeTile old (setBytes old.data (immF o 7 0) 8 (gget k o.b).toNat)] x k1 t1
      .go k2 t2) s

/-- VLD (R218). -/
def execVld (x : CtxId) (o : Ops) (s : State) : Out :=
  insn (.vld x o) x o (fun k t =>
    if !vtOk o.d then badInsn k
    else if !slotsOk k (gget k o.a) 2 then failPc k .noAccess
    else
      let (ts, k1, t1) := insnReads (gget k o.a).toNat 2 x k t
      .go (vtWrite (o.d + 1) (ts.getD 1 zeroTile).data (vtWrite o.d (ts.headD zeroTile).data k1)) t1) s

/-- VST: sidecars are computed (R126, R218). -/
def execVst (x : CtxId) (o : Ops) (s : State) : Out :=
  insn (.vst x o) x o (fun k t =>
    if !vtOk o.d then badInsn k
    else if !slotsOk k (gget k o.a) 2 then failPc k .noAccess
    else
      let (a, k1, t1) := vtRead o.d k t
      let (b, k2, t2) := vtRead (o.d + 1) k1 t1
      let (k3, t3) := insnWrites (gget k o.a).toNat [mkTile a, mkTile b] x k2 t2
      .go k3 t3) s

/-! ## Completion (R226 to R228) -/

/-- Change a token entry. -/
def modToken (x : CtxId) (e : Nat) (f : Token → Token) (s : State) : State :=
  modCtx x (fun k => { k with tokens := tmod k.tokens e f }) s

/-- Free a token entry. -/
def dropToken (x : CtxId) (e : Nat) (s : State) : State := modCtx x (fun k => { k with tokens := tdel k.tokens e }) s

/-- An operation fails (R227). -/
def opFails (x : CtxId) (e : Nat) (st : St) (d : Word32) (s : State) : State := failCtx x st d (dropToken x e s)

/-- A load's tiles arrive in its slots; the argument load lets the item start (R239). -/
def loadEnds (x : CtxId) (e slot : Nat) (wild : Bool) (ts : List Tile) (s : State) : State :=
  let (ts1, s1) := if wild then freeTiles ts.length s else (ts, s)
  modCtx x (fun k => { slotWrites slot ts1 k with wait := if e = 32 ∧ k.wait = some .args then none else k.wait }) (dropToken x e s1)

/-- A load from this home or from the resident segment. -/
def loadHere (x : CtxId) (e : Nat) (t : Token) (res : Bool) (ad : Word64) (slot c : Nat) (a : Actor) (s : State) : State :=
  let cnt (u : State) : State := countCore x a.part 0x06 c (some 1) (if res then none else some (aSlot ad)) u
  if !res ∧ 4194304 < aTile ad + c then opFails x e .noAccess (tileDetail (aTile ad)) s
  else match runIo ((List.range c).mapM (ioGet a res ad)) [] s with
    | (.ok ts, s1) =>
      dropBusyWhere x (fun b => !res && b.slot == aSlot ad && decide (aTile ad ≤ b.tile) && decide (b.tile < aTile ad + c))
        (loadEnds x e slot t.wild ts (cnt s1))
    | (.error (.fail st d), s1) => opFails x e st d s1
    | (.error _, s1) => s1

/-- A store to this home or to the resident segment. -/
def storeHere (x : CtxId) (e : Nat) (t : Token) (res : Bool) (ad : Word64) (slot c : Nat) (a : Actor) (k : Ctx) (s : State) : State :=
  let cnt (u : State) : State := countCore x a.part 0x07 c (some 1) (if res then none else some (aSlot ad)) u
  if !res ∧ 4194304 < aTile ad + c then opFails x e .noAccess (tileDetail (aTile ad)) s
  else
    let (ts, k1, s1) := if t.wild then (let (f, u) := freeTiles c s; (f, k, u)) else slotReads c slot k s
    let s2 := putCtx x k1 s1
    match runIo (ioWrites a ((numberFrom 0 ts).map (fun p => tileWrite res ad p.1 p.2.data))) [] s2 with
    | (.ok _, s3) =>
      dropBusyWhere x (fun b => !res && b.slot == aSlot ad && decide (aTile ad ≤ b.tile) && decide (b.tile < aTile ad + c))
        (dropToken x e (cnt s3))
    | (.error (.fail st d), s3) => opFails x e st d s3
    | (.error _, s3) => s3

/-- A TATOM is resolved: its result is recorded and acknowledged, and its entry holds the result until a WAIT names it;
a failure fails the item (R226, R227, R231, R232). -/
def atomEnds (x : CtxId) (e : Nat) (k : Ctx) (ad : Word64) (idx : Nat) (st : St) (r : BitVec 128) (s : State) : State :=
  let it := k.item
  let s1 := countCore x it.part 0x08 1 (some 2) (some (aSlot ad))
    (resolveFor it idx (noteRec it.queue it.cmdSeq it.index idx st r s))
  if st = .ok then modToken x e (fun t => { t with done := some r }) s1
  else opFails x e st (tileDetail (aTile ad)) s1

/-- The ledger entry of a TATOM at this home, formed in the step that applies it (R97, R231). -/
def selfEntry (tag : BitVec 16) (aseq : Word32) (aop size slot area p : Nat) (st : St) (r : BitVec 128) (s : State) : State :=
  { s with ledger := { s.ledger with entries := s.ledger.entries ++ [{
      src := myNode s, sub := 1 + p, tag := tag, aseq := aseq, status := st, result := r, aop := aop, size := size, done := true,
      slot := slot, area := area }] } }

/-- What a TATOM at this home comes to: a status and result, or nothing yet. -/
inductive AOut where
  | done (st : St) (r : BitVec 128) (s : State)
  | wait (s : State)
  | space (s : State)

/-- A TATOM applied at this home once, to the operand at BYTE rounded down to its size, its tile recalled first
(R86, R88, R97). -/
def atomApply (tag : BitVec 16) (aseq : Word32) (ad : Word64) (aop size : Nat) (v cmp : Word64) (a : Actor) (slot : Nat) (ext : Extent)
    (s : State) : AOut :=
  let tile := aTile ad
  let entry (st : St) (r : BitVec 128) (u : State) : State := selfEntry tag aseq aop size slot ext.owner a.part st r u
  match runIo (do ioDoor a tile ext true
                  ioPull slot tile ext
                  ioClaim a [{ slot := slot, tile := tile, write := true }]) [] s with
  | (.error (.fail st _), s1) => .done st 0 s1
  | (.error _, s1) => .wait s1
  | (.ok _, s1) =>
    let n := sizeBytes size
    let off := aByte ad / n * n
    match engRead a.x slot tile (readAt ext a.wv) s1 with
    | (.error st, s2) => .done st 0 (entry st 0 s2)
    | (.ok old, s2) =>
      let b := setBytes old.data off n (aopApply aop n (bytesAt old.data off n) v.toNat cmp.toNat)
      match engWrite slot tile false (changeTile old b) s2 with
      | .wait _ s3 => .wait s3
      | .fail st s3 => .done st 0 (entry st 0 s3)
      | .done s3 =>
        let r : BitVec 128 := BitVec.ofNat 128 (if aopFetch aop then bytesAt old.data off n else 0)
        .done .ok r (entry .ok r s3)

/-- A TATOM meets the checks of R39 at this home as its submitter's request, the lookup of check 3 among them, and waits
for ledger space in arrival order with the ATOMICs of hosts (R95); `since` is its place among them, if it waits already. -/
def atomHere (since : Option Nat) (tag : BitVec 16) (aseq : Word32) (ad : Word64) (aop size : Nat) (v cmp : Word64) (a : Actor) (s : State) :
    AOut :=
  match door12 s a with
  | some st => .done st 0 s
  | none => match ledgerFind s (myNode s, 1 + a.part) tag with
    | some l => if l.done then .done l.status l.result s else .wait s
    | none => match gateOf s a ad (aTile ad) 1, placeOf s ad with
      | some st, _ => .done st 0 s
      | none, .here slot ext =>
        match door79 s a ext true, needLedgerPull s slot (myNode s, 1 + a.part) with
        | some st, _ => .done st 0 s
        | none, some old => .wait (askLedger old (myNode s, 1 + a.part) s)
        | none, none =>
          if ledgerFull s ext.owner || aheadOf s ext.owner (since.getD s.home.nextId) then .space s
          else atomApply tag aseq ad aop size v cmp a slot ext s
      | none, _ => .done .noAccess 0 s

/-- A TATOM goes on: from its record, from the other home's answer, at this home, or on to where its extent has moved. -/
def atomStep (x : CtxId) (e : Nat) (t : Token) (k : Ctx) (ad : Word64) (aop size : Nat) (v cmp : Word64) (tag : BitVec 16) (aseq : Word32)
    (idx : Nat) (a : Actor) (ans : Option RemoteAnswer) (s : State) : State :=
  match recAt s k.item idx with
  | some { status := some st, result := r, .. } =>
    if st = .ok then modToken x e (fun y => { y with done := some r }) s else opFails x e st (tileDetail (aTile ad)) s
  | _ =>
    match t.sent, ans with
    | some _, some r => atomEnds x e k ad idx (stOf r.status) r.result s
    | some _, none => s
    | none, _ =>
      match placeOf s ad, gateOf s a ad (aTile ad) 1 with
      | .away n slot via, none =>
        if windowShut s n 2 then s else
        let (tx, s1) := viaTx via (opTx a t.op n slot [] 0 s) s
        modToken x e (fun y => { y with sent := some n }) (sendEngine tx s1)
      | _, _ =>
        match atomHere t.since tag aseq ad aop size v cmp a s with
        | .done st r s1 =>
          dropBusyWhere x (fun b => b.slot == aSlot ad && b.tile == aTile ad) (atomEnds x e k ad idx st r s1)
        | .wait s1 => s1
        | .space s1 =>
          if t.since.isSome then s1
          else modToken x e (fun y => { y with since := some s1.home.nextId })
            { s1 with home := { s1.home with nextId := s1.home.nextId + 1 } }

/-- The answer of another home to a TLD or TST; a tile whose sidecar fails is read from its home once more (R128). -/
def answerEnds (x : CtxId) (e : Nat) (t : Token) (ad : Word64) (a : Actor) (h : Node) (r : RemoteAnswer) (s : State) : State :=
  if r.status ≠ 0 then opFails x e (stOf r.status) (tileDetail (aTile ad)) s
  else match t.op with
    | .load _ _ slot c =>
      let ts := (List.range c).map (fun i => r.tiles.getD i zeroTile)
      match (List.range c).find? (fun i => !tileOk (ts.getD i zeroTile)) with
      | some i =>
        if t.again then opFails x e .checksum (tileDetail (aTile ad + i)) s
        else
          let (n, sl) := (awayHome s ad).getD (h, aSlot ad)
          modToken x e (fun y => { y with again := true }) (sendEngine (opTx a t.op n sl [] 0 s) s)
      | none => loadEnds x e slot t.wild ts (countCore x a.part 0x06 c (some 1) (some (aSlot ad)) s)
    | .store _ _ _ c => dropToken x e (countCore x a.part 0x07 c (some 1) (some (aSlot ad)) s)
    | _ => s

/-- A TLD or TST of SPACE 0 goes on. -/
def globalStep (x : CtxId) (e : Nat) (t : Token) (k : Ctx) (ad : Word64) (a : Actor) (ans : Option RemoteAnswer) (s : State) : State :=
  match t.sent, ans with
  | some h, some r => answerEnds x e t ad a h r s
  | some _, none => s
  | none, _ =>
    match gateOf s a ad (aTile ad) (opTiles t.op) with
    | some st => opFails x e st (tileDetail (aTile ad)) s
    | none =>
      match placeOf s ad, t.op with
      | .nowhere, _ => opFails x e .noAccess (tileDetail (aTile ad)) s
      | .here _ _, .load _ _ slot c => loadHere x e t false ad slot c a s
      | .here _ _, .store _ _ slot c => storeHere x e t false ad slot c a k s
      | .away n sl via, .store _ _ slot c =>
        if windowShut s n 1 then s else
        let (ts, k1, s1) := if t.wild then (let (f, u) := freeTiles c s; (f, k, u)) else slotReads c slot k s
        let (tx, s2) := viaTx via (opTx a t.op n sl ts 0 s1) s1
        modToken x e (fun y => { y with sent := some n }) (sendEngine tx (putCtx x k1 s2))
      | .away n sl via, _ =>
        if windowShut s n 1 then s else
        let (tx, s1) := viaTx via (opTx a t.op n sl [] 0 s) s
        modToken x e (fun y => { y with sent := some n }) (sendEngine tx s1)
      | _, _ => s

/-- Whether an earlier operation of the context to the same home on the same class is outstanding (R228). -/
def heldBack (k : Ctx) (e : Nat) (t : Token) : Bool :=
  match opHome t with
  | none => false
  | some h => t.sent.isNone && k.tokens.any (fun y => y.1 ≠ e && decide (y.2.serial < t.serial) && y.2.done.isNone && opHome y.2 == some h)

/-- An operation of a context goes on. -/
def tileOp (x : CtxId) (e : Nat) (ans : Option RemoteAnswer) (s : State) : State :=
  match coreOf s x.core, ctxOf s x with
  | some c, some k =>
    match tget k.tokens e, itemActor s x k false with
    | some t, some a =>
      if c.recovering || t.done.isSome || heldBack k e t || partState s a.part != .active then s
      else match t.op with
        | .lathe => s
        | .zero d n =>
          let (ts, s1) := if t.wild then freeTiles n s else (List.replicate n zeroTile, s)
          modCtx x (slotWrites d ts) (dropToken x e s1)
        | .copy b d n =>
          let (ts, k1, s1) := if t.wild then (let (f, u) := freeTiles n s; (f, k, u)) else slotReads n b k s
          dropToken x e (putCtx x (slotWrites d ts k1) s1)
        | .load .resident ad slot n => loadHere x e t true ad slot n a s
        | .store .resident ad slot n => storeHere x e t true ad slot n a k s
        | .load _ ad _ _ => globalStep x e t k ad a ans s
        | .store _ ad _ _ => globalStep x e t k ad a ans s
        | .atomic ad aop size v cmp tag aseq idx => atomStep x e t k ad aop size v cmp tag aseq idx a ans s
    | _, _ => s
  | _, _ => s

/-- TILE_OP_COMPLETE (R226, R227): an operation completes, with the answer of another home where it asked one; an
operation of this home that meets recalls or want of space waits. -/
def execTileOpComplete (x : CtxId) (entry : Nat) (ans : Option RemoteAnswer) (s : State) : Out :=
  .next (settle (wakeCore x.core (tileOp x entry ans s)))

/-- What a TATOM that its source keeps acts for: no context of a core, but a place of its own among those that recall. -/
def sourceActor (p : Nat) (y : SentAtomic) : Actor :=
  { x := { core := 65536 + p, ctx := y.tag.toNat }, part := p, sub := y.sub, epoch := y.epoch, rv := 0, wv := y.wv, data := true }

/-- The token of a TATOM goes on at this home, where its extent has come to. -/
def homeToken (y : SentAtomic) (s : State) : State :=
  { s with cores := { s.cores with cores := s.cores.cores.map (fun c => (c.1, { c.2 with ctxs := c.2.ctxs.map (fun k => (k.1, { k.2 with
      tokens := k.2.tokens.map (fun t => (t.1, if tokenFor y.tag y.aseq t.2 then { t.2 with sent := none } else t.2)) })) })) } }

/-- The TATOM of a context that is gone is resolved (R231, R232). -/
def sourceEnds (p : Nat) (home : Node) (y : SentAtomic) (st : St) (r : BitVec 128) (s : State) : State :=
  dropItemBusy (sourceActor p y).x (resolveAtomic p home y.aseq (noteRec y.queue y.cmdSeq y.item y.idx st r s))

/-- A TATOM without a response is sent again: RETRY 1, the same tag and ASEQ, to the home of the latest resolution
(R231). Where that is this device, its context goes on here, and one whose context is gone is carried out here. -/
def resendAtom (p : Nat) (home : Node) (y : SentAtomic) (s : State) : State :=
  match y.op with
  | .atomic ad aop size v cmp tag aseq _ =>
    let a := sourceActor p y
    match placeOf s ad with
    | .away n slot via =>
      let (tx, s1) := viaTx via (opTx a y.op n slot [] 1 s) s
      sendEngine tx s1
    | _ =>
      if (allTokens s).any (tokenFor tag aseq) then homeToken y s
      else match atomHere (some 0) tag aseq ad aop size v cmp a s with
        | .done st r s1 => sourceEnds p home y st r s1
        | .wait s1 => s1
        | .space s1 => s1
  | _ => s

/-- TATOM_RESEND (R231): a TATOM, by the home of its series and its tag, whose highest bits are its partition. -/
def execTatomResend (home : Node) (tag : BitVec 16) (s : State) : Out :=
  let part := tag.toNat / 4096
  match (sourceOf s part home).outstanding.find? (fun y => y.tag == tag && !y.done) with
  | none => .next s
  | some y => .next (settle (resendAtom part home y s))

end Sys2Proof.Machine
end

