-- ==== Sys2Proof/Machine/Vector.lean ====
section
/-! DEFINITION. The vector class and the special-function unit (R199 to R205, R220). -/

namespace Sys2Proof.Machine

/-- The specifier of a lane result: FMT and OVF; vector arithmetic never rounds stochastically (R200). -/
def laneSpec (f : Byte) : Byte := f &&& 0x4F

/-- A format specifier of the vector class: FMT 0x0 to 0x2, which are not block-scaled (R193, R220). -/
def vecSpecOk (f : Byte) : Bool := fsOk f && decide (fsFmt f ≤ 2)

/-- A lane of an arithmetic operation on codes of the format. -/
def laneOp (f : Byte) (op : FVal → FVal → FVal → FVal) (a b c : Nat) : Conv :=
  let v (x : Nat) : FVal := decodeFmt (fsFmt f) x
  laneConv (laneSpec f) [v a, v b, v c] (op (v a) (v b) (v c))

/-- MIN or MAX of a lane under R87. -/
def laneMinMax (f : Byte) (big : Bool) (a b : Nat) : Conv := Conv.pure (fminmax (fsFmt f) big a b)

/-- Count a vector operation. -/
def vecDone (x : CtxId) (k : Ctx) (s : State) : State := countCore x k.item.part 0x02 1 none none s

/-- The B operand: a pair, or every lane from gC (R220). -/
def bLanes (o : Ops) (k : Ctx) (s : State) : List Nat × Ctx × State :=
  let fmt := fsFmt o.f
  if o.i.getLsbD 0 then (List.replicate (2 * fmtPerTile fmt) ((gget k o.c).toNat % 2 ^ fmtBits fmt), k, s)
  else
    let (v, k1, s1) := pairRead o.b k s
    (lanesOf fmt v, k1, s1)

/-- vtD ← vtA op vtB, with vtD itself for a fused multiply-add. -/
def vecOp (c : Instr) (x : CtxId) (o : Ops) (acc : Bool) (lane : Nat → Nat → Nat → Conv) (s : State) : Out :=
  insn c x o (fun k t =>
    if !vecSpecOk o.f || !vtOk o.d || !vtOk o.a || !(o.i.getLsbD 0 || vtOk o.b) then badInsn k
    else
      let fmt := fsFmt o.f
      let (va, k1, t1) := pairRead o.a k t
      let (lb, k2, t2) := bLanes o k1 t1
      let (vd, k3, t3) := if acc then pairRead o.d k2 t2 else (0, k2, t2)
      let cs := (((lanesOf fmt va).zip lb).zip (if acc then lanesOf fmt vd else List.replicate (2 * fmtPerTile fmt) 0)).map (fun p => lane p.1.1 p.1.2 p.2)
      .go (pairWrite o.d (packLanes fmt (cs.map (·.code))) (raiseConvs k3 cs)) (vecDone x k t3)) s

/-- VADD (R205, R220). -/
def execVadd (x : CtxId) (o : Ops) (s : State) : Out := vecOp (.vadd x o) x o false (laneOp o.f (fun a b _ => fadd a b)) s
/-- VSUB (R205, R220). -/
def execVsub (x : CtxId) (o : Ops) (s : State) : Out := vecOp (.vsub x o) x o false (laneOp o.f (fun a b _ => fadd a (fneg b))) s
/-- VMUL (R205, R220). -/
def execVmul (x : CtxId) (o : Ops) (s : State) : Out := vecOp (.vmul x o) x o false (laneOp o.f (fun a b _ => fmul a b)) s
/-- VFMA: vtA × vtB + vtD, rounded once (R205, R220). -/
def execVfma (x : CtxId) (o : Ops) (s : State) : Out := vecOp (.vfma x o) x o true (laneOp o.f (fun a b c => fadd (fmul a b) c)) s
/-- VMIN (R87, R205, R220). -/
def execVmin (x : CtxId) (o : Ops) (s : State) : Out := vecOp (.vmin x o) x o false (fun a b _ => laneMinMax o.f false a b) s
/-- VMAX (R87, R205, R220). -/
def execVmax (x : CtxId) (o : Ops) (s : State) : Out := vecOp (.vmax x o) x o false (fun a b _ => laneMinMax o.f true a b) s

/-- VSFU: binary32 only (R205, R220). The unit gives 32 lanes a handshake, at half rate SINPI, COSPI and TANH. -/
def execVsfu (x : CtxId) (o : Ops) (s : State) : Out :=
  insn (.vsfu x o) x o (fun k t =>
    let fn := immF o 7 4
    if !vecSpecOk o.f || fsFmt o.f ≠ 0 || decide (7 < fn) || !vtOk o.d || !vtOk o.a then badInsn k
    else
      let (va, k1, t1) := pairRead o.a k t
      let cs := (lanesOf 0 va).map (fun c => sfuLane fn (BitVec.ofNat 32 c))
      .go (pairWrite o.d (packLanes 0 (cs.map (·.code))) (raiseConvs k1 cs))
        (countCore x k.item.part 0x03 (if 5 ≤ fn then 8 else 4) none none t1)) s

/-- VCVT (R199 to R201, R220): narrowing writes the 128 results to register D, widening reads the 128 lanes of register
A, and a conversion of equal widths goes from pair to pair. -/
def execVcvt (x : CtxId) (o : Ops) (s : State) : Out :=
  insn (.vcvt x o) x o (fun k t =>
    let g : Byte := BitVec.ofNat 8 (immF o 19 12)
    if !vecSpecOk o.f || !vecSpecOk g || !vtOk o.d || !vtOk o.a then badInsn k
    else
      let wf := fmtBits (fsFmt o.f)
      let wg := fmtBits (fsFmt g)
      let n := if wf = 16 ∧ wg = 16 then 256 else 128
      let (v, k1, t1) := if wf < wg then (let (b, k0, t0) := vtRead o.a k t; (b.toNat, k0, t0)) else pairRead o.a k t
      let vals := (List.range n).map (fun i => decodeFmt (fsFmt o.f) ((v >>> (wf * i)) % 2 ^ wf))
      let cs := (numberFrom 0 vals).map (fun p => convert g p.2 (drawFor g k.seed p.1))
      let r := packLanes (fsFmt g) (cs.map (·.code))
      let k2 := raiseConvs k1 cs
      .go (if wg < wf then vtWrite o.d (BitVec.ofNat 2048 r) k2 else pairWrite o.d r k2) (vecDone x k t1)) s

/-- One level of the pairwise tree: 2i with 2i + 1. -/
def pairUp (f : Word32 → Word32 → Conv) : List Word32 → List Conv
  | a :: b :: t => f a b :: pairUp f t
  | _ => []

/-- The tree of R220, with the flags of every node. -/
def treeFold (f : Word32 → Word32 → Conv) : Nat → List Word32 → List Conv → Word32 × List Conv
  | 0, l, cs => (l.headD 0, cs)
  | n + 1, l, cs =>
    let r := pairUp f l
    treeFold f n (r.map (fun c => BitVec.ofNat 32 c.code)) (cs ++ r)

/-- gD ← the lanes of vtA combined, zero-extended. -/
def vecReduce (c : Instr) (x : CtxId) (o : Ops) (f : Word32 → Word32 → Conv) (s : State) : Out :=
  insn c x o (fun k t =>
    if !vtOk o.a then badInsn k
    else
      let (va, k1, t1) := pairRead o.a k t
      let (r, cs) := treeFold f 7 ((lanesOf 0 va).map (BitVec.ofNat 32)) []
      .go (gset (raiseConvs k1 cs) o.d (r.zeroExtend 64)) (vecDone x k t1)) s

/-- VRSUM: each sum rounded under R199 (R220). -/
def execVrsum (x : CtxId) (o : Ops) (s : State) : Out :=
  vecReduce (.vrsum x o) x o (fun a b => laneOp 0 (fun u v _ => fadd u v) a.toNat b.toNat 0) s
/-- VRMAX (R87, R220). -/
def execVrmax (x : CtxId) (o : Ops) (s : State) : Out := vecReduce (.vrmax x o) x o (fun a b => laneMinMax 0 true a.toNat b.toNat) s

/-- VBCAST: every lane of vtD from gC (R220). -/
def execVbcast (x : CtxId) (o : Ops) (s : State) : Out :=
  insn (.vbcast x o) x o (fun k t =>
    if !vecSpecOk o.f || !vtOk o.d then badInsn k
    else
      let fmt := fsFmt o.f
      .go (pairWrite o.d (packLanes fmt (List.replicate (2 * fmtPerTile fmt) ((gget k o.c).toNat % 2 ^ fmtBits fmt))) k) (vecDone x k t)) s

end Sys2Proof.Machine
end

