-- ==== Sys2Proof/Machine/Dispatch.lean ====
section
/-! DEFINITION. The one function from a command to its effect: one arm per row of spec/opcode_table.json, each
a direct call of its meaning. -/

namespace Sys2Proof.Machine

/-- The effect of a command on everything but the queue of waiting commands. -/
def exec (i : Instr) (s : State) : Host.Outcome State Fault Refusal :=
  match i with
  | .rdTile port tx => Sys2Proof.Machine.execRdTile port tx s
  | .wrTile port tx => Sys2Proof.Machine.execWrTile port tx s
  | .wrPartial port tx => Sys2Proof.Machine.execWrPartial port tx s
  | .atomic port tx => Sys2Proof.Machine.execAtomic port tx s
  | .atomicAck port tx => Sys2Proof.Machine.execAtomicAck port tx s
  | .fence port tx => Sys2Proof.Machine.execFence port tx s
  | .rdShared port tx => Sys2Proof.Machine.execRdShared port tx s
  | .rdOwn port tx => Sys2Proof.Machine.execRdOwn port tx s
  | .upgrade port tx => Sys2Proof.Machine.execUpgrade port tx s
  | .markDirty port tx => Sys2Proof.Machine.execMarkDirty port tx s
  | .wbDirty port tx => Sys2Proof.Machine.execWbDirty port tx s
  | .evictClean port tx => Sys2Proof.Machine.execEvictClean port tx s
  | .recallAck port tx => Sys2Proof.Machine.execRecallAck port tx s
  | .recallData port tx => Sys2Proof.Machine.execRecallData port tx s
  | .invalidate port tx => Sys2Proof.Machine.execInvalidate port tx s
  | .invalidateResponse port tx => Sys2Proof.Machine.execInvalidateResponse port tx s
  | .snapOpen port tx => Sys2Proof.Machine.execSnapOpen port tx s
  | .snapClose port tx => Sys2Proof.Machine.execSnapClose port tx s
  | .publish port tx => Sys2Proof.Machine.execPublish port tx s
  | .publishSeal slot => Sys2Proof.Machine.execPublishSeal slot s
  | .cmdPush port tx => Sys2Proof.Machine.execCmdPush port tx s
  | .doorbell port tx => Sys2Proof.Machine.execDoorbell port tx s
  | .rdWindow port tx => Sys2Proof.Machine.execRdWindow port tx s
  | .contribute port tx => Sys2Proof.Machine.execContribute port tx s
  | .contributeResponse port tx => Sys2Proof.Machine.execContributeResponse port tx s
  | .collResult port tx => Sys2Proof.Machine.execCollResult port tx s
  | .collStatus port tx => Sys2Proof.Machine.execCollStatus port tx s
  | .moduleStatus port tx => Sys2Proof.Machine.execModuleStatus port tx s
  | .moduleResponse port tx => Sys2Proof.Machine.execModuleResponse port tx s
  | .pullState port tx => Sys2Proof.Machine.execPullState port tx s
  | .pullStateResponse port tx => Sys2Proof.Machine.execPullStateResponse port tx s
  | .yieldMsg port tx => Sys2Proof.Machine.execYieldMsg port tx s
  | .transitForward port tx => Sys2Proof.Machine.execTransitForward port tx s
  | .undefinedOp port tx => Sys2Proof.Machine.execUndefinedOp port tx s
  | .flowGapLoss src cls => Sys2Proof.Machine.execFlowGapLoss src cls s
  | .frameReceive port fr => Sys2Proof.Machine.execFrameReceive port fr s
  | .frameTransmit port => Sys2Proof.Machine.execFrameTransmit port s
  | .replayTimeout port => Sys2Proof.Machine.execReplayTimeout port s
  | .hello port node kind => Sys2Proof.Machine.execHello port node kind s
  | .setWidth port mask fromSeq => Sys2Proof.Machine.execSetWidth port mask fromSeq s
  | .linkDown port reason => Sys2Proof.Machine.execLinkDown port reason s
  | .laneFault port lane => Sys2Proof.Machine.execLaneFault port lane s
  | .portFault port => Sys2Proof.Machine.execPortFault port s
  | .portRetrain port => Sys2Proof.Machine.execPortRetrain port s
  | .egressSend lane => Sys2Proof.Machine.execEgressSend lane s
  | .spindleTurn bad => Sys2Proof.Machine.execSpindleTurn bad s
  | .spindleTurnTimeout parts => Sys2Proof.Machine.execSpindleTurnTimeout parts s
  | .meterRefill => Sys2Proof.Machine.execMeterRefill s
  | .holdWindowEnd => Sys2Proof.Machine.execHoldWindowEnd s
  | .queueSample => Sys2Proof.Machine.execQueueSample s
  | .recallTimeout slot tile => Sys2Proof.Machine.execRecallTimeout slot tile s
  | .invalidateTimeout id => Sys2Proof.Machine.execInvalidateTimeout id s
  | .waitingRequestServe slot tile => Sys2Proof.Machine.execWaitingRequestServe slot tile s
  | .ledgerSpaceResume part => Sys2Proof.Machine.execLedgerSpaceResume part s
  | .journalSpaceResume part => Sys2Proof.Machine.execJournalSpaceResume part s
  | .sinterSpaceResume part => Sys2Proof.Machine.execSinterSpaceResume part s
  | .epochRetireTimeout => Sys2Proof.Machine.execEpochRetireTimeout s
  | .batchInstallResume => Sys2Proof.Machine.execBatchInstallResume s
  | .revokeStopTimer id => Sys2Proof.Machine.execRevokeStopTimer id s
  | .revokeQuiescent id => Sys2Proof.Machine.execRevokeQuiescent id s
  | .discardRestore slot => Sys2Proof.Machine.execDiscardRestore slot s
  | .versionSweep slot => Sys2Proof.Machine.execVersionSweep slot s
  | .rehomePull slot => Sys2Proof.Machine.execRehomePull slot s
  | .intentClear group region => Sys2Proof.Machine.execIntentClear group region s
  | .ownershipBitmapClear slot region => Sys2Proof.Machine.execOwnershipBitmapClear slot region s
  | .moduleLost node => Sys2Proof.Machine.execModuleLost node s
  | .rebuildRow group => Sys2Proof.Machine.execRebuildRow group s
  | .patrolScrub group row => Sys2Proof.Machine.execPatrolScrub group row s
  | .mirrorResilver news => Sys2Proof.Machine.execMirrorResilver news s
  | .hbmScrub channel ok => Sys2Proof.Machine.execHbmScrub channel ok s
  | .itemDispatch part => Sys2Proof.Machine.execItemDispatch part s
  | .itemComplete x ans => Sys2Proof.Machine.execItemComplete x ans s
  | .eventDeliver host => Sys2Proof.Machine.execEventDeliver host s
  | .reduceRun queue => Sys2Proof.Machine.execReduceRun queue s
  | .reduceFrom queue => Sys2Proof.Machine.execReduceFrom queue s
  | .reduceAbort queue => Sys2Proof.Machine.execReduceAbort queue s
  | .chunkCommit collId chunk news => Sys2Proof.Machine.execChunkCommit collId chunk news s
  | .generationTimeout collId => Sys2Proof.Machine.execGenerationTimeout collId s
  | .rows queue => Sys2Proof.Machine.execRows queue s
  | .kv queue => Sys2Proof.Machine.execKv queue s
  | .dispatch queue => Sys2Proof.Machine.execDispatch queue s
  | .combine queue => Sys2Proof.Machine.execCombine queue s
  | .copy queue => Sys2Proof.Machine.execCopy queue s
  | .fill queue => Sys2Proof.Machine.execFill queue s
  | .convert queue => Sys2Proof.Machine.execConvert queue s
  | .publishCopy queue => Sys2Proof.Machine.execPublishCopy queue s
  | .publishCopySeal queue cmdSeq ans => Sys2Proof.Machine.execPublishCopySeal queue cmdSeq ans s
  | .rebuild queue => Sys2Proof.Machine.execRebuild queue s
  | .scan queue => Sys2Proof.Machine.execScan queue s
  | .topk queue => Sys2Proof.Machine.execTopk queue s
  | .score queue => Sys2Proof.Machine.execScore queue s
  | .attend queue => Sys2Proof.Machine.execAttend queue s
  | .applyRun queue => Sys2Proof.Machine.execApplyRun queue s
  | .add x o => Sys2Proof.Machine.execAdd x o s
  | .sub x o => Sys2Proof.Machine.execSub x o s
  | .mul x o => Sys2Proof.Machine.execMul x o s
  | .mulhu x o => Sys2Proof.Machine.execMulhu x o s
  | .divu x o => Sys2Proof.Machine.execDivu x o s
  | .remu x o => Sys2Proof.Machine.execRemu x o s
  | .andR x o => Sys2Proof.Machine.execAndR x o s
  | .orR x o => Sys2Proof.Machine.execOrR x o s
  | .xor x o => Sys2Proof.Machine.execXor x o s
  | .shl x o => Sys2Proof.Machine.execShl x o s
  | .shr x o => Sys2Proof.Machine.execShr x o s
  | .sar x o => Sys2Proof.Machine.execSar x o s
  | .minS x o => Sys2Proof.Machine.execMinS x o s
  | .maxS x o => Sys2Proof.Machine.execMaxS x o s
  | .addi x o => Sys2Proof.Machine.execAddi x o s
  | .andi x o => Sys2Proof.Machine.execAndi x o s
  | .ori x o => Sys2Proof.Machine.execOri x o s
  | .xori x o => Sys2Proof.Machine.execXori x o s
  | .shli x o => Sys2Proof.Machine.execShli x o s
  | .shri x o => Sys2Proof.Machine.execShri x o s
  | .movi x o => Sys2Proof.Machine.execMovi x o s
  | .setpEq x o => Sys2Proof.Machine.execSetpEq x o s
  | .setpNe x o => Sys2Proof.Machine.execSetpNe x o s
  | .setpLtS x o => Sys2Proof.Machine.execSetpLtS x o s
  | .setpLtU x o => Sys2Proof.Machine.execSetpLtU x o s
  | .setpGeS x o => Sys2Proof.Machine.execSetpGeS x o s
  | .setpGeU x o => Sys2Proof.Machine.execSetpGeU x o s
  | .setpiEq x o => Sys2Proof.Machine.execSetpiEq x o s
  | .setpiLtS x o => Sys2Proof.Machine.execSetpiLtS x o s
  | .pand x o => Sys2Proof.Machine.execPand x o s
  | .por x o => Sys2Proof.Machine.execPor x o s
  | .pnot x o => Sys2Proof.Machine.execPnot x o s
  | .branch x o => Sys2Proof.Machine.execBranch x o s
  | .loop x o => Sys2Proof.Machine.execLoop x o s
  | .callR x o => Sys2Proof.Machine.execCallR x o s
  | .ret x o => Sys2Proof.Machine.execRet x o s
  | .jr x o => Sys2Proof.Machine.execJr x o s
  | .tld x o => Sys2Proof.Machine.execTld x o s
  | .tst x o => Sys2Proof.Machine.execTst x o s
  | .tatom x o => Sys2Proof.Machine.execTatom x o s
  | .tcpy x o => Sys2Proof.Machine.execTcpy x o s
  | .tzero x o => Sys2Proof.Machine.execTzero x o s
  | .lds x o => Sys2Proof.Machine.execLds x o s
  | .sts x o => Sys2Proof.Machine.execSts x o s
  | .vld x o => Sys2Proof.Machine.execVld x o s
  | .vst x o => Sys2Proof.Machine.execVst x o s
  | .tileOpComplete x entry ans => Sys2Proof.Machine.execTileOpComplete x entry ans s
  | .tatomResend home tag => Sys2Proof.Machine.execTatomResend home tag s
  | .lacq x o => Sys2Proof.Machine.execLacq x o s
  | .lrel x o => Sys2Proof.Machine.execLrel x o s
  | .lzero x o => Sys2Proof.Machine.execLzero x o s
  | .lpass x o => Sys2Proof.Machine.execLpass x o s
  | .lrd x o => Sys2Proof.Machine.execLrd x o s
  | .lwr x o => Sys2Proof.Machine.execLwr x o s
  | .lst x o => Sys2Proof.Machine.execLst x o s
  | .lld x o => Sys2Proof.Machine.execLld x o s
  | .lsync x o => Sys2Proof.Machine.execLsync x o s
  | .latheOpComplete core => Sys2Proof.Machine.execLatheOpComplete core s
  | .vadd x o => Sys2Proof.Machine.execVadd x o s
  | .vsub x o => Sys2Proof.Machine.execVsub x o s
  | .vmul x o => Sys2Proof.Machine.execVmul x o s
  | .vfma x o => Sys2Proof.Machine.execVfma x o s
  | .vmin x o => Sys2Proof.Machine.execVmin x o s
  | .vmax x o => Sys2Proof.Machine.execVmax x o s
  | .vsfu x o => Sys2Proof.Machine.execVsfu x o s
  | .vcvt x o => Sys2Proof.Machine.execVcvt x o s
  | .vrsum x o => Sys2Proof.Machine.execVrsum x o s
  | .vrmax x o => Sys2Proof.Machine.execVrmax x o s
  | .vbcast x o => Sys2Proof.Machine.execVbcast x o s
  | .wait x o => Sys2Proof.Machine.execWait x o s
  | .waitall x o => Sys2Proof.Machine.execWaitall x o s
  | .syncFence x o => Sys2Proof.Machine.execSyncFence x o s
  | .syncYield x o => Sys2Proof.Machine.execSyncYield x o s
  | .sys x o => Sys2Proof.Machine.execSys x o s
  | .seed x o => Sys2Proof.Machine.execSeed x o s
  | .fclr x o => Sys2Proof.Machine.execFclr x o s
  | .failItem x o => Sys2Proof.Machine.execFailItem x o s
  | .endItem x o => Sys2Proof.Machine.execEndItem x o s
  | .itemBudgetExceeded x => Sys2Proof.Machine.execItemBudgetExceeded x s
  | .coreFault phys check => Sys2Proof.Machine.execCoreFault phys check s
  | .coreHang phys => Sys2Proof.Machine.execCoreHang phys s
  | .patternSweep phys ok => Sys2Proof.Machine.execPatternSweep phys ok s
  | .sentinelTrip strip => Sys2Proof.Machine.execSentinelTrip strip s
  | .junctionDrag strip mC => Sys2Proof.Machine.execJunctionDrag strip mC s
  | .dragExit strip mC => Sys2Proof.Machine.execDragExit strip mC s
  | .powerEstimate watts => Sys2Proof.Machine.execPowerEstimate watts s
  | .powerLimited => Sys2Proof.Machine.execPowerLimited s
  | .powerReleased => Sys2Proof.Machine.execPowerReleased s
  | .partitionUnitFault part u => Sys2Proof.Machine.execPartitionUnitFault part u s
  | .channelFault channel => Sys2Proof.Machine.execChannelFault channel s
  | .fieldIsolated field => Sys2Proof.Machine.execFieldIsolated field s
  | .rtpSwitchover => Sys2Proof.Machine.execRtpSwitchover s
  | .resourceScrubDone r => Sys2Proof.Machine.execResourceScrubDone r s
  | .removalTimeout part => Sys2Proof.Machine.execRemovalTimeout part s
  | .leaseExpiry => Sys2Proof.Machine.execLeaseExpiry s
  | .powerGood board pair0Ok pair1Ok => Sys2Proof.Machine.execPowerGood board pair0Ok pair1Ok s
  | .coolantOkAssert t => Sys2Proof.Machine.execCoolantOkAssert t s
  | .startWait => Sys2Proof.Machine.execStartWait s
  | .powerDown => Sys2Proof.Machine.execPowerDown s
  | .railFault rail => Sys2Proof.Machine.execRailFault rail s
  | .vrAlert => Sys2Proof.Machine.execVrAlert s
  | .coolantLost => Sys2Proof.Machine.execCoolantLost s
  | .coolantRestored => Sys2Proof.Machine.execCoolantRestored s
  | .coolantFence => Sys2Proof.Machine.execCoolantFence s
  | .thermalTrip => Sys2Proof.Machine.execThermalTrip s
  | .stackHot stack => Sys2Proof.Machine.execStackHot stack s
  | .refclkSysLoss => Sys2Proof.Machine.execRefclkSysLoss s
  | .refclkFieldLoss field => Sys2Proof.Machine.execRefclkFieldLoss field s
  | .refclkMgmtLoss => Sys2Proof.Machine.execRefclkMgmtLoss s
  | .sessionOpen key => Sys2Proof.Machine.execSessionOpen key s
  | .sessionClose sess => Sys2Proof.Machine.execSessionClose sess s
  | .mgmtReservedCode h code => Sys2Proof.Machine.execMgmtReservedCode h code s
  | .attest h nonce => Sys2Proof.Machine.execAttest h nonce s
  | .identityCert h => Sys2Proof.Machine.execIdentityCert h s
  | .leaseChallenge h => Sys2Proof.Machine.execLeaseChallenge h s
  | .commitSvn h type blows => Sys2Proof.Machine.execCommitSvn h type blows s
  | .expelNode h cert => Sys2Proof.Machine.execExpelNode h cert s
  | .readmitNode h cert => Sys2Proof.Machine.execReadmitNode h cert s
  | .fenceDevice h cert => Sys2Proof.Machine.execFenceDevice h cert s
  | .renewLease h cert => Sys2Proof.Machine.execRenewLease h cert s
  | .takeover h cert silent refusing => Sys2Proof.Machine.execTakeover h cert silent refusing s
  | .flashWrite h slot data => Sys2Proof.Machine.execFlashWrite h slot data s
  | .flashActivate h kind slotB => Sys2Proof.Machine.execFlashActivate h kind slotB s
  | .engineFwUpdate h engine slotB parts all => Sys2Proof.Machine.execEngineFwUpdate h engine slotB parts all s
  | .partCompose h part r => Sys2Proof.Machine.execPartCompose h part r s
  | .partGrow h part r => Sys2Proof.Machine.execPartGrow h part r s
  | .partShrink h part r => Sys2Proof.Machine.execPartShrink h part r s
  | .partReset h part => Sys2Proof.Machine.execPartReset h part s
  | .partDissolve h part => Sys2Proof.Machine.execPartDissolve h part s
  | .partRead h part => Sys2Proof.Machine.execPartRead h part s
  | .attach h slot mode owner group base holders => Sys2Proof.Machine.execAttach h slot mode owner group base holders s
  | .grow h slot holders => Sys2Proof.Machine.execGrow h slot holders s
  | .revokeNotice h slot holders deadline => Sys2Proof.Machine.execRevokeNotice h slot holders deadline s
  | .revokeCancel h slot holders => Sys2Proof.Machine.execRevokeCancel h slot holders s
  | .revokeForce h slot holders toFree => Sys2Proof.Machine.execRevokeForce h slot holders toFree s
  | .releaseExt h slot => Sys2Proof.Machine.execReleaseExt h slot s
  | .rehomeIn h slot srcNode srcSlot homeEpoch group base => Sys2Proof.Machine.execRehomeIn h slot srcNode srcSlot homeEpoch group base s
  | .rehomeOut h slot dstNode dstSlot homeEpoch => Sys2Proof.Machine.execRehomeOut h slot dstNode dstSlot homeEpoch s
  | .rehomeFinish h slot => Sys2Proof.Machine.execRehomeFinish h slot s
  | .readExtent h slot => Sys2Proof.Machine.execReadExtent h slot s
  | .batch h ops => Sys2Proof.Machine.execBatch h ops s
  | .grantLease h slot part => Sys2Proof.Machine.execGrantLease h slot part s
  | .revokeLease h slot => Sys2Proof.Machine.execRevokeLease h slot s
  | .discardOpen h slot => Sys2Proof.Machine.execDiscardOpen h slot s
  | .resetSource h src => Sys2Proof.Machine.execResetSource h src s
  | .setRecallTimeout h ms => Sys2Proof.Machine.execSetRecallTimeout h ms s
  | .readGroup h group => Sys2Proof.Machine.execReadGroup h group s
  | .replaceModule h group pos node => Sys2Proof.Machine.execReplaceModule h group pos node s
  | .queueCreate h queue engine depth submitter prio => Sys2Proof.Machine.execQueueCreate h queue engine depth submitter prio s
  | .queueDestroy h queue => Sys2Proof.Machine.execQueueDestroy h queue s
  | .kernelLoad h handle image => Sys2Proof.Machine.execKernelLoad h handle image s
  | .kernelUnload h handle => Sys2Proof.Machine.execKernelUnload h handle s
  | .kernelList h => Sys2Proof.Machine.execKernelList h s
  | .groupRegister h e children => Sys2Proof.Machine.execGroupRegister h e children s
  | .groupRelease h collId => Sys2Proof.Machine.execGroupRelease h collId s
  | .groupRead h collId => Sys2Proof.Machine.execGroupRead h collId s
  | .routeSet h routes => Sys2Proof.Machine.execRouteSet h routes s
  | .routeRead h nodes => Sys2Proof.Machine.execRouteRead h nodes s
  | .portReset h port => Sys2Proof.Machine.execPortReset h port s
  | .counterConfig h cfg => Sys2Proof.Machine.execCounterConfig h cfg s
  | .counterRead h scope silent => Sys2Proof.Machine.execCounterRead h scope silent s
  | .traceConfig h cfg => Sys2Proof.Machine.execTraceConfig h cfg s
  | .sampleConfig h engine part n seed enable => Sys2Proof.Machine.execSampleConfig h engine part n seed enable s
  | .eventSubscribe h => Sys2Proof.Machine.execEventSubscribe h s
  | .eventRead h start => Sys2Proof.Machine.execEventRead h start s
  | .portWindowEnd => Sys2Proof.Machine.execPortWindowEnd s
  | .supervisorWindowEnd => Sys2Proof.Machine.execSupervisorWindowEnd s
  | .traceSnapshot sess => Sys2Proof.Machine.execTraceSnapshot sess s
  | .fumaroleExport sess => Sys2Proof.Machine.execFumaroleExport sess s
  | .partitionResetComplete part unitOk => Sys2Proof.Machine.execPartitionResetComplete part unitOk s
  | .coreReturnToService phys ok => Sys2Proof.Machine.execCoreReturnToService phys ok s
  | .markedRegionResync group region => Sys2Proof.Machine.execMarkedRegionResync group region s
  | .reservedOpcodeCommand queue => Sys2Proof.Machine.execReservedOpcodeCommand queue s
  | .certSubmitReservedKind h cert => Sys2Proof.Machine.execCertSubmitReservedKind h cert s
  | .coolantOkFallBeforeReady => Sys2Proof.Machine.execCoolantOkFallBeforeReady s
  | .railInRange => Sys2Proof.Machine.execRailInRange s
  | .codeFetchComplete core part handle => Sys2Proof.Machine.execCodeFetchComplete core part handle s

end Sys2Proof.Machine
end

