-- ==== Sys2Proof/Safety.lean ====
section
/-! DEFINITION. What a safe run is, in the terms that statements use: a command that answers a next state; a context
that can issue an instruction, and what is left after it; a transaction that arrives and is admitted; a management
request that is admitted and its answer. -/

namespace Sys2Proof.Machine

/-- The outcome is a next state. -/
def Completes (o : Host.Outcome State Fault Refusal) : Prop := ∃ t, o = .next t

/-! ## Core instructions (R212, R213, R215, R242) -/

/-- No context of a core has anything to go on with: what each waits for has not happened. -/
def Calm (s : State) (core : Nat) : Prop :=
  ∀ i < 4, ∀ k, ctxOf s { core := core, ctx := i } = some k → due s { core := core, ctx := i } k = false

/-- It is a context's turn to issue, it has come to an instruction whose guard holds, and its budget allows it. -/
structure Ready (c : Instr) (s : State) (x : CtxId) (o : Ops) (k : Ctx) : Prop where
  able : canIssue s x = some k
  turn : hisTurn s x = true
  code : insnAt s x k = some c
  budget : spent s k = false
  guard : guardOk k o = true
  calm : Calm s x.core
  four : x.ctx < 4

/-- The same of an instruction that is not the last of its code. -/
structure Issues (c : Instr) (s : State) (x : CtxId) (o : Ops) (k : Ctx) : Prop extends Ready c s x o k where
  more : k.pc + 1 < codeLen s k

/-- The context as an instruction's effect finds it: the instruction counts against the budget (R242). -/
def issuing (k : Ctx) : Ctx := { k with issued := k.issued + 1 }

/-- After an instruction that has its effect: the context goes on at the next one, and it is the last of its core to have issued
(R212). -/
def retire (x : CtxId) (k : Ctx) (s : State) : State :=
  didIssue x k.item.part (putCtx x { k with pc := k.pc + 1, wait := none } s)

/-- After a branch that is taken. -/
def jumped (x : CtxId) (n : Nat) (k : Ctx) (s : State) : State :=
  didIssue x k.item.part (putCtx x { k with pc := n, wait := none } s)

/-- After an instruction that is issued and waits. -/
def waiting (x : CtxId) (w : CtxWait) (k : Ctx) (s : State) : State :=
  didIssue x k.item.part (putCtx x { k with wait := some w } s)

/-- After an instruction that fails its item (R215, R227). -/
def failed (x : CtxId) (st : St) (d : Word32) (k : Ctx) (s : State) : State :=
  didIssue x k.item.part (failCtx x st d (putCtx x k s))

/-- What then follows at the core: the item ends if nothing of it is outstanding, and others may go on (R227, R229). -/
def follows (x : CtxId) (s : State) : State := wakeCore x.core (wakeCtx s x)

/-- A register instruction: gD ← the value, and nothing else. -/
def SetsReg (c : Instr) (x : CtxId) (o : Ops) (v : Ctx → Word64) : Prop :=
  ∀ s k, Issues c s x o k → exec c s = .next (retire x (gset (issuing k) o.d (v k)) s)

/-- A predicate instruction: pD ← the value, and nothing else. -/
def SetsPred (c : Instr) (x : CtxId) (o : Ops) (v : Ctx → Bool) : Prop :=
  ∀ s k, Issues c s x o k → exec c s = .next (retire x (pset (issuing k) o.d (v k)) s)

/-- An instruction that fails its item with a status and the PC. -/
def FailsItem (c : Instr) (x : CtxId) (o : Ops) (st : St) (bad : Ctx → State → Prop) : Prop :=
  ∀ s k, Ready c s x o k → bad k s → exec c s = .next (follows x (failed x st (BitVec.ofNat 32 k.pc) (issuing k) s))

/-- An instruction that goes on at the next one, with the context and the state that its effect leaves. -/
def GoesOn (c : Instr) (x : CtxId) (o : Ops) (hyp : Ctx → State → Prop) (eff : Ctx → State → Ctx × State) : Prop :=
  ∀ s k, Issues c s x o k → hyp k s → exec c s = .next (retire x (eff (issuing k) s).1 (eff (issuing k) s).2)

/-- Nothing outstanding of a context touches the slots of spans, as a reader or a writer forbids (R228); what an ended item has
left queued touches no slot. -/
def Clear (rs ws : List Span) (x : CtxId) (k : Ctx) (s : State) : Prop :=
  (∀ t ∈ k.tokens, conflicts rs ws (opSpans t.2.op) = false) ∧
  ∀ c ∈ s.cores.cores, c.1 = x.core → c.2.holder = some x.ctx → ∀ e ∈ c.2.latheQ, e.dead = false → conflicts rs ws (latheSpans e.op) = false

/-- The context once it has taken entry `e` of its token table and written the token (R226). -/
def tokened (o : Ops) (e : Nat) (k : Ctx) : Ctx := gset { k with nextSerial := k.nextSerial + 1 } o.d (tokenWord e (k.nextSerial + 1))

/-- The instructions of a core: those whose guard R213 gives. -/
def coreInstrs (x : CtxId) (o : Ops) : List Instr :=
  [.add x o, .sub x o, .mul x o, .mulhu x o, .divu x o, .remu x o, .andR x o, .orR x o, .xor x o, .shl x o, .shr x o, .sar x o,
   .minS x o, .maxS x o, .addi x o, .andi x o, .ori x o, .xori x o, .shli x o, .shri x o, .movi x o, .setpEq x o, .setpNe x o,
   .setpLtS x o, .setpLtU x o, .setpGeS x o, .setpGeU x o, .setpiEq x o, .setpiLtS x o, .pand x o, .por x o, .pnot x o] ++
  [.branch x o, .loop x o, .callR x o, .ret x o, .jr x o, .tld x o, .tst x o, .tatom x o, .tcpy x o, .tzero x o, .lds x o, .sts x o,
   .vld x o, .vst x o, .lacq x o, .lrel x o, .lzero x o, .lpass x o, .lrd x o, .lwr x o, .lst x o, .lld x o, .lsync x o] ++
  [.vadd x o, .vsub x o, .vmul x o, .vfma x o, .vmin x o, .vmax x o, .vsfu x o, .vcvt x o, .vrsum x o, .vrmax x o, .vbcast x o,
   .wait x o, .waitall x o, .syncFence x o, .syncYield x o, .sys x o, .seed x o, .fclr x o, .failItem x o, .endItem x o]

/-! ## Transactions that arrive (R355, R361, R39) -/

/-- The transaction that a row of an op stands for, as this device sees it: one hop further (R359), with the partition of the
port that it came by (R14, R15). -/
def arriving (s : State) (port : Nat) (op : Byte) (resp : Bool) (tx : Tx) : Tx :=
  { tx with op := op, resp := resp, hop := min 1023 (tx.hop + 1), ptag := portTag s (canonPort s port) tx }

/-- A transaction that arrives at this device as its destination, passes the checks of R355, and is the next of its flow
(R361): the first, one that starts it again, or the one expected, with nothing held. -/
structure Arrives (s : State) (port : Nat) (tx : Tx) : Prop where
  up : portUp s (canonPort s port) = true
  checked : rxCheck (canonPort s port) tx s = none
  mine : isSelf s tx.dst = true
  direct : tx.fwd = none
  next : ∀ f, flowOf s (flowSrc tx) tx.cls = some f → f.held = [] ∧ (tx.flowStart = true ∨ (f.gap = false ∧ f.expected = tx.flowSeq))

/-- The state that then serves it: its flow expects the next sequence, the request has its number, and a mark that it carries
has been heard (R333). -/
def taken (port : Nat) (tx : Tx) (s : State) : State :=
  let t := setFlow { src := flowSrc tx, cls := tx.cls, expected := tx.flowSeq + 1, held := [], gap := false } s
  hearMark (canonPort s port) tx { t with home := { t.home with nextId := t.home.nextId + 1 } }

/-- A request that no FENCE holds and that passes checks 1 to 8 of R39 at an extent that is not being rehomed. -/
structure Admits (rid port : Nat) (tx : Tx) (s : State) (part : Nat) (e : Extent) : Prop where
  fence : fenceHeld s tx.src rid = false
  live : check12 tx s = none
  home : admission port tx s = .go part e
  here : e.state ≠ .arriving

/-- No tile of a request is BUSY or waited for (R69). -/
def TilesFree (tx : Tx) (s : State) : Prop :=
  ∀ t ∈ tilesOf tx, isBusy s (oSlot tx.offset) t = false ∧ hasWaiters s (oSlot tx.offset) t = false

/-- The state as a request that has its turn at its tiles finds it: their entries have lost the agents of expelled hosts
(R72). -/
def touched (tx : Tx) (s : State) : State := (tilesOf tx).foldl (fun u t => purgeDead (oSlot tx.offset) t u) s

/-- A caching request of an agent that has its index, of a tile that is free, carries no poison, and has an entry or room
for one (R66, R71), as the home finds it. -/
structure Caches (tx : Tx) (s : State) (e : Extent) (a : Nat) : Prop where
  ext : extOf s (oSlot tx.offset) = some e
  agent : agentOf e tx.src = some a
  one : tx.length ≤ 1
  clean : poisoned s (oSlot tx.offset) (oTile tx.offset) = false
  room : (dirOf s (oSlot tx.offset) (oTile tx.offset)).isSome = true ∨
    evictChoice s e.owner (tkey (oSlot tx.offset) (oTile tx.offset)) = .room
  free : TilesFree tx s

/-- The row of a transaction serves it: one that arrives, that no FENCE holds back, and that meets `hyp` has its effect, and
what a step at the home leaves to be done follows (R49, R66, R82). -/
def Serves (c : Instr) (op : Byte) (resp : Bool) (port : Nat) (tx0 : Tx) (hyp : State → Tx → State → Prop)
    (eff : Tx → State → State) : Prop :=
  ∀ s, let tx := arriving s port op resp tx0
    Arrives s port tx → (isRequest tx = true → tx.op ≠ 0x06 → fenceHeld (taken port tx s) tx.src s.home.nextId = false) →
    hyp s tx (taken port tx s) → exec c s = .next (settle (eff tx (taken port tx s)))

/-! ## Management requests (R380 to R384) -/

/-- A request of a session of a kind (a fabric manager's, where none is named) that meets no check before its own rule:
new, well formed, at a ready device that is not fenced. -/
structure Requests (h : Mgmt) (s : State) (kind : SessKind := .fm) : Prop where
  session : ∃ k, tget s.mgmt.sessions h.sess = some k ∧ k.kind = kind ∧ k.log.find? (fun r => r.reqId == h.reqId) = none
  fresh : s.mgmt.waiting.any (waitsAs h) = false
  length : h.lenOk = true
  serves : s.boot.fenced = false
  ready : s.boot.phase = .ready

/-- A session that may send the messages of R384 that supervisors have, for the partition that the request names. -/
def MaySend (h : Mgmt) (kind : SessKind) : Prop := kind = .fm ∨ kind = .supervisor h.part

/-- The row of a message answers it with a status and values, and has an effect. -/
def Answers (c : Instr) (h : Mgmt) (kind : SessKind) (code : Nat) (hyp : State → Prop) (st : St) (body : State → List Nat)
    (change : Bool) (eff : State → State) : Prop :=
  ∀ s, Requests h s kind → hyp s → exec c s = .next (answered h code s.mgmt.eventSeq st (body s) change (eff s))

/-- The row of a fabric manager's message carries out a change and answers ST_OK. -/
def Changes (c : Instr) (h : Mgmt) (code : Nat) (hyp : State → Prop) (eff : State → State) : Prop :=
  Answers c h .fm code hyp .ok (fun _ => []) true eff

/-- The row of a message refuses it, and nothing changes. -/
def Refuses (c : Instr) (h : Mgmt) (kind : SessKind) (code : Nat) (hyp : State → Prop) (st : St) : Prop :=
  Answers c h kind code hyp st (fun _ => []) false (fun s => s)

end Sys2Proof.Machine
end

