-- ==== Sys2Proof/WellFormed.lean ====
section
/-! DEFINITION. Which commands are well formed: the operand ranges that the layouts of the manual give (R21
cores and contexts, R29 slots, R149 queues, R213 operand fields, R218 entries, R250 ports, R350 headers).
A command whose operand lies outside its range names nothing the device has. Of a management message only the header's
PARTITION is bound here: a field outside its range is answered by the message's own rule (R382). -/

namespace Sys2Proof

/-- The ranges of a transaction's header (R350, R353): CLASS, HOP, PTAG, COLOUR, and the tiles' count. -/
def Tx.wf (t : Tx) : Bool :=
  decide (t.cls < 7) && decide (t.hop < 1024) && decide (t.ptag < 16) && decide (t.colour < 3) &&
  decide (t.length ≤ 16) && decide (t.tiles.length ≤ 16)

/-- A port number (R14). -/
def portWf (p : Nat) : Bool := decide (p < 192)

/-- A partition number (R24). -/
def partWf (p : Nat) : Bool := decide (p < 16)

/-- A queue number (R149). -/
def queueWf (q : Nat) : Bool := decide (q < 4096)

/-- A slot of the extent map (R29). -/
def slotWf (s : Nat) : Bool := decide (s < 262144)

/-- A context of a logical core (R21, R180). -/
def CtxId.wf (x : CtxId) : Bool := decide (x.core < 2048) && decide (x.ctx < 4)

/-- The fields of a core instruction (R213, R214). -/
def Ops.wf (o : Ops) : Bool :=
  decide (o.pred < 8) && decide (o.d < 32) && decide (o.a < 32) && decide (o.b < 32) && decide (o.c < 32)

/-- The command's operands lie inside their ranges. -/
def Instr.wf : Instr → Bool
  | .rdTile port tx => portWf port && tx.wf
  | .wrTile port tx => portWf port && tx.wf
  | .wrPartial port tx => portWf port && tx.wf
  | .atomic port tx => portWf port && tx.wf
  | .atomicAck port tx => portWf port && tx.wf
  | .fence port tx => portWf port && tx.wf
  | .rdShared port tx => portWf port && tx.wf
  | .rdOwn port tx => portWf port && tx.wf
  | .upgrade port tx => portWf port && tx.wf
  | .markDirty port tx => portWf port && tx.wf
  | .wbDirty port tx => portWf port && tx.wf
  | .evictClean port tx => portWf port && tx.wf
  | .recallAck port tx => portWf port && tx.wf
  | .recallData port tx => portWf port && tx.wf
  | .invalidate port tx => portWf port && tx.wf
  | .invalidateResponse port tx => portWf port && tx.wf
  | .snapOpen port tx => portWf port && tx.wf
  | .snapClose port tx => portWf port && tx.wf
  | .publish port tx => portWf port && tx.wf
  | .publishSeal slot => slotWf slot
  | .cmdPush port tx => portWf port && tx.wf
  | .doorbell port tx => portWf port && tx.wf
  | .rdWindow port tx => portWf port && tx.wf
  | .contribute port tx => portWf port && tx.wf
  | .contributeResponse port tx => portWf port && tx.wf
  | .collResult port tx => portWf port && tx.wf
  | .collStatus port tx => portWf port && tx.wf
  | .moduleStatus port tx => portWf port && tx.wf
  | .moduleResponse port tx => portWf port && tx.wf
  | .pullState port tx => portWf port && tx.wf
  | .pullStateResponse port tx => portWf port && tx.wf
  | .yieldMsg port tx => portWf port && tx.wf
  | .transitForward port tx => portWf port && tx.wf
  | .undefinedOp port tx => portWf port && tx.wf
  | .flowGapLoss _ cls => decide (cls < 7)
  | .frameReceive port _ => portWf port
  | .frameTransmit port => portWf port
  | .replayTimeout port => portWf port
  | .hello port _ _ => portWf port
  | .setWidth port _ _ => portWf port
  | .linkDown port _ => portWf port
  | .laneFault port lane => portWf port && decide (lane < 4)
  | .portFault port => portWf port
  | .portRetrain port => portWf port
  | .egressSend lane => decide (lane < 384)
  | .spindleTurn _ => true
  | .spindleTurnTimeout _ => true
  | .meterRefill => true
  | .holdWindowEnd => true
  | .queueSample => true
  | .recallTimeout slot _ => slotWf slot
  | .invalidateTimeout _ => true
  | .waitingRequestServe slot _ => slotWf slot
  | .ledgerSpaceResume part => partWf part
  | .journalSpaceResume part => partWf part
  | .sinterSpaceResume part => partWf part
  | .epochRetireTimeout => true
  | .batchInstallResume => true
  | .revokeStopTimer _ => true
  | .revokeQuiescent _ => true
  | .discardRestore slot => slotWf slot
  | .versionSweep slot => slotWf slot
  | .rehomePull slot => slotWf slot
  | .intentClear group _ => decide (group < 256)
  | .ownershipBitmapClear slot _ => slotWf slot
  | .moduleLost _ => true
  | .rebuildRow group => decide (group < 256)
  | .patrolScrub group _ => decide (group < 256)
  | .mirrorResilver n => match n with | .complete _ => true | .failing _ c => decide (c < 2)
  | .hbmScrub channel _ => decide (channel < 512)
  | .itemDispatch part => partWf part
  | .itemComplete x _ => x.wf
  | .eventDeliver _ => true
  | .reduceRun queue => queueWf queue
  | .reduceFrom queue => queueWf queue
  | .reduceAbort queue => queueWf queue
  | .chunkCommit _ _ _ => true
  | .generationTimeout _ => true
  | .rows queue => queueWf queue
  | .kv queue => queueWf queue
  | .dispatch queue => queueWf queue
  | .combine queue => queueWf queue
  | .copy queue => queueWf queue
  | .fill queue => queueWf queue
  | .convert queue => queueWf queue
  | .publishCopy queue => queueWf queue
  | .publishCopySeal queue _ _ => queueWf queue
  | .rebuild queue => queueWf queue
  | .scan queue => queueWf queue
  | .topk queue => queueWf queue
  | .score queue => queueWf queue
  | .attend queue => queueWf queue
  | .applyRun queue => queueWf queue
  | .add x o => x.wf && o.wf
  | .sub x o => x.wf && o.wf
  | .mul x o => x.wf && o.wf
  | .mulhu x o => x.wf && o.wf
  | .divu x o => x.wf && o.wf
  | .remu x o => x.wf && o.wf
  | .andR x o => x.wf && o.wf
  | .orR x o => x.wf && o.wf
  | .xor x o => x.wf && o.wf
  | .shl x o => x.wf && o.wf
  | .shr x o => x.wf && o.wf
  | .sar x o => x.wf && o.wf
  | .minS x o => x.wf && o.wf
  | .maxS x o => x.wf && o.wf
  | .addi x o => x.wf && o.wf
  | .andi x o => x.wf && o.wf
  | .ori x o => x.wf && o.wf
  | .xori x o => x.wf && o.wf
  | .shli x o => x.wf && o.wf
  | .shri x o => x.wf && o.wf
  | .movi x o => x.wf && o.wf
  | .setpEq x o => x.wf && o.wf
  | .setpNe x o => x.wf && o.wf
  | .setpLtS x o => x.wf && o.wf
  | .setpLtU x o => x.wf && o.wf
  | .setpGeS x o => x.wf && o.wf
  | .setpGeU x o => x.wf && o.wf
  | .setpiEq x o => x.wf && o.wf
  | .setpiLtS x o => x.wf && o.wf
  | .pand x o => x.wf && o.wf
  | .por x o => x.wf && o.wf
  | .pnot x o => x.wf && o.wf
  | .branch x o => x.wf && o.wf
  | .loop x o => x.wf && o.wf
  | .callR x o => x.wf && o.wf
  | .ret x o => x.wf && o.wf
  | .jr x o => x.wf && o.wf
  | .tld x o => x.wf && o.wf
  | .tst x o => x.wf && o.wf
  | .tatom x o => x.wf && o.wf
  | .tcpy x o => x.wf && o.wf
  | .tzero x o => x.wf && o.wf
  | .lds x o => x.wf && o.wf
  | .sts x o => x.wf && o.wf
  | .vld x o => x.wf && o.wf
  | .vst x o => x.wf && o.wf
  | .tileOpComplete x entry _ => x.wf && decide (entry < 64)
  | .tatomResend _ _ => true
  | .lacq x o => x.wf && o.wf
  | .lrel x o => x.wf && o.wf
  | .lzero x o => x.wf && o.wf
  | .lpass x o => x.wf && o.wf
  | .lrd x o => x.wf && o.wf
  | .lwr x o => x.wf && o.wf
  | .lst x o => x.wf && o.wf
  | .lld x o => x.wf && o.wf
  | .lsync x o => x.wf && o.wf
  | .latheOpComplete core => decide (core < 2048)
  | .vadd x o => x.wf && o.wf
  | .vsub x o => x.wf && o.wf
  | .vmul x o => x.wf && o.wf
  | .vfma x o => x.wf && o.wf
  | .vmin x o => x.wf && o.wf
  | .vmax x o => x.wf && o.wf
  | .vsfu x o => x.wf && o.wf
  | .vcvt x o => x.wf && o.wf
  | .vrsum x o => x.wf && o.wf
  | .vrmax x o => x.wf && o.wf
  | .vbcast x o => x.wf && o.wf
  | .wait x o => x.wf && o.wf
  | .waitall x o => x.wf && o.wf
  | .syncFence x o => x.wf && o.wf
  | .syncYield x o => x.wf && o.wf
  | .sys x o => x.wf && o.wf
  | .seed x o => x.wf && o.wf
  | .fclr x o => x.wf && o.wf
  | .failItem x o => x.wf && o.wf
  | .endItem x o => x.wf && o.wf
  | .itemBudgetExceeded x => x.wf
  | .coreFault phys _ => decide (phys < 2304)
  | .coreHang phys => decide (phys < 2304)
  | .patternSweep phys _ => decide (phys < 2304)
  | .sentinelTrip strip => decide (strip < 64)
  | .junctionDrag strip _ => decide (strip < 64)
  | .dragExit strip _ => decide (strip < 64)
  | .powerEstimate _ => true
  | .powerLimited => true
  | .powerReleased => true
  | .partitionUnitFault part _ => partWf part
  | .channelFault channel => decide (channel < 512)
  | .fieldIsolated field => decide (field < 8)
  | .rtpSwitchover => true
  | .resourceScrubDone _ => true
  | .removalTimeout part => partWf part
  | .leaseExpiry => true
  | .powerGood _ _ _ => true
  | .coolantOkAssert _ => true
  | .startWait => true
  | .powerDown => true
  | .railFault _ => true
  | .vrAlert => true
  | .coolantLost => true
  | .coolantRestored => true
  | .coolantFence => true
  | .thermalTrip => true
  | .stackHot stack => decide (stack < 16)
  | .refclkSysLoss => true
  | .refclkFieldLoss field => decide (field < 8)
  | .refclkMgmtLoss => true
  | .sessionOpen _ => true
  | .sessionClose _ => true
  | .mgmtReservedCode h _ => partWf h.part
  | .attest h _ => partWf h.part
  | .identityCert h => partWf h.part
  | .leaseChallenge h => partWf h.part
  | .commitSvn h _ _ => partWf h.part
  | .expelNode h _ => partWf h.part
  | .readmitNode h _ => partWf h.part
  | .fenceDevice h _ => partWf h.part
  | .renewLease h _ => partWf h.part
  | .takeover h _ _ _ => partWf h.part
  | .flashWrite h _ _ => partWf h.part
  | .flashActivate h _ _ => partWf h.part
  | .engineFwUpdate h _ _ _ _ => partWf h.part
  | .partCompose h _ _ => partWf h.part
  | .partGrow h _ _ => partWf h.part
  | .partShrink h _ _ => partWf h.part
  | .partReset h _ => partWf h.part
  | .partDissolve h _ => partWf h.part
  | .partRead h _ => partWf h.part
  | .attach h _ _ _ _ _ _ => partWf h.part
  | .grow h _ _ => partWf h.part
  | .revokeNotice h _ _ _ => partWf h.part
  | .revokeCancel h _ _ => partWf h.part
  | .revokeForce h _ _ _ => partWf h.part
  | .releaseExt h _ => partWf h.part
  | .rehomeIn h _ _ _ _ _ _ => partWf h.part
  | .rehomeOut h _ _ _ _ => partWf h.part
  | .rehomeFinish h _ => partWf h.part
  | .readExtent h _ => partWf h.part
  | .batch h _ => partWf h.part
  | .grantLease h _ _ => partWf h.part
  | .revokeLease h _ => partWf h.part
  | .discardOpen h _ => partWf h.part
  | .resetSource h _ => partWf h.part
  | .setRecallTimeout h _ => partWf h.part
  | .readGroup h _ => partWf h.part
  | .replaceModule h _ _ _ => partWf h.part
  | .queueCreate h _ _ _ _ _ => partWf h.part
  | .queueDestroy h _ => partWf h.part
  | .kernelLoad h _ _ => partWf h.part
  | .kernelUnload h _ => partWf h.part
  | .kernelList h => partWf h.part
  | .groupRegister h _ _ => partWf h.part
  | .groupRelease h _ => partWf h.part
  | .groupRead h _ => partWf h.part
  | .routeSet h _ => partWf h.part
  | .routeRead h _ => partWf h.part
  | .portReset h _ => partWf h.part
  | .counterConfig h _ => partWf h.part
  | .counterRead h _ _ => partWf h.part
  | .traceConfig h _ => partWf h.part
  | .sampleConfig h _ _ _ _ _ => partWf h.part
  | .eventSubscribe h => partWf h.part
  | .eventRead h _ => partWf h.part
  | .portWindowEnd => true
  | .supervisorWindowEnd => true
  | .traceSnapshot _ => true
  | .fumaroleExport _ => true
  | .partitionResetComplete part _ => partWf part
  | .coreReturnToService phys _ => decide (phys < 2304)
  | .markedRegionResync group _ => decide (group < 256)
  | .reservedOpcodeCommand queue => queueWf queue
  | .certSubmitReservedKind h _ => partWf h.part
  | .coolantOkFallBeforeReady => true
  | .railInRange => true
  | .codeFetchComplete core part handle => decide (core < 2048) && partWf part && decide (handle < 64)

end Sys2Proof
end

