-- ==== Sys2Proof/Certificates/Slice0/Obligations.lean ====
section
/-! DEFINITION. The statements for the provers. Each names the rules of spec/ that it says; a hypothesis is on the
state and the operands alone. -/

open Sys2Proof Sys2Proof.Machine

/-! ## Core programs (chapters 8 and 9) -/

/-- R216 and R215: the scalar instructions on registers. Arithmetic is modulo 2^64; MULHU is the high half of the
product; a division by zero gives all ones and the dividend; a shift uses bits [5:0] of its count; MIN_S and MAX_S
compare as two's complement. R216: the scalar instructions with an immediate. ADDI and MOVI extend its sign; the
bitwise forms do not; SHLI and SHRI take I[5:0]. -/
def Obligations.ScalarResults : Prop :=
  (∀ (x : CtxId) (o : Ops),
     let a := fun k : Ctx => gget k o.a
     let b := fun k : Ctx => gget k o.b
     SetsReg (.add x o) x o (fun k => BitVec.ofNat 64 ((a k).toNat + (b k).toNat)) ∧
     SetsReg (.sub x o) x o (fun k => BitVec.ofInt 64 (((a k).toNat : Int) - ((b k).toNat : Int))) ∧
     SetsReg (.mul x o) x o (fun k => BitVec.ofNat 64 ((a k).toNat * (b k).toNat)) ∧
     SetsReg (.mulhu x o) x o (fun k => BitVec.ofNat 64 ((a k).toNat * (b k).toNat / 2 ^ 64)) ∧
     SetsReg (.divu x o) x o (fun k => if b k = 0 then BitVec.ofNat 64 (2 ^ 64 - 1) else BitVec.ofNat 64 ((a k).toNat / (b k).toNat)) ∧
     SetsReg (.remu x o) x o (fun k => BitVec.ofNat 64 ((a k).toNat % (b k).toNat)) ∧
     SetsReg (.andR x o) x o (fun k => a k &&& b k) ∧
     SetsReg (.orR x o) x o (fun k => a k ||| b k) ∧
     SetsReg (.xor x o) x o (fun k => a k ^^^ b k) ∧
     SetsReg (.shl x o) x o (fun k => BitVec.ofNat 64 ((a k).toNat * 2 ^ ((b k).toNat % 64))) ∧
     SetsReg (.shr x o) x o (fun k => BitVec.ofNat 64 ((a k).toNat / 2 ^ ((b k).toNat % 64))) ∧
     SetsReg (.sar x o) x o (fun k => BitVec.ofInt 64 ((a k).toInt / (2 ^ ((b k).toNat % 64) : Nat))) ∧
     SetsReg (.minS x o) x o (fun k => BitVec.ofInt 64 (min (a k).toInt (b k).toInt)) ∧
     SetsReg (.maxS x o) x o (fun k => BitVec.ofInt 64 (max (a k).toInt (b k).toInt))) ∧
  (∀ (x : CtxId) (o : Ops),
     let a := fun k : Ctx => gget k o.a
     let n := o.i.toNat % 64
     SetsReg (.addi x o) x o (fun k => BitVec.ofInt 64 (((a k).toNat : Int) + o.i.toInt)) ∧
     SetsReg (.andi x o) x o (fun k => a k &&& BitVec.ofNat 64 o.i.toNat) ∧
     SetsReg (.ori x o) x o (fun k => a k ||| BitVec.ofNat 64 o.i.toNat) ∧
     SetsReg (.xori x o) x o (fun k => a k ^^^ BitVec.ofNat 64 o.i.toNat) ∧
     SetsReg (.shli x o) x o (fun k => BitVec.ofNat 64 ((a k).toNat * 2 ^ n)) ∧
     SetsReg (.shri x o) x o (fun k => BitVec.ofNat 64 ((a k).toNat / 2 ^ n)) ∧
     SetsReg (.movi x o) x o (fun _ => BitVec.ofInt 64 o.i.toInt))

/-- R216 and R215: the instructions that write a predicate, with field bits [4:3] zero; a field above 7 fails the item
with ST_OPCODE and the PC. -/
def Obligations.PredicateResults : Prop :=
  ∀ (x : CtxId) (o : Ops),
    let a := fun k : Ctx => gget k o.a
    let b := fun k : Ctx => gget k o.b
    (o.d < 8 →
      SetsPred (.setpEq x o) x o (fun k => decide (a k = b k)) ∧
      SetsPred (.setpNe x o) x o (fun k => decide (a k ≠ b k)) ∧
      SetsPred (.setpLtS x o) x o (fun k => decide ((a k).toInt < (b k).toInt)) ∧
      SetsPred (.setpLtU x o) x o (fun k => decide ((a k).toNat < (b k).toNat)) ∧
      SetsPred (.setpGeS x o) x o (fun k => decide ((b k).toInt ≤ (a k).toInt)) ∧
      SetsPred (.setpGeU x o) x o (fun k => decide ((b k).toNat ≤ (a k).toNat)) ∧
      SetsPred (.setpiEq x o) x o (fun k => decide (a k = BitVec.ofInt 64 o.i.toInt)) ∧
      SetsPred (.setpiLtS x o) x o (fun k => decide ((a k).toInt < o.i.toInt)) ∧
      (o.a < 8 → SetsPred (.pnot x o) x o (fun k => !pget k o.a)) ∧
      (o.a < 8 → o.b < 8 →
        SetsPred (.pand x o) x o (fun k => pget k o.a && pget k o.b) ∧
        SetsPred (.por x o) x o (fun k => pget k o.a || pget k o.b))) ∧
    (8 ≤ o.d →
      FailsItem (.setpEq x o) x o .opcode (fun _ _ => True) ∧ FailsItem (.setpNe x o) x o .opcode (fun _ _ => True) ∧
      FailsItem (.setpLtS x o) x o .opcode (fun _ _ => True) ∧ FailsItem (.setpLtU x o) x o .opcode (fun _ _ => True) ∧
      FailsItem (.setpGeS x o) x o .opcode (fun _ _ => True) ∧ FailsItem (.setpGeU x o) x o .opcode (fun _ _ => True) ∧
      FailsItem (.setpiEq x o) x o .opcode (fun _ _ => True) ∧ FailsItem (.setpiLtS x o) x o .opcode (fun _ _ => True)) ∧
    (8 ≤ o.d ∨ 8 ≤ o.a → FailsItem (.pnot x o) x o .opcode (fun _ _ => True)) ∧
    (8 ≤ o.d ∨ 8 ≤ o.a ∨ 8 ≤ o.b →
      FailsItem (.pand x o) x o .opcode (fun _ _ => True) ∧ FailsItem (.por x o) x o .opcode (fun _ _ => True))

/-- R217 and R215: branches. Offsets count from the branch itself; a target outside the code fails the item with
ST_OPCODE and the PC. -/
def Obligations.BranchResults : Prop :=
  ∀ (x : CtxId) (o : Ops) (s : State) (k : Ctx),
    let t : Int := (k.pc : Int) + o.i.toInt
    let inside : Prop := 0 ≤ t ∧ t < (codeLen s k : Int)
    let bad : Out := .next (follows x (failed x .opcode (BitVec.ofNat 32 k.pc) (issuing k) s))
    let k0 := issuing k
    let k1 := gset k0 o.a (gget k o.a - 1)
    (Ready (.branch x o) s x o k →
      (inside → exec (.branch x o) s = .next (jumped x t.toNat k0 s)) ∧ (¬ inside → exec (.branch x o) s = bad)) ∧
    (Ready (.loop x o) s x o k →
      (gget k1 o.a = 0 → k.pc + 1 < codeLen s k → exec (.loop x o) s = .next (retire x k1 s)) ∧
      (gget k1 o.a ≠ 0 → inside → exec (.loop x o) s = .next (jumped x t.toNat k1 s)) ∧
      (gget k1 o.a ≠ 0 → ¬ inside → exec (.loop x o) s = bad)) ∧
    (Ready (.callR x o) s x o k →
      (inside → exec (.callR x o) s = .next (jumped x t.toNat (gset k0 31 (BitVec.ofNat 64 (k.pc + 1))) s)) ∧
      (¬ inside → exec (.callR x o) s = bad)) ∧
    (Ready (.ret x o) s x o k →
      ((gget k 31).toNat < codeLen s k → exec (.ret x o) s = .next (jumped x (gget k 31).toNat k0 s)) ∧
      (codeLen s k ≤ (gget k 31).toNat → exec (.ret x o) s = bad)) ∧
    (Ready (.jr x o) s x o k →
      ((gget k o.a).toNat < codeLen s k → exec (.jr x o) s = .next (jumped x (gget k o.a).toNat k0 s)) ∧
      (codeLen s k ≤ (gget k o.a).toNat → exec (.jr x o) s = bad))

/-- R213: an instruction whose guard fails has no effect; the context goes on at the next one. R215: an instruction
that is the last of its code and neither branches nor ends leaves the PC at CODE_INSTRS, and the item fails with
ST_OPCODE and that PC. R212: in a context whose turn it is not, no instruction issues; an instruction that the code
does not hold at the PC never does (the model's choice, log entry 38). R213, R214: the words of code. Each instruction
is spelt by one word, which is read as that instruction with its guard and every operand; a word that is read as an
instruction is the one that spells it. -/
def Obligations.GuardAndCodeEnd : Prop :=
  (∀ (x : CtxId) (o : Ops) (s : State) (k : Ctx), canIssue s x = some k → spent s k = false → guardOk k o = false →
     hisTurn s x = true → Calm s x.core → x.ctx < 4 → k.pc + 1 < codeLen s k →
     ∀ c ∈ coreInstrs x o, insnAt s x k = some c → exec c s = .next (retire x (issuing k) s)) ∧
  (∀ (x : CtxId) (o : Ops) (s : State) (k : Ctx), codeLen s k = k.pc + 1 →
     (Ready (.syncYield x o) s x o k →
       exec (.syncYield x o) s = .next (follows x (failed x .opcode (BitVec.ofNat 32 (codeLen s k)) (issuing k) s))) ∧
     (Ready (.movi x o) s x o k → exec (.movi x o) s = .next (follows x (failed x .opcode (BitVec.ofNat 32 (codeLen s k))
       (gset (issuing k) o.d (BitVec.ofInt 64 o.i.toInt)) s)))) ∧
  (∀ (x : CtxId) (o : Ops) (s : State), Calm s x.core → x.ctx < 4 →
     ∀ c ∈ coreInstrs x o, (hisTurn s x = false ∨ ∀ k, canIssue s x = some k → insnAt s x k ≠ some c) → exec c s = .next s) ∧
  (∀ (x : CtxId) (o : Ops), o.wf = true → ∀ c ∈ coreInstrs x o, ∃ w, encodeInsn c = some w ∧ insnOf w x = some c) ∧
  (∀ (w : Word64) (x : CtxId) (c : Instr), insnOf w x = some c →
     encodeInsn c = some w ∧ c ∈ coreInstrs x (wOps w) ∧ (wOps w).wf = true)

/-- R211, R212, R213: what an instruction that goes on leaves unchanged: every other context, the lathe and the
accumulator of its core, which takes note of the context as the last to issue, every other core, and everything else
of the device but the event counters; and what a write of a general register or of a predicate leaves unchanged: g0
and p0, every other register, and everything else of the context. -/
def Obligations.RegisterFrame : Prop :=
  (∀ (x : CtxId) (k : Ctx) (s : State) (c : Core), coreOf s x.core = some c →
    let t := retire x k s
    ctxOf t x = some { k with pc := k.pc + 1, wait := none } ∧
    (∀ y, y ≠ x → ctxOf t y = ctxOf s y) ∧
    coreOf t x.core = some { c with last := x.ctx, ctxs := tset c.ctxs x.ctx { k with pc := k.pc + 1, wait := none } } ∧
    (∀ d, d ≠ x.core → coreOf t d = coreOf s d) ∧
    { t with cores := { t.cores with cores := s.cores.cores }, obs := { t.obs with counters := s.obs.counters } } = s) ∧
  (∀ (k : Ctx) (r : Nat) (v : Word64), r < 32 →
    (∀ q, gget (gset k r v) q = if q = r ∧ r ≠ 0 then v else gget k q) ∧ { gset k r v with g := k.g } = k) ∧
  (∀ (k : Ctx) (r : Nat) (v : Bool), r < 8 →
    (∀ q, pget (pset k r v) q = if q = r ∧ r ≠ 0 then v else pget k q) ∧ { pset k r v with p := k.p } = k)

/-- R221, R222, R226, R203, R242: the sync and system classes. WAIT gives a TATOM's result, 0 when the token no longer
matches, and waits while its operation is outstanding; WAITALL and FENCE wait likewise; YIELD has no effect; SEED and
FCLR write the seed and the flags. R221 and R222: SYS reads a system register; any other number fails the item with
ST_OPCODE and the PC. -/
def Obligations.SyncAndSystem : Prop :=
  (∀ (x : CtxId) (o : Ops) (s : State) (k : Ctx),
     let k0 := issuing k
     let tok := gget k o.a
     (Issues (.wait x o) s x o k →
       (tokenMatch k tok = none → exec (.wait x o) s = .next (retire x (gset k0 o.d 0) s)) ∧
       (∀ e r, tokenMatch k tok = some e → e.done = some r → exec (.wait x o) s =
         .next (retire x (gset { k0 with tokens := tdel k.tokens (tok.toNat % 32) } o.d (r.truncate 64)) s)) ∧
       (∀ e, tokenMatch k tok = some e → e.done = none → exec (.wait x o) s = .next (waiting x (.wait o) k0 s))) ∧
     (Issues (.waitall x o) s x o k →
       (openTokens k = [] → exec (.waitall x o) s = .next (retire x { k0 with tokens := [] } s)) ∧
       (openTokens k ≠ [] → exec (.waitall x o) s = .next (waiting x .waitall k0 s))) ∧
     (Issues (.syncFence x o) s x o k →
       (fencePending k (aNode tok) = false → exec (.syncFence x o) s = .next (retire x k0 s)) ∧
       (fencePending k (aNode tok) = true → exec (.syncFence x o) s = .next (waiting x (.fence (aNode tok)) k0 s))) ∧
     (Issues (.syncYield x o) s x o k → exec (.syncYield x o) s = .next (retire x k0 s)) ∧
     (Issues (.seed x o) s x o k → exec (.seed x o) s = .next (retire x { k0 with seed := tok } s)) ∧
     (Issues (.fclr x o) s x o k → exec (.fclr x o) s = .next (retire x { k0 with of := false, uf := false, nv := false } s))) ∧
  (∀ (x : CtxId) (o : Ops) (s : State) (k : Ctx) (q : Queue) (c : Cmd), Issues (.sys x o) s x o k → cmdOfItem s k.item = some (q, c) →
     let a := applyArgs c.desc
     let n := k.item.index
     let reads := fun v : Word64 => exec (.sys x o) s = .next (retire x (gset (issuing k) o.d v) s)
     (o.f = 0x00 → reads (BitVec.ofNat 64 n)) ∧
     (o.f = 0x01 → reads (BitVec.ofNat 64 (n % a.nx))) ∧
     (o.f = 0x02 → reads (BitVec.ofNat 64 (n / a.nx % a.ny))) ∧
     (o.f = 0x03 → reads (BitVec.ofNat 64 (n / (a.nx * a.ny)))) ∧
     (o.f = 0x04 → reads (BitVec.ofNat 64 a.nx)) ∧
     (o.f = 0x05 → reads (BitVec.ofNat 64 a.ny)) ∧
     (o.f = 0x06 → reads (BitVec.ofNat 64 a.nz)) ∧
     (o.f = 0x07 → reads a.arg) ∧
     (o.f = 0x08 → reads a.inline_) ∧
     (o.f = 0x09 → reads k.seed) ∧
     (o.f = 0x0A → reads (BitVec.ofNat 64 ((if k.of then 1 else 0) + (if k.uf then 2 else 0) + (if k.nv then 4 else 0)))) ∧
     (o.f = 0x0B → reads (BitVec.ofNat 64 k.replay)) ∧
     (o.f = 0x0C → reads (BitVec.ofNat 64 x.ctx)) ∧
     (o.f = 0x0D → reads (BitVec.ofNat 64 x.core)) ∧
     (0x0E ≤ o.f.toNat → exec (.sys x o) s = .next (follows x (failed x .opcode (BitVec.ofNat 32 k.pc) (issuing k) s))))

/-- R221, R227, R242: END ends the item with ST_OK once nothing of it is outstanding, and waits until then; FAIL fails
it with ST_STATE and gA[31:0]; an item past its budget fails with ST_STATE and DETAIL all ones. -/
def Obligations.ItemEnds : Prop :=
  (∀ (x : CtxId) (o : Ops) (s : State) (k : Ctx),
    let u := waiting x .ending (issuing k) s
    (Ready (.endItem x o) s x o k →
      (quiet s x k = true → exec (.endItem x o) s = .next (wakeCore x.core (settle (endItemAt x k.item .ok 0 u)))) ∧
      (quiet s x k = false → exec (.endItem x o) s = .next u)) ∧
    (Ready (.failItem x o) s x o k →
      exec (.failItem x o) s = .next (follows x (failed x .state (BitVec.ofNat 32 (gget k o.a).toNat) (issuing k) s)))) ∧
  (∀ (x : CtxId) (s : State) (k : Ctx), canIssue s x = some k → spent s k = true → x.ctx < 4 →
    exec (.itemBudgetExceeded x) s = .next (wakeCore x.core (failCtx x .state 0xFFFFFFFF s))) ∧
  (∀ (x : CtxId) (s : State) (k : Ctx) (st : St) (d : Word32), ctxOf s x = some k → k.failing = some (st, d) → quiet s x k = true →
    wakeCtx s x = settle (endItemAt x k.item st d s))

/-- R218, R223, R226: the asynchronous tile operations. Each takes the lowest free entry of the token table and writes
its token; a TLD or TST of SPACE 0 whose tile lies at another home is sent there; reserved spaces and slots outside
the context's fail the item. R218, R226, R231, R90: a TATOM that no earlier run of its item has issued takes the
lowest free token, the next tag and ASEQ of its source at the home of its address, and a dispatch record, and is sent
to a home that is not this device. -/
def Obligations.TileOperations : Prop :=
  (∀ (x : CtxId) (o : Ops) (s : State) (k : Ctx) (e : Nat), freeEntry k = some e →
     let ad := gget k o.a
     let slot := (gget k o.b).toNat
     let n := o.i.toNat % 16 + 1
     let m := o.i.toNat % 2048 + 1
     let sp := o.i.toNat / 16 % 4
     let k1 := tokened o e (issuing k)
     let store : AsyncOp := .store .global ad slot n
     let puts := fun (c : Instr) (op : AsyncOp) => exec c s = .next (retire x (putToken e op false none k1) s)
     (Issues (.tld x o) s x o k → slot + n ≤ k.slotCount → Clear [] [(slot, n)] x k s →
       (sp = 0 →
         let r := sendOp x k1 (.load .global ad slot n) ad [] s
         exec (.tld x o) s = .next (retire x (putToken e (.load .global ad slot n) false r.1 k1) r.2)) ∧
       (sp = 1 → puts (.tld x o) (.load .resident ad slot n))) ∧
     (Issues (.tst x o) s x o k → slot + n ≤ k.slotCount → Clear [(slot, n)] [] x k s →
       (sp = 0 → awayHome s ad = none → puts (.tst x o) store) ∧
       (sp = 0 → awayHome s ad ≠ none →
         let d := slotReads n slot (issuing k) s
         let r := sendOp x (tokened o e d.2.1) store ad d.1 d.2.2
         exec (.tst x o) s = .next (retire x (putToken e store false r.1 (tokened o e d.2.1)) r.2)) ∧
       (sp = 1 → puts (.tst x o) (.store .resident ad slot n))) ∧
     (Issues (.tcpy x o) s x o k → ad.toNat + m ≤ k.slotCount → slot + m ≤ k.slotCount → Clear [(ad.toNat, m)] [(slot, m)] x k s →
       puts (.tcpy x o) (.copy ad.toNat slot m)) ∧
     (Issues (.tzero x o) s x o k → slot + m ≤ k.slotCount → Clear [] [(slot, m)] x k s → puts (.tzero x o) (.zero slot m)) ∧
     (2 ≤ sp → FailsItem (.tld x o) x o .opcode (fun k' _ => k' = k) ∧ FailsItem (.tst x o) x o .opcode (fun k' _ => k' = k)) ∧
     (sp < 2 → k.slotCount < slot + n →
       FailsItem (.tld x o) x o .noAccess (fun k' _ => k' = k) ∧ FailsItem (.tst x o) x o .noAccess (fun k' _ => k' = k)) ∧
     (k.slotCount < slot + m →
       FailsItem (.tcpy x o) x o .noAccess (fun k' _ => k' = k) ∧ FailsItem (.tzero x o) x o .noAccess (fun k' _ => k' = k))) ∧
  (∀ (x : CtxId) (o : Ops) (s : State) (k : Ctx) (e : Nat) (a : Actor), Issues (.tatom x o) s x o k → freeEntry k = some e →
     o.f.toNat < 64 → aopOk o.f.toNat (o.i.toNat % 2) = true → recAt s k.item k.tatomCount = none → itemActor s x k false = some a →
     let ad := gget k o.a
     let h := atomHome s ad
     let src := sourceOf s a.part h
     let k0 := issuing k
     let op := fun (tag : BitVec 16) (q : Word32) =>
       AsyncOp.atomic ad o.f.toNat (o.i.toNat % 2) (gget k o.b) (gget k o.c) tag q k.tatomCount
     let tk := takeAtomic a h k.item k.tatomCount op s
     let s1 := addRec k.item { addr := ad, aop := o.f.toNat, status := none, result := 0 } tk.2
     let r := sendOp x k0 tk.1 ad [] s1
     src.outstanding.length < 1024 →
     tk.1 = op (nextTag a.part h s) src.nextAseq ∧
     exec (.tatom x o) s = .next (retire x (putToken e tk.1 false r.1 { tokened o e k0 with tatomCount := k.tatomCount + 1 }) r.2))

/-- R127, R218: the instructions on slots, no outstanding operation touching them: LDS and STS on eight bytes, VLD and
VST on a pair of registers. -/
def Obligations.SlotInstructions : Prop :=
  ∀ (x : CtxId) (o : Ops),
    let at8 := o.i.toNat % 256
    let n := fun k : Ctx => (gget k o.a).toNat
    (at8 % 8 = 0 →
      GoesOn (.lds x o) x o (fun k s => n k < k.slotCount ∧ Clear [(n k, 1)] [] x k s) (fun k s =>
        let r := slotRead (n k) k s
        (gset r.2.1 o.d (BitVec.ofNat 64 (bytesAt r.1.data at8 8)), r.2.2)) ∧
      GoesOn (.sts x o) x o (fun k s => n k < k.slotCount ∧ Clear [(n k, 1)] [] x k s ∧ Clear [] [(n k, 1)] x k s) (fun k s =>
        let r := slotRead (n k) k s
        ({ r.2.1 with slots := tset r.2.1.slots (n k) (changeTile r.1 (setBytes r.1.data at8 8 (gget k o.b).toNat)) }, r.2.2))) ∧
    (o.d % 2 = 0 → o.d < 8 →
      GoesOn (.vld x o) x o (fun k s => n k + 2 ≤ k.slotCount ∧ Clear [(n k, 2)] [] x k s) (fun k s =>
        let a := slotRead (n k) k s
        let b := slotRead (n k + 1) a.2.1 a.2.2
        (vtWrite (o.d + 1) b.1.data (vtWrite o.d a.1.data b.2.1), b.2.2)) ∧
      GoesOn (.vst x o) x o (fun k s => n k + 2 ≤ k.slotCount ∧ Clear [] [(n k, 2)] x k s) (fun k s =>
        let a := vtRead o.d k s
        let b := vtRead (o.d + 1) a.2.1 a.2.2
        ({ b.2.1 with slots := tset (tset b.2.1.slots (n k) (mkTile a.1)) (n k + 1) (mkTile b.1) }, b.2.2))) ∧
    (at8 % 8 ≠ 0 → FailsItem (.lds x o) x o .opcode (fun _ _ => True) ∧ FailsItem (.sts x o) x o .opcode (fun _ _ => True)) ∧
    (o.d % 2 ≠ 0 ∨ 8 ≤ o.d → FailsItem (.vld x o) x o .opcode (fun _ _ => True) ∧ FailsItem (.vst x o) x o .opcode (fun _ _ => True))

/-- R226, R227, R228, R239: an asynchronous operation completes. Its entry is freed, or holds a TATOM's result until a
WAIT names it; the tiles of a load lie in its slots; a failure fails the item. R231, R89: a TATOM without a response
is sent again with RETRY 1 and the same tag and ASEQ, to the home of the latest resolution of its address; nothing
else changes. -/
def Obligations.TileCompletions : Prop :=
  (∀ (x : CtxId) (e : Nat) (s : State) (c : Core) (k : Ctx) (t : Token) (a : Actor), coreOf s x.core = some c → ctxOf s x = some k →
     tget k.tokens e = some t → itemActor s x k false = some a → c.recovering = false → t.done = none → t.wild = false →
     heldBack k e t = false → partState s a.part = .active →
     let done := fun (ans : Option RemoteAnswer) (u : State) => exec (.tileOpComplete x e ans) s = .next (settle (wakeCore x.core u))
     (∀ d n, t.op = .zero d n → done none (modCtx x (slotWrites d (List.replicate n zeroTile)) (dropToken x e s))) ∧
     (∀ b d n, t.op = .copy b d n →
       let r := slotReads n b k s
       done none (dropToken x e (putCtx x (slotWrites d r.1 r.2.1) r.2.2))) ∧
     (∀ ad slot n ts u, t.op = .load .resident ad slot n → runIo ((List.range n).mapM (ioGet a true ad)) [] s = (.ok ts, u) →
       done none (dropBusyWhere x (fun _ => false) (loadEnds x e slot false ts (countCore x a.part 0x06 n (some 1) none u)))) ∧
     (∀ ad slot n h r, t.op = .load .global ad slot n → t.sent = some h → r.status = 0 → r.tiles.length = n → r.tiles.all tileOk = true →
       done (some r) (loadEnds x e slot false r.tiles (countCore x a.part 0x06 n (some 1) (some (aSlot ad)) s))) ∧
     (∀ ad slot n h r, t.op = .store .global ad slot n → t.sent = some h → r.status = 0 →
       done (some r) (dropToken x e (countCore x a.part 0x07 n (some 1) (some (aSlot ad)) s))) ∧
     (∀ sp ad slot n h r, (t.op = .load sp ad slot n ∨ t.op = .store sp ad slot n) → sp = .global → t.sent = some h → r.status ≠ 0 →
       done (some r) (failCtx x (stOf r.status) (tileDetail (aTile ad)) (dropToken x e s))) ∧
     (∀ ad aop size v cmp tag q idx h r, t.op = .atomic ad aop size v cmp tag q idx → t.sent = some h →
       (∀ y, recAt s k.item idx = some y → y.status = none) → stOf r.status = .ok →
       done (some r) (modToken x e (fun y => { y with done := some r.result })
         (countCore x k.item.part 0x08 1 (some 2) (some (aSlot ad))
           (resolveFor k.item idx (noteRec k.item.queue k.item.cmdSeq k.item.index idx .ok r.result s)))))) ∧
  (∀ (home : Node) (tag : BitVec 16) (s : State) (y : SentAtomic),
     let part := tag.toNat / 4096
     (sourceOf s part home).outstanding.find? (fun y => y.tag == tag && !y.done) = some y →
     exec (.tatomResend home tag) s = .next (settle (resendAtom part home y s)) ∧
     (∀ ad aop size v cmp tg q idx n slot, y.op = .atomic ad aop size v cmp tg q idx → size < 2 → placeOf s ad = .away n slot none →
       let tx := opTx (sourceActor part y) y.op n slot [] 1 s
       resendAtom part home y s = sendEngine tx s ∧ tx.tag = tg ∧ abRetry tx.trailer.val = 1 ∧ abAseq tx.trailer.val = q ∧
       tx.dst = n ∧ tx.op = 0x04))

/-- R219, R229: the lathe's holder. LACQ grants it at once when it is free, the accumulator zeroed, and otherwise
waits in request order; LREL grants it to the first that waits once the queue is empty; any other lathe instruction of
a context that does not hold it fails the item with ST_STATE. R219, R229: LRD and LWR move two rows of the accumulator
once the queue of the holder is empty, and wait until then. -/
def Obligations.LatheHolder : Prop :=
  ((∀ (x : CtxId) (o : Ops) (s : State) (k : Ctx) (c : Core), coreOf s x.core = some c →
     let k0 := issuing k
     let fails := fun i : Instr => Ready i s x o k → exec i s = .next (follows x (failed x .state (BitVec.ofNat 32 k.pc) k0 s))
     (c.holder = some x.ctx → c.releasing = false →
       (Issues (.lacq x o) s x o k → exec (.lacq x o) s = .next (retire x k0 s)) ∧
       (Issues (.lrel x o) s x o k → exec (.lrel x o) s = .next (follows x (retire x k0 (modCore x.core (releaseLathe x.ctx) s))))) ∧
     (c.holder ≠ some x.ctx ∨ c.releasing = true →
       (Ready (.lacq x o) s x o k → exec (.lacq x o) s = .next (follows x (waiting x .lacq k0 (modCore x.core (askLathe x) s)))) ∧
       fails (.lrel x o) ∧ fails (.lzero x o) ∧ fails (.lpass x o) ∧ fails (.lrd x o) ∧ fails (.lwr x o) ∧ fails (.lst x o) ∧
       fails (.lld x o) ∧ fails (.lsync x o))) ∧
   (∀ (x : CtxId) (c : Core),
     (c.holder = none → c.waiters = [] →
       askLathe x c = { c with holder := some x.ctx, releasing := false, waiters := [], acc := [] }) ∧
     (∀ h, c.holder = some h → askLathe x c = { c with waiters := c.waiters ++ [x.ctx] }) ∧
     (∀ w r, c.holder = some x.ctx → c.latheQ = [] → c.waiters = w :: r → x.ctx ∉ c.waiters →
       releaseLathe x.ctx c = { c with holder := some w, releasing := false, waiters := r, acc := [] }) ∧
     (c.holder = some x.ctx → c.latheQ = [] → c.waiters = [] →
       releaseLathe x.ctx c = { c with holder := none, releasing := false }) ∧
     (c.holder = some x.ctx → c.latheQ ≠ [] → x.ctx ∉ c.waiters → releaseLathe x.ctx c = { c with releasing := true }))) ∧
  (∀ (x : CtxId) (o : Ops) (s : State) (k : Ctx) (c : Core), coreOf s x.core = some c → c.holder = some x.ctx →
     c.releasing = false → o.d % 2 = 0 → o.d < 8 → (gget k o.a).toNat % 2 = 0 → (gget k o.a).toNat ≤ 126 →
     let k0 := issuing k
     let r := (gget k o.a).toNat
     (Issues (.lrd x o) s x o k →
       (latheBusy s x = 0 →
         exec (.lrd x o) s = .next (retire x (vtWrite (o.d + 1) (accRow c (r + 1)) (vtWrite o.d (accRow c r) k0)) s)) ∧
       (latheBusy s x ≠ 0 → exec (.lrd x o) s = .next (waiting x (.lrd o) k0 s))) ∧
     (Issues (.lwr x o) s x o k →
       (latheBusy s x = 0 →
         let a := vtRead o.d k0 s
         let b := vtRead (o.d + 1) a.2.1 a.2.2
         exec (.lwr x o) s = .next (retire x b.2.1 (modCore x.core (fun y => setRow (r + 1) b.1 (setRow r a.1 y)) b.2.2))) ∧
       (latheBusy s x ≠ 0 → exec (.lwr x o) s = .next (waiting x (.lwr o) k0 s))))

/-- R189, R190, R219, R226, R229: what a lathe instruction of the holder queues. LZERO, LPASS, LLD and LST join the
queue of eight; LST takes a token; LSYNC goes on once no more than I[3:0] are queued. R191, R229, R230: the first
queued operation of the lathe completes. LZERO clears the accumulator; LPASS adds A · B to its rows; LLD loads rows
from slots; LST converts rows into slots and frees its token. A lathe that its holder has released is granted on once
the queue is empty. -/
def Obligations.LatheSteps : Prop :=
  (∀ (x : CtxId) (o : Ops) (s : State) (k : Ctx) (c : Core), coreOf s x.core = some c → c.holder = some x.ctx →
     c.releasing = false →
     let k0 := issuing k
     let i := o.i.toNat
     let fb : Byte := BitVec.ofNat 8 (i / 4096)
     let w := gget k o.c
     let pass : LatheOp := .pass (gget k o.d).toNat (gget k o.a).toNat (gget k o.b).toNat (w.toNat % 65536) (w.toNat / 65536 % 65536) (i / 32 % 128 + 1) o.f fb
     let load : LatheOp := .load (i % 128 + 1) (gget k o.b).toNat
     let store := fun e : Nat => LatheOp.store (i % 128 + 1) (gget k o.b).toNat w.toNat o.f e k.seed
     let inside := fun l : List Span => ∀ p ∈ l, p.2 = 0 ∨ p.1 + p.2 ≤ k.slotCount
     let queued := fun op : LatheOp => modCore x.core (fun y => { y with latheQ := y.latheQ ++ [{ op := op, wild := false }] }) s
     (latheBusy s x < 8 →
       (Issues (.lzero x o) s x o k → exec (.lzero x o) s = .next (retire x k0 (queued .zero))) ∧
       (Issues (.lld x o) s x o k → Clear (latheSpans load).1 [] x k s → inside (latheSpans load).1 →
         exec (.lld x o) s = .next (retire x k0 (queued load))) ∧
       (Issues (.lpass x o) s x o k → (gget k o.d).toNat % 32 = 0 → 32 ≤ (gget k o.d).toNat → (gget k o.d).toNat ≤ 32768 →
         pairOk o.f fb = true → inside (latheSpans pass).1 → Clear (latheSpans pass).1 [] x k s →
         exec (.lpass x o) s = .next (retire x k0 (modCore x.core (fun y => { y with latheQ := y.latheQ ++ [{ op := pass, wild := false }] })
           (countCore x k.item.part 0x01 (latheSteps pass c) none none s)))) ∧
       (∀ e, Issues (.lst x o) s x o k → freeEntry k = some e → fsOk o.f = true → inside (latheSpans (store e)).2 →
         Clear [] (latheSpans (store e)).2 x k s →
         exec (.lst x o) s = .next (retire x
           { tokened o e k0 with tokens := tset k.tokens e { serial := k.nextSerial + 1, op := .lathe, pc := k.pc, wild := false, sent := none, done := none } }
           (queued (store e))))) ∧
     (latheBusy s x = 8 → Issues (.lzero x o) s x o k → exec (.lzero x o) s = .next (putCtx x { k with wait := some .room } s)) ∧
     (Issues (.lsync x o) s x o k →
       (latheBusy s x ≤ i % 16 → exec (.lsync x o) s = .next (retire x k0 s)) ∧
       (i % 16 < latheBusy s x → exec (.lsync x o) s = .next (waiting x (.lsync (i % 16)) k0 s)))) ∧
  (∀ (n h : Nat) (s : State) (c : Core) (e : LatheEntry) (rest : List LatheEntry), coreOf s n = some c → c.recovering = false →
     c.holder = some h → c.latheQ = e :: rest →
     let x : CtxId := { core := n, ctx := h }
     let ends := fun (acc : Table Block) (u : State) => modCore n (fun y =>
       if rest.isEmpty && y.releasing then grantNext { y with acc := acc, latheQ := rest } else { y with acc := acc, latheQ := rest }) u
     (e.dead = true → exec (.latheOpComplete n) s = .next (wakeCore n (ends c.acc s))) ∧
     (∀ k, e.dead = false → e.wild = false → tget c.ctxs h = some k →
       let goes := fun (k1 : Ctx) (acc : Table Block) (u : State) =>
         exec (.latheOpComplete n) s = .next (wakeCore n (putCtx x k1 (ends acc u)))
       (e.op = .zero → goes k [] s) ∧
       (∀ kk a b sa sb m fa fb, e.op = .pass kk a b sa sb m fa fb →
         let ra := readOperand fa (m * kk) a sa k s
         let rb := readOperand fb (64 * kk) b sb ra.2.2.1 ra.2.2.2
         let cols := (List.range 64).map (fun j => bCol fb kk j rb.1 rb.2.1)
         let p := passRows (narrowFmt fa) (fun i => aRow fa m kk i ra.1 ra.2.1) cols (List.range m) c
         goes (raiseFlags rb.2.2.1 false (p.2.any (·.uf)) (p.2.any (·.nv))) p.1.acc rb.2.2.2) ∧
       (∀ rows slot, e.op = .load rows slot →
         let r := runLoad rows slot false k c s
         goes r.1 r.2.1.acc r.2.2) ∧
       (∀ rows slot scale f entry seed, e.op = .store rows slot scale f entry seed →
         let r := runStore rows slot scale f entry seed false k c s
         goes r.1 c.acc r.2 ∧ r.1.tokens = tdel k.tokens entry)))

/-- R199, R203, R205, R220: vector arithmetic on the lanes of pairs. Each lane is the exact result of its lanes
rounded once into the format; B is a pair or every lane from gC; VFMA adds vtD; VMIN and VMAX follow R87. Odd
registers, registers above 7 and formats other than FMT 0 to 2 fail the item with ST_OPCODE. R200, R205, R220: the
other vector instructions. VSFU applies a function of the unit to each binary32 lane; VCVT converts the lanes between
formats, narrowing into vtD alone and widening from vtA alone; VRSUM and VRMAX combine the 128 lanes in a pairwise
tree; VBCAST copies gC into every lane. -/
def Obligations.VectorResults : Prop :=
  (∀ (x : CtxId) (o : Ops),
     let f := fsFmt o.f
     let v := fun c : Nat => decodeFmt f c
     let ok := vecSpecOk o.f = true ∧ vtOk o.d = true ∧ vtOk o.a = true ∧ (o.i.getLsbD 0 = true ∨ vtOk o.b = true)
     let eff := fun (lane : Nat → Nat → Conv) (k : Ctx) (s : State) =>
       let a := pairRead o.a k s
       let b := bLanes o a.2.1 a.2.2
       let cs := List.zipWith lane (lanesOf f a.1) b.1
       (pairWrite o.d (packLanes f (cs.map (·.code))) (raiseConvs b.2.1 cs), countCore x k.item.part 0x02 1 none none b.2.2)
     (ok →
       GoesOn (.vadd x o) x o (fun _ _ => True) (eff (fun a b => laneConv (laneSpec o.f) [v a, v b, v 0] (fadd (v a) (v b)))) ∧
       GoesOn (.vsub x o) x o (fun _ _ => True) (eff (fun a b => laneConv (laneSpec o.f) [v a, v b, v 0] (fadd (v a) (fneg (v b))))) ∧
       GoesOn (.vmul x o) x o (fun _ _ => True) (eff (fun a b => laneConv (laneSpec o.f) [v a, v b, v 0] (fmul (v a) (v b)))) ∧
       GoesOn (.vmin x o) x o (fun _ _ => True) (eff (fun a b => Conv.pure (fminmax f false a b))) ∧
       GoesOn (.vmax x o) x o (fun _ _ => True) (eff (fun a b => Conv.pure (fminmax f true a b))) ∧
       GoesOn (.vfma x o) x o (fun _ _ => True) (fun k s =>
         let a := pairRead o.a k s
         let b := bLanes o a.2.1 a.2.2
         let d := pairRead o.d b.2.1 b.2.2
         let cs := (((lanesOf f a.1).zip b.1).zip (lanesOf f d.1)).map (fun p =>
           laneConv (laneSpec o.f) [v p.1.1, v p.1.2, v p.2] (fadd (fmul (v p.1.1) (v p.1.2)) (v p.2)))
         (pairWrite o.d (packLanes f (cs.map (·.code))) (raiseConvs d.2.1 cs), countCore x k.item.part 0x02 1 none none d.2.2))) ∧
     (¬ ok → FailsItem (.vadd x o) x o .opcode (fun _ _ => True) ∧ FailsItem (.vsub x o) x o .opcode (fun _ _ => True) ∧
       FailsItem (.vmul x o) x o .opcode (fun _ _ => True) ∧ FailsItem (.vfma x o) x o .opcode (fun _ _ => True) ∧
       FailsItem (.vmin x o) x o .opcode (fun _ _ => True) ∧ FailsItem (.vmax x o) x o .opcode (fun _ _ => True))) ∧
  (∀ (x : CtxId) (o : Ops),
     let f := fsFmt o.f
     let fn := o.i.toNat / 16 % 16
     let g : Byte := BitVec.ofNat 8 (o.i.toNat / 4096)
     let wf := fmtBits f
     let wg := fmtBits (fsFmt g)
     (f = 0 → vecSpecOk o.f = true → fn ≤ 7 → vtOk o.d = true → vtOk o.a = true →
       GoesOn (.vsfu x o) x o (fun _ _ => True) (fun k s =>
         let a := pairRead o.a k s
         let cs := (lanesOf 0 a.1).map (fun c => sfuLane fn (BitVec.ofNat 32 c))
         (pairWrite o.d (packLanes 0 (cs.map (·.code))) (raiseConvs a.2.1 cs),
           countCore x k.item.part 0x03 (if 5 ≤ fn then 8 else 4) none none a.2.2))) ∧
     (vecSpecOk o.f = true → vecSpecOk g = true → vtOk o.d = true → vtOk o.a = true →
       GoesOn (.vcvt x o) x o (fun _ _ => True) (fun k s =>
         let n := if wf = 16 ∧ wg = 16 then 256 else 128
         let a := if wf < wg then (let r := vtRead o.a k s; (r.1.toNat, r.2.1, r.2.2)) else pairRead o.a k s
         let cs := (numberFrom 0 ((List.range n).map (fun i => decodeFmt f (a.1 / 2 ^ (wf * i) % 2 ^ wf)))).map (fun p =>
           convert g p.2 (drawFor g k.seed p.1))
         let r := packLanes (fsFmt g) (cs.map (·.code))
         (if wg < wf then vtWrite o.d (BitVec.ofNat 2048 r) (raiseConvs a.2.1 cs) else pairWrite o.d r (raiseConvs a.2.1 cs),
           countCore x k.item.part 0x02 1 none none a.2.2))) ∧
     (vtOk o.a = true →
       GoesOn (.vrsum x o) x o (fun _ _ => True) (fun k s =>
         let a := pairRead o.a k s
         let r := treeFold (fun u w => laneOp 0 (fun p q _ => fadd p q) u.toNat w.toNat 0) 7 ((lanesOf 0 a.1).map (BitVec.ofNat 32)) []
         (gset (raiseConvs a.2.1 r.2) o.d (r.1.zeroExtend 64), countCore x k.item.part 0x02 1 none none a.2.2)) ∧
       GoesOn (.vrmax x o) x o (fun _ _ => True) (fun k s =>
         let a := pairRead o.a k s
         let r := treeFold (fun u w => laneMinMax 0 true u.toNat w.toNat) 7 ((lanesOf 0 a.1).map (BitVec.ofNat 32)) []
         (gset (raiseConvs a.2.1 r.2) o.d (r.1.zeroExtend 64), countCore x k.item.part 0x02 1 none none a.2.2))) ∧
     (vecSpecOk o.f = true → vtOk o.d = true →
       GoesOn (.vbcast x o) x o (fun _ _ => True) (fun k s =>
         (pairWrite o.d (packLanes f (List.replicate (2 * fmtPerTile f) ((gget k o.c).toNat % 2 ^ fmtBits f))) k,
           countCore x k.item.part 0x02 1 none none s))))

/-! ## Transactions at the home (chapters 2 to 5) -/

/-- R39: the checks of an arriving request in order, here of an RD_TILE. The first that fails decides the status, and
the request has no other effect than its answer. -/
def Obligations.AdmissionChecks : Prop :=
  ∀ (port : Nat) (tx0 : Tx) (s : State),
    let tx := arriving s port 0x01 false tx0
    let a := taken port tx s
    let p := canonPort s port
    let slot := oSlot tx.offset
    let ends := fun st : St => exec (.rdTile port tx0) s = .next (settle (answer tx st a))
    Arrives s port tx → fenceHeld a tx.src s.home.nextId = false →
    (s.boot.fenced = true ∨ tx.src ∈ s.boot.expelled → ends .fenced) ∧
    (s.boot.fenced = false → tx.src ∉ s.boot.expelled →
      (tx.mapEpoch ≠ s.ext.mapEpoch → s.ext.older ≠ some tx.mapEpoch → ends .mapStale) ∧
      (tx.mapEpoch = s.ext.mapEpoch ∨ s.ext.older = some tx.mapEpoch →
        (bindPart s p tx = none → ends .noAccess) ∧
        (∀ q, bindPart s p tx = some q →
          (extOf s slot = none → ends .noAccess) ∧
          (∀ e, extOf s slot = some e → e.state ≠ .arriving →
            (mayReach s q e.owner = false → ends .noAccess) ∧
            (mayReach s q e.owner = true →
              (4194304 < oTile tx.offset + tx.length → ends .noAccess) ∧
              (oTile tx.offset + tx.length ≤ 4194304 → domainDown s e = true → ends .domainReset) ∧
              (oTile tx.offset + tx.length ≤ 4194304 → domainDown s e = false → e.state ≠ .migrating →
                (holderOf e tx.src = none → ends .noAccess) ∧
                (∀ h, holderOf e tx.src = some h → h.hstate = .forced ∨ e.state = .draining → ends .revoked)))))))

/-- R30, R68, R71, R129: RD_TILE at tiles that no agent owns answers their content in order, or the status of the
first that cannot be read; a tile that an agent owns in M or O is first recalled with RECALL_SHARE, and the read
waits. -/
def Obligations.ReadTile : Prop :=
  ∀ (port : Nat) (tx0 : Tx) (s : State) (q : Nat) (e : Extent),
    let tx := arriving s port 0x01 false tx0
    let a := taken port tx s
    let slot := oSlot tx.offset
    let v := touched tx a
    Arrives s port tx → Admits s.home.nextId (canonPort s port) tx a q e → TilesFree tx a →
    checkRead q e tx.src tx.version.toNat = .ok →
    ((∀ t ∈ tilesOf tx, ∀ d, dirOf v slot t = some d → d.state ≠ .m ∧ d.state ≠ .o) →
      (∀ ts b, readTiles slot tx.version.toNat e [] (tilesOf tx) v = (.ok ts, b) →
        exec (.rdTile port tx0) s = .next (settle (answerTiles tx ts b))) ∧
      (∀ st b, readTiles slot tx.version.toNat e [] (tilesOf tx) v = (.error st, b) →
        exec (.rdTile port tx0) s = .next (settle (answer tx st b)))) ∧
    (∀ t d n, tilesOf tx = [t] → dirOf v slot t = some d → d.state = .m ∨ d.state = .o → nodeOfAgent e d.owner = some n →
      n ∉ s.boot.expelled →
      ∃ u, exec (.rdTile port tx0) s = .next (settle u) ∧ u.dir = v.dir ∧ u.pool = a.pool ∧ u.home.parked = a.home.parked ∧
        (∃ y, u.home.busy = a.home.busy ++ [y] ∧ y.slot = slot ∧ y.tile = t ∧ y.why = .request s.home.nextId (canonPort s port) tx ∧
          y.recalls = [{ node := n, agent := d.owner, tag := a.home.nextTag, inv := false }] ∧ y.data = none) ∧
        ∃ m, u.out = a.out ++ [m] ∧ m.op = 0x1B ∧ m.dst = n ∧ m.tag = a.home.nextTag ∧ m.offset = mkOffset slot t 0)

/-- R68, R71, R81, R116, R127, R133: WR_TILE and WR_PARTIAL at tiles that no agent holds. A write that is durable is
answered with ST_OK; one that must wait for space joins those that wait; one that fails is answered and leaves no tile
changed. WR_PARTIAL of a poisoned tile fails with ST_POISON. R31, R71, R81, R133: a write of the home's copy that is
done. The tile reads back as written, its poison mark is gone, its journal record is the newest, its home-cache line is
dirty; no other tile of the pool, no unit of a module and no other poison mark changes. R135, R137, R144: where the
commit of a record begins, the region of its row is marked first, and the lost mark of its tile is gone. -/
def Obligations.Writes : Prop :=
  (∀ (port : Nat) (tx0 : Tx) (s : State) (q : Nat) (e : Extent),
     (let tx := arriving s port 0x02 false tx0
      let a := taken port tx s
      let slot := oSlot tx.offset
      Arrives s port tx → Admits s.home.nextId (canonPort s port) tx a q e → TilesFree tx a →
      let v := touched tx a
      let w := writeTiles slot v.pool.nextRec (fullTiles v e (tilesOf tx)) ((tilesOf tx).zip tx.tiles) v
      checkWrite a q e tx.version.toNat = .ok → (∀ t ∈ tilesOf tx, writeRecalls e (dirOf v slot t) = []) →
      (∀ b, w = .done b → exec (.wrTile port tx0) s = .next (settle (answer tx .ok b))) ∧
      (∀ y b, w = .wait y b →
        exec (.wrTile port tx0) s = .next (settle (park s.home.nextId (canonPort s port) tx y (undoWrite v b)))) ∧
      (∀ st b, w = .fail st b → exec (.wrTile port tx0) s = .next (settle (answer tx st (undoWrite v b))))) ∧
     (let tx := arriving s port 0x03 false tx0
      let a := taken port tx s
      let slot := oSlot tx.offset
      let f := fun old : Block => mergeMask old (tx.tiles.headD zeroTile).data (BitVec.ofNat 256 tx.trailer.val)
      Arrives s port tx → Admits s.home.nextId (canonPort s port) tx a q e → TilesFree tx a →
      let v := touched tx a
      let w := doChange slot (oTile tx.offset) tx.version.toNat [] f v
      checkWrite a q e tx.version.toNat = .ok →
      (poisoned v slot (oTile tx.offset) = true → exec (.wrPartial port tx0) s = .next (settle (answer tx .poison v))) ∧
      (poisoned v slot (oTile tx.offset) = false → (∀ t ∈ tilesOf tx, writeRecalls e (dirOf v slot t) = []) →
        (∀ b, w.2 = .done b → exec (.wrPartial port tx0) s = .next (settle (answer tx .ok b))) ∧
        (∀ y b, w.2 = .wait y b →
          exec (.wrPartial port tx0) s = .next (settle (park s.home.nextId (canonPort s port) tx y b))) ∧
        (∀ st b, w.2 = .fail st b → exec (.wrPartial port tx0) s = .next (settle (answer tx st b)))))) ∧
  (∀ (h : WHow) (slot tile : Nat) (e : Extent) (t : Tile) (s u : State) (g : Group), backingWrite h slot tile e t s = .done u →
     tileOk t = true → extOf s slot = some e → groupOf s e.group = some g → g.lost = 0 → g.pass = none →
     let row := dIndex e.base tile / g.k
     tget u.pool.cache (tkey slot tile) = some { tile := t, dirty := true } ∧
     (∀ e', extOf u slot = some e' → (storedTile slot tile e' u).1 = .ok t) ∧
     (∃ r, u.pool.journal = s.pool.journal ++ [r] ∧ r.tile = t ∧ r.key = tkey slot tile ∧ r.part = e.owner ∧
       r.group = e.group ∧ r.row = row ∧ r.col = dIndex e.base tile % g.k ∧ r.started = false) ∧
     poisoned u slot tile = false ∧
     (∀ key, key ≠ tkey slot tile → tget u.pool.cache key = tget s.pool.cache key ∧ tget u.dir.poison key = tget s.dir.poison key) ∧
     u.pool.units = s.pool.units ∧ u.dir.entries = s.dir.entries ∧ u.dir.log = s.dir.log ∧
     (∀ sl, sl ≠ slot → extOf u sl = extOf s sl)) ∧
  (∀ (r : JRec) (s : State) (g : Group), groupOf s r.group = some g → g.lost = 0 → r ∈ s.pool.journal →
     thas (startRec r s).pool.intent (regionKey r.group r.row) = true ∧
     thas (startRec r s).pool.loss (lossKey r.group (r.row * g.k + r.col)) = false ∧
     (startRec r s).pool.units = s.pool.units ∧ (startRec r s).pool.cache = s.pool.cache)

/-- R86, R93: an ATOMIC as it arrives, once the acknowledgement that it may carry has been processed (R91). A
reserved AOP, or a SIZE that R85 does not allow for the operation, completes with ST_OPCODE and changes nothing, the
ledger's entries among it, whatever its map epoch (where that check stands among those of R39 is the model's choice,
log entry 157). One that matches no entry while its source holds 1,024 live entries completes with ST_STATE, changes
nothing and creates no entry. Else it waits for room in the ledger, behind those that came before it (R95), or takes
an entry: at a poisoned tile it ends with ST_POISON (R71), else it is applied once to its operand, which lies at BYTE
rounded down to its size and so within the tile, and the entry is DONE with the old value of a FETCH form. One that
matches a DONE entry is answered from it; one that matches a PENDING entry waits; a retry that may have been applied
before is answered with ST_OUTCOME_UNKNOWN (R99). -/
def Obligations.AtomicApplies : Prop :=
  (∀ (port : Nat) (tx0 : Tx) (s : State),
    let tx := arriving s port 0x04 false tx0
    let v := tx.trailer.val
    let k := atomSource tx
    let a := if abAckValid v then processAck k (abAck v) (taken port tx s) else taken port tx s
    let n := sizeBytes (abSize v)
    let off := oByte tx.offset / n * n
    let f := fun old : Block => setBytes old off n (aopApply (abAop v) n (bytesAt old off n) (abOperand v) (abCompare v))
    let base := abAop v % 32
    let formed := ((1 ≤ abAop v ∧ abAop v ≤ 13) ∨ (33 ≤ abAop v ∧ abAop v ≤ 43)) ∧
      (if base = 2 ∨ base = 5 ∨ base = 8 then n = 4 else if base = 12 ∨ base = 13 then n = 4 ∨ n = 8 ∨ n = 16 else n = 4 ∨ n = 8)
    let unknown := abRetry v = 2 ∨ (abRetry v = 1 ∧ historyLost a (oSlot tx.offset) k = true)
    let place := ledgerTake tx (oSlot tx.offset)
    Arrives s port tx → fenceHeld (taken port tx s) tx.src s.home.nextId = false → check1 tx s = none →
    (¬ formed → exec (.atomic port tx0) s = .next (settle (answerAtomic tx .opcode 0 a))) ∧
    (formed → epochLive a tx.mapEpoch = true →
      (∀ l, ledgerFind a k tx.tag = some l → l.done = true →
        exec (.atomic port tx0) s = .next (settle (answerAtomic tx l.status l.result a))) ∧
      (∀ l, ledgerFind a k tx.tag = some l → l.done = false →
        exec (.atomic port tx0) s = .next (settle (park s.home.nextId (canonPort s port) tx (.pending k.1 k.2 tx.tag) a))) ∧
      (ledgerFind a k tx.tag = none → needLedgerPull a (oSlot tx.offset) k = none → unknown →
        exec (.atomic port tx0) s = .next (settle (answerAtomic tx .outcomeUnknown 0 a))) ∧
      (∀ q e, ledgerFind a k tx.tag = none → needLedgerPull a (oSlot tx.offset) k = none → ¬ unknown →
        Admits s.home.nextId (canonPort s port) tx a q e → checkWrite a q e tx.version.toNat = .ok →
        (1024 ≤ ledgerCount a k → exec (.atomic port tx0) s = .next (settle (answerAtomic tx .state 0 a))) ∧
        (ledgerCount a k < 1024 → ledgerFull a e.owner = true ∨ aheadOf a e.owner s.home.nextId = true →
          exec (.atomic port tx0) s = .next (settle (park s.home.nextId (canonPort s port) tx (.ledger e.owner) a))) ∧
        (ledgerCount a k < 1024 → ledgerFull a e.owner = false → aheadOf a e.owner s.home.nextId = false → TilesFree tx a →
          let y := touched tx (place e.owner a)
          (poisoned y (oSlot tx.offset) (oTile tx.offset) = true →
            exec (.atomic port tx0) s = .next (settle (endAtomic tx .poison 0 y))) ∧
          (poisoned y (oSlot tx.offset) (oTile tx.offset) = false →
            (∀ t ∈ tilesOf tx, writeRecalls e (dirOf y (oSlot tx.offset) t) = []) →
            ∀ old b, doChange (oSlot tx.offset) (oTile tx.offset) tx.version.toNat [] f y = (some old, .done b) →
            exec (.atomic port tx0) s = .next (settle (endAtomic tx .ok
              (BitVec.ofNat 128 (if aopFetch (abAop v) then bytesAt old.data off n else 0)) b)))))) ∧
    (formed → n ∣ off ∧ off ≤ oByte tx.offset ∧ oByte tx.offset < off + n ∧ off + n ≤ 256)) ∧
  (∀ (tx : Tx) (st : St) (s : State),
    let t := answerAtomic tx st 0 s
    t.ledger = s.ledger ∧ t.dir = s.dir ∧ t.pool = s.pool ∧ t.ext = s.ext ∧ t.vers = s.vers ∧ t.mgmt = s.mgmt ∧ t.queues = s.queues ∧
    ∃ r, t.out = s.out ++ [r] ∧ r.op = tx.op ∧ r.resp = true ∧ r.tag = tx.tag ∧ r.status = stCode st ∧ r.trailer = mkTrailer 16 0)

/-- R82, R91, R92, R24, R25: FENCE is answered once nothing earlier of its source is outstanding, and waits until then; from a
port that no partition holds it is refused; every other request of its source that arrives meanwhile waits for it.
ATOMIC_ACK has no answer, and frees the entries of its source that it covers. -/
def Obligations.FenceAndAck : Prop :=
  (∀ (port : Nat) (tx0 : Tx) (s : State),
    let tx := arriving s port 0x06 false tx0
    let a := taken port tx s
    Arrives s port tx → check1 tx s = none →
    (bindPart s (canonPort s port) tx = none → exec (.fence port tx0) s = .next (settle (answer tx .noAccess a))) ∧
    (bindPart s (canonPort s port) tx ≠ none →
      (outstanding a tx.src s.home.nextId = false → exec (.fence port tx0) s = .next (settle (answer tx .ok a))) ∧
      (outstanding a tx.src s.home.nextId = true →
        exec (.fence port tx0) s = .next (settle (park s.home.nextId (canonPort s port) tx (.fence tx.src) a))))) ∧
  (∀ (port : Nat) (tx0 : Tx) (s : State),
    ∀ r ∈ ([(0x01, .rdTile port tx0), (0x02, .wrTile port tx0), (0x03, .wrPartial port tx0), (0x04, .atomic port tx0),
            (0x10, .rdShared port tx0), (0x11, .rdOwn port tx0), (0x12, .upgrade port tx0), (0x14, .wbDirty port tx0),
            (0x20, .invalidate port tx0), (0x28, .snapOpen port tx0), (0x29, .snapClose port tx0), (0x2A, .publish port tx0),
            (0x30, .cmdPush port tx0), (0x31, .doorbell port tx0), (0x32, .rdWindow port tx0),
            (0x38, .contribute port tx0)] : List (Byte × Instr)),
    let tx := arriving s port r.1 false tx0
    Arrives s port tx → fenceHeld (taken port tx s) tx.src s.home.nextId = true →
    exec r.2 s = .next (settle (park s.home.nextId (canonPort s port) tx (.fence tx.src) (taken port tx s)))) ∧
  (∀ (port : Nat) (tx0 : Tx) (s : State),
    let tx := arriving s port 0x05 false tx0
    Arrives s port tx → check1 tx s = none →
    exec (.atomicAck port tx0) s = .next (settle (processAck (atomSource tx) tx.version (taken port tx s))))

/-- R60, R66, R68: RD_SHARED, RD_OWN and UPGRADE of an agent. A tile that none holds is granted E or M; sharers are
joined; the owner, or a sharer alone that upgrades, is granted M without data; a grant of M is written to the dirty-
holder log. -/
def Obligations.CachingGrants : Prop :=
  ∀ (port : Nat) (tx0 : Tx) (s : State) (q : Nat) (e e1 : Extent) (i : Nat),
    let go := fun (op : Byte) (c : Instr) (need : Bool) (hyp : State → Option DirEntry → Prop) (grants : Tx → State → State → Tile → State) =>
      let tx := arriving s port op false tx0
      let a := taken port tx s
      let b := touched tx (ensureAgent (oSlot tx.offset) tx.src a)
      Arrives s port tx → Admits s.home.nextId (canonPort s port) tx a q e → checkCache a q e tx.src need = .ok →
      Caches tx (ensureAgent (oSlot tx.offset) tx.src a) e1 i →
      hyp b (dirOf b (oSlot tx.offset) (oTile tx.offset)) →
      ∀ t u, backingRead (oSlot tx.offset) (oTile tx.offset) e1 b = (.ok t, u) →
        exec c s = .next (settle (grants tx b u t))
    let place := fun (tx : Tx) (st : DState) (sh : Sharers) (u : State) => putDir (oSlot tx.offset) (oTile tx.offset) st i sh u
    let dirty := fun (tx : Tx) (u : State) => addLog (oSlot tx.offset) (oTile tx.offset) e1 tx.src u
    go 0x10 (.rdShared port tx0) false (fun _ d => d = none)
      (fun tx _ u t => grant tx 0x19 (some t) (place tx .e (.ptrs []) u)) ∧
    (∀ d, go 0x10 (.rdShared port tx0) false (fun _ d' => d' = some d ∧ d.state = .s)
      (fun tx _ u t => grant tx 0x18 (some t) (putDir (oSlot tx.offset) (oTile tx.offset) .s 0 (addSharer i d.sharers) u))) ∧
    (∀ d, go 0x10 (.rdShared port tx0) false (fun _ d' => d' = some d ∧ d.state = .m ∧ d.owner = i)
      (fun tx b _ _ => grant tx 0x1A none (dirty tx (place tx .m (.ptrs []) b)))) ∧
    go 0x11 (.rdOwn port tx0) true (fun _ d => d = none)
      (fun tx _ u t => grant tx 0x1A (some t) (dirty tx (place tx .m (.ptrs []) u))) ∧
    (∀ d, go 0x12 (.upgrade port tx0) true (fun _ d' => d' = some d ∧ d.state = .s ∧ d.sharers = .ptrs [i])
      (fun tx b _ _ => grant tx 0x1A none (dirty tx (place tx .m (.ptrs []) b))))

/-- R62, R65, R68, R69, R485: the messages of agents. MARK_DIRTY takes the E of its owner to M with a log record;
EVICT_CLEAN removes an S or E holder; both wait while their tile is BUSY. WB_DIRTY of the owner in M or O writes the home's copy
and removes it, even while the tile is BUSY, and of another agent is discarded with ST_STATE. -/
def Obligations.AgentMessages : Prop :=
  ∀ (port : Nat) (tx0 : Tx) (s : State) (e : Extent) (d : DirEntry) (i : Nat),
    (let tx := arriving s port 0x13 false tx0
     let a := touched tx (taken port tx s)
     Arrives s port tx → check1 tx s = none → extOf s (oSlot tx.offset) = some e →
     (isBusy s (oSlot tx.offset) (oTile tx.offset) = true → exec (.markDirty port tx0) s =
       .next (settle (park s.home.nextId (canonPort s port) tx (.tile (oSlot tx.offset) (oTile tx.offset)) (taken port tx s)))) ∧
     (TilesFree tx s → dirOf a (oSlot tx.offset) (oTile tx.offset) = some d → agentOf e tx.src = some i →
     (d.state = .e → d.owner = i → exec (.markDirty port tx0) s =
       .next (settle (addLog (oSlot tx.offset) (oTile tx.offset) e tx.src (setDir (oSlot tx.offset) (oTile tx.offset) { d with state := .m } a)))) ∧
     (d.state ≠ .e ∨ d.owner ≠ i → exec (.markDirty port tx0) s = .next (settle a)))) ∧
    (let tx := arriving s port 0x15 false tx0
     let a := touched tx (taken port tx s)
     Arrives s port tx → check1 tx s = none → extOf s (oSlot tx.offset) = some e →
     (isBusy s (oSlot tx.offset) (oTile tx.offset) = true → exec (.evictClean port tx0) s =
       .next (settle (park s.home.nextId (canonPort s port) tx (.tile (oSlot tx.offset) (oTile tx.offset)) (taken port tx s)))) ∧
     (TilesFree tx s → dirOf a (oSlot tx.offset) (oTile tx.offset) = some d → agentOf e tx.src = some i →
     ((d.state = .e ∧ d.owner = i) ∨ (d.state = .s ∧ isSharer i d.sharers = true) →
       exec (.evictClean port tx0) s = .next (settle (removeAgent (oSlot tx.offset) (oTile tx.offset) i a))) ∧
     (d.state = .m → d.owner = i → exec (.evictClean port tx0) s = .next (settle a)))) ∧
    (let tx := arriving s port 0x14 false tx0
     let a := taken port tx s
     ∀ q, Arrives s port tx → Admits s.home.nextId (canonPort s port) tx a q e → checkCache a q e tx.src true = .ok →
     dirOf s (oSlot tx.offset) (oTile tx.offset) = some d → agentOf e tx.src = some i →
     let w := backingWrite {} (oSlot tx.offset) (oTile tx.offset) e (tx.tiles.headD zeroTile) a
     (d.state = .m ∨ d.state = .o → d.owner = i →
       (∀ u, w = .done u →
         exec (.wbDirty port tx0) s = .next (settle (wbAck tx .ok (removeAgent (oSlot tx.offset) (oTile tx.offset) i u)))) ∧
       (∀ st u, w = .fail st u → exec (.wbDirty port tx0) s = .next (settle (wbAck tx st u)))) ∧
     (d.owner ≠ i → TilesFree tx a → exec (.wbDirty port tx0) s = .next (settle (wbAck tx .state (touched tx a)))))

/-- R68, R69, R70: the answers to recalls. The recall that the tag names is answered: RECALL_INV removes its agent,
and RECALL_SHARE with data takes M to O and without data takes E to S; an answer that names no recall is discarded; a
recall that times out removes an E or S holder and poisons the tile of an M or O holder. -/
def Obligations.RecallAnswers : Prop :=
  (∀ (port : Nat) (tx0 : Tx) (s : State) (b : Busy) (r : Recall),
    let at_ := fun (op : Byte) (c : Instr) (data : Tx → Option Tile) =>
      let tx := arriving s port op false tx0
      let a := taken port tx s
      Arrives s port tx →
      (busyOf s (oSlot tx.offset) (oTile tx.offset) = none → exec c s = .next (settle a)) ∧
      (busyOf s (oSlot tx.offset) (oTile tx.offset) = some b →
        b.recalls.find? (fun y => y.tag == tx.tag && y.node == tx.src) = some r →
        exec c s = .next (settle (tryFinish (oSlot tx.offset) (oTile tx.offset)
          (recallAnswered (oSlot tx.offset) (oTile tx.offset) r (data tx) a))))
    at_ 0x16 (.recallAck port tx0) (fun _ => none) ∧ at_ 0x17 (.recallData port tx0) (fun tx => tx.tiles.head?)) ∧
  (∀ (slot tile : Nat) (s : State) (b : Busy), busyOf s slot tile = some b →
    exec (.recallTimeout slot tile) s = .next (settle (tryFinish slot tile
      (b.recalls.foldl (fun t r => recallExpired slot tile r t) s)))) ∧
  (∀ (slot tile i : Nat) (s : State) (d : DirEntry), dirOf s slot tile = some d → d.owner = i →
    (d.state = .e → dirOf (answerEntry slot tile i false false s) slot tile = some { d with state := .s, owner := 0, sharers := .ptrs [i] }) ∧
    (d.state = .m → dirOf (answerEntry slot tile i false true s) slot tile = some { d with state := .o, sharers := .ptrs [] }) ∧
    (d.state = .e ∨ d.state = .m → ∀ w, dirOf (answerEntry slot tile i true w s) slot tile = none) ∧
    (d.state = .m ∨ d.state = .o → poisoned (timeoutEntry slot tile i s) slot tile = true) ∧
    (d.state = .e → poisoned (timeoutEntry slot tile i s) slot tile = poisoned s slot tile ∧
      dirOf (timeoutEntry slot tile i s) slot tile = none))

/-! ## Versions, invalidation and rehoming messages (chapters 2 to 5) -/

/-- R107, R110, R113: SNAP_OPEN and SNAP_CLOSE. A writer's open takes the next version into a free layer record, or
answers the layer already open; a reader's pins the record of a sealed live version; the closes undo them. What the
rules do not allow is answered with ST_STATE. R107, R108: PUBLISH by the lease holder of its open layer, which no
other publication has, is noted at the extent and answered when the layer is sealed; any other is answered with
ST_STATE. The seal step waits for the layer to drain; it then seals the layer under the next event sequence and makes
it the latest. -/
def Obligations.VersionMessages : Prop :=
  (∀ (port : Nat) (tx0 : Tx) (q : Nat) (e : Extent),
     let ok := fun (s : State) (tx : Tx) (a : State) => Admits s.home.nextId (canonPort s port) tx a q e ∧ e.mode = .versioned
     let opens := Serves (.snapOpen port tx0) 0x28 false port tx0
     let closes := Serves (.snapClose port tx0) 0x29 false port tx0
     let writer := fun tx : Tx => tx.qual.getLsbD 0 = true
     let v := e.latest + 1
     let layer : Layer := { version := v, sealEvent := 0, tilesWritten := 0, state := .opened, writer := q }
     opens (fun s tx a => ok s tx a ∧ writer tx ∧ leaseHolder e q = true ∧ e.openV = 0 ∧ liveCount e < 8 ∧ e.latest < 0xFFFFFFFF)
       (fun tx a => answerVersion tx .ok (BitVec.ofNat 32 v)
         (setExt (oSlot tx.offset) (noted a { e with openV := v, layers := addLayer layer e.layers }) a)) ∧
     opens (fun s tx a => ok s tx a ∧ writer tx ∧ leaseHolder e q = true ∧ e.openV ≠ 0 ∧ layerOpen e = true)
       (fun tx a => answerVersion tx .ok (BitVec.ofNat 32 e.openV) a) ∧
     opens (fun s tx a => ok s tx a ∧ writer tx ∧ leaseHolder e q = false) (fun tx a => answer tx .state a) ∧
     opens (fun s tx a => ok s tx a ∧ writer tx ∧ e.openV = 0 ∧ (8 ≤ liveCount e ∨ 0xFFFFFFFF ≤ e.latest))
       (fun tx a => answer tx .state a) ∧
     (∀ w i, opens (fun s tx a => ok s tx a ∧ ¬ writer tx ∧ w = (if tx.version = 0 then e.latest else tx.version.toNat) ∧
         sealedLive e w = true ∧ layerIdx e w = some i)
       (fun tx a => answerVersion tx .ok (BitVec.ofNat 32 w) (setPin (oSlot tx.offset) tx.src i true a))) ∧
     opens (fun s tx a => ok s tx a ∧ ¬ writer tx ∧ sealedLive e (if tx.version = 0 then e.latest else tx.version.toNat) = false)
       (fun tx a => answer tx .state a) ∧
     closes (fun s tx a => ok s tx a ∧ writer tx ∧ leaseHolder e q = true ∧ tx.version.toNat = e.openV ∧ e.openV ≠ 0 ∧
         layerOpen e = true ∧ e.publishing = none)
       (fun tx a => answerVersion tx .ok tx.version (startDiscard (oSlot tx.offset) a)) ∧
     (∀ h i, closes (fun s tx a => ok s tx a ∧ ¬ writer tx ∧ holderOf e tx.src = some h ∧ layerIdx e tx.version.toNat = some i ∧
         pinsV e h tx.version.toNat = true ∧ sealedLive e tx.version.toNat = true)
       (fun tx a => answerVersion tx .ok tx.version (dropDead (oSlot tx.offset) (setPin (oSlot tx.offset) tx.src i false a)))) ∧
     closes (fun s tx a => ok s tx a ∧ writer tx ∧ (leaseHolder e q = false ∨ tx.version.toNat ≠ e.openV ∨ layerOpen e = false))
       (fun tx a => answer tx .state a)) ∧
  ((∀ (port : Nat) (tx0 : Tx) (q : Nat) (e : Extent),
     let ok := fun (s : State) (tx : Tx) (a : State) => Admits s.home.nextId (canonPort s port) tx a q e ∧ e.mode = .versioned
     Serves (.publish port tx0) 0x2A false port tx0
       (fun s tx a => ok s tx a ∧ leaseHolder e q = true ∧ tx.version.toNat = e.openV ∧ e.openV ≠ 0 ∧ layerOpen e = true ∧
         e.publishing = none)
       (fun tx a => setExt (oSlot tx.offset) { e with publishing := some (.host (canonPort a port) tx) } a) ∧
     Serves (.publish port tx0) 0x2A false port tx0
       (fun s tx a => ok s tx a ∧ (leaseHolder e q = false ∨ tx.version.toNat ≠ e.openV ∨ layerOpen e = false ∨ e.publishing ≠ none))
       (fun tx a => answer tx .state a)) ∧
   (∀ (slot : Nat) (s : State) (e : Extent) (port : Nat) (tx : Tx), extOf s slot = some e → e.publishing = some (.host port tx) →
     (drained s slot e = false → exec (.publishSeal slot) s = .next (settle s)) ∧
     (drained s slot e = true → exec (.publishSeal slot) s = .next (settle (sealStep slot e s)))) ∧
   (∀ (slot : Nat) (s : State) (e : Extent), extOf s slot = some e → e.openV ≠ 0 → s.home.parked = [] → e.publishing = none →
     e.holders = [] →
     ∃ f, extOf (sealStep slot e s) slot = some f ∧ f.latest = e.openV ∧ f.openV = 0 ∧ f.publishing = none ∧
       ∀ (i : Nat) (l : Layer), e.layers[i]? = some l → l.version = e.openV → l.state ≠ .free →
         f.layers[i]? = some { l with state := .sealed, sealEvent := s.mgmt.eventSeq }))

/-- R58, R76, R77, R78: INVALIDATE of the owning partition in a SHARED_READ extent goes to every holder but its writer, once the
stores before it on its flow have taken effect; one in another mode, or of another partition, is refused; one that comes down the
geyser goes on to the holders that it names. An answer of a holder that is waited for counts it, that of a switch the holders
below it, and the last one ends the INVALIDATE; the recall timeout ends it with those that have answered. -/
def Obligations.InvalidateMessages : Prop :=
  (∀ (port : Nat) (tx0 : Tx) (q : Nat) (e : Extent),
    let row := Serves (.invalidate port tx0) 0x20 false port tx0
    let ok := fun (s : State) (tx : Tx) (a : State) => Admits s.home.nextId (canonPort s port) tx a q e
    row (fun s tx a => ok s tx a ∧ tx.cls ≠ 4 ∧ e.mode = .sharedRead ∧ q = e.owner ∧ storesBefore a tx.src tx.cls s.home.nextId = true)
      (fun tx a => park (a.home.nextId - 1) (canonPort a port) tx (.stores tx.src tx.cls) a) ∧
    row (fun s tx _ => tx.cls = 4 ∧ check1 tx s = none) (fun tx a => startInval {
      id := 0, slot := oSlot tx.offset, tile := oTile tx.offset, count := tx.length, whole := tx.qual.getLsbD 0,
      writer := none, force := none, waiting := tx.targets, answered := 0, up := some tx } a) ∧
    row (fun s tx a => ok s tx a ∧ tx.cls ≠ 4 ∧ e.mode = .sharedRead ∧ q = e.owner ∧ storesBefore a tx.src tx.cls s.home.nextId = false)
      (fun tx a => startInval {
        id := 0, slot := oSlot tx.offset, tile := oTile tx.offset, count := tx.length, whole := tx.qual.getLsbD 0,
        writer := some (canonPort a port, tx), force := none, waiting := (e.holders.map (·.node)).filter (· ≠ tx.src),
        answered := 0 } a) ∧
    row (fun s tx a => ok s tx a ∧ tx.cls ≠ 4 ∧ e.mode ≠ .sharedRead) (fun tx a => answer tx .state a) ∧
    row (fun s tx a => ok s tx a ∧ tx.cls ≠ 4 ∧ e.mode = .sharedRead ∧ q ≠ e.owner) (fun tx a => answer tx .noAccess a)) ∧
  (∀ (port : Nat) (tx0 : Tx) (i : Inval),
    let row := Serves (.invalidateResponse port tx0) 0x20 true port tx0
    let here := fun (s : State) (tx : Tx) => s.ext.invals.find? (fun y => BitVec.ofNat 16 y.id == tx.tag) = some i
    let next := fun (tx : Tx) (a : State) => invalAnswered tx.src tx.version.toNat i a
    let put := fun (tx : Tx) (a : State) =>
      let b := (next tx a).2
      { b with ext := { b.ext with invals := b.ext.invals.map (fun y => if y.id = i.id then (next tx a).1 else y) } }
    row (fun s tx a => here s tx ∧ (next tx a).1.waiting ≠ []) put ∧
    row (fun s tx a => here s tx ∧ (next tx a).1.waiting = []) (fun tx a => endInval (next tx a).1 (put tx a)) ∧
    (∀ (n : Node) (count : Nat) (s : State), i.branches.find? (fun b => b.1 == n) = none → n ∈ i.waiting →
      invalAnswered n count i s = ({ i with waiting := i.waiting.filter (· ≠ n), answered := i.answered + 1 }, s)) ∧
    (∀ (n : Node) (count : Nat) (s : State) (b : Node × List Node), i.branches.find? (fun b => b.1 == n) = some b →
      let below := i.waiting.filter b.2.contains
      (invalAnswered n count i s).1.answered = i.answered + min count below.length ∧
      (below.length ≤ count → (invalAnswered n count i s).1.waiting = i.waiting.filter (fun x => !below.contains x) ∧
        (invalAnswered n count i s).2 = s)) ∧
    row (fun s tx _ => s.ext.invals.find? (fun y => BitVec.ofNat 16 y.id == tx.tag) = none) (fun _ a => a)) ∧
  (∀ (s : State) (i : Inval), s.ext.invals.find? (fun y => y.id == i.id) = some i →
    exec (.invalidateTimeout i.id) s = .next (settle (endInval i s))) ∧
  (∀ (s : State) (i : Inval) (p : Nat) (tx : Tx), i.writer = some (p, tx) → i.up = none → i.waiting = [] →
    endInval i s = answerVersion tx .ok (BitVec.ofNat 32 i.answered)
      { s with ext := { s.ext with invals := s.ext.invals.filter (fun y => y.id ≠ i.id) } })

/-- R54, R55, R332: the messages of rehoming. PULL_STATE at the old home answers the extent once no publication drains, a
source's completed ledger entries once none is PENDING, or a tile that it hands over, the same again where it has handed it over
before; its response is taken at the new home, and one that brings nothing lets the tile be asked for again; YIELD moves the
extent of the lower home epoch to MIGRATING and returns that of the higher to ACTIVE. When publications and PENDING atomics
hold a pull back, and that a repeated one has the same answer, is the model's choice (log entries 158 and 169). -/
def Obligations.RehomingMessages : Prop :=
  (∀ (port : Nat) (tx0 : Tx) (e : Extent),
    let row := Serves (.pullState port tx0) 0x48 false port tx0
    let at_ := fun (s : State) (tx : Tx) => extOf s (oSlot tx.offset) = some e ∧ e.state = .migrating
    let ans := fun (tx : Tx) (b : PullBody) (a : State) => send { answerTx a tx .ok with qual := tx.qual, body := some b } a
    row (fun s tx _ => extOf s (oSlot tx.offset) = none) (fun tx a => answer tx .noAccess a) ∧
    row (fun s tx _ => extOf s (oSlot tx.offset) = some e ∧ e.state ≠ .migrating) (fun tx a => answer tx .state a) ∧
    let src := fun tx : Tx => (BitVec.ofNat 16 (tx.trailer.val / 32), tx.trailer.val % 32)
    let tileAsked := fun (s : State) (tx : Tx) => at_ s tx ∧ tx.qual.getLsbD 0 = false ∧ tx.qual.getLsbD 1 = false
    let was := fun (s : State) (tx : Tx) => tget s.ext.handed (tkey (oSlot tx.offset) (oTile tx.offset))
    row (fun s tx _ => at_ s tx ∧ tx.qual.getLsbD 0 = true ∧ e.publishing = none)
      (fun tx a => ans tx { ext := some (pullExt e a), tiles := [], ledger := [] } a) ∧
    row (fun s tx a => at_ s tx ∧ tx.qual.getLsbD 0 = false ∧ tx.qual.getLsbD 1 = true ∧ pendingOf a (src tx) = false)
      (fun tx a => send { answerTx a tx .ok with
        qual := tx.qual, trailer := tx.trailer, body := some { ext := none, tiles := [], ledger := pullEntries a (src tx) } } a) ∧
    (∀ p, row (fun s tx _ => tileAsked s tx ∧ was s tx = some p) (fun tx a => ans tx { ext := none, tiles := [p], ledger := [] } a)) ∧
    row (fun s tx _ => tileAsked s tx ∧ was s tx = none ∧
        isBusy s (oSlot tx.offset) (oTile tx.offset) = false ∧ hasWaiters s (oSlot tx.offset) (oTile tx.offset) = false)
      (fun tx a =>
        let p := pullTile (oSlot tx.offset) (oTile tx.offset) e (tx.qual.getLsbD 2) a
        let b : State := { p.2 with ext := { p.2.ext with handed := tset p.2.ext.handed (tkey (oSlot tx.offset) (oTile tx.offset)) p.1 } }
        send { answerTx b tx .ok with qual := tx.qual, body := some { ext := none, tiles := [p.1], ledger := [] } }
          (delLog (oSlot tx.offset) (oTile tx.offset) (delDir (oSlot tx.offset) (oTile tx.offset) b)))) ∧
  (∀ (port : Nat) (tx0 : Tx) (slot : Nat),
    let row := Serves (.pullStateResponse port tx0) 0x48 true port tx0
    let here := fun (s : State) (tx : Tx) => arrivingSlot s tx.src (oSlot tx.offset) = some slot ∧ tx.qual.getLsbD 1 = false
    (∀ p, row (fun s tx a => here s tx ∧ tx.body = some { ext := none, tiles := [p], ledger := [] } ∧
        ∀ w ∈ (takeTile slot p a).home.parked, ∀ sl t, w.why ≠ .pull sl t)
      (fun _ a => rehomeCheck slot (takeTile slot p a))) ∧
    (∀ p, row (fun s tx a => here s tx ∧ tx.body = some { ext := some p, tiles := [], ledger := [] } ∧
        ∀ w ∈ a.home.parked, ∀ sl t, w.why ≠ .pull sl t)
      (fun _ a => rehomeCheck slot (takeExt slot p a))) ∧
    row (fun s tx a => here s tx ∧ tx.body = none ∧ ∀ w ∈ a.home.parked, ∀ sl t, w.why ≠ .pull sl t)
      (fun tx a => { a with ext := { a.ext with asked := tdel a.ext.asked (tkey slot (oTile tx.offset)) } }) ∧
    row (fun s tx _ => arrivingSlot s tx.src (oSlot tx.offset) = none) (fun _ a => a)) ∧
  (∀ (port : Nat) (tx0 : Tx) (e : Extent),
    let row := Serves (.yieldMsg port tx0) 0x49 false port tx0
    let here := fun (s : State) (tx : Tx) => extOf s (oSlot tx.offset) = some e
    row (fun s tx _ => here s tx ∧ e.homeEpoch.toNat < tx.version.toNat ∧ (e.state = .active ∨ e.state = .migrating ∨ e.state = .arriving))
      (fun tx a => setExt (oSlot tx.offset) (noted a { e with state := .migrating, fwdNode := tx.src }) a) ∧
    row (fun s tx _ => here s tx ∧ tx.version.toNat < e.homeEpoch.toNat ∧ e.state = .migrating)
      (fun tx a => setExt (oSlot tx.offset) (noted a { e with state := .active }) a) ∧
    row (fun s tx _ => here s tx ∧ tx.version.toNat = e.homeEpoch.toNat) (fun _ a => a))

/-! ## Queue windows (chapter 7) -/

/-- R151, R153, R155, R156, R157, R171: CMD_PUSH places its descriptors in slots from WTILE and BYTE on, wrapping at
D; DOORBELL applies TAIL and CQ_HEAD, and RESUME leaves HALTED, or RESET once the partition is ACTIVE; RD_WINDOW reads
the rings and the status tile. A window of another submitter is refused. -/
def Obligations.QueueWindows : Prop :=
  ∀ (port : Nat) (tx0 : Tx) (q : Queue),
    let push := Serves (.cmdPush port tx0) 0x30 false port tx0
    let bell := Serves (.doorbell port tx0) 0x31 false port tx0
    let read := Serves (.rdWindow port tx0) 0x32 false port tx0
    let ok := fun (tx : Tx) (a : State) => check1 tx a = none ∧ windowQueue (canonPort a port) tx a = some q
    let away := fun (tx : Tx) (a : State) => check1 tx a = none ∧ windowQueue (canonPort a port) tx a = none
    let no := fun (tx : Tx) (a : State) => answer tx .noAccess a
    let tail := fun tx : Tx => BitVec.ofNat 32 (fld (tx.tiles.headD zeroTile).data 127 96)
    let cq := fun tx : Tx => BitVec.ofNat 32 (fld (tx.tiles.headD zeroTile).data 95 64)
    let bellOk := fun (tx : Tx) (a : State) => ok tx a ∧ wRegion tx.offset = 2 ∧ wTile tx.offset = 0
    let resumes := fun (tx : Tx) (a : State) => ((tx.tiles.headD zeroTile).data.getLsbD 63 : Bool) = true ∧
      (q.state = .halted ∨ (q.state = .reset ∧ partState a q.part = .active))
    let rung := fun (st : QState → QState) (tx : Tx) (a : State) => answer tx .ok (modQueue (wQueue tx.offset) (fun x => { x with
      tail := tail tx, cqHead := cq tx, state := st x.state }) a)
    (∀ s, let tx := arriving s port 0x30 false tx0
      let a := taken port tx s
      let n := tx.version.toNat % 128
      let slotOf := fun i => (wTile tx.offset * 4 + wByte tx.offset / 64 + i) % depthOf q
      Arrives s port tx → fenceHeld a tx.src s.home.nextId = false →
      ok tx a → wRegion tx.offset = 0 → wTile tx.offset < depthOf q / 4 → n ≤ depthOf q →
      ∃ ring unread, exec (.cmdPush port tx0) s = .next (settle (answer tx .ok
          (modQueue (wQueue tx.offset) (fun x => { x with ring := ring, unread := unread }) { a with free := a.free + n }))) ∧
        (∀ i, i < n → wByte tx.offset % 64 = 0 → thas q.unread (slotOf i) = false → tgetD ring (slotOf i) 0 = BitVec.ofNat 512 (tx.trailer.val >>> (512 * i))) ∧
        (∀ i, i < n → thas unread (slotOf i) = true) ∧
        (∀ k, (∀ i, i < n → k ≠ slotOf i) → tgetD ring k 0 = tgetD q.ring k 0 ∧ tget unread k = tget q.unread k)) ∧
    push (fun _ tx a => ok tx a ∧ (wRegion tx.offset ≠ 0 ∨ depthOf q / 4 ≤ wTile tx.offset)) no ∧
    push (fun _ tx a => away tx a) no ∧
    bell (fun _ tx a => bellOk tx a ∧ doorbellBad q (tail tx) (cq tx) = false ∧ resumes tx a) (rung (fun _ => .active)) ∧
    bell (fun _ tx a => bellOk tx a ∧ doorbellBad q (tail tx) (cq tx) = false ∧ ¬ resumes tx a) (rung id) ∧
    bell (fun _ tx a => bellOk tx a ∧ doorbellBad q (tail tx) (cq tx) = true) (fun tx a => answer tx .state a) ∧
    bell (fun _ tx a => away tx a) no ∧
    read (fun _ tx a => ok tx a ∧ wRegion tx.offset = 0 ∧ wTile tx.offset < depthOf q / 4 ∧ tx.length ≤ depthOf q / 4)
      (fun tx a => answerTiles tx ((List.range tx.length).map (fun i => mkTile (ringTile q ((wTile tx.offset + i) % (depthOf q / 4))))) a) ∧
    read (fun _ tx a => ok tx a ∧ wRegion tx.offset = 1 ∧ wTile tx.offset < depthOf q / 8 ∧ tx.length ≤ depthOf q / 8)
      (fun tx a => answerTiles tx ((List.range tx.length).map (fun i => mkTile (cqTile q ((wTile tx.offset + i) % (depthOf q / 8))))) a) ∧
    read (fun _ tx a => ok tx a ∧ wRegion tx.offset = 2 ∧ wTile tx.offset = 0 ∧ tx.length = 1)
      (fun tx a => answerTiles tx [mkTile (statusTile q)] a) ∧
    read (fun _ tx a => away tx a) no

/-! ## Collectives (chapter 10) and pool modules (chapter 6) -/

/-- R253, R254, R260, R261, R265: CONTRIBUTE that passes its checks is held for its chunk, and one that fails them is
answered with their status; the parent's refusal of a partial aborts the generation with REASON 4; a result of the
parent goes to the children; ST_OK of the parent ends the generation and ST_ABORTED of a neighbour aborts it. -/
def Obligations.CollectiveMessages : Prop :=
  ∀ (port : Nat) (tx0 : Tx) (c : CollExt) (g : CGroup),
    let has := fun (s : State) (tx : Tx) => tx.coll = some c ∧ cgOf s c.collId = some g
    let parent := fun tx : Tx => g.e.role = 1 ∧ g.e.parentNode = tx.src ∧ c.generation = g.e.generation
    let child := fun tx : Tx => c.generation = g.e.generation ∧
      ((g.e.role = 1 ∧ g.e.parentNode = tx.src) ∨ g.children.any (fun k => k.type == 1 && k.node == tx.src) = true)
    (∀ st, Serves (.contribute port tx0) 0x38 false port tx0
      (fun _ tx a => tx.coll = some c ∧ contributeCheck (canonPort a port) tx c a = .error st) (fun tx a => answer tx st a)) ∧
    (∀ i, Serves (.contribute port tx0) 0x38 false port tx0
      (fun _ tx a => tx.coll = some c ∧ contributeCheck (canonPort a port) tx c a = .ok (g, i))
      (fun tx a =>
        let n := if c.isPartial then 16 else chunkTiles g.e.inFspec
        let data := tx.tiles.map (·.data)
        let scales := (List.range 32).map (fun j => bytesAt (data.getD n 0) j 1)
        hold c.collId c.chunk
          { child := i, elems := contribElems g g.e.inFspec c.isPartial (data.take n) scales, owed := some (canonPort a port, tx) }
          (occur { Occ.bare 4 (5 * g.e.partition) 0x84 1 with
            cls := some tx.cls, part := some g.e.partition, node := some tx.src, port := some (canonPort a port) } a))) ∧
    (∀ (s : State) (h : Contribution), cgOf s c.collId = some g → chunkOf g c.chunk = none →
      cgOf (hold c.collId c.chunk h s) c.collId = some { g with
        running := true, chunks := g.chunks ++ [{ chunk := c.chunk, held := [h], x := none, faults := 0 }] }) ∧
    Serves (.contributeResponse port tx0) 0x38 true port tx0
      (fun s tx _ => has s tx ∧ parent tx ∧ stOf tx.status ≠ .ok ∧ stOf tx.status ≠ .aborted)
      (fun tx a => detectAbort c.collId 4 tx.src a) ∧
    Serves (.contributeResponse port tx0) 0x38 true port tx0
      (fun s tx _ => has s tx ∧ (stOf tx.status = .ok ∨ stOf tx.status = .aborted)) (fun _ a => a) ∧
    Serves (.collResult port tx0) 0x39 false port tx0 (fun s tx _ => has s tx ∧ parent tx)
      (fun tx a => deliver c.collId c.chunk tx.tiles a) ∧
    Serves (.collResult port tx0) 0x39 false port tx0 (fun s tx _ => has s tx ∧ ¬ parent tx) (fun _ a => a) ∧
    Serves (.collStatus port tx0) 0x3A false port tx0
      (fun s tx _ => has s tx ∧ parent tx ∧ stOf (BitVec.ofNat 8 (bitsOf tx.trailer.val 168 8)) = .ok)
      (fun tx a => setCg c.collId (nextGen g)
        (statusDown g .ok 0 (BitVec.ofNat 16 (bitsOf tx.trailer.val 144 16)) noNode none (dropFolds g a))) ∧
    Serves (.collStatus port tx0) 0x3A false port tx0
      (fun s tx _ => has s tx ∧ child tx ∧ stOf (BitVec.ofNat 8 (bitsOf tx.trailer.val 168 8)) ≠ .ok)
      (fun tx a => abortGen c.collId (bitsOf tx.trailer.val 160 8) (BitVec.ofNat 16 (bitsOf tx.trailer.val 144 16))
        (BitVec.ofNat 16 (bitsOf tx.trailer.val 128 16)) (some tx.src) a) ∧
    Serves (.collStatus port tx0) 0x3A false port tx0 (fun s tx _ => has s tx ∧ c.generation ≠ g.e.generation) (fun _ a => a)

/-- R138, R133, R128, R129, R145, R418: MODULE_STATUS of a failed module loses it. A module's response is that to the request that
its tag names: a write committed frees its journal record, one that the module refuses stays in the journal (the model's choice,
log entry 15), a claim that a module refuses at start takes the group down, one of a takeover loses the module, and a tile whose
sidecar fails is rebuilt from its row and rewritten, or TILE_CHECKSUM names it; one that names none has no effect. R355, R357 to
R361: a transaction for another node is sent on, one hop further, with the partition tag of the port it came by; one that
fails check 1 is answered with ST_OPCODE or discarded; gap loss delivers what a flow holds in order, its requests
being answered with ST_MAP_STALE, and expects what follows them. -/
def Obligations.PoolAndTransit : Prop :=
  (∀ (port : Nat) (tx0 : Tx),
     Serves (.moduleStatus port tx0) 0x41 false port tx0 (fun _ tx _ => tx.version = 1) (fun tx a => loseModule tx.src a) ∧
     Serves (.moduleStatus port tx0) 0x41 false port tx0 (fun _ tx _ => tx.version ≠ 1) (fun _ a => a) ∧
     (tx0.op = 0x01 ∨ tx0.op = 0x02 ∨ tx0.op = 0x40 →
       let row := Serves (.moduleResponse port tx0) tx0.op true port tx0
       let names := fun (s : State) (tx : Tx) (q : ModReq) => s.pool.reqs.find? (fun y => y.tag == tx.tag && y.node == tx.src) = some q
       let done := fun (q : ModReq) (a : State) => { a with pool := { a.pool with
         reqs := a.pool.reqs.filter (fun y => !(y.tag == q.tag && y.node == q.node)) } }
       row (fun s tx _ => s.pool.reqs.find? (fun y => y.tag == tx.tag && y.node == tx.src) = none) (fun _ a => a) ∧
       (∀ q ids, row (fun s tx _ => names s tx q ∧ q.kind = .commit ids ∧ tx.status = 0) (fun _ a => commitFree ids (done q a))) ∧
       (∀ q ids, row (fun s tx _ => names s tx q ∧ q.kind = .commit ids ∧ tx.status ≠ 0) (fun _ a => done q a)) ∧
       (∀ q gi g, row (fun s tx _ => names s tx q ∧ q.kind = .claim gi false ∧ tx.status ≠ 0 ∧ groupOf s gi = some g ∧ g.up = true)
         (fun _ a => post .groupClaimRefused none [gi] (modGroup gi (fun g => { g with up := false }) (done q a)))) ∧
       (∀ q gi, row (fun s tx _ => names s tx q ∧ q.kind = .claim gi true ∧ tx.status ≠ 0)
         (fun _ a => loseModule q.node (post .groupClaimRefused none [gi] (done q a)))) ∧
       (∀ q own p gi r c, row (fun s tx _ => names s tx q ∧ q.kind = .read own p gi r c ∧ (tx.status ≠ 0 ∨ tx.tiles.all tileOk = true))
         (fun _ a => done q a)) ∧
       (∀ q own p gi r c g b, row (fun s tx _ => names s tx q ∧ q.kind = .read own p gi r c ∧ tx.status = 0 ∧
           tx.tiles.all tileOk = false ∧ groupOf s gi = some g ∧ solveCol s gi g r c = some b)
         (fun _ a => rewriteUnit p 1 gi q.node q.unit (mkTile b) (askHelpers p 1 gi g r c (done q a)))) ∧
       (∀ q slot tile p gi r c g, row (fun s tx _ => names s tx q ∧ q.kind = .read (some (slot, tile)) p gi r c ∧ tx.status = 0 ∧
           tx.tiles.all tileOk = false ∧ groupOf s gi = some g ∧ solveCol s gi g r c = none)
         (fun _ a => post .tileChecksum (some p) [slot, tile] (done q a))))) ∧
  ((∀ (port : Nat) (tx0 : Tx) (s : State),
     let p := canonPort s port
     let tx := arriving s port tx0.op tx0.resp tx0
     portUp s p = true → tx0.hop + 1 < 1023 →
     (rxCheck p tx s = none → isSelf s tx.dst = false →
       exec (.transitForward port tx0) s = .next { s with out := s.out ++ [tx] }) ∧
     (opDefined tx0.op = false ∨ (opClasses tx0).contains tx0.cls = false ∨ bodyOk tx0 = false →
       exec (.undefinedOp port tx0) s = .next (settle (reject p tx .opcode s)))) ∧
   (∀ (src : Node) (cls : Nat) (s : State) (f : Flow), flowOf s src cls = some f →
     (f.held = [] → exec (.flowGapLoss src cls) s = .next (settle s)) ∧
     (∀ p tx, f.held = [(p, tx)] →
       exec (.flowGapLoss src cls) s = .next (settle (deliver1 true p tx (setFlow { f with
         expected := f.expected + BitVec.ofNat 32 ((tx.flowSeq - f.expected).toNat + 1), held := [], gap := true } s))))))

/-! ## Links and the switch core (chapters 13 and 14) -/

/-- R342 to R345: frames. A frame that does not decode, whose CRC-24 over header and body is not FCRC, or whose lock pattern is
broken sets NAK, and what a port sends passes these tests; IDLE with the sequence last accepted clears it; a frame out of
order is discarded with NAK; one in order is accepted, its link message has its effect, and its whole transactions
enter the switch core, but for one whose beginning was not received. A port that trains sends its link messages, and a replay precedes new frames; ACK frees the
frames it covers and CR_TOTAL adds credit; a replay timeout sends again all that is retained. -/
def Obligations.LinkFrames : Prop :=
  (∀ (port : Nat) (fr : Frame) (s : State) (p : Port), portOf s port = some p →
    let good := fr.decodes = true ∧ fr.fcrc = crc24 (leBytes 7 (frameHead fr) ++ frameOctets fr) ∧ fr.sync = 0xC6
    let alive := p.up = true ∨ p.training = true
    let nak := modPort port (fun q => { q with nakOut := true })
    let a := modPort port (linkFields fr) s
    let runs := exec (.frameReceive port fr) s
    (¬ alive → runs = .next s) ∧
    (alive → ¬ good → runs = .next (nak s)) ∧
    (alive → good → fr.body = .idle → fr.seq = p.rxLast → runs = .next (modPort port (fun q => { q with nakOut := false }) a)) ∧
    (alive → good → fr.body ≠ .idle → fr.seq ≠ p.rxLast + 1 → runs = .next (nak a)) ∧
    (∀ m, alive → good → fr.body = .link m → fr.seq = p.rxLast + 1 →
      runs = .next (linkArrives port m (modPort port (fun q => { q with rxLast := fr.seq, nakOut := false }) a))) ∧
    (∀ tx n, p.up = true → good → fr.body = .data [{ tx := tx, skip := n, last := true }] → n = 0 ∨ p.receiving = true → fr.seq = p.rxLast + 1 →
      runs = .next (ingress port tx (modPort port (fun q => { q with rxLast := fr.seq, nakOut := false, receiving := false }) a))) ∧
    (∀ tx n, p.up = true → good → fr.body = .data [{ tx := tx, skip := n, last := true }] → n ≠ 0 → p.receiving = false →
      fr.seq = p.rxLast + 1 →
      runs = .next (modPort port (fun q => { q with rxLast := fr.seq, nakOut := false, receiving := false }) a)) ∧
    (∀ tx n, p.up = true → good → fr.body = .data [{ tx := tx, skip := n, last := false }] → fr.seq = p.rxLast + 1 →
      runs = .next (modPort port (fun q => { q with rxLast := fr.seq, nakOut := false, receiving := true }) a))) ∧
  (∀ (p : Port) (n : BitVec 12) (b : FrameBody), frameOk (mkFrame p n b) = true) ∧
  (∀ (fr : Frame) (p : Port), fr.nak = false →
    (linkFields fr p).granted = addAt p.granted fr.crClass (4 * (fr.crTotal - p.grantedLow.getD fr.crClass 0).toNat) ∧
    ((fr.ack - p.acked).toNat ≤ 64 → (∀ f ∈ p.retained, runsOn f = false) →
      (linkFields fr p).acked = fr.ack ∧ (linkFields fr p).retained = p.retained.dropWhile (covered fr.ack))) ∧
  (∀ (port : Nat) (s : State) (p : Port), portOf s port = some p → p.nakOut = false →
    let sends := fun (f : Frame) (g : Port → Port) (u : State) =>
      exec (.frameTransmit port) s = .next (modPort port (fun q => { g q with lastSent := some f, rotate := (q.rotate + 1) % 8 }) u)
    (p.up = false → p.training = false → exec (.frameTransmit port) s = .next s) ∧
    (∀ m l, p.up = false → p.training = true → p.replay = [] → p.retained.length < 64 → p.linkQ = m :: l →
      let f := mkFrame p p.txSeq (.link m)
      sends f (fun q => { q with linkQ := l, txSeq := q.txSeq + 1, retained := q.retained ++ [f] }) s) ∧
    (∀ f l, p.up = false → p.training = true → p.replay = f :: l →
      sends (mkFrame p f.seq f.body) (fun q => { q with replay := l }) s) ∧
    (∀ p1, p.up = true →
      let u := grantUnits port port p.rotate 255 (dropWithheld s)
      portOf u port = some p1 → p1.nakOut = false → p1.replay = [] → p1.linkQ = [] → p1.retained.length < 64 →
      (p1.sending = none → p1.sendQ = [] → sends (mkFrame p1 (p1.txSeq - 1) .idle) id u) ∧
      (∀ tx, p1.up = true → p1.sending = none → p1.sendQ = [tx] → txBytes tx ≤ 2560 →
        let f := mkFrame p1 p1.txSeq (.data [{ tx := tx, skip := 0, last := true }])
        exec (.frameTransmit port) s = .next (countBytes port 1 (txBytes tx) (some tx)
          (modPort port (fun q => { q with
            sending := none, sendQ := [], txSeq := q.txSeq + 1, retained := q.retained ++ [f], lastSent := some f,
            rotate := (q.rotate + 1) % 8 }) u))))) ∧
  (∀ (port : Nat) (s : State) (p : Port), portOf s port = some p →
    ∃ t, exec (.replayTimeout port) s = .next t ∧ portOf t port = some { p with replay := p.retained } ∧
      ∀ n, n ≠ port → portOf t n = portOf s n)

/-- R347, R348, R349, R360: a port trains with HELLO and comes up when the peer's KIND and node fit its role, else
PORT_MISMATCH; a lane is shed while two remain, else the port faults; a port that is down does not fault again, and
one that faults loses its frames and credit, its transactions being sent anew in their order. -/
def Obligations.PortsUpAndDown : Prop :=
  (∀ (port : Nat) (node : Node) (kind : Nat) (s : State) (p : Port), portOf s port = some p →
    let fits := kindOf p.cfg.role = some kind ∧ (p.cfg.role = .trunk → p.cfg.neighbour = none ∨ p.cfg.neighbour = some node)
    (p.training = false → exec (.hello port node kind) s = .next s) ∧
    (p.training = true → fits → exec (.hello port node kind) s = .next (post .portUp p.cfg.owner [port]
      (modPort port (fun q => { q with up := true, training := false, peer := some (node, kind, 0) }) s))) ∧
    (p.training = true → ¬ fits → exec (.hello port node kind) s = .next (post .portMismatch p.cfg.owner [port, node.toNat, kind]
      (modPort port (fun q => { q with training := false }) s)))) ∧
  (∀ (port : Nat) (mask : BitVec 4) (q0 : BitVec 12) (s : State) (p : Port), portOf s port = some p →
    (p.up = true → 2 ≤ lanesIn mask → exec (.setWidth port mask q0) s = .next (bump 2 port 8 1 (post .laneShed p.cfg.owner [port, mask.toNat]
      (modPort port (fun q => { q with txLanes := mask, replay := framesFrom q0 q.retained }) s)))) ∧
    (p.up = true → lanesIn mask < 2 → exec (.setWidth port mask q0) s = exec (.portFault port) s) ∧
    (p.up = false → exec (.setWidth port mask q0) s = .next s)) ∧
  (∀ (port lane : Nat) (s : State) (p : Port), portOf s port = some p →
    let mask := p.rxLanes &&& ~~~ BitVec.ofNat 4 (2 ^ lane)
    (p.up = true → p.rxLanes.getLsbD lane = true → 2 ≤ lanesIn mask →
      exec (.laneFault port lane) s = .next (bump 2 port 8 1 (post .laneShed p.cfg.owner [port, mask.toNat]
        (modPort port (fun q => { q with rxLanes := mask, linkQ := q.linkQ ++ [.setWidth mask (q.rxLast + 1)] }) s)))) ∧
    (p.up = true → p.rxLanes.getLsbD lane = true → lanesIn mask < 2 → exec (.laneFault port lane) s = exec (.portFault port) s) ∧
    (p.rxLanes.getLsbD lane = false → exec (.laneFault port lane) s = .next s)) ∧
  (∀ (port reason : Nat) (s : State) (p : Port), portOf s port = some p →
    let a := flushOut port s
    let cells := tgetD s.spindle.egress port [] ++ ((s.spindle.mids.filter (fun x => x.1 % 384 == port)).map (·.2)).flatten ++
      (s.spindle.inputs.map (·.2)).flatten
    let clean : Port := { Port.down p.cfg with
      lastSent := p.lastSent, removed := p.removed, rejects := p.rejects, discards := p.discards, dups := p.dups }
    let b := modPort port (fun _ => clean) (modSp (fun q => { q with
      accounts := q.accounts.map (fun x => (x.1, if x.1 / 8 = port then { x.2 with promised := 0, promisedShared := 0 } else x.2)),
      withheld := q.withheld.filter (fun w => w.port ≠ canonPort s port) }) a)
    let went : Out := .next (settle (pathLosses s (bump 2 port 9 1 (post .portDown p.cfg.owner [port]
      { b with out := p.sendQ ++ queuedFor port cells ++ b.out }))))
    (p.up = false → p.training = false → exec (.portFault port) s = .next s ∧ exec (.linkDown port reason) s = .next s) ∧
    (p.up = true → p.retained = [] → p.sending = none →
      exec (.portFault port) s = went ∧ exec (.linkDown port reason) s = went)) ∧
  (∀ (port : Nat) (s : State) (p : Port), portOf s port = some p → p.up = false → s.boot.phase = .ready →
    s.phys.isolated.getLsbD (port / 24) = false → port < 192 →
    ∃ t, exec (.portRetrain port) s = .next t ∧ t.phys.refField.getLsbD (port / 24) = true ∧
      portOf t port = some { Port.down p.cfg with
        training := true, removed := p.removed, rejects := p.rejects, discards := p.discards, dups := p.dups,
        linkQ := [.hello (myNode s) 2 port] } ∧
      ∀ n, n ≠ port → portOf t n = portOf s n)

/-- R318, R319, R321, R337: a turn. Stage 1 takes a cell from its input to the middle that the turn gives it, with the
next sequence of its pair; stage 2 takes a cell from the middle that faces its output to the egress buffer; one that
fails its check goes back to its input in a new slot, its bank retired. Egress takes a whole packet, against credit on
a port. R329, R334, R335, R338, R339: the time-driven rules of the switch core. Every bucket gains 64 ns of its rate
up to its size; a hold window holds a meter of an edge port whose output marked enough and whose red bytes did not
fall, and releases one that would have marked nothing red; a sample takes the depth and the longest delay of a queue;
a middle that misses its turn is dead, and the ninth stops the spindle and fences the device. -/
def Obligations.Spindle : Prop :=
  ((∀ (bad : List Nat) (s : State), dataUp s = true → s.spindle.stopped = false → s.out = [] →
     (∀ (i out : Nat) (c : Cell) (tx : Option Tx), s.spindle.inputs = [(i, [c])] → s.spindle.mids = [] → s.spindle.egress = [] →
       c.inLane = i → c.links = [{ out := out, seq := none, tx := tx }] → mayLeave s c = true →
       (i + s.spindle.turn) % 384 ∉ s.spindle.dead → i ∉ s.spindle.badLanes →
       let q := tgetD s.spindle.sentSeq (pairKey i out c.cls) 0
       ∃ t, exec (.spindleTurn bad) s = .next t ∧ t.spindle.turn = s.spindle.turn + 1 ∧ t.spindle.inputs = [] ∧ t.spindle.egress = [] ∧
         t.spindle.mids = [((i + s.spindle.turn) % 384 * 384 + out, [{ c with links := [{ out := out, seq := some q, tx := tx }] }])] ∧
         tget t.spindle.sentSeq (pairKey i out c.cls) = some ((q + 1) % 65536)) ∧
     (∀ (j out : Nat) (c : Cell), s.spindle.inputs = [] → s.spindle.mids = [(j * 384 + out, [c])] → s.spindle.egress = [] →
       out < 384 → (j + s.spindle.turn) % 384 = out → j ∉ s.spindle.dead → out ∉ s.spindle.badLanes → c.cls < 8 → cellOut c = out →
       (out ∉ bad → ∃ t, exec (.spindleTurn bad) s = .next t ∧ t.spindle.turn = s.spindle.turn + 1 ∧ t.spindle.mids = [] ∧
         t.spindle.inputs = [] ∧ t.spindle.egress = [(out, [c])]) ∧
       (out ∈ bad → ∃ t b, exec (.spindleTurn bad) s = .next t ∧ t.spindle.mids = [] ∧ t.spindle.egress = [] ∧
         t.spindle.inputs = [(c.inLane, [{ c with slot := s.spindle.nextSlot, bank := b, mcast := false }])] ∧
         c.bank ∈ t.spindle.badBanks))) ∧
   (∀ (bad : List Nat) (s : State), dataUp s = false ∨ s.spindle.stopped = true → exec (.spindleTurn bad) s = .next s) ∧
   (∀ (lane : Nat) (s : State) (cells : List Cell) (f : Cell) (l : Link) (tx : Tx), wholePacket s lane = some cells →
     cells.find? (·.first) = some f → f.links.head? = some l → l.tx = some tx →
     (192 ≤ lane → exec (.egressSend lane) s =
       .next (settle (resequence (canonPort s f.inLane) tx (takePacket lane cells s)))) ∧
     (∀ p, lane < 192 → portOf s lane = some p → p.up = true → tx.mark = false →
       let trunk := p.cfg.role = .trunk
       let tx1 := { tx with ptag := if trunk then f.part else 0, colour := if trunk then f.colour else 0 }
       (cells.length ≤ creditOf p f.cls → exec (.egressSend lane) s = .next (occur (portOcc lane 0x41 1 tx (some f.part))
         (modPort lane (fun q => { q with used := addAt q.used f.cls cells.length, sendQ := q.sendQ ++ [tx1] })
           (takePacket lane cells s)))) ∧
       (creditOf p f.cls < cells.length → exec (.egressSend lane) s = .next s)))) ∧
  ((∀ (s : State), s.spindle.withheld = [] → exec .meterRefill s = .next { s with spindle := { s.spindle with
     meters := s.spindle.meters.map (fun x => (x.1, refillMeter s x.1 x.2)) } }) ∧
   (∀ (s : State) (k : Nat) (m : Meter) (e : MeterEntry), meterCfg s (k / 128) (k / 8 % 16) (k % 8) = some e →
     (refillMeter s k m).tc = min (e.cbs * 1000) (m.tc + e.cir * 64) ∧ (refillMeter s k m).tp = min (e.pbs * 1000) (m.tp + e.pir * 64)) ∧
   (∀ (s : State) (port part cls : Nat) (m : Meter), port < 192 → part < 16 → cls < 8 →
     let k := (port * 16 + part) * 8 + cls
     s.spindle.meters = [(k, m)] →
     let edge := portRole s port = .host ∨ portRole s port = .memory
     let need := match s.boot.charter with | some c => c.device.holdMarks | none => 64
     let enters := edge ∧ m.held = false ∧ need ≤ (tgetD s.spindle.marks (port * 8 + cls) (0, 0)).1 ∧ m.lastRed ≤ m.red
     ∃ t m1, exec .holdWindowEnd s = .next t ∧ t.spindle.meters = [(k, m1)] ∧ m1.red = 0 ∧ m1.lastRed = m.red ∧ m1.wouldRed = 0 ∧
       t.spindle.marks = s.spindle.marks.map (fun x => (x.1, (x.2.2, 0))) ∧
       (enters → m.wouldRed ≠ 0 → m1.held = true) ∧ (m.held = true → m.wouldRed = 0 → m1.held = false) ∧
       (m.held = true → m.wouldRed ≠ 0 → m1.held = true) ∧ (¬ enters → m.held = false → m1.held = false)) ∧
   (∀ (s : State) (out : Nat) (c : Cell) (l : Link), s.spindle.samples = [] → s.spindle.inputs = [] → s.spindle.mids = [] →
     s.spindle.egress = [(out, [c])] → c.links = [l] → l.out = out → c.cls < 8 →
     let d := (s.timer.toNat % 2 ^ 32 + 2 ^ 32 - c.arrival) % 2 ^ 32
     exec .queueSample s = .next { s with spindle := { s.spindle with
       samples := [(out * 8 + c.cls, { lastDepth := 1, maxDepth := 1, lastDelay := d, maxDelay := d })] } }) ∧
   (∀ (s : State) (j : Nat), dataUp s = true → j < 384 → j ∉ s.spindle.dead → s.spindle.mids = [] →
     let a : State := { s with spindle := { s.spindle with dead := j :: s.spindle.dead } }
     (s.spindle.dead.length < 8 → exec (.spindleTurnTimeout [.middle j]) s = .next a) ∧
     (8 ≤ s.spindle.dead.length → exec (.spindleTurnTimeout [.middle j]) s =
       .next (fenceDevice (post .spindleFailed none [j] { a with spindle := { a.spindle with stopped := true } })))) ∧
   (∀ (s : State) (lane : Nat), dataUp s = true → lane < 192 →
     exec (.spindleTurnTimeout [.input lane]) s = exec (.portFault lane) s ∧
     exec (.spindleTurnTimeout [.output lane]) s = exec (.portFault lane) s))

/-! ## Timers and background work of the home and the pool -/

/-- R20, R69, R80, R95, R120, R134, R417: requests that wait are served one at a time, in order, once what they wait for is
there: the tile no longer BUSY, ledger space, a journal record, sinter space. One that was admitted is carried out
against the present state. -/
def Obligations.WaitingRequests : Prop :=
  (∀ (slot tile : Nat) (s : State) (p : Parked),
    (isBusy s slot tile = true → exec (.waitingRequestServe slot tile) s = .next s) ∧
    (isBusy s slot tile = false → s.home.parked.find? (fun y => y.why == .tile slot tile) = some p →
      exec (.waitingRequestServe slot tile) s = .next (settle (serveOp false p.id p.port p.tx (unpark p.id s)))) ∧
    (isBusy s slot tile = false → s.home.parked.find? (fun y => y.why == .tile slot tile) = none →
      exec (.waitingRequestServe slot tile) s = .next (settle s))) ∧
  (∀ (part : Nat) (s : State) (p : Parked),
    (ledgerFull s part = true → exec (.ledgerSpaceResume part) s = .next s) ∧
    (ledgerFull s part = false → s.home.parked.find? (fun y => y.why == .ledger part) = some p →
      exec (.ledgerSpaceResume part) s = .next (settle (serveOp false p.id p.port p.tx (unpark p.id s)))) ∧
    (journalFull s part = true → exec (.journalSpaceResume part) s = .next s) ∧
    (let a := retryBusy part s
     let b := retryHeld a
     (journalFull s part = false → b.home.parked.find? (fun y => y.why == .journal part) = some p →
       exec (.journalSpaceResume part) s = .next (settle (serveOp false p.id p.port p.tx (unpark p.id b)))) ∧
     (journalFull s part = false → b.home.parked.find? (fun y => y.why == .journal part) = none →
       exec (.journalSpaceResume part) s = .next (settle b)) ∧
     (a.home.parked.find? (fun y => y.why == .sinter part) = some p →
       exec (.sinterSpaceResume part) s = .next (settle (serveOp false p.id p.port p.tx (unpark p.id a)))) ∧
     (a.home.parked.find? (fun y => y.why == .sinter part) = none → exec (.sinterSpaceResume part) s = .next (settle a)))) ∧
  (∀ (rid port : Nat) (tx : Tx) (s : State) (e : Extent), tx.op = 0x02 → check1 tx s = none → extOf s (oSlot tx.offset) = some e →
    domainDown s e = false → e.state ≠ .arriving →
    (∀ t ∈ tilesOf tx, isBusy s (oSlot tx.offset) t = false ∧ waitersBefore s rid (oSlot tx.offset) t = false) →
    let v := touched tx s
    (∀ t ∈ tilesOf tx, writeRecalls e (dirOf v (oSlot tx.offset) t) = []) →
    ∀ b, writeTiles (oSlot tx.offset) v.pool.nextRec (fullTiles v e (tilesOf tx)) ((tilesOf tx).zip tx.tiles) v = .done b →
      serveOp false rid port tx s = answer tx .ok b)

/-- R41 to R45, R49, R50, R484: revocation and map epochs in time. 40 ms after a force point, running items of the
forced holders stop with ST_REVOKED; a force that is quiescent ends with REVOKE_DONE, its holders leaving the attach
list, and a draining extent with none left is freed. A batch waits while the older epoch lives; at the timeout the
epoch is retired by force and the batch installs. R54, R113, R118, R419: background work on extents. A discarding
layer that has drained and has no tile left to restore is freed, with LAYER_DISCARDED; a sweep frees what no sealed
layer needs; the background pull asks an old home for the extent first and then for the lowest tile not yet taken, again
where it has not been answered (R332; the model's choice, log entry 169), and adopts the tiles of a lost home. -/
def Obligations.RevocationAndBackground : Prop :=
  ((∀ (id : Nat) (s : State) (f : Force), s.ext.forces.find? (fun y => y.id == id) = some f →
     (f.stopped = true → exec (.revokeStopTimer id) s = .next (settle s)) ∧
     (f.stopped = false → exec (.revokeStopTimer id) s = .next (settle (forceStop id s))) ∧
     (f.stopped = false → s.queues.queues = [] → s.home.parked = [] → s.home.busy = [] → s.ext.invals = [] →
       (∀ x ∈ s.ext.entries, x.2.publishing = none) → exec (.revokeStopTimer id) s =
       .next (settle { s with ext := { s.ext with
         forces := s.ext.forces.map (fun y => if y.id = id then { y with stopped := true } else y) } })) ∧
     (∀ tx p, f.stopped = false → s.queues.queues = [] → s.home.parked = [p] → admitted p = true → p.tx = tx →
       s.home.busy = [] → s.ext.invals = [] → (∀ x ∈ s.ext.entries, x.2.publishing = none) →
       f.holders.contains tx.src = true → oSlot tx.offset = f.slot → exec (.revokeStopTimer id) s =
       .next (settle (failWait p .revoked (unpark p.id { s with ext := { s.ext with
         forces := s.ext.forces.map (fun y => if y.id = id then { y with stopped := true } else y) } })))) ∧
     (∀ e, extOf s f.slot = some e → quiescent s f e = true → exec (.revokeQuiescent id) s = .next (settle (revokeDone f e s))) ∧
     (∀ e, extOf s f.slot = some e → quiescent s f e = false → e.mode ≠ .coherent → exec (.revokeQuiescent id) s = .next (settle s)) ∧
     (∀ e, extOf s f.slot = some e → e.state = .draining → (∀ h ∈ e.holders, h.node ∈ f.holders) →
       extOf (revokeDone f e s) f.slot = none)) ∧
   (∀ (s : State),
     exec .batchInstallResume s = .next (resumeBatch s) ∧
     (firstBatch s.mgmt.waiting = none → resumeBatch s = s ∧ exec .epochRetireTimeout s = .next s) ∧
     ∀ (h : Mgmt) (code : Nat) (ops : List ExtentOp) (r : List MgmtWait), firstBatch s.mgmt.waiting = some ((h, code, ops), r) →
       (batchWaits ops s = true ∨ ops.any (waitsForReset s) = true → resumeBatch s = s) ∧
       (batchWaits ops s = false → ops.any (waitsForReset s) = false →
         resumeBatch s = runBatch h code ops { s with mgmt := { s.mgmt with waiting := r } }) ∧
       (batchWaits ops s = false → exec .epochRetireTimeout s = .next s) ∧
       (batchWaits ops s = true → exec .epochRetireTimeout s = .next (resumeBatch (forceRetire s)))) ∧
   (∀ (s : State) (m : BitVec 16), s.ext.older = some m → s.home.busy = [] →
     (s.home.parked = [] → forceRetire s = settle { s with ext := { s.ext with older := none } }) ∧
     (∀ p, s.home.parked = [p] → admitted p = true → p.tx.mapEpoch = m → forceRetire s =
       let u := failWait p .mapStale (unpark p.id s)
       settle { u with ext := { u.ext with older := none } }))) ∧
  ((∀ (slot : Nat) (s : State) (e : Extent), extOf s slot = some e → e.openV ≠ 0 →
     e.layers.any (fun l => l.version == e.openV && l.state == .discarding) = true →
     (drained s slot e = true → openTiles s slot e = [] → exec (.discardRestore slot) s = .next (settle (endDiscard slot e s))) ∧
     (∀ k u, drained s slot e = true → openTiles s slot e = [k] → restoreTile slot k s = some u → ∀ e1, extOf u slot = some e1 →
       exec (.discardRestore slot) s = .next (settle (endDiscard slot e1 u))) ∧
     (drained s slot e = false → exec (.discardRestore slot) s = .next s) ∧
     ∃ f, extOf (endDiscard slot e s) slot = some f ∧ f.openV = 0 ∧
       ∀ (i : Nat) (l : Layer), e.layers[i]? = some l → l.version = e.openV → l.state = .discarding → f.layers[i]? = some freeLayer) ∧
   (∀ (slot : Nat) (s : State),
     exec (.versionSweep slot) s = .next (settle (sweepSlot slot s)) ∧
     (∀ e h k, extOf s slot = some e → s.vers.heads = [(k, h)] → keySlot k = slot → e.openV = 0 →
       deadCopies e 0 h.copies = h.copies → (sweepSlot slot s).vers.heads = []) ∧
     (extOf s slot = none → sweepSlot slot s = s)) ∧
   (∀ (slot : Nat) (s : State) (e : Extent), extOf s slot = some e →
     let t := nextPull s slot
     (e.state ≠ .arriving → exec (.rehomePull slot) s = .next s) ∧
     (e.state = .arriving → e.known = false → exec (.rehomePull slot) s = .next (askPull e 0 6 1 0 s)) ∧
     (e.state = .arriving → e.known = true → t < 4194304 → thas s.ext.adopted slot = false →
       let held := s.ext.held.any (fun h => h.1 == slot && h.2.tile == t)
       let asked := tget s.ext.asked (tkey slot t)
       (held = true → exec (.rehomePull slot) s = .next s) ∧
       (held = false → asked = none → exec (.rehomePull slot) s = .next
         { sendPull e t 6 s with ext := { (sendPull e t 6 s).ext with asked := tset (sendPull e t 6 s).ext.asked (tkey slot t) 6 } }) ∧
       (held = false → asked = some 6 → exec (.rehomePull slot) s = .next (sendPull e t 6 s)) ∧
       (held = false → asked = some 1 → exec (.rehomePull slot) s = .next s)) ∧
     (e.state = .arriving → e.known = true → t < 4194304 → thas s.ext.adopted slot = true →
       exec (.rehomePull slot) s = .next (settle (rehomeCheck slot (adoptTile slot t e s)))) ∧
     (e.state = .arriving → e.known = true → 4194304 ≤ t → exec (.rehomePull slot) s = .next (settle (rehomeCheck slot s)))))

/-- R128, R137, R138, R141, R144, R416: background work on the pool. A mark is cleared once nothing of its region is
uncommitted or awaits its resync, or is dirty in a holder; a lost module enters LOST_MASK with MODULE_LOST; a rebuild reads the
row at its cursor and reconstructs the lost unit, or leaves a unit that fails its check with ROW_UNREBUILT; patrol reads every
unit, repairs those that fail and rewrites parity that disagrees; resync does so in every row of a region and lets its writes go
on. A fenced device rebuilds no row (R390). -/
def Obligations.PoolBackground : Prop :=
  (∀ (group region : Nat) (s : State),
    ((∃ r ∈ s.pool.journal, r.group = group ∧ r.row / 4096 = region) ∨ thas s.pool.resync (group * 2 ^ 40 + region) = true →
      exec (.intentClear group region) s = .next s) ∧
    ((∀ r ∈ s.pool.journal, r.group = group → r.row / 4096 ≠ region) → thas s.pool.resync (group * 2 ^ 40 + region) = false → ∃ t, exec (.intentClear group region) s = .next t ∧
      (∀ k, tget t.pool.intent k = if k = group * 2 ^ 40 + region then none else tget s.pool.intent k) ∧
      { t with pool := { t.pool with intent := s.pool.intent } } = s)) ∧
  (∀ (slot region : Nat) (s : State),
    let held := s.dir.entries.any (fun x => keySlot x.1 == slot && keyTile x.1 / 64 == region && (x.2.state == .m || x.2.state == .o))
    (held = true → exec (.ownershipBitmapClear slot region) s = .next s) ∧
    (held = false → ∃ t, exec (.ownershipBitmapClear slot region) s = .next t ∧
      (∀ k, tget t.dir.own k = if k = slot * 2 ^ 16 + region then none else tget s.dir.own k) ∧
      { t with dir := { t.dir with own := s.dir.own } } = s)) ∧
  (∀ (node : Node) (s : State) (gi i : Nat) (g : Group), groupOf s gi = some g → g.modules.findIdx? (· == node) = some i →
    i < widthOf g → i < 18 → s.pool.reqs = [] → ∃ t f, exec (.moduleLost node) s = .next (settle t) ∧ groupOf t gi = some f ∧
      f.lost = g.lost ||| BitVec.ofNat 18 (1 <<< i) ∧ f.modules = g.modules ∧
      (f.lost.getLsbD i = true) ∧ t.pool.units = s.pool.units ∧
      ∃ e ∈ t.mgmt.events, e.name = .moduleLost ∧ e.args = [node.toNat] ∧ e.seq = s.mgmt.eventSeq) ∧
  (∀ (node : Node) (s : State), s.pool.groups = [] → exec (.moduleLost node) s = .next (settle s)) ∧
  (∀ (gi : Nat) (s : State) (g : Group), groupOf s gi = some g → g.pass = none → s.boot.fenced = false →
    let row := g.cursor
    let next := fun u : State => endRebuild gi (modGroup gi (fun x => { x with cursor := row + 1 }) u)
    let here := modAt g g.rebuildPos
    (g.state ≠ .rebuilding → exec (.rebuildRow gi) s = .next s) ∧
    let a := askHelpers 0 6 gi g row (colAt g row g.rebuildPos) s
    (∀ d, g.state = .rebuilding → solveCol s gi g row (colAt g row g.rebuildPos) = some d →
      exec (.rebuildRow gi) s = .next (next (rewriteUnit 0 6 gi here row (mkTile d) a))) ∧
    (g.state = .rebuilding → solveCol s gi g row (colAt g row g.rebuildPos) = none →
      exec (.rebuildRow gi) s = .next (next (rewriteUnit 0 6 gi here row { data := 0, crc := ~~~ zeroTile.crc }
        (post .rowUnrebuilt none [gi, row] a))))) ∧
  (∀ (gi : Nat) (s : State), s.boot.fenced = true → exec (.rebuildRow gi) s = .next s) ∧
  (∀ (gi p : Nat) (s : State) (g : Group), groupOf s gi = some g → g.pass = some p → s.boot.fenced = false →
    exec (.rebuildRow gi) s = .next (endPass gi (modGroup gi (fun x => { x with pass := some (p + 1) }) (formRow gi g p s)))) ∧
  (∀ (gi row : Nat) (s : State) (g : Group), groupOf s gi = some g →
    (row < rowsOf g → g.up = true → exec (.patrolScrub gi row) s = .next (reparity gi g row (repairRow gi g row s))) ∧
    (rowsOf g ≤ row → exec (.patrolScrub gi row) s = .next s) ∧
    ((∀ pos < widthOf g, isMissing s gi g row pos = false ∧ tileOk (storedUnit s (modAt g pos) row) = true) →
      repairRow gi g row s = (List.range (widthOf g)).foldl (fun t c => askCol none 0 6 gi g row c t) s) ∧
    (∀ ds, wholeRow s gi g row = some ds →
      let par := fun j => mkTile (if g.k = 1 then foldCols 0 (ds.take 1) else foldCols j ds)
      let at_ := fun j => modAt g (posOf g row (g.k + j))
      ((∀ j < g.m, storedUnit s (at_ j) row = par j) → reparity gi g row s = s) ∧
      (g.m = 1 → isMissing s gi g row (posOf g row g.k) = false → storedUnit s (at_ 0) row ≠ par 0 →
        reparity gi g row s = rewriteUnit 0 6 gi (at_ 0) row (par 0) s)) ∧
    (wholeRow s gi g row = none → reparity gi g row s = s)) ∧
  (∀ (gi region : Nat) (s : State) (g : Group), groupOf s gi = some g → s.boot.fenced = false →
    (thas s.pool.resync (gi * 2 ^ 40 + region) = false → exec (.markedRegionResync gi region) s = .next s) ∧
    (thas s.pool.resync (gi * 2 ^ 40 + region) = true →
      let a := (((List.range 4096).map (fun i => region * 4096 + i)).filter (fun r => decide (r < rowsOf g))).foldl
        (fun t r => reparity gi g r (repairRow gi g r t)) s
      let b : State := { a with pool := { a.pool with resync := tdel a.pool.resync (gi * 2 ^ 40 + region) } }
      let u := retryHeld ((b.home.busy.filter (fun y => y.recalls.isEmpty)).foldl (fun t y => tryFinish y.slot y.tile t) b)
      exec (.markedRegionResync gi region) s = .next (settle
        ((b.home.parked.filter (fun p => p.why == .region gi region)).foldl (fun t p => serveParked p t) u))))

/-! ## Queues, the dispatcher and REDUCE (chapters 7 and 10 to 12) -/

/-- R158 to R163: the command that a descriptor names is read at HEAD, which advances, and is counted. One that fails
a check of R159 completes with its status and no item; one that passes takes its place in the queue's list. A
descriptor of a reserved ENGINE or OPCODE completes with ST_OPCODE; with nothing to read, nothing happens. One with a
reserved code in another field has an effect that the manual leaves open (R9), the model's choice of which is log
entry 160. R159, R162,
R163, R166, R171: what a command that is read leaves. Accepted, it is the last of its queue's commands, with no item
ended; refused, its record stands in the completion ring at its place, and a HALT_ON_ERROR one halts the queue. A
queue that halts, or holds a HALT_ON_ERROR command outstanding, reads no descriptor. -/
def Obligations.CommandsAndRecords : Prop :=
  (∀ (qn : Nat) (s : State) (q : Queue) (d : BitVec 512), queueOf s qn = some q → nextDesc s q = some d →
     let a := bump 4 (5 * q.part + q.engine - 1) 8 1 (readSlot qn q.head s)
     let reads := fun (c : Instr) (engine op : Nat) => q.engine = engine → dEngine d = engine → dOpcode d = op →
       (∀ st, checkCmd a q d = some st → exec c s = .next (refuseCmd qn q.head d st a)) ∧
       (checkCmd a q d = none → encodingOk d = true → exec c s = .next (acceptCmd qn q q.head d a)) ∧
       (checkCmd a q d = none → encodingOk d = false → exec c s = .next (wildCmd qn q q.head d a))
     reads (.reduceRun qn) 1 1 ∧ reads (.reduceFrom qn) 1 2 ∧ reads (.reduceAbort qn) 1 3 ∧
     reads (.rows qn) 2 1 ∧ reads (.kv qn) 2 2 ∧ reads (.dispatch qn) 2 3 ∧ reads (.combine qn) 2 4 ∧
     reads (.scan qn) 3 1 ∧ reads (.topk qn) 3 2 ∧ reads (.score qn) 3 3 ∧ reads (.attend qn) 3 4 ∧
     reads (.copy qn) 4 1 ∧ reads (.fill qn) 4 2 ∧ reads (.convert qn) 4 3 ∧ reads (.publishCopy qn) 4 4 ∧ reads (.rebuild qn) 4 5 ∧
     reads (.applyRun qn) 5 1 ∧
     (dEngine d ≠ q.engine ∨ opcodeOk q.engine (dOpcode d) = false →
       exec (.reservedOpcodeCommand qn) s = .next (refuseCmd qn q.head d .opcode a))) ∧
  ((∀ (qn : Nat) (s : State) (q : Queue) (seq : Word32) (d : BitVec 512), queueOf s qn = some q → dEngine d ≠ 1 → itemsOf s d ≠ 0 →
     s.obs.sampling = [] → ∃ c f, queueOf (acceptCmd qn q seq d s) qn = some f ∧ f.cmds = q.cmds ++ [c] ∧ c.seq = seq ∧ c.desc = d ∧
       c.n = itemsOf s d ∧ c.next = 0 ∧ c.done = 0 ∧ c.failed = 0 ∧ c.runs = [] ∧ f.head = q.head ∧ f.cq = q.cq) ∧
   (∀ (qn : Nat) (s : State) (q : Queue) (seq : Word32) (d : BitVec 512) (st : St), queueOf s qn = some q →
     let halts : Bool := dHaltOnError d && decide (st ≠ .ok) && q.state == .active
     ∃ f, queueOf (refuseCmd qn seq d st s) qn = some f ∧ f.written = q.written + 1 ∧
       tget f.cq (seq.toNat % depthOf q) = some (recordOf q qn seq (dUserTag d) st (s.mgmt.eventSeq - 1) 0 0 0 halts) ∧
       (∀ i, i ≠ seq.toNat % depthOf q → tget f.cq i = tget q.cq i) ∧
       f.state = (if halts then .halted else q.state) ∧ f.haltSeq = (if halts then seq else q.haltSeq)) ∧
   (∀ (s : State) (q : Queue), q.state ≠ .active ∨ (∃ c ∈ q.cmds, dHaltOnError c.desc = true) ∨ q.head = q.tail ∨
       partState s q.part ≠ .active → nextDesc s q = none))

/-- R162, R164, R241, R290: the dispatcher serves one item. With a partition that is not ACTIVE, or while the power
cap holds dispatch, it serves none; else the item, core and context that priority, order and the placement rules pick;
an item that fails the checks of R164 ends with their status on no core. R165, R167, R269: a vendor item ends. Its
work done with the answers of other homes, it counts as done; failed, as failed with its status and DETAIL; while it
waits for recalls or space the state keeps what it has claimed. R108, R287: the seal item of PUBLISH_COPY runs once
every copy item has ended: with one failed it fails; at an extent of this home whose open layer the partition's lease
lets it publish, it waits for the seal step, which completes it; else it fails with DETAIL 1. -/
def Obligations.Items : Prop :=
  (∀ (p : Nat) (s : State),
     (partState s p ≠ .active ∨ s.phys.hold = true → exec (.itemDispatch p) s = .next (settle s)) ∧
     (partState s p = .active → s.phys.hold = false → foldWaiting s p = none →
       (pickItem s p = none → exec (.itemDispatch p) s = .next (settle s)) ∧
       (∀ qn q c i core k, pickItem s p = some (qn, q, c, i, core, k) → rebuildLost s c = false →
         (recheck s q c = none → exec (.itemDispatch p) s = .next (settle (dispatchItem qn q c i core k s))) ∧
         (∀ st, recheck s q c = some st → exec (.itemDispatch p) s = .next (settle (failAtDispatch qn q c i st s)))) ∧
       (∀ qn q c i core k, pickItem s p = some (qn, q, c, i, core, k) → rebuildLost s c = true →
         exec (.itemDispatch p) s = .next (settle (failAtDispatch qn q c i .state s)))) ∧
     (∀ (qn : Nat) (q : Queue) (c : Cmd) (i core : Nat) (k : Core), coreOf s core = some k → c.image = none →
       s.obs.sampling = [] → ∃ x, ctxOf (dispatchItem qn q c i core k s) { core := core, ctx := freeCtxOf k } = some x ∧
         x.item = { part := q.part, coll := none, queue := qn, cmdSeq := c.seq, index := i, engine := q.engine } ∧ x.pc = 0 ∧
         x.failing = none)) ∧
  (∀ (x : CtxId) (ans : List RemoteAnswer) (s : State) (k : Ctx) (q : Queue) (c : Cmd), ctxOf s x = some k →
     k.item.coll = none → cmdOfItem s k.item = some (q, c) →
     (2 ≤ k.item.engine → k.item.engine ≤ 4 →
       let w := runIo (itemWork (actorOf s x k.item q c) c k.item.index) ans s
       (∀ n u, w = (.ok n, u) → exec (.itemComplete x ans) s = .next (settle (endItemAt x k.item .ok 0
         (modCmd k.item.queue k.item.cmdSeq (fun y => { y with packed := y.packed + n, selected := y.selected + n }) u)))) ∧
       (∀ st d u, w = (.error (.fail st d), u) → exec (.itemComplete x ans) s =
         .next (settle (if (ctxOf u x).isSome then endItemAt x k.item st d u else u))) ∧
       (∀ u, w = (.error .wait, u) → exec (.itemComplete x ans) s = .next u)) ∧
     (k.item.engine = 1 → exec (.itemComplete x ans) s = .next (settle (fromItem x k.item q c ans s))) ∧
     (k.item.engine = 5 → exec (.itemComplete x ans) s = .next s)) ∧
  (∀ (qn : Nat) (seq : Word32) (ans : List RemoteAnswer) (s : State) (q : Queue) (c : Cmd), queueOf s qn = some q →
     cmdOf q seq = some c → hasSeal c = true → c.sealing = false → c.runs = [] → c.again = [] →
     (c.done + c.failed + 1 ≠ c.n → exec (.publishCopySeal qn seq ans) s = .next (settle s)) ∧
     (c.done + c.failed + 1 = c.n →
       (0 < c.failed → exec (.publishCopySeal qn seq ans) s = .next (settle (endSeal qn c q .state 0 s))) ∧
       (∀ slot e, c.failed = 0 → recheck s q c = none → placeOf s (pubArgs c.desc).dest = .here slot e →
         let v := dWriteV c.desc
         let may := (holderOf e q.submitter).isSome ∧ e.mode = .versioned ∧ leaseHolder e q.part = true ∧ v ≠ 0 ∧ v = e.openV ∧
           layerOpen e = true ∧ e.publishing = none
         (may → exec (.publishCopySeal qn seq ans) s = .next (settle (setExt slot { e with publishing := some (.sealItem qn c.seq) }
           (modCmd qn c.seq (fun y => { y with sealing := true, next := c.n }) s)))) ∧
         (¬ may → exec (.publishCopySeal qn seq ans) s = .next (settle (endSeal qn c q .state 1 s))))))

/-- R256, R259, R264: a chunk whose contributions are all held commits: at an interior switch its partial goes to the
parent and its contributions are answered; at the root it commits by the RUN command, whose item of that chunk is
dispatched as the chunk meets it and, failing the checks of R164, ends with their status. R337: a contribution held in
the caldera that fails its check as the chunk's item reads it aborts the generation with REASON KILLED. GEN_TIMEOUT aborts a
generation that runs, with REASON 6. -/
def Obligations.ChunksCommit : Prop :=
  ∀ (id : BitVec 48) (n : Nat) (ans : List RemoteAnswer) (s : State) (g : CGroup),
    let u := meetRun id n s
    (∀ c x, cgOf u id = some g → chunkOf g n = some c → c.x = some x →
      (chunkFull g c = false → exec (.chunkCommit id n (.folded ans)) s = .next (settle u)) ∧
      (chunkFull g c = true → g.e.role = 1 → exec (.chunkCommit id n (.folded ans)) s = .next (settle (committed id c.chunk c
        (send { blankTx s with
          dst := g.e.parentNode, op := 0x38, cls := 3, length := ((packTiles 0 ((foldChunk g c.held).map (·.toNat))).map mkTile).length,
          ptag := g.e.partition, ext := true,
          coll := some { collId := g.e.collId, generation := g.e.generation, chunk := c.chunk, isPartial := true },
          tiles := (packTiles 0 ((foldChunk g c.held).map (·.toNat))).map mkTile } u)))) ∧
      (chunkFull g c = true → g.e.role = 0 → exec (.chunkCommit id n (.folded ans)) s = .next (settle (commitRoot id g c ans u)))) ∧
    (∀ child c, cgOf s id = some g → chunkOf g n = some c →
      exec (.chunkCommit id n (.heldFails child)) s =
        .next (settle (if c.x.isSome ∧ ∃ h ∈ c.held, h.child = child ∧ h.owed.isSome then detectAbort id 5 noNode s else s))) ∧
    (cgOf s id = some g →
      (g.run = none → u = s) ∧
      (∀ r x q c, g.run = some r → (chunkOf g n).bind (·.x) = some x → redCmd s r = some (q, c) → q.state ≠ .disabled →
        c.runs.any (fun y => y.item == n) = false → c.fails.any (fun f => f.item == n) = false → inOrder q c = true →
        heldByPublish s q c = false → overLimit q c = false →
        (recheck s q c = none → u = modCmd r.queue r.cmdSeq (fun y => { y with
          next := max y.next (n + 1), runs := y.runs ++ [{ item := n, x := x, epoch := s.ext.mapEpoch, replay := 0 }] }) s) ∧
        (∀ st, recheck s q c = some st → u = failItems r.queue r.cmdSeq [n] st 0 s)) ∧
      (g.e.genTimeout ≠ 0 → g.running = true → exec (.generationTimeout id) s = .next (settle (detectAbort id 6 noNode s))) ∧
      (g.e.genTimeout = 0 ∨ g.running = false → exec (.generationTimeout id) s = .next s))

/-- R212, R237: the code of a handle arrives at a core. A context that waits for it goes on to its arguments, or may
issue, and the core's instruction store holds the code; with none waiting nothing changes. R206 to R209, R401, R413: a
core that recovers returns to service when its self-test passes, and is retired when it fails; so is a core without
contexts that fails a pattern sweep, which counts and posts a core fault, with a CHECK that is free (log entry 100), and
marks its band. A retired core's logical index goes to the lowest working spare of its strip, and is
ABSENT without one. -/
def Obligations.CodeAndCores : Prop :=
  (∀ (core part handle : Nat) (s : State) (k : Core), coreOf s core = some k →
     (∀ i y, k.ctxs = [(i, y)] → waitsFor s part handle y = true → ∃ t c, exec (.codeFetchComplete core part handle) s = .next t ∧
       coreOf t core = some c ∧ c.istore.any (fun z => z.1 == (itemCode s y.item).1) = true ∧
       ctxOf t { core := core, ctx := i } = some { y with wait := if thas y.tokens 32 then some .args else none } ∧
       ∀ d, d ≠ core → coreOf t d = coreOf s d) ∧
     ((∀ p ∈ k.ctxs, waitsFor s part handle p.2 = false) → exec (.codeFetchComplete core part handle) s = .next s)) ∧
  ((∀ (phys : Nat) (s : State) (c : Nat) (k : Core), logicalOf s phys = some (c, k) →
     (k.recovering = true → exec (.coreReturnToService phys true) s = .next (modCore c (fun x => { x with recovering := false }) s)) ∧
     (k.recovering = true → exec (.coreReturnToService phys false) s = .next (retireCore phys s)) ∧
     (∀ ok, k.recovering = false → exec (.coreReturnToService phys ok) s = .next s) ∧
     (∀ p, tget s.cores.phys phys = some p → p.working = true → p.retired = false → k.ctxs = [] →
       let a := bump 0 phys 9 1 s
       let band := bandOf s (physStrip phys)
       exec (.patternSweep phys false) s = .next (retireCore phys (markBurl phys band (post .coreFault k.part
         [phys, (Config.freeWord (takeFree a).1).toNat, band] (takeFree a).2)))) ∧
     (k.ctxs ≠ [] → exec (.patternSweep phys false) s = .next s) ∧
     exec (.patternSweep phys true) s = .next s) ∧
   (∀ (phys : Nat) (s : State) (c : Nat) (k : Core) (p : Phys), tget s.cores.phys phys = some p → logicalOf s phys = some (c, k) →
     coreOf s c = some k →
     let spares := sparesOf (modPhys phys (fun x => { x with retired := true }) s) (physStrip phys)
     (∀ n r, spares = n :: r → ∃ f, coreOf (retireCore phys s) c = some f ∧ f.phys = some n ∧ f.part = k.part ∧ f.ctxs = [] ∧
       f.scrubbing = k.scrubbing ∧ f.removing = k.removing) ∧
     (spares = [] → ∃ f, coreOf (retireCore phys s) c = some f ∧ f.phys = none ∧ f.part = k.part ∧ f.ctxs = []) ∧
     tget (retireCore phys s).cores.phys phys = some { p with retired := true }))

/-! ## Faults and recovery (chapters 15 and 16) -/

/-- R401, R403, R404, R405, R406, R411: a core of a partition that serves faults or hangs. Its event is posted with
the band of its strip, its contexts are sampled, its items end or go back, it is reset, its bands are marked, and the
third marked band retires it. A fault sends an item back until its third, which kills it, as does one that may not be
replayed; a hang kills. R181, R182, R410, R412, R469: drag mode and the power cap. A sentinel trip, or a junction at
100 °C, takes a strip into drag mode; a trip in drag mode marks its band; it leaves below 97 °C unless the cap imposes
it. Above the cap VDD_CORE goes down, no lower than 0.70 V; there, field after field is dragged, and then dispatch is
held; all of it ends below 95 %. -/
def Obligations.CoreFaultsAndDrag : Prop :=
  ((∀ (phys check : Nat) (s : State) (p : Phys) (c : Nat) (k : Core), tget s.cores.phys phys = some p → p.working = true →
     p.retired = false → logicalOf s phys = some (c, k) → k.recovering = false → (∀ q, k.part = some q → partState s q ≠ .resetting) →
     let band := bandOf s (physStrip phys)
     let stops := fun (row : Instr) (n : Ev) (args : List Nat) (counter cause : Nat) (items : CtxId → State → State) =>
       let a := eachCtx c (fun x t => match ctxOf t x with | some y => tagFaulted x y t | none => t) s
       let b := post n k.part (args ++ [band]) (bump 0 phys counter 1 a)
       exec row s = .next (settle (thirdBand phys (markBurl phys band (resetCore c true (eachCtx c items
         (takeTephra (physField phys) cause false [(c, k)] b))))))
     stops (.coreFault phys check) .coreFault [phys, check] 9 1 faultItem ∧
     stops (.coreHang phys) .coreHang [phys] 10 2 (hangItem 1)) ∧
   (∀ (phys check : Nat) (s : State), (∀ p, tget s.cores.phys phys = some p → p.working = false ∨ p.retired = true) →
     exec (.coreFault phys check) s = .next s ∧ exec (.coreHang phys) s = .next s) ∧
   (∀ (x : CtxId) (s : State) (k : Ctx) (q : Queue) (c : Cmd), ctxOf s x = some k → k.item.coll = none →
     cmdOfItem s k.item = some (q, c) → k.item.engine ≠ 1 →
     let faults := tgetD c.faults k.item.index 0
     (replayable c k = true → faults < 2 → faultItem x s = replayItem x k s) ∧
     (replayable c k = true → 2 ≤ faults → faultItem x s = killItem x k 3 s) ∧
     (replayable c k = false → faultItem x s = killItem x k 2 s) ∧
     hangItem 1 x s = killItem x k 1 s) ∧
   (∀ (core : Nat) (on : Bool) (s : State) (k : Core), coreOf s core = some k →
     coreOf (resetCore core on s) core = some { freshCore k.phys k.part with
       scrubbing := k.scrubbing, removing := k.removing, recovering := on } ∧
     ∀ d, d ≠ core → coreOf (resetCore core on s) d = coreOf s d)) ∧
  ((∀ (strip mC : Nat) (s : State), strip < 64 → dataUp s = true →
     let d := stripAt s strip
     let a := reading 1 strip 11 mC s
     (inDrag d = false → exec (.sentinelTrip strip) s = .next (setStrip strip { d with own := true } (bump 1 strip 10 1 s))) ∧
     (inDrag d = true → exec (.sentinelTrip strip) s =
       .next (setStrip strip { d with own := true } (markStrip strip (bandOf s strip) (bump 1 strip 10 1 s)))) ∧
     (100000 ≤ mC → exec (.junctionDrag strip mC) s = .next (setStrip strip { d with junction := mC, own := true } a)) ∧
     (mC < 100000 → exec (.junctionDrag strip mC) s = .next (setStrip strip { d with junction := mC } a)) ∧
     (mC ≤ 97000 → exec (.dragExit strip mC) s = .next (setStrip strip { d with junction := mC, own := false } a)) ∧
     (97000 < mC → exec (.dragExit strip mC) s = .next (setStrip strip { d with junction := mC } a))) ∧
   (∀ (n : Nat) (d : Drag) (s : State),
     stripAt (setStrip n d s) n = (if inDrag d = true ∧ inDrag (stripAt s n) = false then { d with since := s.timer.toNat } else d) ∧
     (∀ m, m ≠ n → stripAt (setStrip n d s) m = stripAt s m) ∧
     (inDrag d = inDrag (stripAt s n) → (setStrip n d s).mgmt = s.mgmt)) ∧
   (∀ (watts : Nat) (s : State), dataUp s = true → ∃ t, exec (.powerEstimate watts) s = .next t ∧ t.phys.watts = watts ∧
     (s.phys.coolantFell ≠ none → t.phys.vddMv = s.phys.vddMv) ∧
     (s.phys.coolantFell = none → powerCap s < watts → 700 ≤ s.phys.vddMv → 700 ≤ t.phys.vddMv ∧ t.phys.vddMv ≤ s.phys.vddMv) ∧
     (s.phys.coolantFell = none → watts ≤ powerCap s → s.phys.vddMv ≤ t.phys.vddMv ∧ t.phys.vddMv ≤ max s.phys.vddMv (vddTarget s)) ∧
     t.cores = s.cores ∧ t.queues = s.queues ∧ t.pool = s.pool ∧ t.boot = s.boot) ∧
   (∀ (s : State), powerCap s < s.phys.watts → s.phys.vddMv = 700 → s.boot.phase = .ready → s.phys.limiting = true →
     (∀ f, (List.range 8).find? (fun f => (List.range 8).any (fun i => !(stripAt s (8 * f + i)).rtp)) = some f →
       exec .powerLimited s = .next (dragField f s)) ∧
     ((∀ n < 64, (stripAt s n).rtp = true) → exec .powerLimited s = .next { s with phys := { s.phys with hold := true } })) ∧
   (∀ (s : State), s.phys.limiting = true →
     (s.phys.watts * 100 < powerCap s * 95 → exec .powerReleased s = .next (settle (post .powerReleased none [s.phys.watts]
       ([7, 6, 5, 4, 3, 2, 1, 0].foldl (fun t f => liftField f t) { s with phys := { s.phys with hold := false, limiting := false } })))) ∧
     (powerCap s * 95 ≤ s.phys.watts * 100 → exec .powerReleased s = .next s)))

/-- R73, R146, R147, R398 to R400, R409, R437: what faults below a partition do. A unit's fault resets it with its
memory channels, DOMAIN_RESET going to its holders; a channel's is masked unless what lay on it has no other copy; a
copy of a mirrored structure that fails a check degrades it, a second one before its resilver resets the partition; a
resilvered mirror is restored; a scrubbed channel that verifies is counted and one that fails is retired; a field is
isolated once. R172, R367, R369, R409: recovery. The reset of a partition ends with its newest record applied, its
log's tiles poisoned, its areas placed and DOMAIN_UP, then its queue records; one that no longer fits stalls. A
scrubbed resource is idle and what waits for it goes on; the removal timeout kills what still runs on cores that
leave; the standby pair takes over from the one that fails. -/
def Obligations.PartitionFaultsAndRecovery : Prop :=
  ((∀ (p : Nat) (u : PartUnit) (s : State),
     (partState s p ≠ .active → exec (.partitionUnitFault p u) s = .next s) ∧
     (partState s p = .active → exec (.partitionUnitFault p u) s = .next (beginReset p true false s)) ∧
     (∀ x, tget s.parts.parts p = some x → x.state = .active → s.home.parked = [] → s.home.busy = [] → s.groups = [] →
       s.mgmt.waiting = [] → s.cores.cores = [] → s.queues.queues = [] → s.ext.entries = [] → s.ext.invals = [] → s.ext.older = none →
       s.pool.journal = [] → s.home.heldPulls = [] →
       ∃ t y, exec (.partitionUnitFault p u) s = .next t ∧ tget t.parts.parts p = some y ∧ y.state = .resetting ∧ y.unitFault = true ∧
         t.pool = s.pool ∧ t.boot = s.boot)) ∧
   (∀ (c : Nat) (s : State), dataUp s = true → c < 512 →
     let a := retireChannel c s
     ((channelAt s c).retired = true → exec (.channelFault c) s = .next s) ∧
     ((channelAt s c).retired = false → (channelAt s c).part = none → exec (.channelFault c) s = .next a) ∧
     (∀ p x, (channelAt s c).retired = false → (channelAt s c).part = some p → tget s.parts.parts p = some x → x.state = .active →
       let mirror : Bool := x.mirrors.1 == c || x.mirrors.2 == c
       let again : Bool := mirror && s.parts.degraded.any (fun m => mirrorPart m == some p)
       let b := if mirror then degrade p (mirrorsOf p) a else a
       (unmirrored a p x c = true ∨ again = true → exec (.channelFault c) s = .next (beginReset p again (ringOn x c) b)) ∧
       (unmirrored a p x c = false → again = false → exec (.channelFault c) s = .next (dropLines p x c b)))) ∧
   (∀ (c : Nat) (s : State), c < 512 → s.boot.phase = .ready →
     exec (.hbmScrub c true) s = .next (bump 3 c 10 1 s) ∧ exec (.hbmScrub c false) s = exec (.channelFault c) s) ∧
   (∀ (m : Mirror) (s : State) (p : Nat) (x : Part), mirrorPart m = some p → tget s.parts.parts p = some x →
     let ms := placeMirrors s x.channels x.mirrors
     (dataUp s = true → m ∉ s.parts.degraded → exec (.mirrorResilver (.complete m)) s = .next s) ∧
     (∀ copy, dataUp s = true → x.state = .active →
       (m ∉ s.parts.degraded → exec (.mirrorResilver (.failing m copy)) s = .next (degrade p [m] s)) ∧
       (m ∈ s.parts.degraded → exec (.mirrorResilver (.failing m copy)) s = .next (beginReset p true false s))) ∧
     (dataUp s = true → m ∈ s.parts.degraded → (channelAt s ms.1).retired = false → (channelAt s ms.2).retired = false →
       channelField ms.1 ≠ channelField ms.2 → exec (.mirrorResilver (.complete m)) s = .next (post .mirrorRestored (some p) [m.ctorIdx, p]
         (modPart p (fun y => { y with mirrors := ms }) { s with
           free := s.free + 1, parts := { s.parts with degraded := s.parts.degraded.filter (· ≠ m) } })))) ∧
   (∀ (f : Nat) (s : State), dataUp s = true → (s.phys.isolated.getLsbD f = true ∨ 8 ≤ f → exec (.fieldIsolated f) s = .next s) ∧
     (s.phys.isolated.getLsbD f = false → f < 8 → exec (.fieldIsolated f) s = .next (isolateField f s)) ∧
     (s.phys.isolated.getLsbD f = false → f < 8 → s.cores.cores = [] → s.parts.parts = [] → s.ports.ports = [] → s.home.parked = [] →
       s.mgmt.waiting = [] → s.ext.entries = [] → s.ext.older = none →
       (isolateField f s).phys.isolated = s.phys.isolated ||| BitVec.ofNat 8 (1 <<< f) ∧
       ∀ c, c / 64 = f → (channelAt (isolateField f s) c).retired = true))) ∧
  ((∀ (p : Nat) (ok : Bool) (s : State) (x : Part), tget s.parts.parts p = some x →
     let a := applyRecord p (testKeeper p ok s)
     (x.state ≠ .resetting ∨ x.stalled = true → exec (.partitionResetComplete p ok) s = .next s) ∧
     (x.state = .resetting → x.stalled = false → stillFits a p = true → exec (.partitionResetComplete p ok) s =
       .next (settle (endReset p (placeAgain p (emptyPart p (dropClean p (poisonLog p a))))))) ∧
     (x.state = .resetting → x.stalled = false → stillFits a p = false → exec (.partitionResetComplete p ok) s = .next (stall p a))) ∧
   (∀ (p : Nat) (s : State) (k : Nat) (n : Node), tget s.dir.log k = some n → ownerOf s (keySlot k) = p →
     thas (poisonLog p s).dir.poison (tkey (keySlot k) (keyTile k)) = true ∧ tget (poisonLog p s).dir.log k = none) ∧
   (∀ (p : Nat) (s : State) (x : Part), tget s.parts.parts p = some x → s.queues.queues = [] →
     ∃ y, tget (endReset p s).parts.parts p = some y ∧ y.state = .active ∧ y.applied = x.applied) ∧
   (∀ (s : State), s.mgmt.waiting = [] →
     (∀ c, exec (.resourceScrubDone (.core c)) s = .next (settle (modCore c (fun k => { k with scrubbing := false }) s))) ∧
     (∀ c, (channelAt s c).scrubbing = true → exec (.resourceScrubDone (.channel c)) s =
       .next (settle (setChannel c { channelAt s c with scrubbing := false } s))) ∧
     (∀ n, s.home.parked = [] → s.home.busy = [] → exec (.resourceScrubDone (.port n)) s =
       .next (settle { s with parts := { s.parts with portScrub := tdel s.parts.portScrub n } }))) ∧
   (∀ (s : State) (h : Mgmt) (p : Nat) (r : Resources) (c : Nat) (g : PartCfg), s.mgmt.waiting = [.grow h p r] →
     let a := modCore c (fun k => { k with scrubbing := false }) s
     let b : State := { a with mgmt := { a.mgmt with waiting := [] } }
     scrubs a r = false → scrubs b r = false → growCheck b p r = .ok g →
     exec (.resourceScrubDone (.core c)) s = .next (settle (answered h 0x21 s.mgmt.eventSeq .ok [] true (grown p g r b)))) ∧
   (∀ (p : Nat) (s : State),
     ((∀ x ∈ s.cores.cores, x.2.part = some p → x.2.removing = false) → exec (.removalTimeout p) s = .next (settle s)) ∧
     (∀ c k, s.cores.cores = [(c, k)] → k.part = some p → k.removing = true →
       exec (.removalTimeout p) s = .next (settle (eachCtx c (hangItem 4) s)))) ∧
   (∀ (s : State), s.boot.phase = .ready → s.boot.pairOk = (true, true) → s.boot.activePair = 0 ∨ s.boot.activePair = 1 →
     ∃ t, exec .rtpSwitchover s = .next t ∧ t.boot.activePair = 1 - s.boot.activePair ∧
       t.boot.pairOk = (if s.boot.activePair = 0 then (false, true) else (true, false)) ∧ t.pool = s.pool ∧ t.cores = s.cores) ∧
   (∀ (s : State), s.boot.phase = .ready → s.boot.activePair = 0 → s.boot.pairOk = (true, false) →
     exec .rtpSwitchover s = .next { s with boot := { s.boot with pairOk := (false, false) }, mgmt := { s.mgmt with sessions := [], waiting := [] } }))

/-! ## Start, power and the physical device (chapters 17 and 19) -/

/-- R422, R434, R435, R471: power. At power-good, with no working lockstep pair the device stays dark with FAULT_N;
with firmware that verifies in neither slot, or a charter that does not, it waits in recovery mode; else it holds the
firmware and charter of the slots that verify, at the charter's VDD_CORE, and waits for COOLANT_OK. Removing power
keeps flash, fuses and the pool's units, and nothing else of the device's own. R434, R435, R472, R481: the wait for
coolant. COOLANT_OK with every rail in range starts step 7; a rail out of range holds the start until it is in range
again, and a fall of COOLANT_OK takes it back; START_WAIT is posted while it waits. More than eight dead middles leave
the device failed and fenced; else DEVICE_READY is posted. -/
def Obligations.PowerAndStart : Prop :=
  ((∀ (b : Option Board) (ok0 ok1 : Bool) (s : State), s.phys.pwrgd = false →
     let a := provision b (wiped s)
     (∃ t, exec (.powerGood b ok0 ok1) s = .next t ∧ t.phys.pwrgd = true ∧ t.boot.fuses = a.boot.fuses ∧ t.boot.flash = a.boot.flash ∧
       t.boot.bootNonce = Config.freeWord s.free ∧ t.boot.challenge = Config.freeWord (s.free + 1) ∧ t.boot.pairOk = (ok0, ok1) ∧
       t.pool.units = s.pool.units) ∧
     (ok0 = false → ok1 = false → ∃ t, exec (.powerGood b ok0 ok1) s = .next t ∧ t.boot.phase = .dark ∧ t.phys.faultN = true ∧
       t.boot.rtpFw = none ∧ t.boot.charter = none) ∧
     (ok0 = true ∨ ok1 = true → bootImage a .rtp = none → ∃ t, exec (.powerGood b ok0 ok1) s = .next t ∧
       t.boot.phase = .recovery ∧ t.boot.rtpFw = none ∧ t.boot.charter = none) ∧
     (∀ i bi, ok0 = true ∨ ok1 = true → bootImage a .rtp = some (i, bi) → lifecycle a.boot.fuses ≠ 15 → bootImage a .charter = none →
       ∃ t, exec (.powerGood b ok0 ok1) s = .next t ∧ t.boot.phase = .recovery ∧ t.boot.rtpFw = some i ∧ t.boot.charter = none) ∧
     (∀ i bi k bk c, ok0 = true ∨ ok1 = true → bootImage a .rtp = some (i, bi) → lifecycle a.boot.fuses ≠ 15 →
       bootImage a .charter = some (k, bk) → k.content = .charter c →
       ∃ t, exec (.powerGood b ok0 ok1) s = .next t ∧ t.boot.phase = .waitCoolant ∧ t.boot.rtpFw = some i ∧ t.boot.charter = some c ∧
         t.boot.charterImage = some k ∧ t.phys.vddMv = c.device.vddMv)) ∧
   (∀ (s : State), s.phys.pwrgd = true → ∃ t, exec .powerDown s = .next t ∧ t.phys.pwrgd = false ∧ t.boot.phase = .off ∧
     t.boot.fuses = s.boot.fuses ∧ t.boot.flash = s.boot.flash ∧ t.boot.identity = s.boot.identity ∧ t.pool.units = s.pool.units ∧
     t.pool.intent = s.pool.intent ∧ t.cores = State.reset.cores ∧ t.queues = State.reset.queues ∧ t.ext = State.reset.ext ∧
     t.ports = State.reset.ports) ∧
   (∀ (s : State), s.phys.pwrgd = false → exec .powerDown s = .next s) ∧
   (∀ (b : Option Board) (o0 o1 : Bool) (s : State), s.phys.pwrgd = true → exec (.powerGood b o0 o1) s = .next s)) ∧
  ((∀ (t : StartTests) (s : State), waits6 s = true →
     let a : State := { s with phys := { s.phys with coolantOk := true } }
     (s.phys.railsOk = true → exec (.coolantOkAssert t) s = .next (continueStart t a)) ∧
     (s.phys.railsOk = false → exec (.coolantOkAssert t) s = .next { a with boot := { a.boot with tests := some t } }) ∧
     (s.boot.tests = some t → exec .railInRange s = .next (continueStart t { s with phys := { s.phys with railsOk := true } })) ∧
     (s.boot.tests = none → exec .railInRange s = .next { s with phys := { s.phys with railsOk := true } }) ∧
     exec .coolantOkFallBeforeReady s =
       .next { s with phys := { s.phys with coolantOk := false }, boot := { s.boot with tests := none } } ∧
     exec .startWait s = .next (post .startWait none [] s)) ∧
   (∀ (t : StartTests) (s : State), waits6 s = false → exec (.coolantOkAssert t) s = .next s ∧ exec .railInRange s = .next s ∧
     exec .coolantOkFallBeforeReady s = .next s ∧ exec .startWait s = .next s) ∧
   (∀ (t : StartTests) (s : State) (c : Charter), s.boot.charter = some c →
     let dead := (t.deadMiddles.filter (decide <| · < 384)).eraseDups
     let begun : State := { s with boot := { s.boot with tests := none } }
     let tested := testBanks t.badBanks (modSp (fun p => { p with dead := dead }) (mapCores t (testChannels t.badChannels begun)))
     (8 < dead.length → ∃ u, continueStart t s = fenceDevice u ∧ u.boot.phase = .failed ∧ u.spindle.stopped = true) ∧
     (dead.length ≤ 8 → continueStart t s = bringUp t c tested ∧
       ∃ u, continueStart t s = post .deviceReady none [] u ∧ u.boot.leaseMs = some c.device.leaseMs)))

/-- R469, R470, R472, R474, R476, R479, R480: pins and sensors. A rail out of range fences a ready device with
FAULT_N, and holds one that waits; VR_ALERT is that of rail 0. A lost reference clock fences, faults the ports of its
field, or ends management sessions. Low coolant takes VDD_CORE to 0.70 V and gives it back, or fences after 2 s; a hot
stack is noted; a thermal trip stops the data hierarchy with THERMTRIP_N. -/
def Obligations.PhysicalEvents : Prop :=
  (∀ (rail : Nat) (s : State),
    (s.boot.phase = .ready → exec (.railFault rail) s =
      .next (fenceDevice (post .railFault none [rail] { s with phys := { s.phys with faultN := true } }))) ∧
    (s.boot.phase = .waitCoolant → exec (.railFault rail) s = .next { s with phys := { s.phys with railsOk := false } }) ∧
    exec .vrAlert s = exec (.railFault 0) s) ∧
  (∀ (s : State), s.boot.phase = .ready → s.phys.refSys = true →
    let a : State := { s with phys := { s.phys with refSys := false, faultN := true } }
    (mgmtUp s = true → exec .refclkSysLoss s = .next (fenceDevice (post .railFault none [8] a))) ∧
    (mgmtUp s = false → exec .refclkSysLoss s = .next (fenceDevice a))) ∧
  (∀ (f : Nat) (s : State), f < 8 → dataUp s = true →
    let a : State := { s with phys := { s.phys with refField := s.phys.refField &&& ~~~ BitVec.ofNat 8 (1 <<< f) } }
    exec (.refclkFieldLoss f) s = .next (((List.range 24).map (fun i => 24 * f + i)).foldl (fun t n => faultPort n t) a) ∧
    a.phys.refField.getLsbD f = false) ∧
  (∀ (s : State), mgmtUp s = true → exec .refclkMgmtLoss s =
    .next { s with phys := { s.phys with refMgmt := false }, mgmt := { s.mgmt with sessions := [] } }) ∧
  (∀ (s : State), s.boot.phase = .ready →
    (s.phys.coolantFell = none → exec .coolantLost s = .next (post .coolantLost none [] { s with phys := { s.phys with
      coolantOk := false, coolantFell := some s.phys.vddMv, vddMv := 700 } })) ∧
    (∀ mv, s.phys.coolantFell = some mv →
      exec .coolantRestored s = .next (post .coolantRestored none [] { s with phys := { s.phys with
        coolantOk := true, coolantFell := none, vddMv := mv } }) ∧
      exec .coolantFence s = .next (fenceDevice { s with phys := { s.phys with coolantFell := none, faultN := true } })) ∧
    (s.phys.coolantFell = none → exec .coolantRestored s = .next s ∧ exec .coolantFence s = .next s)) ∧
  (∀ (k : Nat) (s : State), k < 16 → dataUp s = true → ∃ t, exec (.stackHot k) s = .next t ∧ t.phys.stackHot.getLsbD k = true ∧
    { t with phys := { t.phys with stackHot := s.phys.stackHot } } = s) ∧
  (∀ (s : State), dataUp s = true → ∃ t, exec .thermalTrip s = .next t ∧ t.boot.phase = .tripped ∧ t.boot.fenced = true ∧
    t.phys.thermtripN = true ∧ t.phys.faultN = true ∧ dataUp t = false ∧ t.out = [] ∧ t.home = HomeSt.reset ∧ t.spindle.stopped = true ∧
    (∀ n, linkUp t n = false) ∧ (∀ q ∈ t.queues.queues, q.2.state = .disabled ∧ q.2.cmds = []) ∧
    (∀ c ∈ t.cores.cores, c.2.ctxs = []) ∧ t.pool = s.pool ∧ t.ext = s.ext ∧ t.boot.fuses = s.boot.fuses)

/-! ## Management (chapter 15) -/

/-- R382, R383, R384: what meets every management request before its own rule: a repeated REQ_ID is answered from the
log, a reserved CODE with ST_OPCODE, one that the session may not send with ST_NO_ACCESS, an ill length with ST_STATE;
the answer is logged. A request of a code that R384 defines, of a fabric manager at a ready device, meets none of
them. -/
def Obligations.RequestsAdmitted : Prop :=
  (∀ (h : Mgmt) (s : State) (k : Session), tget s.mgmt.sessions h.sess = some k →
    (∀ r, k.log.find? (fun y => y.reqId == h.reqId) = some r →
      exec (.partRead h 0) s = .next { s with replies := s.replies ++ [r] } ∧
      exec (.kernelList h) s = .next { s with replies := s.replies ++ [r] }) ∧
    (∀ code, k.log.find? (fun y => y.reqId == h.reqId) = none → s.mgmt.waiting.any (waitsAs h) = false → codeDefined code = false →
      exec (.mgmtReservedCode h code) s = .next (reply h code .opcode [] 0 s)) ∧
    (∀ slot, k.log.find? (fun y => y.reqId == h.reqId) = none → s.mgmt.waiting.any (waitsAs h) = false →
      (∀ p, k.kind = .supervisor p → exec (.readExtent h slot) s = .next (reply h 0x39 .noAccess [] 0 s)) ∧
      (k.kind = .fm → s.boot.fenced = false → s.boot.phase = .ready → h.lenOk = false →
        exec (.readExtent h slot) s = .next (reply h 0x39 .state [] 0 s)))) ∧
  (∀ (s : State) (code part : Nat), s.boot.fenced = false → s.boot.phase = .ready →
    (codeDefined code = true → refusal s .fm code part = none) ∧ (codeDefined code = false → refusal s .fm code part = some .opcode) ∧
    (∀ p, codeDefined code = true → (svCode code = false ∨ part ≠ p) → refusal s (.supervisor p) code part = some .noAccess)) ∧
  (∀ (h : Mgmt) (code q0 : Nat) (st : St) (body : List Nat) (change : Bool) (s : State) (k : Session),
    tget s.mgmt.sessions h.sess = some k →
    let r : Reply := { sess := h.sess, reqId := h.reqId, code := code, status := st, evSeq := if change then q0 else 0, body := body }
    let log := k.log ++ [r]
    (answered h code q0 st body change s).replies = s.replies ++ [r] ∧
    tget (answered h code q0 st body change s).mgmt.sessions h.sess = some { k with log := log.drop (log.length - 256) }) ∧
  (∀ (cert : Cert) (h : Mgmt) (s : State), 1 ≤ cert.kind.toNat → cert.kind.toNat ≤ 5 → exec (.certSubmitReservedKind h cert) s = .next s)

/-- R35, R36, R38, R46, R48, R111 to R113: extent operations. A request of one operation, or a batch, that need not
wait is carried out in one step and answered with what it answers; one that installs waits while the older epoch lives
(R50). -/
def Obligations.ExtentRequests : Prop :=
  ∀ (h : Mgmt) (s : State), Requests h s →
    let one := fun (c : Instr) (code : Nat) (o : ExtentOp) =>
      (mustWait [o] s = false → exec c s = .next (runBatch h code [o] s)) ∧
      (mustWait [o] s = true → exec c s = .next { s with mgmt := { s.mgmt with waiting := s.mgmt.waiting ++ [.batch h code [o]] } })
    (∀ slot mode owner group base hs, one (.attach h slot mode owner group base hs) 0x30 (.attach slot mode owner group base hs)) ∧
    (∀ slot hs, one (.grow h slot hs) 0x31 (.grow slot hs)) ∧
    (∀ slot ns d, one (.revokeNotice h slot ns d) 0x32 (.notice slot ns d)) ∧
    (∀ slot ns, one (.revokeCancel h slot ns) 0x33 (.cancel slot ns)) ∧
    (∀ slot ns f, one (.revokeForce h slot ns f) 0x34 (.force slot ns f)) ∧
    (∀ slot, one (.releaseExt h slot) 0x35 (.release slot) ∧ one (.rehomeFinish h slot) 0x38 (.rehomeFinish slot) ∧
      one (.readExtent h slot) 0x39 (.readExtent slot) ∧ one (.revokeLease h slot) 0x3C (.revokeLease slot) ∧
      one (.discardOpen h slot) 0x3D (.discardOpen slot)) ∧
    (∀ slot n ss e g b, one (.rehomeIn h slot n ss e g b) 0x36 (.rehomeIn slot n ss e g b)) ∧
    (∀ slot n ds e, one (.rehomeOut h slot n ds e) 0x37 (.rehomeOut slot n ds e)) ∧
    (∀ slot p, one (.grantLease h slot p) 0x3B (.grantLease slot p)) ∧
    (∀ ms, one (.setRecallTimeout h ms) 0x3F (.setRecallTimeout ms)) ∧
    (∀ ops, ops ≠ [] → ops.length ≤ 4096 →
      (mustWait ops s = false → exec (.batch h ops) s = .next (runBatch h 0x3A ops s)) ∧
      (mustWait ops s = true → exec (.batch h ops) s = .next { s with mgmt := { s.mgmt with waiting := s.mgmt.waiting ++ [.batch h 0x3A ops] } }))

/-- R31, R35, R36, R37, R40, R53, R111, R112, R113, R46: what each extent operation does when it is legal. -/
def Obligations.ExtentOperations : Prop :=
  ∀ (slot : Nat) (s : State),
    let ok := fun (r : OpRes) (installs : Bool) (t : State) => r = doneOp slot installs t
    (∀ mode owner group base hs, slot ≤ 262143 → extOf s slot = none → modeGranted s owner (modeOf mode) = true → grantedBase s owner group base = true →
      holdersBad s owner (modeOf mode) [] hs = none → backingUsed s group base = false → groupUp s group = true →
      ok (opAttach slot mode owner group base hs s) true
        (setExt slot (newExtent (modeOf mode) owner group base slot (addHolders [] hs []) s) s)) ∧
    (∀ mode owner group base hs, extOf s slot ≠ none ∨ 262143 < slot → opAttach slot mode owner group base hs s = refusedOp .state s) ∧
    (∀ e, extOf s slot = some e →
      (∀ hs, live e = true → holdersBad s e.owner e.mode e.holders hs = none →
        ok (opGrow slot hs s) true (setExt slot { e with holders := addHolders e.dead hs e.holders, state := .active } s)) ∧
      (∀ ns d, live e = true → namedOk e ns = true → e.state = .active →
        let hs := e.holders.map (fun h => if ns.contains h.node then { h with hstate := .noticed } else h)
        ok (opNotice slot ns d s) false (postHosts e.owner 0x01 slot ns.eraseDups d
          (setExt slot { e with holders := hs, deadline := d, state := noticeState hs } s))) ∧
      (∀ ns, live e = true → namedOk e ns = true →
        let hs := e.holders.map (fun h => if ns.contains h.node && h.hstate == .noticed then { h with hstate := .attached } else h)
        ok (opCancel slot ns s) false (setExt slot { e with
          holders := hs, deadline := if hs.any (fun h => h.hstate == .noticed) then e.deadline else 0, state := noticeState hs } s)) ∧
      (∀ ns, live e = true → namedOk e ns = true → ok (opForce slot ns false s) true (forcePoint slot e ns.eraseDups false s)) ∧
      (∀ ns, live e = true → ok (opForce slot ns true s) true
        (forcePoint slot e ((e.holders.filter (fun h => h.hstate ≠ .forced)).map (·.node)) true s)) ∧
      (e.state = .active → e.holders = [] → e.leaseValid = false →
        opRelease slot s = { st := .ok, body := [], installs := true, s := freeSlot slot s }) ∧
      (e.state ≠ .active ∨ e.holders ≠ [] ∨ e.leaseValid = true → opRelease slot s = refusedOp .state s) ∧
      (∀ n d v, e.state = .active → ok (opRehomeOut slot n d v s) true
        (setExt slot { e with state := .migrating, fwdNode := n, fwdSlot := d, homeEpoch := v } s)) ∧
      (e.state ≠ .migrating ∨ allHanded s slot = false → opRehomeFinish slot s = refusedOp .state s) ∧
      (e.state = .migrating → allHanded s slot = true → opRehomeFinish slot s = { st := .ok, body := [], installs := true, s := freeSlot slot s }) ∧
      (∀ p, grants s p e.owner (·.lease) = true → e.mode = .versioned → live e = true → e.leaseValid = false →
        let e1 := { e with leasePart := p, leaseValid := true }
        ok (opGrantLease slot p s) false (postLease .leaseGranted 0x08 slot e1 (setExt slot e1 s))) ∧
      (e.leaseValid = true → ok (opRevokeLease slot s) false (postLease .leaseLost 0x09 slot e (setExt slot { e with leaseValid := false } s))) ∧
      (e.leaseValid = false → layerOpen e = true → e.publishing = none → ok (opDiscard slot s) false (startDiscard slot s)) ∧
      (∀ n ss v g b, opRehomeIn slot n ss v g b s = refusedOp .state s)) ∧
    (∀ n ss v g b, slot ≤ 262143 → extOf s slot = none → groupUp s g = true → backingUsed s g b = false → n ≠ myNode s →
      s.boot.takenOver.any (fun x => x.1 == n) = false →
      ∃ e, ok (opRehomeIn slot n ss v g b s) true (askPull e 0 6 1 0 (setExt slot e s)) ∧ e.state = .arriving ∧ e.known = false ∧
        e.fwdNode = n ∧ e.fwdSlot = ss ∧ e.homeEpoch = v ∧ e.group = g ∧ e.base = b ∧ e.holders = []) ∧
    (∀ ms c, s.boot.charter = some c →
      (c.device.recallMin ≤ ms → ms ≤ c.device.recallMax → (opRecallTimeout ms s).s = { s with ext := { s.ext with recallMs := ms } }) ∧
      (ms < c.device.recallMin ∨ c.device.recallMax < ms → opRecallTimeout ms s = refusedOp .state s)) ∧
    extOf (freeSlot slot s) slot = none ∧
    (∀ n, n ≠ slot → extOf (freeSlot slot s) n = extOf s n)

/-- R371, R376, R378, R377, R386: what the root of trust answers. ATTEST returns the signed report, a supervisor's for
its partition alone; IDENTITY_CERT the certificate; LEASE_CHALLENGE the two numbers drawn; COMMIT_SVN blows the fuses
that reach the running image's SVN, and for a charter the revoke fuses that it lists, unless a slot among them signed
a running image; a fuse that fails to blow completes it with ST_STATE and FUSE_FAULT. -/
def Obligations.TrustRequests : Prop :=
  ∀ (h : Mgmt),
    (∀ (kind : SessKind) (nonce : BitVec 256), MaySend h kind →
      let only := match kind with | .supervisor p => some p | _ => none
      Answers (.attest h nonce) h kind 0x10 (fun s => lifecycle s.boot.fuses ≠ 15) .ok (fun s =>
        let r := reportBytes s nonce only
        r ++ beBytes 384 (rsaSign (Config.identityKey (deviceSeed s.boot.fuses)) (Config.pssSalt s.free) r)) false
        (fun s => { s with free := s.free + 1 }) ∧
      Refuses (.attest h nonce) h kind 0x10 (fun s => lifecycle s.boot.fuses = 15) .state ∧
      Answers (.identityCert h) h kind 0x11 (fun _ => True) .ok (fun s => s.boot.identity.map (·.toNat)) false (fun s => s)) ∧
    Answers (.leaseChallenge h) h .fm 0x13 (fun _ => True) .ok (fun s => [s.boot.bootNonce.toNat, s.boot.challenge.toNat]) false (fun s => s) ∧
    (∀ type, 1 ≤ type → type ≤ 3 →
      let rev := fun s : State => if type = 3 then (match s.boot.charter with | some c => revokeFuses s.boot.fuses c | none => []) else []
      let all := fun s : State => svnFuses s.boot.fuses type (runningSvn s type) ++ rev s
      Changes (.commitSvn h type true) h 0x14 (fun s => (rev s).any (signingFuses s).contains = false)
        (fun s => { s with boot := { s.boot with fuses := blow (all s) s.boot.fuses } }) ∧
      Changes (.commitSvn h type false) h 0x14 (fun s => (rev s).any (signingFuses s).contains = false ∧ all s = []) (fun s => s) ∧
      (∀ b, Refuses (.commitSvn h type b) h .fm 0x14 (fun s => (rev s).any (signingFuses s).contains = true) .state) ∧
      Answers (.commitSvn h type false) h .fm 0x14 (fun s => (rev s).any (signingFuses s).contains = false ∧ all s ≠ []) .state
        (fun _ => []) true (fun s => post .fuseFault none [type] { s with
          free := s.free + 1,
          boot := { s.boot with fuses := blow ((all s).take ((Config.freeWord s.free).toNat % (all s).length)) s.boot.fuses } })) ∧
    (∀ type b, type = 0 ∨ 3 < type → Refuses (.commitSvn h type b) h .fm 0x14 (fun _ => True) .state)

/-- R371, R376: fuses can only be blown: those named are blown, and every other stays as it was; the fuses that
COMMIT_SVN blows take a field's count to the SVN given, never beyond it, never beyond 64. -/
def Obligations.FusesReachTheSvn : Prop :=
  (∀ (l : List Nat) (f : BitVec 4096) (i : Nat), i < 4096 → (blow l f).getLsbD i = (f.getLsbD i || l.contains i)) ∧
  (∀ (f : BitVec 4096) (type n : Nat), 1 ≤ type → type ≤ 3 →
    svnCount (blow (svnFuses f type n) f) type = max (svnCount f type) (min n 64) ∧
    ∀ i ∈ svnFuses f type n, svnBase type ≤ i ∧ i < svnBase type + 64)

/-- R442, R443, R445: images in service. FLASH_WRITE writes a slot, the identity area only before deployment;
FLASH_ACTIVATE checks slot A, and a charter takes effect at once where its device sections are the running ones, else
at the next start; ENGINE_FW_UPDATE makes an image current in each partition named that can take it. -/
def Obligations.ImageRequests : Prop :=
  ∀ (h : Mgmt),
    (∀ (slot : FlashSlot) (d : FlashData),
      let barred := fun s : State => slot = .identity ∧ lifecycle s.boot.fuses ≠ 1 ∧ lifecycle s.boot.fuses ≠ 3
      Changes (.flashWrite h slot d) h 0x15 (fun s => ¬ barred s ∧ writeFits slot d = true) (flashed slot d) ∧
      Refuses (.flashWrite h slot d) h .fm 0x15 barred .noAccess ∧
      Refuses (.flashWrite h slot d) h .fm 0x15 (fun s => ¬ barred s ∧ writeFits slot d = false) .state) ∧
    (∀ i, Changes (.flashActivate h 1 false) h 0x16 (fun s => slotCheck s (.rtp false) = .ok i) (fun s => s)) ∧
    (∀ (i : Image) (c : Charter), i.content = .charter c →
      Changes (.flashActivate h 3 false) h 0x16 (fun s => slotCheck s (.charter false) = .ok i ∧ ∃ o, s.boot.charter = some o ∧ sameDevice o c = true)
        (fun s => post .charterActivated none [i.block.version.toNat] { s with boot := {
          s.boot with charter := some c, charterImage := some i, fwSlots := s.boot.fwSlots &&& 0x7D } }) ∧
      Changes (.flashActivate h 3 false) h 0x16 (fun s => slotCheck s (.charter false) = .ok i ∧ ∃ o, s.boot.charter = some o ∧ sameDevice o c = false)
        (fun s => post .charterStaged none [i.block.version.toNat] { s with boot := { s.boot with staged := some i } })) ∧
    (∀ st, Refuses (.flashActivate h 1 false) h .fm 0x16 (fun s => slotCheck s (.rtp false) = .error st) st ∧
      Refuses (.flashActivate h 3 false) h .fm 0x16 (fun s => slotCheck s (.charter false) = .error st) st) ∧
    (∀ kind b, b = true ∨ (kind ≠ 1 ∧ kind ≠ 3) → Refuses (.flashActivate h kind b) h .fm 0x16 (fun _ => True) .state) ∧
    (∀ (e : Nat) (b : Bool) (ps : BitVec 16) (i : Image), 1 ≤ e → e ≤ 5 →
      let l := (List.range 16).filter (fun p => ps.getLsbD p)
      let ok := fun s : State => slotCheck s (.engine e b) = .ok i ∧ ∀ p ∈ l, canUpdate s p e = true
      Changes (.engineFwUpdate h e b ps false) h 0x17 ok (fun s => l.foldl (fun u p => updateFw e i p u) s) ∧
      (∀ s, Requests h s → ok s → ∃ t, exec (.engineFwUpdate h e b ps true) s = .next (answered h 0x17 s.mgmt.eventSeq .ok [] true t) ∧
        tget t.boot.engineFw e = some i ∧ t.boot.fwSlots.getLsbD (e + 1) = b ∧
        t.parts = (l.foldl (fun u p => updateFw e i p u) s).parts) ∧
      (∀ all, Refuses (.engineFwUpdate h e b ps all) h .fm 0x17
        (fun s => slotCheck s (.engine e b) = .ok i ∧ ∃ p ∈ l, canUpdate s p e = false) .state)) ∧
    (∀ e b ps all st, 1 ≤ e → e ≤ 5 →
      Refuses (.engineFwUpdate h e b ps all) h .fm 0x17 (fun s => slotCheck s (.engine e b) = .error st) st) ∧
    (∀ e b ps all, e = 0 ∨ 5 < e → Refuses (.engineFwUpdate h e b ps all) h .fm 0x17 (fun _ => True) .state)

/-- R386, R387, R388: CERT_SUBMIT. A certificate that passes the checks is accepted, posts CERT_ACCEPTED and has the
effect of its kind; one that fails has none, and its first failing check gives the status, a reserved KIND's with
ST_OPCODE. -/
def Obligations.CertificateEffects : Prop :=
  ∀ (h : Mgmt) (c : Cert),
    let passes := fun s : State => certCheck s c true = none
    let one := fun (kind : Nat) (i : Instr) (eff : State → State) =>
      c.kind.toNat = kind → Changes i h 0x12 passes (fun s => eff (acceptCert c s)) ∧
        ∀ st, Refuses i h .fm 0x12 (fun s => certCheck s c true = some st) st
    one 1 (.expelNode h c) (hostDead c.target) ∧
    one 2 (.readmitNode h c) (fun t => { t with boot := { t.boot with expelled := t.boot.expelled.filter (· ≠ c.target) } }) ∧
    one 3 (.fenceDevice h c) fenceDevice ∧
    one 4 (.renewLease h c) (fun t => { t with
      free := t.free + 1, boot := { t.boot with leaseMs := some (leaseOf t c), challenge := Config.freeWord t.free } }) ∧
    (∀ silent refusing, one 5 (.takeover h c silent refusing) (takeOver c.target (c.certSeq.toNat % 2 ^ 32) silent refusing)) ∧
    (c.kind.toNat = 0 ∨ 5 < c.kind.toNat →
      Refuses (.certSubmitReservedKind h c) h .fm 0x12 (fun _ => True) .opcode) ∧
    (∀ s, s.boot.phase = .ready → s.boot.leaseMs.isSome = true → exec .leaseExpiry s = .next (fenceDevice s)) ∧
    (∀ s, s.boot.leaseMs = none → exec .leaseExpiry s = .next s) ∧
    (∀ s, (acceptCert c s).boot.certSeq = some c.certSeq) ∧
    (∀ s q, s.boot.certSeq = some q → certCheck s c true = none → q.toNat < c.certSeq.toNat) ∧
    (∀ s, s.boot.fenced = true → certCheck s c true = none → False)

/-- R364, R365, R366, R367, R409: operations on partitions. A compose or grow that is legal joins its resources at
once, or waits for those that scrub; a shrink starts; a reset begins; a dissolve frees; a read returns; what is not
legal is refused and changes nothing. -/
def Obligations.PartitionRequests : Prop :=
  ∀ (h : Mgmt) (part : Nat) (r : Resources),
    let waits := fun (s : State) (w : MgmtWait) => { s with mgmt := { s.mgmt with waiting := s.mgmt.waiting ++ [w] } }
    (∀ c t, part < 16 →
      Changes (.partCompose h part r) h 0x20 (fun s => composeCheck s part r = .ok (c, t) ∧ scrubs s r = false) (composed part c t r) ∧
      ∀ s, Requests h s → composeCheck s part r = .ok (c, t) → scrubs s r = true →
        exec (.partCompose h part r) s = .next (waits s (.compose h part r))) ∧
    (∀ st, part < 16 → Refuses (.partCompose h part r) h .fm 0x20 (fun s => composeCheck s part r = .error st) st) ∧
    (16 ≤ part → Refuses (.partCompose h part r) h .fm 0x20 (fun _ => True) .state) ∧
    (∀ c, Changes (.partGrow h part r) h 0x21 (fun s => growCheck s part r = .ok c ∧ scrubs s r = false) (grown part c r) ∧
      ∀ s, Requests h s → growCheck s part r = .ok c → scrubs s r = true →
        exec (.partGrow h part r) s = .next (waits s (.grow h part r))) ∧
    (∀ st, Refuses (.partGrow h part r) h .fm 0x21 (fun s => growCheck s part r = .error st) st) ∧
    (∀ s, Requests h s → shrinkOk s part r = true → exec (.partShrink h part r) s = .next (startShrink h part r s)) ∧
    Refuses (.partShrink h part r) h .fm 0x22 (fun s => shrinkOk s part r = false) .state ∧
    Changes (.partReset h part) h 0x23 (fun s => partState s part = .active) (beginReset part false false) ∧
    Refuses (.partReset h part) h .fm 0x23 (fun s => partState s part ≠ .active) .state ∧
    Changes (.partDissolve h part) h 0x24 (fun s => dissolveOk s part = true) (dissolve part) ∧
    Refuses (.partDissolve h part) h .fm 0x24 (fun s => dissolveOk s part = false) .state ∧
    (part < 16 → Answers (.partRead h part) h .fm 0x25 (fun _ => True) .ok (fun s => partVals s part) false (fun s => s)) ∧
    (16 ≤ part → Refuses (.partRead h part) h .fm 0x25 (fun _ => True) .state)

/-- R150, R235, R384, R486: queues and kernels, from a fabric manager or the partition's supervisor. A queue is
created empty under its rules and destroyed when nothing of it is left; a kernel image is checked in order, loaded in
the area's room, and the one before it retires. -/
def Obligations.QueueAndKernelRequests : Prop :=
  ∀ (h : Mgmt) (kind : SessKind), MaySend h kind →
    (∀ (q engine depth : Nat) (sub : Node) (prio : Nat),
      let c := Instr.queueCreate h q engine depth sub prio
      let may := fun s : State => queueAssigned s h.part q = true ∧ foreignHost s h.part sub = false
      let fits := fun s : State => queueOf s q = none ∧ (1 ≤ engine ∧ engine ≤ 5) ∧ depthOk depth = true ∧ prio ≤ 3 ∧ hasFw s h.part engine = true
      Answers c h kind 0x50 (fun s => may s ∧ fits s) .ok (fun _ => []) true (fun s => { s with queues := { s.queues with
        queues := tset s.queues.queues q (newQueue h.part engine depth sub prio) } }) ∧
      Refuses c h kind 0x50 (fun s => ¬ may s) .noAccess ∧ Refuses c h kind 0x50 (fun s => may s ∧ ¬ fits s) .state) ∧
    (∀ (qn : Nat) (q : Queue),
      Answers (.queueDestroy h qn) h kind 0x51 (fun s => queueOf s qn = some q ∧ q.part = h.part ∧ q.written = q.head ∧ q.cmds = []) .ok
        (fun _ => []) true (fun s => { s with queues := { s.queues with queues := tdel s.queues.queues qn } }) ∧
      Refuses (.queueDestroy h qn) h kind 0x51 (fun s => queueOf s qn = some q ∧ q.part ≠ h.part) .noAccess ∧
      Refuses (.queueDestroy h qn) h kind 0x51
        (fun s => queueOf s qn = some q ∧ q.part = h.part ∧ (q.written ≠ q.head ∨ q.cmds ≠ [])) .state) ∧
    (∀ (qn : Nat),
      Refuses (.queueDestroy h qn) h kind 0x51 (fun s => queueOf s qn = none ∧ queueAssigned s h.part qn = true) .state ∧
      Refuses (.queueDestroy h qn) h kind 0x51 (fun s => queueOf s qn = none ∧ queueAssigned s h.part qn = false) .noAccess) ∧
    (∀ (handle : Nat) (i : KernelImage),
      let c := Instr.kernelLoad h handle i
      let room := fun s : State => kernelUse (freeImages h.part s) h.part + i.length ≤ kernelArea s h.part
      let form := imageForm i = true
      let whole := i.digest = sha256 (imageBytes i)
      (handle ≤ 63 → form → whole → Answers c h kind 0x52 (fun s => imageTrusted s i = true ∧ room s) .ok (fun _ => []) true (fun s =>
        let u := freeImages h.part s
        freeImages h.part (setKernel h.part handle (retireCurrent (kernelOf u h.part handle) (some i)) u))) ∧
      (63 < handle → Refuses c h kind 0x52 (fun _ => True) .state) ∧
      (handle ≤ 63 → ¬ form → Refuses c h kind 0x52 (fun _ => True) .opcode) ∧
      (handle ≤ 63 → form → ¬ whole → Refuses c h kind 0x52 (fun _ => True) .checksum) ∧
      (handle ≤ 63 → form → whole → Refuses c h kind 0x52 (fun s => imageTrusted s i = false) .noAccess ∧
        Refuses c h kind 0x52 (fun s => imageTrusted s i = true ∧ ¬ room s) .state)) ∧
    (∀ (handle : Nat),
      let has := fun s : State => (kernelOf s h.part handle).current.isSome = true
      (handle ≤ 63 → Answers (.kernelUnload h handle) h kind 0x53 has .ok (fun _ => []) true (fun s =>
        freeImages h.part (setKernel h.part handle (retireCurrent (kernelOf s h.part handle) none) s))) ∧
      Refuses (.kernelUnload h handle) h kind 0x53 (fun s => 63 < handle ∨ ¬ has s) .state) ∧
    Answers (.kernelList h) h kind 0x54 (fun _ => True) .ok (fun s => ((List.range 64).map (kernelVals s h.part)).flatten) false (fun s => s)

/-- R97, R98, R130, R141, R144, R248, R347, R356: sources, stripe groups, collective groups, routes and ports. R356:
what ROUTE_SET writes. An entry whose valid slots all name trunks, or ports whose peer's HELLO gave the node, is
replaced whole and reads back; any other is refused and not written; no other entry changes; entry 0xFFFF always reads
UNREACHABLE. -/
def Obligations.RoutesAndRegistries : Prop :=
  (∀ (h : Mgmt),
     (∀ src, Changes (.resetSource h src) h 0x3E (fun _ => True) (fun s => settle (resetLedger src s))) ∧
     (∀ g, (g < 256 → Answers (.readGroup h g) h .fm 0x40 (fun _ => True) .ok (fun s => groupEntry s g) false (fun s => s)) ∧
       (256 ≤ g → Refuses (.readGroup h g) h .fm 0x40 (fun _ => True) .state)) ∧
     (∀ (gi pos : Nat) (n : Node) (g g1 : Group),
       Changes (.replaceModule h gi pos n) h 0x41 (fun s => groupOf s gi = some g ∧ replaceAt g pos n = some g1)
         (fun s => settle (modGroup gi (fun _ => g1) (failBroken gi g s))) ∧
       Refuses (.replaceModule h gi pos n) h .fm 0x41
         (fun s => groupOf s gi = none ∨ (groupOf s gi = some g ∧ replaceAt g pos n = none)) .state) ∧
     (∀ (e : GroupEntry) (ch : List Child) (st : St), Answers (.groupRegister h e ch) h .fm 0x58 (fun s => (registerGroup e ch s).1 = st) st
       (fun _ => []) (st == .ok) (fun s => (registerGroup e ch s).2)) ∧
     (∀ (id : BitVec 48) (st : St), Answers (.groupRelease h id) h .fm 0x59 (fun s => (releaseGroup id s).1 = st) st
       (fun _ => []) (st == .ok) (fun s => (releaseGroup id s).2)) ∧
     (∀ (id : BitVec 48), Answers (.groupRead h id) h .fm 0x5A (fun s => (cgOf s id).isSome = true) .ok
       (fun s => match cgOf s id with | some g => groupVals g | none => []) false (fun s => s) ∧
       Refuses (.groupRead h id) h .fm 0x5A (fun s => cgOf s id = none) .state) ∧
     (∀ (l : List (Node × Route)), l ≠ [] → l.length ≤ 4096 → (∀ x ∈ l, routeIn x.2 = true) →
       ∀ s, Requests h s →
         let r := setRoutes l s
         exec (.routeSet h l) s =
           .next (answered h 0x60 s.mgmt.eventSeq .ok (r.1.map (fun x => (stCode x).toNat)) (r.1.contains .ok) r.2)) ∧
     (∀ (l : List (Node × Route)), l = [] ∨ 4096 < l.length ∨ (∃ x ∈ l, routeIn x.2 = false) →
       Refuses (.routeSet h l) h .fm 0x60 (fun _ => True) .state) ∧
     (∀ l, Answers (.routeRead h l) h .fm 0x61 (fun _ => True) .ok (fun s => (l.map (routeVals s)).flatten) false (fun s => s)) ∧
     (∀ n, Changes (.portReset h n) h 0x62 (fun s => portRole s n ≠ .unused ∧ canonPort s n = n)
         (fun s => (halves s n).foldl (fun u l => train l (faultPort l u)) s) ∧
       Refuses (.portReset h n) h .fm 0x62 (fun s => portRole s n = .unused ∨ canonPort s n ≠ n) .state)) ∧
  (∀ (n : Node) (r : Route) (s : State),
     let ok := (List.range 4).all (fun k => !r.valid.getLsbD k || routePortOk s n (r.ports.getD k 255))
     (ok = true → n ≠ noNode → setRoute (n, r) s = (.ok, (setRoute (n, r) s).2) ∧
       tget (setRoute (n, r) s).2.ports.routes n.toNat = some r ∧
       routeVals (setRoute (n, r) s).2 n = r.ports ++ [r.valid.toNat, r.kind]) ∧
     (ok = false → setRoute (n, r) s = (.state, s)) ∧
     (∀ m, m ≠ n → tget (setRoute (n, r) s).2.ports.routes m.toNat = tget s.ports.routes m.toNat) ∧
     (ok = true → n = noNode → setRoute (n, r) s = (.ok, s)) ∧
     (∀ tx : Tx, tx.dst = noNode → routePort s tx = none))

/-- R448, R451, R454, R458, R459, R460, R463, R465: observation. Counters are programmed and zeroed, windows set; a
read takes a snapshot, a supervisor's of what it may see; sampling and sinks are configured; windows end; records
leave. -/
def Obligations.ObservationRequests : Prop :=
  (∀ (h : Mgmt),
    (∀ type lo hi idx (c : Control), (programOk type lo hi idx c = true →
        Changes (.counterConfig h (.program type lo hi idx c)) h 0x70 (fun _ => True) (program type lo hi idx c)) ∧
      (programOk type lo hi idx c = false → Refuses (.counterConfig h (.program type lo hi idx c)) h .fm 0x70 (fun _ => True) .state)) ∧
    (∀ n, (10 ≤ n ∧ n ≤ 30 → Changes (.counterConfig h (.portWindow n)) h 0x70 (fun _ => True)
        (fun s => { s with obs := { s.obs with windowLog2 := n } })) ∧
      (¬ (10 ≤ n ∧ n ≤ 30) → Refuses (.counterConfig h (.portWindow n)) h .fm 0x70 (fun _ => True) .state)) ∧
    (∀ n, (10 ≤ n ∧ n ≤ 10000 → Changes (.counterConfig h (.supervisorWindow n)) h 0x70 (fun _ => True)
        (fun s => { s with obs := { s.obs with supWindowMs := n } })) ∧
      (¬ (10 ≤ n ∧ n ≤ 10000) → Refuses (.counterConfig h (.supervisorWindow n)) h .fm 0x70 (fun _ => True) .state)) ∧
    (∀ (scope : List (Nat × Nat × Nat)) (silent : List (Nat × Nat)), scopeOk scope = true →
      Answers (.counterRead h scope silent) h .fm 0x71 (fun _ => True) .ok
        (fun s => (snapshot scope silent s).1 :: (snapshot scope silent s).2.1) false (fun s => (snapshot scope silent s).2.2) ∧
      Answers (.counterRead h scope silent) h (.supervisor h.part) 0x71 (fun _ => True) .ok
        (fun s => (supSnapshot h.part scope silent s).1 :: (supSnapshot h.part scope silent s).2.1) false
        (fun s => (supSnapshot h.part scope silent s).2.2)) ∧
    (∀ (scope : List (Nat × Nat × Nat)) (silent : List (Nat × Nat)) (kind : SessKind), MaySend h kind → scopeOk scope = false →
      Refuses (.counterRead h scope silent) h kind 0x71 (fun _ => True) .state) ∧
    (∀ (cfg : TraceCfg),
      let mine := fun s : State => (match tget s.mgmt.sessions h.sess with | some k => k.sink.isSome | none => false) = true
      let ok := fun s : State => traceOk cfg = true ∧ (mine s ∨ sinkCount s < 2)
      Changes (.traceConfig h cfg) h 0x72 ok (fun s => { s with mgmt := { s.mgmt with
        sessions := tmod s.mgmt.sessions h.sess (setSink cfg) } }) ∧
      Refuses (.traceConfig h cfg) h .fm 0x72 (fun s => ¬ ok s) .state) ∧
    (∀ (engine part n : Nat) (seed : Word32) (on : Bool),
      let fits := 1 ≤ engine ∧ engine ≤ 5 ∧ part < 16 ∧ n ≤ 20
      (fits → Changes (.sampleConfig h engine part n seed on) h 0x73 (fun _ => True) (fun s => { s with obs := { s.obs with
        sampling := tset s.obs.sampling (part * 8 + engine) { n := n, seed := seed, enable := on } } })) ∧
      (¬ fits → Refuses (.sampleConfig h engine part n seed on) h .fm 0x73 (fun _ => True) .state))) ∧
  (∀ (s : State), dataUp s = true → ∃ t, exec .portWindowEnd s = .next t ∧ t.obs.winBytes = [] ∧
    t = { (s.ports.ports.map (·.1)).foldl (fun u n => portWindow n u) s with obs := t.obs }) ∧
  (∀ (s : State), dataUp s = false → exec .portWindowEnd s = .next s) ∧
  (∀ (s : State), s.phys.pwrgd = true → ∃ t, exec .supervisorWindowEnd s = .next t ∧
    t.obs.supWindowEnd ≤ s.timer.toNat ∧ (s.obs.supWindowMs ≠ 0 → s.timer.toNat < t.obs.supWindowEnd + s.obs.supWindowMs * 1000000 ∧
      s.obs.supWindowMs * 1000000 ∣ t.obs.supWindowEnd) ∧
    t.obs.counters = s.obs.counters.map (fun x => (x.1, { x.2 with latched := x.2.value })) ∧
    t.obs.fixedLatched = s.obs.fixed.map (fun x => (x.1, x.2.1)) ∧ t.mgmt = s.mgmt ∧ t.cores = s.cores ∧ t.ports = s.ports)

/-- R380, R383, R385, R463, R464, R465, R177: sessions, events and sinks. -/
def Obligations.SessionsEventsAndSinks : Prop :=
  (∀ (key : BitVec 256) (k : SessKind) (s : State), sessionFor s key = some k → mgmtUp s = true → s.mgmt.sessions.length < 32 →
    ∃ id, id < 32 ∧ thas s.mgmt.sessions id = false ∧ exec (.sessionOpen key) s = .next { s with
      phys := { s.phys with refMgmt := true }, mgmt := { s.mgmt with sessions := tset s.mgmt.sessions id (newSession k key) } }) ∧
  (∀ (key : BitVec 256) (s : State), sessionFor s key = none ∨ mgmtUp s = false ∨ 32 ≤ s.mgmt.sessions.length →
    exec (.sessionOpen key) s = .next s) ∧
  (∀ (key : BitVec 256) (s : State) (c : Charter), s.boot.phase ≠ .recovery → s.boot.charter = some c →
    (c.keys.fmKeys.contains key = true → sessionFor s key = some .fm) ∧
    (∀ p, sessionFor s key = some (.supervisor p) → p < 16 ∧ (supKeysOf s p).contains key = true) ∧
    (c.keys.fmKeys.contains key = false → (∀ p < 16, (supKeysOf s p).contains key = false) → sessionFor s key = none)) ∧
  (∀ (sess : Nat) (s : State), ∃ t, exec (.sessionClose sess) s = .next t ∧ tget t.mgmt.sessions sess = none ∧
    (∀ n, n ≠ sess → tget t.mgmt.sessions n = tget s.mgmt.sessions n) ∧ { t with mgmt := s.mgmt } = s) ∧
  (∀ (h : Mgmt) (kind : SessKind), MaySend h kind →
    Answers (.eventSubscribe h) h kind 0x80 (fun _ => True) .ok (fun _ => []) true (fun s => { s with mgmt := { s.mgmt with
      sessions := tmod s.mgmt.sessions h.sess (fun k => { k with subscribed := true, readUpTo := s.mgmt.eventSeq }) } }) ∧
    ∀ start, Answers (.eventRead h start) h kind 0x81 (fun _ => True) .ok (fun s =>
        s.mgmt.eventsLost :: ((s.mgmt.events.filter (fun e => decide (start ≤ e.seq) && evFor e kind)).map (fun e =>
          e.seq :: e.name.ctorIdx :: e.args.length :: e.args)).flatten) false
      (fun s => { s with mgmt := { s.mgmt with sessions := tmod s.mgmt.sessions h.sess (fun x =>
        { x with readUpTo := if start ≤ x.readUpTo then s.mgmt.eventSeq else x.readUpTo }) } })) ∧
  (∀ (sess : Nat) (k : Session) (x : Sink) (s : State), tget s.mgmt.sessions sess = some k → k.sink = some x →
    (x.cfg.types.contains 4 = true → ∃ t, exec (.traceSnapshot sess) s = .next t ∧ t.obs.snapSeq = s.obs.snapSeq + 1 ∧
      ∃ k1, tget t.mgmt.sessions sess = some k1 ∧ k1.sink =
        some (putParts s.timer.toNat (snapParts (snapshot fullScope [] s).1 (snapshot fullScope [] s).2.1) false x)) ∧
    (x.cfg.types.contains 4 = false → exec (.traceSnapshot sess) s = .next s) ∧
    exec (.fumaroleExport sess) s = .next (export1 sess x s) ∧
    (∀ q r l, x.buffer = (q, r) :: l → (export1 sess x s).replies = s.replies ++ [fumMsg sess q r])) ∧
  (∀ (host : Node) (s : State), tgetD s.mgmt.hostEvents host.toNat [] = [] → exec (.eventDeliver host) s = .next s) ∧
  (∀ (host : Node) (e : HostEvent) (l : List HostEvent) (s : State), tgetD s.mgmt.hostEvents host.toNat [] = e :: l →
    let tx := { blankTx s with dst := host, op := 0x34, cls := 5, ptag := e.part, trailer := mkTrailer 32 (eventRecord (myNode s) e) }
    (reachable s tx = false → exec (.eventDeliver host) s = .next s) ∧
    (reachable s tx = true → exec (.eventDeliver host) s = .next (send tx { s with mgmt := { s.mgmt with hostEvents :=
      (if l.isEmpty then tdel s.mgmt.hostEvents host.toNat else tset s.mgmt.hostEvents host.toNat l) } })))

/-! ## The whole block -/

/-- A step takes the command at the front of the queue and has its effect on the rest (the model's queue, log entry
6); with an empty queue the reference timer runs (R452; the model's choice, log entry 6). -/
def Obligations.StepTakesTheFront : Prop :=
  (∀ (c : Instr) (rest : List Instr) (s : State), step { s with pending := c :: rest } = exec c { s with pending := rest }) ∧
  (∀ (s : State), s.pending = [] → step s = .next (tick s)) ∧
  (∀ (s : State), s.phys.pwrgd = true → s.phys.refSys = true → tick s = { s with timer := s.timer + 1 })

/-- R422: at reset the device is without power, and every structure is empty: nothing runs, no session is open, no
extent, queue, port, group or partition exists, no line is asserted, and no fuse has been blown (the last is the
model's choice, log entry 3). -/
def Obligations.ResetIsEmpty : Prop :=
  let s := State.reset
  s.boot.phase = .off ∧ s.phys.pwrgd = false ∧ s.phys.faultN = false ∧ s.phys.thermtripN = false ∧ s.timer = 0 ∧ s.pending = [] ∧
  s.out = [] ∧ s.replies = [] ∧ s.mgmt.sessions = [] ∧ s.mgmt.events = [] ∧ s.ext.entries = [] ∧ s.ext.older = none ∧
  s.dir.entries = [] ∧ s.dir.log = [] ∧ s.dir.poison = [] ∧ s.ledger.entries = [] ∧ s.home.parked = [] ∧ s.home.busy = [] ∧
  s.queues.queues = [] ∧ s.groups = [] ∧ s.parts.parts = [] ∧ s.ports.ports = [] ∧ s.cores.cores = [] ∧ s.pool.groups = [] ∧
  s.pool.journal = [] ∧ s.boot.charter = none ∧ s.boot.rtpFw = none ∧ s.boot.flash = [] ∧ s.boot.fuses = 0 ∧
  dataUp s = false ∧ mgmtUp s = false

/-- R49, R66, R82, R135, R333, R367: what follows a step. Where no request, pull or end of a command is held, no commit
of a journal record can begin, and no layer, agent index or resource can be given up, nothing does; an older epoch that
nothing is counted against is retired, and one that something is counted against is kept. -/
def Obligations.QuietStateSettles : Prop :=
  ∀ (s : State), s.home.parked = [] → s.home.heldPulls = [] → (∀ x ∈ s.ext.entries, x.2.mode ≠ .versioned ∧ x.2.dead = []) →
    s.mgmt.waiting = [] → (∀ q ∈ s.queues.queues, ∀ c ∈ q.2.cmds, c.ending = none) →
    (∀ r ∈ s.pool.journal, s.boot.fenced = true ∨ mayStart s r = false) →
    (s.ext.older = none → settle s = s) ∧
    (∀ m, s.ext.older = some m → epochCounted s m = true → settle s = s) ∧
    (∀ m, s.ext.older = some m → epochCounted s m = false → settle s = { s with ext := { s.ext with older := none } })

/-- R371: fuses can only be blown. Whatever the step, the device powered or not, a fuse that is blown is blown after
it. -/
def Obligations.FusesStayBlown : Prop :=
  ∀ (i : Nat) (s t : State), s.boot.fuses.getLsbD i = true → step s = .next t → t.boot.fuses.getLsbD i = true

/-- R480: a thermal trip clears only when power is removed: every step but POWER_DOWN leaves a tripped device tripped,
with THERMTRIP_N asserted. -/
def Obligations.TripLasts : Prop :=
  ∀ (s t : State), s.phys.pwrgd = true → s.boot.phase = .tripped → s.phys.thermtripN = true →
    s.pending.head? ≠ some .powerDown → step s = .next t →
    t.phys.pwrgd = true ∧ t.boot.phase = .tripped ∧ t.phys.thermtripN = true

/-- Every command completes: each constructor of Instr, with whatever operands and in whatever state, answers a next
state, never a fault or a refusal. R382, R385, R452: while power is good, no command sets the reference timer, no event
sequence is given twice (the next one never falls), and no command touches what waits behind it (the model's queue, log
entry 6). -/
def Obligations.SequencesRise : Prop :=
  (∀ (c : Instr) (s : State), ∃ t, exec c s = .next t) ∧
  ∀ (s t : State), s.phys.pwrgd = true → s.pending.head? ≠ some .powerDown → step s = .next t →
    t.pending = s.pending.tail ∧ s.mgmt.eventSeq ≤ t.mgmt.eventSeq ∧ t.phys.pwrgd = true ∧
    (s.pending ≠ [] → t.timer = s.timer)

/-- R357: the port that a transaction leaves by. The hash of SRC (ORIGIN for ENGINE = 1), DST and CLASS names the slot
that is looked at first; the first slot from there, cyclically, that is VALID with its port UP is taken. Transactions
of one flow take one path, which moves only when a port's state or the entry changes. -/
def Obligations.PathChoice : Prop :=
  (∀ (s : State) (tx : Tx) (r : Route), tx.dst ≠ noNode → tget s.ports.routes tx.dst.toNat = some r → r.kind = 1 →
    let src := if tx.engine then tx.origin else tx.src
    let h := (crc32c 5 (src.toNat + put tx.dst.toNat 16 + put tx.cls 32)).toNat
    let port := fun i => r.ports.getD ((h + i) % 4) 255
    let usable := fun i => r.valid.getLsbD ((h + i) % 4) = true ∧ portUp s (port i) = true
    (∀ p, routePort s tx = some p ↔ ∃ i, i < 4 ∧ usable i ∧ (∀ j < i, ¬ usable j) ∧ p = port i) ∧
    (routePort s tx = none ↔ ∀ i < 4, ¬ usable i)) ∧
  (∀ (s : State) (a b : Tx), a.dst = b.dst → a.cls = b.cls →
    (if a.engine then a.origin else a.src) = (if b.engine then b.origin else b.src) → routePort s a = routePort s b) ∧
  (∀ (s t : State) (tx : Tx), tget s.ports.routes tx.dst.toNat = tget t.ports.routes tx.dst.toNat →
    (∀ r, tget s.ports.routes tx.dst.toNat = some r → ∀ k < 4, portUp s (r.ports.getD k 255) = portUp t (r.ports.getD k 255)) →
    routePort s tx = routePort t tx)
end

