-- ==== Sys2Proof/Laws/State.lean ====
section
/-! SUPPORT. What each update of the state leaves alone: one lemma for each other field of State. -/

namespace Sys2Proof.Machine

/-! `modPart` -/

@[simp] theorem modPart_pending (p : Nat) (f : Part → Part) (s : State) : (modPart p f s).pending = s.pending := rfl
@[simp] theorem modPart_timer (p : Nat) (f : Part → Part) (s : State) : (modPart p f s).timer = s.timer := rfl
@[simp] theorem modPart_free (p : Nat) (f : Part → Part) (s : State) : (modPart p f s).free = s.free := rfl
@[simp] theorem modPart_out (p : Nat) (f : Part → Part) (s : State) : (modPart p f s).out = s.out := rfl
@[simp] theorem modPart_replies (p : Nat) (f : Part → Part) (s : State) : (modPart p f s).replies = s.replies := rfl
@[simp] theorem modPart_boot (p : Nat) (f : Part → Part) (s : State) : (modPart p f s).boot = s.boot := rfl
@[simp] theorem modPart_phys (p : Nat) (f : Part → Part) (s : State) : (modPart p f s).phys = s.phys := rfl
@[simp] theorem modPart_mgmt (p : Nat) (f : Part → Part) (s : State) : (modPart p f s).mgmt = s.mgmt := rfl
@[simp] theorem modPart_ext (p : Nat) (f : Part → Part) (s : State) : (modPart p f s).ext = s.ext := rfl
@[simp] theorem modPart_home (p : Nat) (f : Part → Part) (s : State) : (modPart p f s).home = s.home := rfl
@[simp] theorem modPart_dir (p : Nat) (f : Part → Part) (s : State) : (modPart p f s).dir = s.dir := rfl
@[simp] theorem modPart_ledger (p : Nat) (f : Part → Part) (s : State) : (modPart p f s).ledger = s.ledger := rfl
@[simp] theorem modPart_vers (p : Nat) (f : Part → Part) (s : State) : (modPart p f s).vers = s.vers := rfl
@[simp] theorem modPart_pool (p : Nat) (f : Part → Part) (s : State) : (modPart p f s).pool = s.pool := rfl
@[simp] theorem modPart_queues (p : Nat) (f : Part → Part) (s : State) : (modPart p f s).queues = s.queues := rfl
@[simp] theorem modPart_cores (p : Nat) (f : Part → Part) (s : State) : (modPart p f s).cores = s.cores := rfl
@[simp] theorem modPart_groups (p : Nat) (f : Part → Part) (s : State) : (modPart p f s).groups = s.groups := rfl
@[simp] theorem modPart_spindle (p : Nat) (f : Part → Part) (s : State) : (modPart p f s).spindle = s.spindle := rfl
@[simp] theorem modPart_ports (p : Nat) (f : Part → Part) (s : State) : (modPart p f s).ports = s.ports := rfl
@[simp] theorem modPart_obs (p : Nat) (f : Part → Part) (s : State) : (modPart p f s).obs = s.obs := rfl

/-! `modPort` -/

@[simp] theorem modPort_pending (n : Nat) (f : Port → Port) (s : State) : (modPort n f s).pending = s.pending := rfl
@[simp] theorem modPort_timer (n : Nat) (f : Port → Port) (s : State) : (modPort n f s).timer = s.timer := rfl
@[simp] theorem modPort_free (n : Nat) (f : Port → Port) (s : State) : (modPort n f s).free = s.free := rfl
@[simp] theorem modPort_out (n : Nat) (f : Port → Port) (s : State) : (modPort n f s).out = s.out := rfl
@[simp] theorem modPort_replies (n : Nat) (f : Port → Port) (s : State) : (modPort n f s).replies = s.replies := rfl
@[simp] theorem modPort_boot (n : Nat) (f : Port → Port) (s : State) : (modPort n f s).boot = s.boot := rfl
@[simp] theorem modPort_phys (n : Nat) (f : Port → Port) (s : State) : (modPort n f s).phys = s.phys := rfl
@[simp] theorem modPort_mgmt (n : Nat) (f : Port → Port) (s : State) : (modPort n f s).mgmt = s.mgmt := rfl
@[simp] theorem modPort_parts (n : Nat) (f : Port → Port) (s : State) : (modPort n f s).parts = s.parts := rfl
@[simp] theorem modPort_ext (n : Nat) (f : Port → Port) (s : State) : (modPort n f s).ext = s.ext := rfl
@[simp] theorem modPort_home (n : Nat) (f : Port → Port) (s : State) : (modPort n f s).home = s.home := rfl
@[simp] theorem modPort_dir (n : Nat) (f : Port → Port) (s : State) : (modPort n f s).dir = s.dir := rfl
@[simp] theorem modPort_ledger (n : Nat) (f : Port → Port) (s : State) : (modPort n f s).ledger = s.ledger := rfl
@[simp] theorem modPort_vers (n : Nat) (f : Port → Port) (s : State) : (modPort n f s).vers = s.vers := rfl
@[simp] theorem modPort_pool (n : Nat) (f : Port → Port) (s : State) : (modPort n f s).pool = s.pool := rfl
@[simp] theorem modPort_queues (n : Nat) (f : Port → Port) (s : State) : (modPort n f s).queues = s.queues := rfl
@[simp] theorem modPort_cores (n : Nat) (f : Port → Port) (s : State) : (modPort n f s).cores = s.cores := rfl
@[simp] theorem modPort_groups (n : Nat) (f : Port → Port) (s : State) : (modPort n f s).groups = s.groups := rfl
@[simp] theorem modPort_spindle (n : Nat) (f : Port → Port) (s : State) : (modPort n f s).spindle = s.spindle := rfl
@[simp] theorem modPort_obs (n : Nat) (f : Port → Port) (s : State) : (modPort n f s).obs = s.obs := rfl

/-! `setExt` -/

@[simp] theorem setExt_pending (slot : Nat) (e : Extent) (s : State) : (setExt slot e s).pending = s.pending := rfl
@[simp] theorem setExt_timer (slot : Nat) (e : Extent) (s : State) : (setExt slot e s).timer = s.timer := rfl
@[simp] theorem setExt_free (slot : Nat) (e : Extent) (s : State) : (setExt slot e s).free = s.free := rfl
@[simp] theorem setExt_out (slot : Nat) (e : Extent) (s : State) : (setExt slot e s).out = s.out := rfl
@[simp] theorem setExt_replies (slot : Nat) (e : Extent) (s : State) : (setExt slot e s).replies = s.replies := rfl
@[simp] theorem setExt_boot (slot : Nat) (e : Extent) (s : State) : (setExt slot e s).boot = s.boot := rfl
@[simp] theorem setExt_phys (slot : Nat) (e : Extent) (s : State) : (setExt slot e s).phys = s.phys := rfl
@[simp] theorem setExt_mgmt (slot : Nat) (e : Extent) (s : State) : (setExt slot e s).mgmt = s.mgmt := rfl
@[simp] theorem setExt_parts (slot : Nat) (e : Extent) (s : State) : (setExt slot e s).parts = s.parts := rfl
@[simp] theorem setExt_home (slot : Nat) (e : Extent) (s : State) : (setExt slot e s).home = s.home := rfl
@[simp] theorem setExt_dir (slot : Nat) (e : Extent) (s : State) : (setExt slot e s).dir = s.dir := rfl
@[simp] theorem setExt_ledger (slot : Nat) (e : Extent) (s : State) : (setExt slot e s).ledger = s.ledger := rfl
@[simp] theorem setExt_vers (slot : Nat) (e : Extent) (s : State) : (setExt slot e s).vers = s.vers := rfl
@[simp] theorem setExt_pool (slot : Nat) (e : Extent) (s : State) : (setExt slot e s).pool = s.pool := rfl
@[simp] theorem setExt_queues (slot : Nat) (e : Extent) (s : State) : (setExt slot e s).queues = s.queues := rfl
@[simp] theorem setExt_cores (slot : Nat) (e : Extent) (s : State) : (setExt slot e s).cores = s.cores := rfl
@[simp] theorem setExt_groups (slot : Nat) (e : Extent) (s : State) : (setExt slot e s).groups = s.groups := rfl
@[simp] theorem setExt_spindle (slot : Nat) (e : Extent) (s : State) : (setExt slot e s).spindle = s.spindle := rfl
@[simp] theorem setExt_ports (slot : Nat) (e : Extent) (s : State) : (setExt slot e s).ports = s.ports := rfl
@[simp] theorem setExt_obs (slot : Nat) (e : Extent) (s : State) : (setExt slot e s).obs = s.obs := rfl

/-! `modExt` -/

@[simp] theorem modExt_pending (slot : Nat) (f : Extent → Extent) (s : State) : (modExt slot f s).pending = s.pending := rfl
@[simp] theorem modExt_timer (slot : Nat) (f : Extent → Extent) (s : State) : (modExt slot f s).timer = s.timer := rfl
@[simp] theorem modExt_free (slot : Nat) (f : Extent → Extent) (s : State) : (modExt slot f s).free = s.free := rfl
@[simp] theorem modExt_out (slot : Nat) (f : Extent → Extent) (s : State) : (modExt slot f s).out = s.out := rfl
@[simp] theorem modExt_replies (slot : Nat) (f : Extent → Extent) (s : State) : (modExt slot f s).replies = s.replies := rfl
@[simp] theorem modExt_boot (slot : Nat) (f : Extent → Extent) (s : State) : (modExt slot f s).boot = s.boot := rfl
@[simp] theorem modExt_phys (slot : Nat) (f : Extent → Extent) (s : State) : (modExt slot f s).phys = s.phys := rfl
@[simp] theorem modExt_mgmt (slot : Nat) (f : Extent → Extent) (s : State) : (modExt slot f s).mgmt = s.mgmt := rfl
@[simp] theorem modExt_parts (slot : Nat) (f : Extent → Extent) (s : State) : (modExt slot f s).parts = s.parts := rfl
@[simp] theorem modExt_home (slot : Nat) (f : Extent → Extent) (s : State) : (modExt slot f s).home = s.home := rfl
@[simp] theorem modExt_dir (slot : Nat) (f : Extent → Extent) (s : State) : (modExt slot f s).dir = s.dir := rfl
@[simp] theorem modExt_ledger (slot : Nat) (f : Extent → Extent) (s : State) : (modExt slot f s).ledger = s.ledger := rfl
@[simp] theorem modExt_vers (slot : Nat) (f : Extent → Extent) (s : State) : (modExt slot f s).vers = s.vers := rfl
@[simp] theorem modExt_pool (slot : Nat) (f : Extent → Extent) (s : State) : (modExt slot f s).pool = s.pool := rfl
@[simp] theorem modExt_queues (slot : Nat) (f : Extent → Extent) (s : State) : (modExt slot f s).queues = s.queues := rfl
@[simp] theorem modExt_cores (slot : Nat) (f : Extent → Extent) (s : State) : (modExt slot f s).cores = s.cores := rfl
@[simp] theorem modExt_groups (slot : Nat) (f : Extent → Extent) (s : State) : (modExt slot f s).groups = s.groups := rfl
@[simp] theorem modExt_spindle (slot : Nat) (f : Extent → Extent) (s : State) : (modExt slot f s).spindle = s.spindle := rfl
@[simp] theorem modExt_ports (slot : Nat) (f : Extent → Extent) (s : State) : (modExt slot f s).ports = s.ports := rfl
@[simp] theorem modExt_obs (slot : Nat) (f : Extent → Extent) (s : State) : (modExt slot f s).obs = s.obs := rfl

/-! `occur` -/

@[simp] theorem occur_pending (o : Occ) (s : State) : (occur o s).pending = s.pending := rfl
@[simp] theorem occur_timer (o : Occ) (s : State) : (occur o s).timer = s.timer := rfl
@[simp] theorem occur_free (o : Occ) (s : State) : (occur o s).free = s.free := rfl
@[simp] theorem occur_out (o : Occ) (s : State) : (occur o s).out = s.out := rfl
@[simp] theorem occur_replies (o : Occ) (s : State) : (occur o s).replies = s.replies := rfl
@[simp] theorem occur_boot (o : Occ) (s : State) : (occur o s).boot = s.boot := rfl
@[simp] theorem occur_phys (o : Occ) (s : State) : (occur o s).phys = s.phys := rfl
@[simp] theorem occur_mgmt (o : Occ) (s : State) : (occur o s).mgmt = s.mgmt := rfl
@[simp] theorem occur_parts (o : Occ) (s : State) : (occur o s).parts = s.parts := rfl
@[simp] theorem occur_ext (o : Occ) (s : State) : (occur o s).ext = s.ext := rfl
@[simp] theorem occur_home (o : Occ) (s : State) : (occur o s).home = s.home := rfl
@[simp] theorem occur_dir (o : Occ) (s : State) : (occur o s).dir = s.dir := rfl
@[simp] theorem occur_ledger (o : Occ) (s : State) : (occur o s).ledger = s.ledger := rfl
@[simp] theorem occur_vers (o : Occ) (s : State) : (occur o s).vers = s.vers := rfl
@[simp] theorem occur_pool (o : Occ) (s : State) : (occur o s).pool = s.pool := rfl
@[simp] theorem occur_queues (o : Occ) (s : State) : (occur o s).queues = s.queues := rfl
@[simp] theorem occur_cores (o : Occ) (s : State) : (occur o s).cores = s.cores := rfl
@[simp] theorem occur_groups (o : Occ) (s : State) : (occur o s).groups = s.groups := rfl
@[simp] theorem occur_spindle (o : Occ) (s : State) : (occur o s).spindle = s.spindle := rfl
@[simp] theorem occur_ports (o : Occ) (s : State) : (occur o s).ports = s.ports := rfl

/-! `bump` -/

@[simp] theorem bump_pending (type block idx n : Nat) (s : State) : (bump type block idx n s).pending = s.pending := rfl
@[simp] theorem bump_timer (type block idx n : Nat) (s : State) : (bump type block idx n s).timer = s.timer := rfl
@[simp] theorem bump_free (type block idx n : Nat) (s : State) : (bump type block idx n s).free = s.free := rfl
@[simp] theorem bump_out (type block idx n : Nat) (s : State) : (bump type block idx n s).out = s.out := rfl
@[simp] theorem bump_replies (type block idx n : Nat) (s : State) : (bump type block idx n s).replies = s.replies := rfl
@[simp] theorem bump_boot (type block idx n : Nat) (s : State) : (bump type block idx n s).boot = s.boot := rfl
@[simp] theorem bump_phys (type block idx n : Nat) (s : State) : (bump type block idx n s).phys = s.phys := rfl
@[simp] theorem bump_mgmt (type block idx n : Nat) (s : State) : (bump type block idx n s).mgmt = s.mgmt := rfl
@[simp] theorem bump_parts (type block idx n : Nat) (s : State) : (bump type block idx n s).parts = s.parts := rfl
@[simp] theorem bump_ext (type block idx n : Nat) (s : State) : (bump type block idx n s).ext = s.ext := rfl
@[simp] theorem bump_home (type block idx n : Nat) (s : State) : (bump type block idx n s).home = s.home := rfl
@[simp] theorem bump_dir (type block idx n : Nat) (s : State) : (bump type block idx n s).dir = s.dir := rfl
@[simp] theorem bump_ledger (type block idx n : Nat) (s : State) : (bump type block idx n s).ledger = s.ledger := rfl
@[simp] theorem bump_vers (type block idx n : Nat) (s : State) : (bump type block idx n s).vers = s.vers := rfl
@[simp] theorem bump_pool (type block idx n : Nat) (s : State) : (bump type block idx n s).pool = s.pool := rfl
@[simp] theorem bump_queues (type block idx n : Nat) (s : State) : (bump type block idx n s).queues = s.queues := rfl
@[simp] theorem bump_cores (type block idx n : Nat) (s : State) : (bump type block idx n s).cores = s.cores := rfl
@[simp] theorem bump_groups (type block idx n : Nat) (s : State) : (bump type block idx n s).groups = s.groups := rfl
@[simp] theorem bump_spindle (type block idx n : Nat) (s : State) : (bump type block idx n s).spindle = s.spindle := rfl
@[simp] theorem bump_ports (type block idx n : Nat) (s : State) : (bump type block idx n s).ports = s.ports := rfl

/-! `reading` -/

@[simp] theorem reading_pending (type block idx v : Nat) (s : State) : (reading type block idx v s).pending = s.pending := rfl
@[simp] theorem reading_timer (type block idx v : Nat) (s : State) : (reading type block idx v s).timer = s.timer := rfl
@[simp] theorem reading_free (type block idx v : Nat) (s : State) : (reading type block idx v s).free = s.free := rfl
@[simp] theorem reading_out (type block idx v : Nat) (s : State) : (reading type block idx v s).out = s.out := rfl
@[simp] theorem reading_replies (type block idx v : Nat) (s : State) : (reading type block idx v s).replies = s.replies := rfl
@[simp] theorem reading_boot (type block idx v : Nat) (s : State) : (reading type block idx v s).boot = s.boot := rfl
@[simp] theorem reading_phys (type block idx v : Nat) (s : State) : (reading type block idx v s).phys = s.phys := rfl
@[simp] theorem reading_mgmt (type block idx v : Nat) (s : State) : (reading type block idx v s).mgmt = s.mgmt := rfl
@[simp] theorem reading_parts (type block idx v : Nat) (s : State) : (reading type block idx v s).parts = s.parts := rfl
@[simp] theorem reading_ext (type block idx v : Nat) (s : State) : (reading type block idx v s).ext = s.ext := rfl
@[simp] theorem reading_home (type block idx v : Nat) (s : State) : (reading type block idx v s).home = s.home := rfl
@[simp] theorem reading_dir (type block idx v : Nat) (s : State) : (reading type block idx v s).dir = s.dir := rfl
@[simp] theorem reading_ledger (type block idx v : Nat) (s : State) : (reading type block idx v s).ledger = s.ledger := rfl
@[simp] theorem reading_vers (type block idx v : Nat) (s : State) : (reading type block idx v s).vers = s.vers := rfl
@[simp] theorem reading_pool (type block idx v : Nat) (s : State) : (reading type block idx v s).pool = s.pool := rfl
@[simp] theorem reading_queues (type block idx v : Nat) (s : State) : (reading type block idx v s).queues = s.queues := rfl
@[simp] theorem reading_cores (type block idx v : Nat) (s : State) : (reading type block idx v s).cores = s.cores := rfl
@[simp] theorem reading_groups (type block idx v : Nat) (s : State) : (reading type block idx v s).groups = s.groups := rfl
@[simp] theorem reading_spindle (type block idx v : Nat) (s : State) : (reading type block idx v s).spindle = s.spindle := rfl
@[simp] theorem reading_ports (type block idx v : Nat) (s : State) : (reading type block idx v s).ports = s.ports := rfl

/-! `fumarole` -/

@[simp] theorem fumarole_pending (type source : Nat) (body : List Nat) (s : State) : (fumarole type source body s).pending = s.pending := rfl
@[simp] theorem fumarole_timer (type source : Nat) (body : List Nat) (s : State) : (fumarole type source body s).timer = s.timer := rfl
@[simp] theorem fumarole_free (type source : Nat) (body : List Nat) (s : State) : (fumarole type source body s).free = s.free := rfl
@[simp] theorem fumarole_out (type source : Nat) (body : List Nat) (s : State) : (fumarole type source body s).out = s.out := rfl
@[simp] theorem fumarole_replies (type source : Nat) (body : List Nat) (s : State) : (fumarole type source body s).replies = s.replies := rfl
@[simp] theorem fumarole_boot (type source : Nat) (body : List Nat) (s : State) : (fumarole type source body s).boot = s.boot := rfl
@[simp] theorem fumarole_phys (type source : Nat) (body : List Nat) (s : State) : (fumarole type source body s).phys = s.phys := rfl
@[simp] theorem fumarole_parts (type source : Nat) (body : List Nat) (s : State) : (fumarole type source body s).parts = s.parts := rfl
@[simp] theorem fumarole_ext (type source : Nat) (body : List Nat) (s : State) : (fumarole type source body s).ext = s.ext := rfl
@[simp] theorem fumarole_home (type source : Nat) (body : List Nat) (s : State) : (fumarole type source body s).home = s.home := rfl
@[simp] theorem fumarole_dir (type source : Nat) (body : List Nat) (s : State) : (fumarole type source body s).dir = s.dir := rfl
@[simp] theorem fumarole_ledger (type source : Nat) (body : List Nat) (s : State) : (fumarole type source body s).ledger = s.ledger := rfl
@[simp] theorem fumarole_vers (type source : Nat) (body : List Nat) (s : State) : (fumarole type source body s).vers = s.vers := rfl
@[simp] theorem fumarole_pool (type source : Nat) (body : List Nat) (s : State) : (fumarole type source body s).pool = s.pool := rfl
@[simp] theorem fumarole_queues (type source : Nat) (body : List Nat) (s : State) : (fumarole type source body s).queues = s.queues := rfl
@[simp] theorem fumarole_cores (type source : Nat) (body : List Nat) (s : State) : (fumarole type source body s).cores = s.cores := rfl
@[simp] theorem fumarole_groups (type source : Nat) (body : List Nat) (s : State) : (fumarole type source body s).groups = s.groups := rfl
@[simp] theorem fumarole_spindle (type source : Nat) (body : List Nat) (s : State) : (fumarole type source body s).spindle = s.spindle := rfl
@[simp] theorem fumarole_ports (type source : Nat) (body : List Nat) (s : State) : (fumarole type source body s).ports = s.ports := rfl
@[simp] theorem fumarole_obs (type source : Nat) (body : List Nat) (s : State) : (fumarole type source body s).obs = s.obs := rfl

/-! `post` -/

@[simp] theorem post_pending (n : Ev) (p : Option Nat) (args : List Nat) (s : State) : (post n p args s).pending = s.pending := rfl
@[simp] theorem post_timer (n : Ev) (p : Option Nat) (args : List Nat) (s : State) : (post n p args s).timer = s.timer := rfl
@[simp] theorem post_free (n : Ev) (p : Option Nat) (args : List Nat) (s : State) : (post n p args s).free = s.free := rfl
@[simp] theorem post_out (n : Ev) (p : Option Nat) (args : List Nat) (s : State) : (post n p args s).out = s.out := rfl
@[simp] theorem post_boot (n : Ev) (p : Option Nat) (args : List Nat) (s : State) : (post n p args s).boot = s.boot := rfl
@[simp] theorem post_phys (n : Ev) (p : Option Nat) (args : List Nat) (s : State) : (post n p args s).phys = s.phys := rfl
@[simp] theorem post_parts (n : Ev) (p : Option Nat) (args : List Nat) (s : State) : (post n p args s).parts = s.parts := rfl
@[simp] theorem post_ext (n : Ev) (p : Option Nat) (args : List Nat) (s : State) : (post n p args s).ext = s.ext := rfl
@[simp] theorem post_home (n : Ev) (p : Option Nat) (args : List Nat) (s : State) : (post n p args s).home = s.home := rfl
@[simp] theorem post_dir (n : Ev) (p : Option Nat) (args : List Nat) (s : State) : (post n p args s).dir = s.dir := rfl
@[simp] theorem post_ledger (n : Ev) (p : Option Nat) (args : List Nat) (s : State) : (post n p args s).ledger = s.ledger := rfl
@[simp] theorem post_vers (n : Ev) (p : Option Nat) (args : List Nat) (s : State) : (post n p args s).vers = s.vers := rfl
@[simp] theorem post_pool (n : Ev) (p : Option Nat) (args : List Nat) (s : State) : (post n p args s).pool = s.pool := rfl
@[simp] theorem post_queues (n : Ev) (p : Option Nat) (args : List Nat) (s : State) : (post n p args s).queues = s.queues := rfl
@[simp] theorem post_cores (n : Ev) (p : Option Nat) (args : List Nat) (s : State) : (post n p args s).cores = s.cores := rfl
@[simp] theorem post_groups (n : Ev) (p : Option Nat) (args : List Nat) (s : State) : (post n p args s).groups = s.groups := rfl
@[simp] theorem post_spindle (n : Ev) (p : Option Nat) (args : List Nat) (s : State) : (post n p args s).spindle = s.spindle := rfl
@[simp] theorem post_ports (n : Ev) (p : Option Nat) (args : List Nat) (s : State) : (post n p args s).ports = s.ports := rfl
@[simp] theorem post_obs (n : Ev) (p : Option Nat) (args : List Nat) (s : State) : (post n p args s).obs = s.obs := rfl

/-! `send` -/

@[simp] theorem send_pending (tx : Tx) (s : State) : (send tx s).pending = s.pending := rfl
@[simp] theorem send_timer (tx : Tx) (s : State) : (send tx s).timer = s.timer := rfl
@[simp] theorem send_free (tx : Tx) (s : State) : (send tx s).free = s.free := rfl
@[simp] theorem send_replies (tx : Tx) (s : State) : (send tx s).replies = s.replies := rfl
@[simp] theorem send_boot (tx : Tx) (s : State) : (send tx s).boot = s.boot := rfl
@[simp] theorem send_phys (tx : Tx) (s : State) : (send tx s).phys = s.phys := rfl
@[simp] theorem send_mgmt (tx : Tx) (s : State) : (send tx s).mgmt = s.mgmt := rfl
@[simp] theorem send_parts (tx : Tx) (s : State) : (send tx s).parts = s.parts := rfl
@[simp] theorem send_ext (tx : Tx) (s : State) : (send tx s).ext = s.ext := rfl
@[simp] theorem send_dir (tx : Tx) (s : State) : (send tx s).dir = s.dir := rfl
@[simp] theorem send_ledger (tx : Tx) (s : State) : (send tx s).ledger = s.ledger := rfl
@[simp] theorem send_vers (tx : Tx) (s : State) : (send tx s).vers = s.vers := rfl
@[simp] theorem send_pool (tx : Tx) (s : State) : (send tx s).pool = s.pool := rfl
@[simp] theorem send_queues (tx : Tx) (s : State) : (send tx s).queues = s.queues := rfl
@[simp] theorem send_cores (tx : Tx) (s : State) : (send tx s).cores = s.cores := rfl
@[simp] theorem send_groups (tx : Tx) (s : State) : (send tx s).groups = s.groups := rfl
@[simp] theorem send_spindle (tx : Tx) (s : State) : (send tx s).spindle = s.spindle := rfl
@[simp] theorem send_ports (tx : Tx) (s : State) : (send tx s).ports = s.ports := rfl
@[simp] theorem send_obs (tx : Tx) (s : State) : (send tx s).obs = s.obs := rfl

/-! `sendEngine` -/

@[simp] theorem sendEngine_pending (tx : Tx) (s : State) : (sendEngine tx s).pending = s.pending := rfl
@[simp] theorem sendEngine_timer (tx : Tx) (s : State) : (sendEngine tx s).timer = s.timer := rfl
@[simp] theorem sendEngine_free (tx : Tx) (s : State) : (sendEngine tx s).free = s.free := rfl
@[simp] theorem sendEngine_replies (tx : Tx) (s : State) : (sendEngine tx s).replies = s.replies := rfl
@[simp] theorem sendEngine_boot (tx : Tx) (s : State) : (sendEngine tx s).boot = s.boot := rfl
@[simp] theorem sendEngine_phys (tx : Tx) (s : State) : (sendEngine tx s).phys = s.phys := rfl
@[simp] theorem sendEngine_mgmt (tx : Tx) (s : State) : (sendEngine tx s).mgmt = s.mgmt := rfl
@[simp] theorem sendEngine_parts (tx : Tx) (s : State) : (sendEngine tx s).parts = s.parts := rfl
@[simp] theorem sendEngine_ext (tx : Tx) (s : State) : (sendEngine tx s).ext = s.ext := rfl
@[simp] theorem sendEngine_dir (tx : Tx) (s : State) : (sendEngine tx s).dir = s.dir := rfl
@[simp] theorem sendEngine_ledger (tx : Tx) (s : State) : (sendEngine tx s).ledger = s.ledger := rfl
@[simp] theorem sendEngine_vers (tx : Tx) (s : State) : (sendEngine tx s).vers = s.vers := rfl
@[simp] theorem sendEngine_pool (tx : Tx) (s : State) : (sendEngine tx s).pool = s.pool := rfl
@[simp] theorem sendEngine_queues (tx : Tx) (s : State) : (sendEngine tx s).queues = s.queues := rfl
@[simp] theorem sendEngine_cores (tx : Tx) (s : State) : (sendEngine tx s).cores = s.cores := rfl
@[simp] theorem sendEngine_groups (tx : Tx) (s : State) : (sendEngine tx s).groups = s.groups := rfl
@[simp] theorem sendEngine_spindle (tx : Tx) (s : State) : (sendEngine tx s).spindle = s.spindle := rfl
@[simp] theorem sendEngine_ports (tx : Tx) (s : State) : (sendEngine tx s).ports = s.ports := rfl
@[simp] theorem sendEngine_obs (tx : Tx) (s : State) : (sendEngine tx s).obs = s.obs := rfl

/-! `setChannel` -/

@[simp] theorem setChannel_pending (c : Nat) (x : Channel) (s : State) : (setChannel c x s).pending = s.pending := rfl
@[simp] theorem setChannel_timer (c : Nat) (x : Channel) (s : State) : (setChannel c x s).timer = s.timer := rfl
@[simp] theorem setChannel_free (c : Nat) (x : Channel) (s : State) : (setChannel c x s).free = s.free := rfl
@[simp] theorem setChannel_out (c : Nat) (x : Channel) (s : State) : (setChannel c x s).out = s.out := rfl
@[simp] theorem setChannel_replies (c : Nat) (x : Channel) (s : State) : (setChannel c x s).replies = s.replies := rfl
@[simp] theorem setChannel_boot (c : Nat) (x : Channel) (s : State) : (setChannel c x s).boot = s.boot := rfl
@[simp] theorem setChannel_phys (c : Nat) (x : Channel) (s : State) : (setChannel c x s).phys = s.phys := rfl
@[simp] theorem setChannel_mgmt (c : Nat) (x : Channel) (s : State) : (setChannel c x s).mgmt = s.mgmt := rfl
@[simp] theorem setChannel_ext (c : Nat) (x : Channel) (s : State) : (setChannel c x s).ext = s.ext := rfl
@[simp] theorem setChannel_home (c : Nat) (x : Channel) (s : State) : (setChannel c x s).home = s.home := rfl
@[simp] theorem setChannel_dir (c : Nat) (x : Channel) (s : State) : (setChannel c x s).dir = s.dir := rfl
@[simp] theorem setChannel_ledger (c : Nat) (x : Channel) (s : State) : (setChannel c x s).ledger = s.ledger := rfl
@[simp] theorem setChannel_vers (c : Nat) (x : Channel) (s : State) : (setChannel c x s).vers = s.vers := rfl
@[simp] theorem setChannel_pool (c : Nat) (x : Channel) (s : State) : (setChannel c x s).pool = s.pool := rfl
@[simp] theorem setChannel_queues (c : Nat) (x : Channel) (s : State) : (setChannel c x s).queues = s.queues := rfl
@[simp] theorem setChannel_cores (c : Nat) (x : Channel) (s : State) : (setChannel c x s).cores = s.cores := rfl
@[simp] theorem setChannel_groups (c : Nat) (x : Channel) (s : State) : (setChannel c x s).groups = s.groups := rfl
@[simp] theorem setChannel_spindle (c : Nat) (x : Channel) (s : State) : (setChannel c x s).spindle = s.spindle := rfl
@[simp] theorem setChannel_ports (c : Nat) (x : Channel) (s : State) : (setChannel c x s).ports = s.ports := rfl
@[simp] theorem setChannel_obs (c : Nat) (x : Channel) (s : State) : (setChannel c x s).obs = s.obs := rfl

/-! `setDir` -/

@[simp] theorem setDir_pending (slot tile : Nat) (d : DirEntry) (s : State) : (setDir slot tile d s).pending = s.pending := rfl
@[simp] theorem setDir_timer (slot tile : Nat) (d : DirEntry) (s : State) : (setDir slot tile d s).timer = s.timer := rfl
@[simp] theorem setDir_free (slot tile : Nat) (d : DirEntry) (s : State) : (setDir slot tile d s).free = s.free := rfl
@[simp] theorem setDir_out (slot tile : Nat) (d : DirEntry) (s : State) : (setDir slot tile d s).out = s.out := rfl
@[simp] theorem setDir_replies (slot tile : Nat) (d : DirEntry) (s : State) : (setDir slot tile d s).replies = s.replies := rfl
@[simp] theorem setDir_boot (slot tile : Nat) (d : DirEntry) (s : State) : (setDir slot tile d s).boot = s.boot := rfl
@[simp] theorem setDir_phys (slot tile : Nat) (d : DirEntry) (s : State) : (setDir slot tile d s).phys = s.phys := rfl
@[simp] theorem setDir_mgmt (slot tile : Nat) (d : DirEntry) (s : State) : (setDir slot tile d s).mgmt = s.mgmt := rfl
@[simp] theorem setDir_parts (slot tile : Nat) (d : DirEntry) (s : State) : (setDir slot tile d s).parts = s.parts := rfl
@[simp] theorem setDir_ext (slot tile : Nat) (d : DirEntry) (s : State) : (setDir slot tile d s).ext = s.ext := rfl
@[simp] theorem setDir_home (slot tile : Nat) (d : DirEntry) (s : State) : (setDir slot tile d s).home = s.home := rfl
@[simp] theorem setDir_ledger (slot tile : Nat) (d : DirEntry) (s : State) : (setDir slot tile d s).ledger = s.ledger := rfl
@[simp] theorem setDir_vers (slot tile : Nat) (d : DirEntry) (s : State) : (setDir slot tile d s).vers = s.vers := rfl
@[simp] theorem setDir_pool (slot tile : Nat) (d : DirEntry) (s : State) : (setDir slot tile d s).pool = s.pool := rfl
@[simp] theorem setDir_queues (slot tile : Nat) (d : DirEntry) (s : State) : (setDir slot tile d s).queues = s.queues := rfl
@[simp] theorem setDir_cores (slot tile : Nat) (d : DirEntry) (s : State) : (setDir slot tile d s).cores = s.cores := rfl
@[simp] theorem setDir_groups (slot tile : Nat) (d : DirEntry) (s : State) : (setDir slot tile d s).groups = s.groups := rfl
@[simp] theorem setDir_spindle (slot tile : Nat) (d : DirEntry) (s : State) : (setDir slot tile d s).spindle = s.spindle := rfl
@[simp] theorem setDir_ports (slot tile : Nat) (d : DirEntry) (s : State) : (setDir slot tile d s).ports = s.ports := rfl
@[simp] theorem setDir_obs (slot tile : Nat) (d : DirEntry) (s : State) : (setDir slot tile d s).obs = s.obs := rfl

/-! `delDir` -/

@[simp] theorem delDir_pending (slot tile : Nat) (s : State) : (delDir slot tile s).pending = s.pending := rfl
@[simp] theorem delDir_timer (slot tile : Nat) (s : State) : (delDir slot tile s).timer = s.timer := rfl
@[simp] theorem delDir_free (slot tile : Nat) (s : State) : (delDir slot tile s).free = s.free := rfl
@[simp] theorem delDir_out (slot tile : Nat) (s : State) : (delDir slot tile s).out = s.out := rfl
@[simp] theorem delDir_replies (slot tile : Nat) (s : State) : (delDir slot tile s).replies = s.replies := rfl
@[simp] theorem delDir_boot (slot tile : Nat) (s : State) : (delDir slot tile s).boot = s.boot := rfl
@[simp] theorem delDir_phys (slot tile : Nat) (s : State) : (delDir slot tile s).phys = s.phys := rfl
@[simp] theorem delDir_mgmt (slot tile : Nat) (s : State) : (delDir slot tile s).mgmt = s.mgmt := rfl
@[simp] theorem delDir_parts (slot tile : Nat) (s : State) : (delDir slot tile s).parts = s.parts := rfl
@[simp] theorem delDir_ext (slot tile : Nat) (s : State) : (delDir slot tile s).ext = s.ext := rfl
@[simp] theorem delDir_home (slot tile : Nat) (s : State) : (delDir slot tile s).home = s.home := rfl
@[simp] theorem delDir_ledger (slot tile : Nat) (s : State) : (delDir slot tile s).ledger = s.ledger := rfl
@[simp] theorem delDir_vers (slot tile : Nat) (s : State) : (delDir slot tile s).vers = s.vers := rfl
@[simp] theorem delDir_pool (slot tile : Nat) (s : State) : (delDir slot tile s).pool = s.pool := rfl
@[simp] theorem delDir_queues (slot tile : Nat) (s : State) : (delDir slot tile s).queues = s.queues := rfl
@[simp] theorem delDir_cores (slot tile : Nat) (s : State) : (delDir slot tile s).cores = s.cores := rfl
@[simp] theorem delDir_groups (slot tile : Nat) (s : State) : (delDir slot tile s).groups = s.groups := rfl
@[simp] theorem delDir_spindle (slot tile : Nat) (s : State) : (delDir slot tile s).spindle = s.spindle := rfl
@[simp] theorem delDir_ports (slot tile : Nat) (s : State) : (delDir slot tile s).ports = s.ports := rfl
@[simp] theorem delDir_obs (slot tile : Nat) (s : State) : (delDir slot tile s).obs = s.obs := rfl

/-! `delLog` -/

@[simp] theorem delLog_pending (slot tile : Nat) (s : State) : (delLog slot tile s).pending = s.pending := rfl
@[simp] theorem delLog_timer (slot tile : Nat) (s : State) : (delLog slot tile s).timer = s.timer := rfl
@[simp] theorem delLog_free (slot tile : Nat) (s : State) : (delLog slot tile s).free = s.free := rfl
@[simp] theorem delLog_out (slot tile : Nat) (s : State) : (delLog slot tile s).out = s.out := rfl
@[simp] theorem delLog_replies (slot tile : Nat) (s : State) : (delLog slot tile s).replies = s.replies := rfl
@[simp] theorem delLog_boot (slot tile : Nat) (s : State) : (delLog slot tile s).boot = s.boot := rfl
@[simp] theorem delLog_phys (slot tile : Nat) (s : State) : (delLog slot tile s).phys = s.phys := rfl
@[simp] theorem delLog_mgmt (slot tile : Nat) (s : State) : (delLog slot tile s).mgmt = s.mgmt := rfl
@[simp] theorem delLog_parts (slot tile : Nat) (s : State) : (delLog slot tile s).parts = s.parts := rfl
@[simp] theorem delLog_ext (slot tile : Nat) (s : State) : (delLog slot tile s).ext = s.ext := rfl
@[simp] theorem delLog_home (slot tile : Nat) (s : State) : (delLog slot tile s).home = s.home := rfl
@[simp] theorem delLog_ledger (slot tile : Nat) (s : State) : (delLog slot tile s).ledger = s.ledger := rfl
@[simp] theorem delLog_vers (slot tile : Nat) (s : State) : (delLog slot tile s).vers = s.vers := rfl
@[simp] theorem delLog_pool (slot tile : Nat) (s : State) : (delLog slot tile s).pool = s.pool := rfl
@[simp] theorem delLog_queues (slot tile : Nat) (s : State) : (delLog slot tile s).queues = s.queues := rfl
@[simp] theorem delLog_cores (slot tile : Nat) (s : State) : (delLog slot tile s).cores = s.cores := rfl
@[simp] theorem delLog_groups (slot tile : Nat) (s : State) : (delLog slot tile s).groups = s.groups := rfl
@[simp] theorem delLog_spindle (slot tile : Nat) (s : State) : (delLog slot tile s).spindle = s.spindle := rfl
@[simp] theorem delLog_ports (slot tile : Nat) (s : State) : (delLog slot tile s).ports = s.ports := rfl
@[simp] theorem delLog_obs (slot tile : Nat) (s : State) : (delLog slot tile s).obs = s.obs := rfl

/-! `setPoison` -/

@[simp] theorem setPoison_pending (slot tile : Nat) (s : State) : (setPoison slot tile s).pending = s.pending := rfl
@[simp] theorem setPoison_timer (slot tile : Nat) (s : State) : (setPoison slot tile s).timer = s.timer := rfl
@[simp] theorem setPoison_free (slot tile : Nat) (s : State) : (setPoison slot tile s).free = s.free := rfl
@[simp] theorem setPoison_out (slot tile : Nat) (s : State) : (setPoison slot tile s).out = s.out := rfl
@[simp] theorem setPoison_replies (slot tile : Nat) (s : State) : (setPoison slot tile s).replies = s.replies := rfl
@[simp] theorem setPoison_boot (slot tile : Nat) (s : State) : (setPoison slot tile s).boot = s.boot := rfl
@[simp] theorem setPoison_phys (slot tile : Nat) (s : State) : (setPoison slot tile s).phys = s.phys := rfl
@[simp] theorem setPoison_mgmt (slot tile : Nat) (s : State) : (setPoison slot tile s).mgmt = s.mgmt := rfl
@[simp] theorem setPoison_parts (slot tile : Nat) (s : State) : (setPoison slot tile s).parts = s.parts := rfl
@[simp] theorem setPoison_ext (slot tile : Nat) (s : State) : (setPoison slot tile s).ext = s.ext := rfl
@[simp] theorem setPoison_home (slot tile : Nat) (s : State) : (setPoison slot tile s).home = s.home := rfl
@[simp] theorem setPoison_ledger (slot tile : Nat) (s : State) : (setPoison slot tile s).ledger = s.ledger := rfl
@[simp] theorem setPoison_vers (slot tile : Nat) (s : State) : (setPoison slot tile s).vers = s.vers := rfl
@[simp] theorem setPoison_pool (slot tile : Nat) (s : State) : (setPoison slot tile s).pool = s.pool := rfl
@[simp] theorem setPoison_queues (slot tile : Nat) (s : State) : (setPoison slot tile s).queues = s.queues := rfl
@[simp] theorem setPoison_cores (slot tile : Nat) (s : State) : (setPoison slot tile s).cores = s.cores := rfl
@[simp] theorem setPoison_groups (slot tile : Nat) (s : State) : (setPoison slot tile s).groups = s.groups := rfl
@[simp] theorem setPoison_spindle (slot tile : Nat) (s : State) : (setPoison slot tile s).spindle = s.spindle := rfl
@[simp] theorem setPoison_ports (slot tile : Nat) (s : State) : (setPoison slot tile s).ports = s.ports := rfl
@[simp] theorem setPoison_obs (slot tile : Nat) (s : State) : (setPoison slot tile s).obs = s.obs := rfl

/-! `modBusy` -/

@[simp] theorem modBusy_pending (slot tile : Nat) (f : Busy → Busy) (s : State) : (modBusy slot tile f s).pending = s.pending := rfl
@[simp] theorem modBusy_timer (slot tile : Nat) (f : Busy → Busy) (s : State) : (modBusy slot tile f s).timer = s.timer := rfl
@[simp] theorem modBusy_free (slot tile : Nat) (f : Busy → Busy) (s : State) : (modBusy slot tile f s).free = s.free := rfl
@[simp] theorem modBusy_out (slot tile : Nat) (f : Busy → Busy) (s : State) : (modBusy slot tile f s).out = s.out := rfl
@[simp] theorem modBusy_replies (slot tile : Nat) (f : Busy → Busy) (s : State) : (modBusy slot tile f s).replies = s.replies := rfl
@[simp] theorem modBusy_boot (slot tile : Nat) (f : Busy → Busy) (s : State) : (modBusy slot tile f s).boot = s.boot := rfl
@[simp] theorem modBusy_phys (slot tile : Nat) (f : Busy → Busy) (s : State) : (modBusy slot tile f s).phys = s.phys := rfl
@[simp] theorem modBusy_mgmt (slot tile : Nat) (f : Busy → Busy) (s : State) : (modBusy slot tile f s).mgmt = s.mgmt := rfl
@[simp] theorem modBusy_parts (slot tile : Nat) (f : Busy → Busy) (s : State) : (modBusy slot tile f s).parts = s.parts := rfl
@[simp] theorem modBusy_ext (slot tile : Nat) (f : Busy → Busy) (s : State) : (modBusy slot tile f s).ext = s.ext := rfl
@[simp] theorem modBusy_dir (slot tile : Nat) (f : Busy → Busy) (s : State) : (modBusy slot tile f s).dir = s.dir := rfl
@[simp] theorem modBusy_ledger (slot tile : Nat) (f : Busy → Busy) (s : State) : (modBusy slot tile f s).ledger = s.ledger := rfl
@[simp] theorem modBusy_vers (slot tile : Nat) (f : Busy → Busy) (s : State) : (modBusy slot tile f s).vers = s.vers := rfl
@[simp] theorem modBusy_pool (slot tile : Nat) (f : Busy → Busy) (s : State) : (modBusy slot tile f s).pool = s.pool := rfl
@[simp] theorem modBusy_queues (slot tile : Nat) (f : Busy → Busy) (s : State) : (modBusy slot tile f s).queues = s.queues := rfl
@[simp] theorem modBusy_cores (slot tile : Nat) (f : Busy → Busy) (s : State) : (modBusy slot tile f s).cores = s.cores := rfl
@[simp] theorem modBusy_groups (slot tile : Nat) (f : Busy → Busy) (s : State) : (modBusy slot tile f s).groups = s.groups := rfl
@[simp] theorem modBusy_spindle (slot tile : Nat) (f : Busy → Busy) (s : State) : (modBusy slot tile f s).spindle = s.spindle := rfl
@[simp] theorem modBusy_ports (slot tile : Nat) (f : Busy → Busy) (s : State) : (modBusy slot tile f s).ports = s.ports := rfl
@[simp] theorem modBusy_obs (slot tile : Nat) (f : Busy → Busy) (s : State) : (modBusy slot tile f s).obs = s.obs := rfl

/-! `delBusy` -/

@[simp] theorem delBusy_pending (slot tile : Nat) (s : State) : (delBusy slot tile s).pending = s.pending := rfl
@[simp] theorem delBusy_timer (slot tile : Nat) (s : State) : (delBusy slot tile s).timer = s.timer := rfl
@[simp] theorem delBusy_free (slot tile : Nat) (s : State) : (delBusy slot tile s).free = s.free := rfl
@[simp] theorem delBusy_out (slot tile : Nat) (s : State) : (delBusy slot tile s).out = s.out := rfl
@[simp] theorem delBusy_replies (slot tile : Nat) (s : State) : (delBusy slot tile s).replies = s.replies := rfl
@[simp] theorem delBusy_boot (slot tile : Nat) (s : State) : (delBusy slot tile s).boot = s.boot := rfl
@[simp] theorem delBusy_phys (slot tile : Nat) (s : State) : (delBusy slot tile s).phys = s.phys := rfl
@[simp] theorem delBusy_mgmt (slot tile : Nat) (s : State) : (delBusy slot tile s).mgmt = s.mgmt := rfl
@[simp] theorem delBusy_parts (slot tile : Nat) (s : State) : (delBusy slot tile s).parts = s.parts := rfl
@[simp] theorem delBusy_ext (slot tile : Nat) (s : State) : (delBusy slot tile s).ext = s.ext := rfl
@[simp] theorem delBusy_dir (slot tile : Nat) (s : State) : (delBusy slot tile s).dir = s.dir := rfl
@[simp] theorem delBusy_ledger (slot tile : Nat) (s : State) : (delBusy slot tile s).ledger = s.ledger := rfl
@[simp] theorem delBusy_vers (slot tile : Nat) (s : State) : (delBusy slot tile s).vers = s.vers := rfl
@[simp] theorem delBusy_pool (slot tile : Nat) (s : State) : (delBusy slot tile s).pool = s.pool := rfl
@[simp] theorem delBusy_queues (slot tile : Nat) (s : State) : (delBusy slot tile s).queues = s.queues := rfl
@[simp] theorem delBusy_cores (slot tile : Nat) (s : State) : (delBusy slot tile s).cores = s.cores := rfl
@[simp] theorem delBusy_groups (slot tile : Nat) (s : State) : (delBusy slot tile s).groups = s.groups := rfl
@[simp] theorem delBusy_spindle (slot tile : Nat) (s : State) : (delBusy slot tile s).spindle = s.spindle := rfl
@[simp] theorem delBusy_ports (slot tile : Nat) (s : State) : (delBusy slot tile s).ports = s.ports := rfl
@[simp] theorem delBusy_obs (slot tile : Nat) (s : State) : (delBusy slot tile s).obs = s.obs := rfl

/-! `unpark` -/

@[simp] theorem unpark_pending (rid : Nat) (s : State) : (unpark rid s).pending = s.pending := rfl
@[simp] theorem unpark_timer (rid : Nat) (s : State) : (unpark rid s).timer = s.timer := rfl
@[simp] theorem unpark_free (rid : Nat) (s : State) : (unpark rid s).free = s.free := rfl
@[simp] theorem unpark_out (rid : Nat) (s : State) : (unpark rid s).out = s.out := rfl
@[simp] theorem unpark_replies (rid : Nat) (s : State) : (unpark rid s).replies = s.replies := rfl
@[simp] theorem unpark_boot (rid : Nat) (s : State) : (unpark rid s).boot = s.boot := rfl
@[simp] theorem unpark_phys (rid : Nat) (s : State) : (unpark rid s).phys = s.phys := rfl
@[simp] theorem unpark_mgmt (rid : Nat) (s : State) : (unpark rid s).mgmt = s.mgmt := rfl
@[simp] theorem unpark_parts (rid : Nat) (s : State) : (unpark rid s).parts = s.parts := rfl
@[simp] theorem unpark_ext (rid : Nat) (s : State) : (unpark rid s).ext = s.ext := rfl
@[simp] theorem unpark_dir (rid : Nat) (s : State) : (unpark rid s).dir = s.dir := rfl
@[simp] theorem unpark_ledger (rid : Nat) (s : State) : (unpark rid s).ledger = s.ledger := rfl
@[simp] theorem unpark_vers (rid : Nat) (s : State) : (unpark rid s).vers = s.vers := rfl
@[simp] theorem unpark_pool (rid : Nat) (s : State) : (unpark rid s).pool = s.pool := rfl
@[simp] theorem unpark_queues (rid : Nat) (s : State) : (unpark rid s).queues = s.queues := rfl
@[simp] theorem unpark_cores (rid : Nat) (s : State) : (unpark rid s).cores = s.cores := rfl
@[simp] theorem unpark_groups (rid : Nat) (s : State) : (unpark rid s).groups = s.groups := rfl
@[simp] theorem unpark_spindle (rid : Nat) (s : State) : (unpark rid s).spindle = s.spindle := rfl
@[simp] theorem unpark_ports (rid : Nat) (s : State) : (unpark rid s).ports = s.ports := rfl
@[simp] theorem unpark_obs (rid : Nat) (s : State) : (unpark rid s).obs = s.obs := rfl

/-! `modGroup` -/

@[simp] theorem modGroup_pending (gi : Nat) (f : Group → Group) (s : State) : (modGroup gi f s).pending = s.pending := rfl
@[simp] theorem modGroup_timer (gi : Nat) (f : Group → Group) (s : State) : (modGroup gi f s).timer = s.timer := rfl
@[simp] theorem modGroup_free (gi : Nat) (f : Group → Group) (s : State) : (modGroup gi f s).free = s.free := rfl
@[simp] theorem modGroup_out (gi : Nat) (f : Group → Group) (s : State) : (modGroup gi f s).out = s.out := rfl
@[simp] theorem modGroup_replies (gi : Nat) (f : Group → Group) (s : State) : (modGroup gi f s).replies = s.replies := rfl
@[simp] theorem modGroup_boot (gi : Nat) (f : Group → Group) (s : State) : (modGroup gi f s).boot = s.boot := rfl
@[simp] theorem modGroup_phys (gi : Nat) (f : Group → Group) (s : State) : (modGroup gi f s).phys = s.phys := rfl
@[simp] theorem modGroup_mgmt (gi : Nat) (f : Group → Group) (s : State) : (modGroup gi f s).mgmt = s.mgmt := rfl
@[simp] theorem modGroup_parts (gi : Nat) (f : Group → Group) (s : State) : (modGroup gi f s).parts = s.parts := rfl
@[simp] theorem modGroup_ext (gi : Nat) (f : Group → Group) (s : State) : (modGroup gi f s).ext = s.ext := rfl
@[simp] theorem modGroup_home (gi : Nat) (f : Group → Group) (s : State) : (modGroup gi f s).home = s.home := rfl
@[simp] theorem modGroup_dir (gi : Nat) (f : Group → Group) (s : State) : (modGroup gi f s).dir = s.dir := rfl
@[simp] theorem modGroup_ledger (gi : Nat) (f : Group → Group) (s : State) : (modGroup gi f s).ledger = s.ledger := rfl
@[simp] theorem modGroup_vers (gi : Nat) (f : Group → Group) (s : State) : (modGroup gi f s).vers = s.vers := rfl
@[simp] theorem modGroup_queues (gi : Nat) (f : Group → Group) (s : State) : (modGroup gi f s).queues = s.queues := rfl
@[simp] theorem modGroup_cores (gi : Nat) (f : Group → Group) (s : State) : (modGroup gi f s).cores = s.cores := rfl
@[simp] theorem modGroup_groups (gi : Nat) (f : Group → Group) (s : State) : (modGroup gi f s).groups = s.groups := rfl
@[simp] theorem modGroup_spindle (gi : Nat) (f : Group → Group) (s : State) : (modGroup gi f s).spindle = s.spindle := rfl
@[simp] theorem modGroup_ports (gi : Nat) (f : Group → Group) (s : State) : (modGroup gi f s).ports = s.ports := rfl
@[simp] theorem modGroup_obs (gi : Nat) (f : Group → Group) (s : State) : (modGroup gi f s).obs = s.obs := rfl

/-! `fillLine` -/

@[simp] theorem fillLine_pending (key : Nat) (l : Line) (s : State) : (fillLine key l s).pending = s.pending := rfl
@[simp] theorem fillLine_timer (key : Nat) (l : Line) (s : State) : (fillLine key l s).timer = s.timer := rfl
@[simp] theorem fillLine_free (key : Nat) (l : Line) (s : State) : (fillLine key l s).free = s.free := rfl
@[simp] theorem fillLine_out (key : Nat) (l : Line) (s : State) : (fillLine key l s).out = s.out := rfl
@[simp] theorem fillLine_replies (key : Nat) (l : Line) (s : State) : (fillLine key l s).replies = s.replies := rfl
@[simp] theorem fillLine_boot (key : Nat) (l : Line) (s : State) : (fillLine key l s).boot = s.boot := rfl
@[simp] theorem fillLine_phys (key : Nat) (l : Line) (s : State) : (fillLine key l s).phys = s.phys := rfl
@[simp] theorem fillLine_mgmt (key : Nat) (l : Line) (s : State) : (fillLine key l s).mgmt = s.mgmt := rfl
@[simp] theorem fillLine_parts (key : Nat) (l : Line) (s : State) : (fillLine key l s).parts = s.parts := rfl
@[simp] theorem fillLine_ext (key : Nat) (l : Line) (s : State) : (fillLine key l s).ext = s.ext := rfl
@[simp] theorem fillLine_home (key : Nat) (l : Line) (s : State) : (fillLine key l s).home = s.home := rfl
@[simp] theorem fillLine_dir (key : Nat) (l : Line) (s : State) : (fillLine key l s).dir = s.dir := rfl
@[simp] theorem fillLine_ledger (key : Nat) (l : Line) (s : State) : (fillLine key l s).ledger = s.ledger := rfl
@[simp] theorem fillLine_vers (key : Nat) (l : Line) (s : State) : (fillLine key l s).vers = s.vers := rfl
@[simp] theorem fillLine_queues (key : Nat) (l : Line) (s : State) : (fillLine key l s).queues = s.queues := rfl
@[simp] theorem fillLine_cores (key : Nat) (l : Line) (s : State) : (fillLine key l s).cores = s.cores := rfl
@[simp] theorem fillLine_groups (key : Nat) (l : Line) (s : State) : (fillLine key l s).groups = s.groups := rfl
@[simp] theorem fillLine_spindle (key : Nat) (l : Line) (s : State) : (fillLine key l s).spindle = s.spindle := rfl
@[simp] theorem fillLine_ports (key : Nat) (l : Line) (s : State) : (fillLine key l s).ports = s.ports := rfl
@[simp] theorem fillLine_obs (key : Nat) (l : Line) (s : State) : (fillLine key l s).obs = s.obs := rfl

/-! `modQueue` -/

@[simp] theorem modQueue_pending (q : Nat) (f : Queue → Queue) (s : State) : (modQueue q f s).pending = s.pending := rfl
@[simp] theorem modQueue_timer (q : Nat) (f : Queue → Queue) (s : State) : (modQueue q f s).timer = s.timer := rfl
@[simp] theorem modQueue_free (q : Nat) (f : Queue → Queue) (s : State) : (modQueue q f s).free = s.free := rfl
@[simp] theorem modQueue_out (q : Nat) (f : Queue → Queue) (s : State) : (modQueue q f s).out = s.out := rfl
@[simp] theorem modQueue_replies (q : Nat) (f : Queue → Queue) (s : State) : (modQueue q f s).replies = s.replies := rfl
@[simp] theorem modQueue_boot (q : Nat) (f : Queue → Queue) (s : State) : (modQueue q f s).boot = s.boot := rfl
@[simp] theorem modQueue_phys (q : Nat) (f : Queue → Queue) (s : State) : (modQueue q f s).phys = s.phys := rfl
@[simp] theorem modQueue_mgmt (q : Nat) (f : Queue → Queue) (s : State) : (modQueue q f s).mgmt = s.mgmt := rfl
@[simp] theorem modQueue_parts (q : Nat) (f : Queue → Queue) (s : State) : (modQueue q f s).parts = s.parts := rfl
@[simp] theorem modQueue_ext (q : Nat) (f : Queue → Queue) (s : State) : (modQueue q f s).ext = s.ext := rfl
@[simp] theorem modQueue_home (q : Nat) (f : Queue → Queue) (s : State) : (modQueue q f s).home = s.home := rfl
@[simp] theorem modQueue_dir (q : Nat) (f : Queue → Queue) (s : State) : (modQueue q f s).dir = s.dir := rfl
@[simp] theorem modQueue_ledger (q : Nat) (f : Queue → Queue) (s : State) : (modQueue q f s).ledger = s.ledger := rfl
@[simp] theorem modQueue_vers (q : Nat) (f : Queue → Queue) (s : State) : (modQueue q f s).vers = s.vers := rfl
@[simp] theorem modQueue_pool (q : Nat) (f : Queue → Queue) (s : State) : (modQueue q f s).pool = s.pool := rfl
@[simp] theorem modQueue_cores (q : Nat) (f : Queue → Queue) (s : State) : (modQueue q f s).cores = s.cores := rfl
@[simp] theorem modQueue_groups (q : Nat) (f : Queue → Queue) (s : State) : (modQueue q f s).groups = s.groups := rfl
@[simp] theorem modQueue_spindle (q : Nat) (f : Queue → Queue) (s : State) : (modQueue q f s).spindle = s.spindle := rfl
@[simp] theorem modQueue_ports (q : Nat) (f : Queue → Queue) (s : State) : (modQueue q f s).ports = s.ports := rfl
@[simp] theorem modQueue_obs (q : Nat) (f : Queue → Queue) (s : State) : (modQueue q f s).obs = s.obs := rfl

/-! `modCore` -/

@[simp] theorem modCore_pending (c : Nat) (f : Core → Core) (s : State) : (modCore c f s).pending = s.pending := rfl
@[simp] theorem modCore_timer (c : Nat) (f : Core → Core) (s : State) : (modCore c f s).timer = s.timer := rfl
@[simp] theorem modCore_free (c : Nat) (f : Core → Core) (s : State) : (modCore c f s).free = s.free := rfl
@[simp] theorem modCore_out (c : Nat) (f : Core → Core) (s : State) : (modCore c f s).out = s.out := rfl
@[simp] theorem modCore_replies (c : Nat) (f : Core → Core) (s : State) : (modCore c f s).replies = s.replies := rfl
@[simp] theorem modCore_boot (c : Nat) (f : Core → Core) (s : State) : (modCore c f s).boot = s.boot := rfl
@[simp] theorem modCore_phys (c : Nat) (f : Core → Core) (s : State) : (modCore c f s).phys = s.phys := rfl
@[simp] theorem modCore_mgmt (c : Nat) (f : Core → Core) (s : State) : (modCore c f s).mgmt = s.mgmt := rfl
@[simp] theorem modCore_parts (c : Nat) (f : Core → Core) (s : State) : (modCore c f s).parts = s.parts := rfl
@[simp] theorem modCore_ext (c : Nat) (f : Core → Core) (s : State) : (modCore c f s).ext = s.ext := rfl
@[simp] theorem modCore_home (c : Nat) (f : Core → Core) (s : State) : (modCore c f s).home = s.home := rfl
@[simp] theorem modCore_dir (c : Nat) (f : Core → Core) (s : State) : (modCore c f s).dir = s.dir := rfl
@[simp] theorem modCore_ledger (c : Nat) (f : Core → Core) (s : State) : (modCore c f s).ledger = s.ledger := rfl
@[simp] theorem modCore_vers (c : Nat) (f : Core → Core) (s : State) : (modCore c f s).vers = s.vers := rfl
@[simp] theorem modCore_pool (c : Nat) (f : Core → Core) (s : State) : (modCore c f s).pool = s.pool := rfl
@[simp] theorem modCore_queues (c : Nat) (f : Core → Core) (s : State) : (modCore c f s).queues = s.queues := rfl
@[simp] theorem modCore_groups (c : Nat) (f : Core → Core) (s : State) : (modCore c f s).groups = s.groups := rfl
@[simp] theorem modCore_spindle (c : Nat) (f : Core → Core) (s : State) : (modCore c f s).spindle = s.spindle := rfl
@[simp] theorem modCore_ports (c : Nat) (f : Core → Core) (s : State) : (modCore c f s).ports = s.ports := rfl
@[simp] theorem modCore_obs (c : Nat) (f : Core → Core) (s : State) : (modCore c f s).obs = s.obs := rfl

/-! `modCtx` -/

@[simp] theorem modCtx_pending (x : CtxId) (f : Ctx → Ctx) (s : State) : (modCtx x f s).pending = s.pending := rfl
@[simp] theorem modCtx_timer (x : CtxId) (f : Ctx → Ctx) (s : State) : (modCtx x f s).timer = s.timer := rfl
@[simp] theorem modCtx_free (x : CtxId) (f : Ctx → Ctx) (s : State) : (modCtx x f s).free = s.free := rfl
@[simp] theorem modCtx_out (x : CtxId) (f : Ctx → Ctx) (s : State) : (modCtx x f s).out = s.out := rfl
@[simp] theorem modCtx_replies (x : CtxId) (f : Ctx → Ctx) (s : State) : (modCtx x f s).replies = s.replies := rfl
@[simp] theorem modCtx_boot (x : CtxId) (f : Ctx → Ctx) (s : State) : (modCtx x f s).boot = s.boot := rfl
@[simp] theorem modCtx_phys (x : CtxId) (f : Ctx → Ctx) (s : State) : (modCtx x f s).phys = s.phys := rfl
@[simp] theorem modCtx_mgmt (x : CtxId) (f : Ctx → Ctx) (s : State) : (modCtx x f s).mgmt = s.mgmt := rfl
@[simp] theorem modCtx_parts (x : CtxId) (f : Ctx → Ctx) (s : State) : (modCtx x f s).parts = s.parts := rfl
@[simp] theorem modCtx_ext (x : CtxId) (f : Ctx → Ctx) (s : State) : (modCtx x f s).ext = s.ext := rfl
@[simp] theorem modCtx_home (x : CtxId) (f : Ctx → Ctx) (s : State) : (modCtx x f s).home = s.home := rfl
@[simp] theorem modCtx_dir (x : CtxId) (f : Ctx → Ctx) (s : State) : (modCtx x f s).dir = s.dir := rfl
@[simp] theorem modCtx_ledger (x : CtxId) (f : Ctx → Ctx) (s : State) : (modCtx x f s).ledger = s.ledger := rfl
@[simp] theorem modCtx_vers (x : CtxId) (f : Ctx → Ctx) (s : State) : (modCtx x f s).vers = s.vers := rfl
@[simp] theorem modCtx_pool (x : CtxId) (f : Ctx → Ctx) (s : State) : (modCtx x f s).pool = s.pool := rfl
@[simp] theorem modCtx_queues (x : CtxId) (f : Ctx → Ctx) (s : State) : (modCtx x f s).queues = s.queues := rfl
@[simp] theorem modCtx_groups (x : CtxId) (f : Ctx → Ctx) (s : State) : (modCtx x f s).groups = s.groups := rfl
@[simp] theorem modCtx_spindle (x : CtxId) (f : Ctx → Ctx) (s : State) : (modCtx x f s).spindle = s.spindle := rfl
@[simp] theorem modCtx_ports (x : CtxId) (f : Ctx → Ctx) (s : State) : (modCtx x f s).ports = s.ports := rfl
@[simp] theorem modCtx_obs (x : CtxId) (f : Ctx → Ctx) (s : State) : (modCtx x f s).obs = s.obs := rfl

/-! `putCtx` -/

@[simp] theorem putCtx_pending (x : CtxId) (k : Ctx) (s : State) : (putCtx x k s).pending = s.pending := rfl
@[simp] theorem putCtx_timer (x : CtxId) (k : Ctx) (s : State) : (putCtx x k s).timer = s.timer := rfl
@[simp] theorem putCtx_free (x : CtxId) (k : Ctx) (s : State) : (putCtx x k s).free = s.free := rfl
@[simp] theorem putCtx_out (x : CtxId) (k : Ctx) (s : State) : (putCtx x k s).out = s.out := rfl
@[simp] theorem putCtx_replies (x : CtxId) (k : Ctx) (s : State) : (putCtx x k s).replies = s.replies := rfl
@[simp] theorem putCtx_boot (x : CtxId) (k : Ctx) (s : State) : (putCtx x k s).boot = s.boot := rfl
@[simp] theorem putCtx_phys (x : CtxId) (k : Ctx) (s : State) : (putCtx x k s).phys = s.phys := rfl
@[simp] theorem putCtx_mgmt (x : CtxId) (k : Ctx) (s : State) : (putCtx x k s).mgmt = s.mgmt := rfl
@[simp] theorem putCtx_parts (x : CtxId) (k : Ctx) (s : State) : (putCtx x k s).parts = s.parts := rfl
@[simp] theorem putCtx_ext (x : CtxId) (k : Ctx) (s : State) : (putCtx x k s).ext = s.ext := rfl
@[simp] theorem putCtx_home (x : CtxId) (k : Ctx) (s : State) : (putCtx x k s).home = s.home := rfl
@[simp] theorem putCtx_dir (x : CtxId) (k : Ctx) (s : State) : (putCtx x k s).dir = s.dir := rfl
@[simp] theorem putCtx_ledger (x : CtxId) (k : Ctx) (s : State) : (putCtx x k s).ledger = s.ledger := rfl
@[simp] theorem putCtx_vers (x : CtxId) (k : Ctx) (s : State) : (putCtx x k s).vers = s.vers := rfl
@[simp] theorem putCtx_pool (x : CtxId) (k : Ctx) (s : State) : (putCtx x k s).pool = s.pool := rfl
@[simp] theorem putCtx_queues (x : CtxId) (k : Ctx) (s : State) : (putCtx x k s).queues = s.queues := rfl
@[simp] theorem putCtx_groups (x : CtxId) (k : Ctx) (s : State) : (putCtx x k s).groups = s.groups := rfl
@[simp] theorem putCtx_spindle (x : CtxId) (k : Ctx) (s : State) : (putCtx x k s).spindle = s.spindle := rfl
@[simp] theorem putCtx_ports (x : CtxId) (k : Ctx) (s : State) : (putCtx x k s).ports = s.ports := rfl
@[simp] theorem putCtx_obs (x : CtxId) (k : Ctx) (s : State) : (putCtx x k s).obs = s.obs := rfl

/-! `modPhys` -/

@[simp] theorem modPhys_pending (phys : Nat) (f : Phys → Phys) (s : State) : (modPhys phys f s).pending = s.pending := rfl
@[simp] theorem modPhys_timer (phys : Nat) (f : Phys → Phys) (s : State) : (modPhys phys f s).timer = s.timer := rfl
@[simp] theorem modPhys_free (phys : Nat) (f : Phys → Phys) (s : State) : (modPhys phys f s).free = s.free := rfl
@[simp] theorem modPhys_out (phys : Nat) (f : Phys → Phys) (s : State) : (modPhys phys f s).out = s.out := rfl
@[simp] theorem modPhys_replies (phys : Nat) (f : Phys → Phys) (s : State) : (modPhys phys f s).replies = s.replies := rfl
@[simp] theorem modPhys_boot (phys : Nat) (f : Phys → Phys) (s : State) : (modPhys phys f s).boot = s.boot := rfl
@[simp] theorem modPhys_phys (phys : Nat) (f : Phys → Phys) (s : State) : (modPhys phys f s).phys = s.phys := rfl
@[simp] theorem modPhys_mgmt (phys : Nat) (f : Phys → Phys) (s : State) : (modPhys phys f s).mgmt = s.mgmt := rfl
@[simp] theorem modPhys_parts (phys : Nat) (f : Phys → Phys) (s : State) : (modPhys phys f s).parts = s.parts := rfl
@[simp] theorem modPhys_ext (phys : Nat) (f : Phys → Phys) (s : State) : (modPhys phys f s).ext = s.ext := rfl
@[simp] theorem modPhys_home (phys : Nat) (f : Phys → Phys) (s : State) : (modPhys phys f s).home = s.home := rfl
@[simp] theorem modPhys_dir (phys : Nat) (f : Phys → Phys) (s : State) : (modPhys phys f s).dir = s.dir := rfl
@[simp] theorem modPhys_ledger (phys : Nat) (f : Phys → Phys) (s : State) : (modPhys phys f s).ledger = s.ledger := rfl
@[simp] theorem modPhys_vers (phys : Nat) (f : Phys → Phys) (s : State) : (modPhys phys f s).vers = s.vers := rfl
@[simp] theorem modPhys_pool (phys : Nat) (f : Phys → Phys) (s : State) : (modPhys phys f s).pool = s.pool := rfl
@[simp] theorem modPhys_queues (phys : Nat) (f : Phys → Phys) (s : State) : (modPhys phys f s).queues = s.queues := rfl
@[simp] theorem modPhys_groups (phys : Nat) (f : Phys → Phys) (s : State) : (modPhys phys f s).groups = s.groups := rfl
@[simp] theorem modPhys_spindle (phys : Nat) (f : Phys → Phys) (s : State) : (modPhys phys f s).spindle = s.spindle := rfl
@[simp] theorem modPhys_ports (phys : Nat) (f : Phys → Phys) (s : State) : (modPhys phys f s).ports = s.ports := rfl
@[simp] theorem modPhys_obs (phys : Nat) (f : Phys → Phys) (s : State) : (modPhys phys f s).obs = s.obs := rfl

/-! `setKernel` -/

@[simp] theorem setKernel_pending (p handle : Nat) (k : Kernel) (s : State) : (setKernel p handle k s).pending = s.pending := rfl
@[simp] theorem setKernel_timer (p handle : Nat) (k : Kernel) (s : State) : (setKernel p handle k s).timer = s.timer := rfl
@[simp] theorem setKernel_free (p handle : Nat) (k : Kernel) (s : State) : (setKernel p handle k s).free = s.free := rfl
@[simp] theorem setKernel_out (p handle : Nat) (k : Kernel) (s : State) : (setKernel p handle k s).out = s.out := rfl
@[simp] theorem setKernel_replies (p handle : Nat) (k : Kernel) (s : State) : (setKernel p handle k s).replies = s.replies := rfl
@[simp] theorem setKernel_boot (p handle : Nat) (k : Kernel) (s : State) : (setKernel p handle k s).boot = s.boot := rfl
@[simp] theorem setKernel_phys (p handle : Nat) (k : Kernel) (s : State) : (setKernel p handle k s).phys = s.phys := rfl
@[simp] theorem setKernel_mgmt (p handle : Nat) (k : Kernel) (s : State) : (setKernel p handle k s).mgmt = s.mgmt := rfl
@[simp] theorem setKernel_parts (p handle : Nat) (k : Kernel) (s : State) : (setKernel p handle k s).parts = s.parts := rfl
@[simp] theorem setKernel_ext (p handle : Nat) (k : Kernel) (s : State) : (setKernel p handle k s).ext = s.ext := rfl
@[simp] theorem setKernel_home (p handle : Nat) (k : Kernel) (s : State) : (setKernel p handle k s).home = s.home := rfl
@[simp] theorem setKernel_dir (p handle : Nat) (k : Kernel) (s : State) : (setKernel p handle k s).dir = s.dir := rfl
@[simp] theorem setKernel_ledger (p handle : Nat) (k : Kernel) (s : State) : (setKernel p handle k s).ledger = s.ledger := rfl
@[simp] theorem setKernel_vers (p handle : Nat) (k : Kernel) (s : State) : (setKernel p handle k s).vers = s.vers := rfl
@[simp] theorem setKernel_pool (p handle : Nat) (k : Kernel) (s : State) : (setKernel p handle k s).pool = s.pool := rfl
@[simp] theorem setKernel_queues (p handle : Nat) (k : Kernel) (s : State) : (setKernel p handle k s).queues = s.queues := rfl
@[simp] theorem setKernel_groups (p handle : Nat) (k : Kernel) (s : State) : (setKernel p handle k s).groups = s.groups := rfl
@[simp] theorem setKernel_spindle (p handle : Nat) (k : Kernel) (s : State) : (setKernel p handle k s).spindle = s.spindle := rfl
@[simp] theorem setKernel_ports (p handle : Nat) (k : Kernel) (s : State) : (setKernel p handle k s).ports = s.ports := rfl
@[simp] theorem setKernel_obs (p handle : Nat) (k : Kernel) (s : State) : (setKernel p handle k s).obs = s.obs := rfl

/-! `dropCounters` -/

@[simp] theorem dropCounters_pending (type block : Nat) (s : State) : (dropCounters type block s).pending = s.pending := rfl
@[simp] theorem dropCounters_timer (type block : Nat) (s : State) : (dropCounters type block s).timer = s.timer := rfl
@[simp] theorem dropCounters_free (type block : Nat) (s : State) : (dropCounters type block s).free = s.free := rfl
@[simp] theorem dropCounters_out (type block : Nat) (s : State) : (dropCounters type block s).out = s.out := rfl
@[simp] theorem dropCounters_replies (type block : Nat) (s : State) : (dropCounters type block s).replies = s.replies := rfl
@[simp] theorem dropCounters_boot (type block : Nat) (s : State) : (dropCounters type block s).boot = s.boot := rfl
@[simp] theorem dropCounters_phys (type block : Nat) (s : State) : (dropCounters type block s).phys = s.phys := rfl
@[simp] theorem dropCounters_mgmt (type block : Nat) (s : State) : (dropCounters type block s).mgmt = s.mgmt := rfl
@[simp] theorem dropCounters_parts (type block : Nat) (s : State) : (dropCounters type block s).parts = s.parts := rfl
@[simp] theorem dropCounters_ext (type block : Nat) (s : State) : (dropCounters type block s).ext = s.ext := rfl
@[simp] theorem dropCounters_home (type block : Nat) (s : State) : (dropCounters type block s).home = s.home := rfl
@[simp] theorem dropCounters_dir (type block : Nat) (s : State) : (dropCounters type block s).dir = s.dir := rfl
@[simp] theorem dropCounters_ledger (type block : Nat) (s : State) : (dropCounters type block s).ledger = s.ledger := rfl
@[simp] theorem dropCounters_vers (type block : Nat) (s : State) : (dropCounters type block s).vers = s.vers := rfl
@[simp] theorem dropCounters_pool (type block : Nat) (s : State) : (dropCounters type block s).pool = s.pool := rfl
@[simp] theorem dropCounters_queues (type block : Nat) (s : State) : (dropCounters type block s).queues = s.queues := rfl
@[simp] theorem dropCounters_cores (type block : Nat) (s : State) : (dropCounters type block s).cores = s.cores := rfl
@[simp] theorem dropCounters_groups (type block : Nat) (s : State) : (dropCounters type block s).groups = s.groups := rfl
@[simp] theorem dropCounters_spindle (type block : Nat) (s : State) : (dropCounters type block s).spindle = s.spindle := rfl
@[simp] theorem dropCounters_ports (type block : Nat) (s : State) : (dropCounters type block s).ports = s.ports := rfl

/-! `ledgerTake` -/

@[simp] theorem ledgerTake_pending (tx : Tx) (slot area : Nat) (s : State) : (ledgerTake tx slot area s).pending = s.pending := rfl
@[simp] theorem ledgerTake_timer (tx : Tx) (slot area : Nat) (s : State) : (ledgerTake tx slot area s).timer = s.timer := rfl
@[simp] theorem ledgerTake_free (tx : Tx) (slot area : Nat) (s : State) : (ledgerTake tx slot area s).free = s.free := rfl
@[simp] theorem ledgerTake_out (tx : Tx) (slot area : Nat) (s : State) : (ledgerTake tx slot area s).out = s.out := rfl
@[simp] theorem ledgerTake_replies (tx : Tx) (slot area : Nat) (s : State) : (ledgerTake tx slot area s).replies = s.replies := rfl
@[simp] theorem ledgerTake_boot (tx : Tx) (slot area : Nat) (s : State) : (ledgerTake tx slot area s).boot = s.boot := rfl
@[simp] theorem ledgerTake_phys (tx : Tx) (slot area : Nat) (s : State) : (ledgerTake tx slot area s).phys = s.phys := rfl
@[simp] theorem ledgerTake_mgmt (tx : Tx) (slot area : Nat) (s : State) : (ledgerTake tx slot area s).mgmt = s.mgmt := rfl
@[simp] theorem ledgerTake_parts (tx : Tx) (slot area : Nat) (s : State) : (ledgerTake tx slot area s).parts = s.parts := rfl
@[simp] theorem ledgerTake_ext (tx : Tx) (slot area : Nat) (s : State) : (ledgerTake tx slot area s).ext = s.ext := rfl
@[simp] theorem ledgerTake_home (tx : Tx) (slot area : Nat) (s : State) : (ledgerTake tx slot area s).home = s.home := rfl
@[simp] theorem ledgerTake_dir (tx : Tx) (slot area : Nat) (s : State) : (ledgerTake tx slot area s).dir = s.dir := rfl
@[simp] theorem ledgerTake_vers (tx : Tx) (slot area : Nat) (s : State) : (ledgerTake tx slot area s).vers = s.vers := rfl
@[simp] theorem ledgerTake_pool (tx : Tx) (slot area : Nat) (s : State) : (ledgerTake tx slot area s).pool = s.pool := rfl
@[simp] theorem ledgerTake_queues (tx : Tx) (slot area : Nat) (s : State) : (ledgerTake tx slot area s).queues = s.queues := rfl
@[simp] theorem ledgerTake_cores (tx : Tx) (slot area : Nat) (s : State) : (ledgerTake tx slot area s).cores = s.cores := rfl
@[simp] theorem ledgerTake_groups (tx : Tx) (slot area : Nat) (s : State) : (ledgerTake tx slot area s).groups = s.groups := rfl
@[simp] theorem ledgerTake_spindle (tx : Tx) (slot area : Nat) (s : State) : (ledgerTake tx slot area s).spindle = s.spindle := rfl
@[simp] theorem ledgerTake_ports (tx : Tx) (slot area : Nat) (s : State) : (ledgerTake tx slot area s).ports = s.ports := rfl
@[simp] theorem ledgerTake_obs (tx : Tx) (slot area : Nat) (s : State) : (ledgerTake tx slot area s).obs = s.obs := rfl

/-! `ledgerDone` -/

@[simp] theorem ledgerDone_pending (tx : Tx) (st : St) (r : BitVec 128) (s : State) : (ledgerDone tx st r s).pending = s.pending := rfl
@[simp] theorem ledgerDone_timer (tx : Tx) (st : St) (r : BitVec 128) (s : State) : (ledgerDone tx st r s).timer = s.timer := rfl
@[simp] theorem ledgerDone_free (tx : Tx) (st : St) (r : BitVec 128) (s : State) : (ledgerDone tx st r s).free = s.free := rfl
@[simp] theorem ledgerDone_out (tx : Tx) (st : St) (r : BitVec 128) (s : State) : (ledgerDone tx st r s).out = s.out := rfl
@[simp] theorem ledgerDone_replies (tx : Tx) (st : St) (r : BitVec 128) (s : State) : (ledgerDone tx st r s).replies = s.replies := rfl
@[simp] theorem ledgerDone_boot (tx : Tx) (st : St) (r : BitVec 128) (s : State) : (ledgerDone tx st r s).boot = s.boot := rfl
@[simp] theorem ledgerDone_phys (tx : Tx) (st : St) (r : BitVec 128) (s : State) : (ledgerDone tx st r s).phys = s.phys := rfl
@[simp] theorem ledgerDone_mgmt (tx : Tx) (st : St) (r : BitVec 128) (s : State) : (ledgerDone tx st r s).mgmt = s.mgmt := rfl
@[simp] theorem ledgerDone_parts (tx : Tx) (st : St) (r : BitVec 128) (s : State) : (ledgerDone tx st r s).parts = s.parts := rfl
@[simp] theorem ledgerDone_ext (tx : Tx) (st : St) (r : BitVec 128) (s : State) : (ledgerDone tx st r s).ext = s.ext := rfl
@[simp] theorem ledgerDone_home (tx : Tx) (st : St) (r : BitVec 128) (s : State) : (ledgerDone tx st r s).home = s.home := rfl
@[simp] theorem ledgerDone_dir (tx : Tx) (st : St) (r : BitVec 128) (s : State) : (ledgerDone tx st r s).dir = s.dir := rfl
@[simp] theorem ledgerDone_vers (tx : Tx) (st : St) (r : BitVec 128) (s : State) : (ledgerDone tx st r s).vers = s.vers := rfl
@[simp] theorem ledgerDone_pool (tx : Tx) (st : St) (r : BitVec 128) (s : State) : (ledgerDone tx st r s).pool = s.pool := rfl
@[simp] theorem ledgerDone_queues (tx : Tx) (st : St) (r : BitVec 128) (s : State) : (ledgerDone tx st r s).queues = s.queues := rfl
@[simp] theorem ledgerDone_cores (tx : Tx) (st : St) (r : BitVec 128) (s : State) : (ledgerDone tx st r s).cores = s.cores := rfl
@[simp] theorem ledgerDone_groups (tx : Tx) (st : St) (r : BitVec 128) (s : State) : (ledgerDone tx st r s).groups = s.groups := rfl
@[simp] theorem ledgerDone_spindle (tx : Tx) (st : St) (r : BitVec 128) (s : State) : (ledgerDone tx st r s).spindle = s.spindle := rfl
@[simp] theorem ledgerDone_ports (tx : Tx) (st : St) (r : BitVec 128) (s : State) : (ledgerDone tx st r s).ports = s.ports := rfl
@[simp] theorem ledgerDone_obs (tx : Tx) (st : St) (r : BitVec 128) (s : State) : (ledgerDone tx st r s).obs = s.obs := rfl

/-! `resetLedger` -/

@[simp] theorem resetLedger_pending (n : Node) (s : State) : (resetLedger n s).pending = s.pending := rfl
@[simp] theorem resetLedger_timer (n : Node) (s : State) : (resetLedger n s).timer = s.timer := rfl
@[simp] theorem resetLedger_free (n : Node) (s : State) : (resetLedger n s).free = s.free := rfl
@[simp] theorem resetLedger_out (n : Node) (s : State) : (resetLedger n s).out = s.out := rfl
@[simp] theorem resetLedger_replies (n : Node) (s : State) : (resetLedger n s).replies = s.replies := rfl
@[simp] theorem resetLedger_boot (n : Node) (s : State) : (resetLedger n s).boot = s.boot := rfl
@[simp] theorem resetLedger_phys (n : Node) (s : State) : (resetLedger n s).phys = s.phys := rfl
@[simp] theorem resetLedger_mgmt (n : Node) (s : State) : (resetLedger n s).mgmt = s.mgmt := rfl
@[simp] theorem resetLedger_parts (n : Node) (s : State) : (resetLedger n s).parts = s.parts := rfl
@[simp] theorem resetLedger_home (n : Node) (s : State) : (resetLedger n s).home = s.home := rfl
@[simp] theorem resetLedger_dir (n : Node) (s : State) : (resetLedger n s).dir = s.dir := rfl
@[simp] theorem resetLedger_vers (n : Node) (s : State) : (resetLedger n s).vers = s.vers := rfl
@[simp] theorem resetLedger_pool (n : Node) (s : State) : (resetLedger n s).pool = s.pool := rfl
@[simp] theorem resetLedger_queues (n : Node) (s : State) : (resetLedger n s).queues = s.queues := rfl
@[simp] theorem resetLedger_cores (n : Node) (s : State) : (resetLedger n s).cores = s.cores := rfl
@[simp] theorem resetLedger_groups (n : Node) (s : State) : (resetLedger n s).groups = s.groups := rfl
@[simp] theorem resetLedger_spindle (n : Node) (s : State) : (resetLedger n s).spindle = s.spindle := rfl
@[simp] theorem resetLedger_ports (n : Node) (s : State) : (resetLedger n s).ports = s.ports := rfl
@[simp] theorem resetLedger_obs (n : Node) (s : State) : (resetLedger n s).obs = s.obs := rfl

/-! `answerAtomic` -/

@[simp] theorem answerAtomic_pending (tx : Tx) (st : St) (r : BitVec 128) (s : State) : (answerAtomic tx st r s).pending = s.pending := rfl
@[simp] theorem answerAtomic_timer (tx : Tx) (st : St) (r : BitVec 128) (s : State) : (answerAtomic tx st r s).timer = s.timer := rfl
@[simp] theorem answerAtomic_free (tx : Tx) (st : St) (r : BitVec 128) (s : State) : (answerAtomic tx st r s).free = s.free := rfl
@[simp] theorem answerAtomic_replies (tx : Tx) (st : St) (r : BitVec 128) (s : State) : (answerAtomic tx st r s).replies = s.replies := rfl
@[simp] theorem answerAtomic_boot (tx : Tx) (st : St) (r : BitVec 128) (s : State) : (answerAtomic tx st r s).boot = s.boot := rfl
@[simp] theorem answerAtomic_phys (tx : Tx) (st : St) (r : BitVec 128) (s : State) : (answerAtomic tx st r s).phys = s.phys := rfl
@[simp] theorem answerAtomic_mgmt (tx : Tx) (st : St) (r : BitVec 128) (s : State) : (answerAtomic tx st r s).mgmt = s.mgmt := rfl
@[simp] theorem answerAtomic_parts (tx : Tx) (st : St) (r : BitVec 128) (s : State) : (answerAtomic tx st r s).parts = s.parts := rfl
@[simp] theorem answerAtomic_ext (tx : Tx) (st : St) (r : BitVec 128) (s : State) : (answerAtomic tx st r s).ext = s.ext := rfl
@[simp] theorem answerAtomic_dir (tx : Tx) (st : St) (r : BitVec 128) (s : State) : (answerAtomic tx st r s).dir = s.dir := rfl
@[simp] theorem answerAtomic_ledger (tx : Tx) (st : St) (r : BitVec 128) (s : State) : (answerAtomic tx st r s).ledger = s.ledger := rfl
@[simp] theorem answerAtomic_vers (tx : Tx) (st : St) (r : BitVec 128) (s : State) : (answerAtomic tx st r s).vers = s.vers := rfl
@[simp] theorem answerAtomic_pool (tx : Tx) (st : St) (r : BitVec 128) (s : State) : (answerAtomic tx st r s).pool = s.pool := rfl
@[simp] theorem answerAtomic_queues (tx : Tx) (st : St) (r : BitVec 128) (s : State) : (answerAtomic tx st r s).queues = s.queues := rfl
@[simp] theorem answerAtomic_cores (tx : Tx) (st : St) (r : BitVec 128) (s : State) : (answerAtomic tx st r s).cores = s.cores := rfl
@[simp] theorem answerAtomic_groups (tx : Tx) (st : St) (r : BitVec 128) (s : State) : (answerAtomic tx st r s).groups = s.groups := rfl
@[simp] theorem answerAtomic_spindle (tx : Tx) (st : St) (r : BitVec 128) (s : State) : (answerAtomic tx st r s).spindle = s.spindle := rfl
@[simp] theorem answerAtomic_ports (tx : Tx) (st : St) (r : BitVec 128) (s : State) : (answerAtomic tx st r s).ports = s.ports := rfl
@[simp] theorem answerAtomic_obs (tx : Tx) (st : St) (r : BitVec 128) (s : State) : (answerAtomic tx st r s).obs = s.obs := rfl

/-! `setCg` -/

@[simp] theorem setCg_pending (id : BitVec 48) (g : CGroup) (s : State) : (setCg id g s).pending = s.pending := rfl
@[simp] theorem setCg_timer (id : BitVec 48) (g : CGroup) (s : State) : (setCg id g s).timer = s.timer := rfl
@[simp] theorem setCg_free (id : BitVec 48) (g : CGroup) (s : State) : (setCg id g s).free = s.free := rfl
@[simp] theorem setCg_out (id : BitVec 48) (g : CGroup) (s : State) : (setCg id g s).out = s.out := rfl
@[simp] theorem setCg_replies (id : BitVec 48) (g : CGroup) (s : State) : (setCg id g s).replies = s.replies := rfl
@[simp] theorem setCg_boot (id : BitVec 48) (g : CGroup) (s : State) : (setCg id g s).boot = s.boot := rfl
@[simp] theorem setCg_phys (id : BitVec 48) (g : CGroup) (s : State) : (setCg id g s).phys = s.phys := rfl
@[simp] theorem setCg_mgmt (id : BitVec 48) (g : CGroup) (s : State) : (setCg id g s).mgmt = s.mgmt := rfl
@[simp] theorem setCg_parts (id : BitVec 48) (g : CGroup) (s : State) : (setCg id g s).parts = s.parts := rfl
@[simp] theorem setCg_ext (id : BitVec 48) (g : CGroup) (s : State) : (setCg id g s).ext = s.ext := rfl
@[simp] theorem setCg_home (id : BitVec 48) (g : CGroup) (s : State) : (setCg id g s).home = s.home := rfl
@[simp] theorem setCg_dir (id : BitVec 48) (g : CGroup) (s : State) : (setCg id g s).dir = s.dir := rfl
@[simp] theorem setCg_ledger (id : BitVec 48) (g : CGroup) (s : State) : (setCg id g s).ledger = s.ledger := rfl
@[simp] theorem setCg_vers (id : BitVec 48) (g : CGroup) (s : State) : (setCg id g s).vers = s.vers := rfl
@[simp] theorem setCg_pool (id : BitVec 48) (g : CGroup) (s : State) : (setCg id g s).pool = s.pool := rfl
@[simp] theorem setCg_queues (id : BitVec 48) (g : CGroup) (s : State) : (setCg id g s).queues = s.queues := rfl
@[simp] theorem setCg_cores (id : BitVec 48) (g : CGroup) (s : State) : (setCg id g s).cores = s.cores := rfl
@[simp] theorem setCg_spindle (id : BitVec 48) (g : CGroup) (s : State) : (setCg id g s).spindle = s.spindle := rfl
@[simp] theorem setCg_ports (id : BitVec 48) (g : CGroup) (s : State) : (setCg id g s).ports = s.ports := rfl
@[simp] theorem setCg_obs (id : BitVec 48) (g : CGroup) (s : State) : (setCg id g s).obs = s.obs := rfl

/-! `setSource` -/

@[simp] theorem setSource_pending (p : Nat) (home : Node) (e : EngineSource) (s : State) : (setSource p home e s).pending = s.pending := rfl
@[simp] theorem setSource_timer (p : Nat) (home : Node) (e : EngineSource) (s : State) : (setSource p home e s).timer = s.timer := rfl
@[simp] theorem setSource_free (p : Nat) (home : Node) (e : EngineSource) (s : State) : (setSource p home e s).free = s.free := rfl
@[simp] theorem setSource_out (p : Nat) (home : Node) (e : EngineSource) (s : State) : (setSource p home e s).out = s.out := rfl
@[simp] theorem setSource_replies (p : Nat) (home : Node) (e : EngineSource) (s : State) : (setSource p home e s).replies = s.replies := rfl
@[simp] theorem setSource_boot (p : Nat) (home : Node) (e : EngineSource) (s : State) : (setSource p home e s).boot = s.boot := rfl
@[simp] theorem setSource_phys (p : Nat) (home : Node) (e : EngineSource) (s : State) : (setSource p home e s).phys = s.phys := rfl
@[simp] theorem setSource_mgmt (p : Nat) (home : Node) (e : EngineSource) (s : State) : (setSource p home e s).mgmt = s.mgmt := rfl
@[simp] theorem setSource_parts (p : Nat) (home : Node) (e : EngineSource) (s : State) : (setSource p home e s).parts = s.parts := rfl
@[simp] theorem setSource_ext (p : Nat) (home : Node) (e : EngineSource) (s : State) : (setSource p home e s).ext = s.ext := rfl
@[simp] theorem setSource_home (p : Nat) (home : Node) (e : EngineSource) (s : State) : (setSource p home e s).home = s.home := rfl
@[simp] theorem setSource_dir (p : Nat) (home : Node) (e : EngineSource) (s : State) : (setSource p home e s).dir = s.dir := rfl
@[simp] theorem setSource_ledger (p : Nat) (home : Node) (e : EngineSource) (s : State) : (setSource p home e s).ledger = s.ledger := rfl
@[simp] theorem setSource_vers (p : Nat) (home : Node) (e : EngineSource) (s : State) : (setSource p home e s).vers = s.vers := rfl
@[simp] theorem setSource_pool (p : Nat) (home : Node) (e : EngineSource) (s : State) : (setSource p home e s).pool = s.pool := rfl
@[simp] theorem setSource_queues (p : Nat) (home : Node) (e : EngineSource) (s : State) : (setSource p home e s).queues = s.queues := rfl
@[simp] theorem setSource_groups (p : Nat) (home : Node) (e : EngineSource) (s : State) : (setSource p home e s).groups = s.groups := rfl
@[simp] theorem setSource_spindle (p : Nat) (home : Node) (e : EngineSource) (s : State) : (setSource p home e s).spindle = s.spindle := rfl
@[simp] theorem setSource_ports (p : Nat) (home : Node) (e : EngineSource) (s : State) : (setSource p home e s).ports = s.ports := rfl
@[simp] theorem setSource_obs (p : Nat) (home : Node) (e : EngineSource) (s : State) : (setSource p home e s).obs = s.obs := rfl

/-! `modSp` -/

@[simp] theorem modSp_pending (f : SpindleSt → SpindleSt) (s : State) : (modSp f s).pending = s.pending := rfl
@[simp] theorem modSp_timer (f : SpindleSt → SpindleSt) (s : State) : (modSp f s).timer = s.timer := rfl
@[simp] theorem modSp_free (f : SpindleSt → SpindleSt) (s : State) : (modSp f s).free = s.free := rfl
@[simp] theorem modSp_out (f : SpindleSt → SpindleSt) (s : State) : (modSp f s).out = s.out := rfl
@[simp] theorem modSp_replies (f : SpindleSt → SpindleSt) (s : State) : (modSp f s).replies = s.replies := rfl
@[simp] theorem modSp_boot (f : SpindleSt → SpindleSt) (s : State) : (modSp f s).boot = s.boot := rfl
@[simp] theorem modSp_phys (f : SpindleSt → SpindleSt) (s : State) : (modSp f s).phys = s.phys := rfl
@[simp] theorem modSp_mgmt (f : SpindleSt → SpindleSt) (s : State) : (modSp f s).mgmt = s.mgmt := rfl
@[simp] theorem modSp_parts (f : SpindleSt → SpindleSt) (s : State) : (modSp f s).parts = s.parts := rfl
@[simp] theorem modSp_ext (f : SpindleSt → SpindleSt) (s : State) : (modSp f s).ext = s.ext := rfl
@[simp] theorem modSp_home (f : SpindleSt → SpindleSt) (s : State) : (modSp f s).home = s.home := rfl
@[simp] theorem modSp_dir (f : SpindleSt → SpindleSt) (s : State) : (modSp f s).dir = s.dir := rfl
@[simp] theorem modSp_ledger (f : SpindleSt → SpindleSt) (s : State) : (modSp f s).ledger = s.ledger := rfl
@[simp] theorem modSp_vers (f : SpindleSt → SpindleSt) (s : State) : (modSp f s).vers = s.vers := rfl
@[simp] theorem modSp_pool (f : SpindleSt → SpindleSt) (s : State) : (modSp f s).pool = s.pool := rfl
@[simp] theorem modSp_queues (f : SpindleSt → SpindleSt) (s : State) : (modSp f s).queues = s.queues := rfl
@[simp] theorem modSp_cores (f : SpindleSt → SpindleSt) (s : State) : (modSp f s).cores = s.cores := rfl
@[simp] theorem modSp_groups (f : SpindleSt → SpindleSt) (s : State) : (modSp f s).groups = s.groups := rfl
@[simp] theorem modSp_ports (f : SpindleSt → SpindleSt) (s : State) : (modSp f s).ports = s.ports := rfl
@[simp] theorem modSp_obs (f : SpindleSt → SpindleSt) (s : State) : (modSp f s).obs = s.obs := rfl

/-! `nextEpoch` -/

@[simp] theorem nextEpoch_pending (s : State) : (nextEpoch s).pending = s.pending := rfl
@[simp] theorem nextEpoch_timer (s : State) : (nextEpoch s).timer = s.timer := rfl
@[simp] theorem nextEpoch_free (s : State) : (nextEpoch s).free = s.free := rfl
@[simp] theorem nextEpoch_out (s : State) : (nextEpoch s).out = s.out := rfl
@[simp] theorem nextEpoch_replies (s : State) : (nextEpoch s).replies = s.replies := rfl
@[simp] theorem nextEpoch_boot (s : State) : (nextEpoch s).boot = s.boot := rfl
@[simp] theorem nextEpoch_phys (s : State) : (nextEpoch s).phys = s.phys := rfl
@[simp] theorem nextEpoch_mgmt (s : State) : (nextEpoch s).mgmt = s.mgmt := rfl
@[simp] theorem nextEpoch_parts (s : State) : (nextEpoch s).parts = s.parts := rfl
@[simp] theorem nextEpoch_home (s : State) : (nextEpoch s).home = s.home := rfl
@[simp] theorem nextEpoch_dir (s : State) : (nextEpoch s).dir = s.dir := rfl
@[simp] theorem nextEpoch_ledger (s : State) : (nextEpoch s).ledger = s.ledger := rfl
@[simp] theorem nextEpoch_vers (s : State) : (nextEpoch s).vers = s.vers := rfl
@[simp] theorem nextEpoch_pool (s : State) : (nextEpoch s).pool = s.pool := rfl
@[simp] theorem nextEpoch_queues (s : State) : (nextEpoch s).queues = s.queues := rfl
@[simp] theorem nextEpoch_cores (s : State) : (nextEpoch s).cores = s.cores := rfl
@[simp] theorem nextEpoch_groups (s : State) : (nextEpoch s).groups = s.groups := rfl
@[simp] theorem nextEpoch_spindle (s : State) : (nextEpoch s).spindle = s.spindle := rfl
@[simp] theorem nextEpoch_ports (s : State) : (nextEpoch s).ports = s.ports := rfl
@[simp] theorem nextEpoch_obs (s : State) : (nextEpoch s).obs = s.obs := rfl

/-! `setFlow` -/

@[simp] theorem setFlow_pending (f : Flow) (s : State) : (setFlow f s).pending = s.pending := rfl
@[simp] theorem setFlow_timer (f : Flow) (s : State) : (setFlow f s).timer = s.timer := rfl
@[simp] theorem setFlow_free (f : Flow) (s : State) : (setFlow f s).free = s.free := rfl
@[simp] theorem setFlow_out (f : Flow) (s : State) : (setFlow f s).out = s.out := rfl
@[simp] theorem setFlow_replies (f : Flow) (s : State) : (setFlow f s).replies = s.replies := rfl
@[simp] theorem setFlow_boot (f : Flow) (s : State) : (setFlow f s).boot = s.boot := rfl
@[simp] theorem setFlow_phys (f : Flow) (s : State) : (setFlow f s).phys = s.phys := rfl
@[simp] theorem setFlow_mgmt (f : Flow) (s : State) : (setFlow f s).mgmt = s.mgmt := rfl
@[simp] theorem setFlow_parts (f : Flow) (s : State) : (setFlow f s).parts = s.parts := rfl
@[simp] theorem setFlow_ext (f : Flow) (s : State) : (setFlow f s).ext = s.ext := rfl
@[simp] theorem setFlow_dir (f : Flow) (s : State) : (setFlow f s).dir = s.dir := rfl
@[simp] theorem setFlow_ledger (f : Flow) (s : State) : (setFlow f s).ledger = s.ledger := rfl
@[simp] theorem setFlow_vers (f : Flow) (s : State) : (setFlow f s).vers = s.vers := rfl
@[simp] theorem setFlow_pool (f : Flow) (s : State) : (setFlow f s).pool = s.pool := rfl
@[simp] theorem setFlow_queues (f : Flow) (s : State) : (setFlow f s).queues = s.queues := rfl
@[simp] theorem setFlow_cores (f : Flow) (s : State) : (setFlow f s).cores = s.cores := rfl
@[simp] theorem setFlow_groups (f : Flow) (s : State) : (setFlow f s).groups = s.groups := rfl
@[simp] theorem setFlow_spindle (f : Flow) (s : State) : (setFlow f s).spindle = s.spindle := rfl
@[simp] theorem setFlow_ports (f : Flow) (s : State) : (setFlow f s).ports = s.ports := rfl
@[simp] theorem setFlow_obs (f : Flow) (s : State) : (setFlow f s).obs = s.obs := rfl

end Sys2Proof.Machine
end

