-- ==== Sys2Proof/Laws/Arrive.lean ====
section
/-! SUPPORT. A transaction that arrives in sequence and passes the checks of R355 is served at once (R361). -/

namespace Sys2Proof.Machine

/-- What a transaction that arrives in sequence meets. -/
theorem resequence_next {port : Nat} {tx : Tx} {s : State} (hd : tx.fwd = none)
    (hn : ∀ f, flowOf s (flowSrc tx) tx.cls = some f → f.held = [] ∧ (tx.flowStart = true ∨ (f.gap = false ∧ f.expected = tx.flowSeq))) :
    resequence port tx s = serveNew port tx
      (setFlow { src := flowSrc tx, cls := tx.cls, expected := tx.flowSeq + 1, held := [], gap := false } s) := by
  simp only [resequence, hd, Option.isSome_none, Bool.false_eq_true, if_false]
  cases hf : flowOf s (flowSrc tx) tx.cls with
  | none => simp [takeRun, deliver1]
  | some f =>
    obtain ⟨hh, h⟩ := hn f hf
    rcases h with h | ⟨hg, he⟩
    · simp [h, hh, takeRun, deliver1]
    · by_cases hs : tx.flowStart = true
      · simp [hs, hh, takeRun, deliver1]
      · simp [hs, hh, hg, he, takeRun, deliver1]

/-- A transaction that arrives is served, and what a step leaves to be done follows. -/
theorem recv_arrives {port : Nat} {op : Byte} {resp : Bool} {tx : Tx} {s : State} (h : Arrives s port (arriving s port op resp tx)) :
    recv port { tx with op := op, resp := resp } s = settle (serveNew (canonPort s port) (arriving s port op resp tx)
      (setFlow { src := flowSrc (arriving s port op resp tx), cls := tx.cls, expected := tx.flowSeq + 1, held := [], gap := false } s)) := by
  have e : ({ tx with op := op, resp := resp, hop := min 1023 (tx.hop + 1),
                      ptag := portTag s (canonPort s port) { tx with op := op, resp := resp } } : Tx) = arriving s port op resp tx := rfl
  have hm : isSelf s tx.dst = true := h.mine
  have hc := h.checked
  simp only [recv, h.up, Bool.not_true, Bool.false_eq_true, if_false, hm, and_false, false_and, e, hc, if_true]
  rw [resequence_next h.direct h.next]
  rfl

/-- The state that serves it: its number is taken, and its mark is heard. -/
theorem serveNew_taken (port : Nat) (tx : Tx) (s : State) :
    serveNew (canonPort s port) tx (setFlow { src := flowSrc tx, cls := tx.cls, expected := tx.flowSeq + 1, held := [], gap := false } s) =
      if tx.resp then serveResponse tx (taken port tx s) else serveOp true s.home.nextId (canonPort s port) tx (taken port tx s) := rfl

/-- A row of a transaction that arrives serves it. -/
theorem recv_serves {port : Nat} {op : Byte} {resp : Bool} {tx : Tx} {s : State} (h : Arrives s port (arriving s port op resp tx)) :
    recv port { tx with op := op, resp := resp } s = settle
      (if resp then serveResponse (arriving s port op resp tx) (taken port (arriving s port op resp tx) s)
       else serveOp true s.home.nextId (canonPort s port) (arriving s port op resp tx) (taken port (arriving s port op resp tx) s)) := by
  rw [recv_arrives h]
  exact congrArg settle (serveNew_taken _ _ _)

end Sys2Proof.Machine
end

