-- ==== Sys2Proof/Laws/Table.lean ====
section
/-! SUPPORT. Tables: what a read gives after a write, and that every operation keeps the canonical form. -/

namespace Sys2Proof.Machine

variable {α : Type}

@[simp] theorem tget_nil (n : Nat) : tget ([] : Table α) n = none := rfl

theorem tget_cons (k n : Nat) (v : α) (t : Table α) : tget ((k, v) :: t) n = if k = n then some v else tget t n := rfl

@[simp] theorem tget_tset_same (t : Table α) (n : Nat) (x : α) : tget (tset t n x) n = some x := by
  induction t with
  | nil => simp [tset, tget]
  | cons p t ih =>
    obtain ⟨k, v⟩ := p
    simp only [tset]
    split
    · simp [tget]
    · split
      · simp [tget]
      · rename_i h1 h2
        have : k ≠ n := fun h => h2 h.symm
        simp [tget, this, ih]

theorem tget_tset_ne (t : Table α) {n m : Nat} (x : α) (h : m ≠ n) : tget (tset t n x) m = tget t m := by
  induction t with
  | nil => simp [tset, tget, h.symm]
  | cons p t ih =>
    obtain ⟨k, v⟩ := p
    simp only [tset]
    split
    · simp [tget, h.symm]
    · split
      · rename_i _ h2
        subst h2
        simp [tget, h.symm]
      · simp only [tget]
        split <;> simp_all

@[simp] theorem tget_tmod_same (t : Table α) (n : Nat) (f : α → α) : tget (tmod t n f) n = (tget t n).map f := by
  induction t with
  | nil => rfl
  | cons p t ih =>
    obtain ⟨k, v⟩ := p
    simp only [tmod, List.map_cons] at ih ⊢
    by_cases h : k = n <;> simp_all [tget]

theorem tget_tmod_ne (t : Table α) {n m : Nat} (f : α → α) (h : m ≠ n) : tget (tmod t n f) m = tget t m := by
  induction t with
  | nil => rfl
  | cons p t ih =>
    obtain ⟨k, v⟩ := p
    simp only [tmod, List.map_cons] at ih ⊢
    by_cases h1 : k = n
    · subst h1
      have : ¬ k = m := fun e => h e.symm
      simp_all [tget]
    · simp only [h1, if_false, tget]
      split <;> simp_all

@[simp] theorem tget_tdel_same (t : Table α) (n : Nat) : tget (tdel t n) n = none := by
  induction t with
  | nil => rfl
  | cons p t ih =>
    obtain ⟨k, v⟩ := p
    simp only [tdel, List.filter_cons] at ih ⊢
    by_cases h : k = n <;> simp_all [tget]

theorem tget_tdel_ne (t : Table α) {n m : Nat} (h : m ≠ n) : tget (tdel t n) m = tget t m := by
  induction t with
  | nil => rfl
  | cons p t ih =>
    obtain ⟨k, v⟩ := p
    simp only [tdel, List.filter_cons] at ih ⊢
    by_cases h1 : k = n
    · subst h1
      have : ¬ k = m := fun e => h e.symm
      simp_all [tget]
    · simp only [bne_iff_ne, ne_eq, h1, not_false_eq_true, if_true, tget]
      split <;> simp_all

/-- The canonical form as a relation between any two entries. -/
theorem wf_iff (t : Table α) : t.wf = true ↔ t.Pairwise (fun a b => a.1 < b.1) := by
  induction t with
  | nil => simp [Table.wf]
  | cons p t ih =>
    cases t with
    | nil => simp [Table.wf]
    | cons q t =>
      simp only [Table.wf, Bool.and_eq_true, decide_eq_true_eq, ih, List.pairwise_cons, List.mem_cons]
      constructor
      · rintro ⟨h, hq, ht⟩
        refine ⟨?_, hq, ht⟩
        rintro a (rfl | ha)
        · exact h
        · exact Nat.lt_trans h (hq a ha)
      · rintro ⟨h, hq, ht⟩
        exact ⟨h q (Or.inl rfl), hq, ht⟩

theorem mem_tset {t : Table α} {n : Nat} {x : α} {p : Nat × α} (h : p ∈ tset t n x) : p = (n, x) ∨ p ∈ t := by
  induction t with
  | nil => simpa [tset] using h
  | cons q t ih =>
    obtain ⟨k, v⟩ := q
    simp only [tset] at h
    split at h
    · simp_all
    · split at h
      · rcases List.mem_cons.1 h with h | h <;> simp_all
      · rcases List.mem_cons.1 h with h | h
        · simp [h]
        · rcases ih h with h | h <;> simp [h]

/-- A write keeps the canonical form. -/
theorem wf_tset (t : Table α) (n : Nat) (x : α) (h : t.wf = true) : (tset t n x).wf = true := by
  rw [wf_iff] at *
  induction t with
  | nil => simp [tset]
  | cons q t ih =>
    obtain ⟨k, v⟩ := q
    rw [List.pairwise_cons] at h
    simp only [tset]
    split
    · rename_i hk
      refine List.pairwise_cons.2 ⟨?_, List.pairwise_cons.2 h⟩
      intro p hp
      rcases List.mem_cons.1 hp with hp | hp
      · subst hp; exact hk
      · exact Nat.lt_trans hk (h.1 p hp)
    · split
      · rename_i _ hk
        subst hk
        exact List.pairwise_cons.2 ⟨h.1, h.2⟩
      · rename_i h1 h2
        refine List.pairwise_cons.2 ⟨?_, ih h.2⟩
        intro p hp
        rcases mem_tset hp with hp | hp
        · subst hp; simp only; omega
        · exact h.1 p hp

/-- A removal keeps the canonical form. -/
theorem wf_tdel (t : Table α) (n : Nat) (h : t.wf = true) : (tdel t n).wf = true := by
  rw [wf_iff] at *
  exact List.Pairwise.sublist List.filter_sublist h

/-- Removing keys keeps the canonical form. -/
theorem wf_tdrop (t : Table α) (f : Nat → Bool) (h : t.wf = true) : (tdrop t f).wf = true := by
  rw [wf_iff] at *
  exact List.Pairwise.sublist List.filter_sublist h

/-- A change of a value keeps the canonical form. -/
theorem wf_tmod (t : Table α) (n : Nat) (f : α → α) (h : t.wf = true) : (tmod t n f).wf = true := by
  rw [wf_iff] at *
  refine List.Pairwise.map _ ?_ h
  intro a b hab
  split <;> split <;> exact hab

/-- A change of a value that may be unlisted keeps the canonical form. -/
theorem wf_tupd (t : Table α) (n : Nat) (d : α) (f : α → α) (h : t.wf = true) : (tupd t n d f).wf = true :=
  wf_tset t n _ h

end Sys2Proof.Machine
end

