-- ==== Sys2Proof/Laws/Core.lean ====
section
/-! SUPPORT. The issue of a core instruction: what a calm core leaves alone, and what an instruction answers once its
context can issue it. -/

namespace Sys2Proof.Machine

/-! ## Reading a core after a change -/

@[simp] theorem coreOf_modCore_same (c : Nat) (f : Core → Core) (s : State) : coreOf (modCore c f s) c = (coreOf s c).map f := by
  simp [coreOf, modCore]

theorem coreOf_modCore_ne {c d : Nat} (f : Core → Core) (s : State) (h : d ≠ c) : coreOf (modCore c f s) d = coreOf s d := by
  simp [coreOf, modCore, tget_tmod_ne _ _ h]

@[simp] theorem coreOf_occur (o : Occ) (s : State) (c : Nat) : coreOf (occur o s) c = coreOf s c := rfl

@[simp] theorem ctxOf_occur (o : Occ) (s : State) (x : CtxId) : ctxOf (occur o s) x = ctxOf s x := rfl

theorem countCore_cases (x : CtxId) (p e n : Nat) (c l : Option Nat) (s : State) :
    (∃ o, countCore x p e n c l s = occur o s) ∨ countCore x p e n c l s = s := by
  unfold countCore
  split
  · exact Or.inl ⟨_, rfl⟩
  · exact Or.inr rfl

@[simp] theorem coreOf_countCore (x : CtxId) (p e n : Nat) (c l : Option Nat) (s : State) (d : Nat) :
    coreOf (countCore x p e n c l s) d = coreOf s d := by
  rcases countCore_cases x p e n c l s with ⟨o, h⟩ | h <;> rw [h] <;> rfl

@[simp] theorem ctxOf_countCore (x : CtxId) (p e n : Nat) (c l : Option Nat) (s : State) (y : CtxId) :
    ctxOf (countCore x p e n c l s) y = ctxOf s y := by
  rcases countCore_cases x p e n c l s with ⟨o, h⟩ | h <;> rw [h] <;> rfl

@[simp] theorem sources_countCore (x : CtxId) (p e n : Nat) (c l : Option Nat) (s : State) :
    (countCore x p e n c l s).cores.sources = s.cores.sources := by
  rcases countCore_cases x p e n c l s with ⟨o, h⟩ | h <;> rw [h] <;> rfl

/-- A core as it is whoever issued last, which nothing but the turn looks at. -/
theorem didIssue_eq (x : CtxId) (p : Nat) (s : State) :
    didIssue x p s = countCore x p 0x04 1 none none (modCore x.core (fun c => { c with last := x.ctx }) s) := rfl

@[simp] theorem ctxOf_didIssue (x : CtxId) (p : Nat) (s : State) (y : CtxId) : ctxOf (didIssue x p s) y = ctxOf s y := by
  rw [didIssue_eq, ctxOf_countCore]
  by_cases h : y.core = x.core
  · simp only [ctxOf, h, coreOf_modCore_same]
    cases coreOf s x.core <;> rfl
  · simp only [ctxOf, coreOf_modCore_ne _ _ h]

@[simp] theorem sources_didIssue (x : CtxId) (p : Nat) (s : State) : (didIssue x p s).cores.sources = s.cores.sources := by
  rw [didIssue_eq, sources_countCore]
  rfl

/-- The context that was put, if its core is there. -/
theorem ctxOf_putCtx_same (x : CtxId) (k : Ctx) (s : State) (h : (coreOf s x.core).isSome) : ctxOf (putCtx x k s) x = some k := by
  obtain ⟨c, hc⟩ := Option.isSome_iff_exists.1 h
  simp [ctxOf, putCtx, hc]

/-- Putting a context leaves every other one. -/
theorem ctxOf_putCtx_ne (x y : CtxId) (k : Ctx) (s : State) (h : y ≠ x) : ctxOf (putCtx x k s) y = ctxOf s y := by
  by_cases hc : y.core = x.core
  · have hx : y.ctx ≠ x.ctx := fun e => h (by cases x; cases y; simp_all)
    simp only [ctxOf, putCtx, hc, coreOf_modCore_same]
    cases coreOf s x.core <;> simp [tget_tset_ne _ _ hx]
  · simp only [ctxOf, putCtx, coreOf_modCore_ne _ _ hc]

/-! ## What makes a context due -/

/-- What of a core decides whether a waiting context is due. -/
def latheView (c : Core) : Option Nat × Bool × Nat := (c.holder, c.releasing, (c.latheQ.filter (fun e => !e.dead)).length)

/-- A context is due by its own state, the lathe of its core and the window of its source alone. -/
theorem due_congr {s t : State} (y : CtxId) (k : Ctx)
    (hc : (coreOf t y.core).map latheView = (coreOf s y.core).map latheView)
    (hs : t.cores.sources = s.cores.sources) : due t y k = due s y k := by
  have hb : latheBusy t y = latheBusy s y := by
    unfold latheBusy
    revert hc
    cases coreOf t y.core <;> cases coreOf s y.core <;> simp [latheView]
    intro h1 _ h3
    rw [h1, h3]
  have ha : (coreOf t y.core).any (fun c => c.holder == some y.ctx && !c.releasing) =
      (coreOf s y.core).any (fun c => c.holder == some y.ctx && !c.releasing) := by
    revert hc
    cases coreOf t y.core <;> cases coreOf s y.core <;> simp [latheView]
    intro h1 h2 _
    rw [h1, h2]
  have hw : ∀ p h, windowFull t p h = windowFull s p h := by
    intro p h
    unfold windowFull sourceOf
    rw [hs]
  unfold due quiet
  rw [hb, ha]
  simp only [hw]

@[simp] theorem sources_putCtx (x : CtxId) (k : Ctx) (s : State) : (putCtx x k s).cores.sources = s.cores.sources := rfl

theorem latheView_putCtx (x : CtxId) (k : Ctx) (s : State) (c : Nat) :
    (coreOf (putCtx x k s) c).map latheView = (coreOf s c).map latheView := by
  by_cases h : c = x.core
  · subst h
    simp only [putCtx, coreOf_modCore_same, Option.map_map]
    rfl
  · simp [putCtx, coreOf_modCore_ne _ _ h]

@[simp] theorem latheView_didIssue (x : CtxId) (p : Nat) (s : State) (c : Nat) :
    (coreOf (didIssue x p s) c).map latheView = (coreOf s c).map latheView := by
  rw [didIssue_eq, coreOf_countCore]
  by_cases h : c = x.core
  · subst h
    simp only [coreOf_modCore_same, Option.map_map]
    rfl
  · rw [coreOf_modCore_ne _ _ h]

/-- A context that waits for nothing and does not fail is not due. -/
theorem due_idle (s : State) (x : CtxId) (k : Ctx) (hw : k.wait = none) (hf : k.failing = none) : due s x k = false := by
  simp [due, hw, hf]

theorem wakeCtx_idle {s : State} {x : CtxId} (h : ∀ k, ctxOf s x = some k → due s x k = false) : wakeCtx s x = s := by
  unfold wakeCtx
  cases hk : ctxOf s x with
  | none => rfl
  | some k => simp [h k hk]

/-- Nothing of a calm core goes on. -/
theorem wakeCore_calm {c : Nat} {s : State} (h : Calm s c) : wakeCore c s = s := by
  unfold wakeCore
  have key : ∀ l : List Nat, (∀ i ∈ l, i < 4) → l.foldl (fun t i => wakeCtx t { core := c, ctx := i }) s = s := by
    intro l
    induction l with
    | nil => intro _; rfl
    | cons i l ih =>
      intro hl
      have hi : i < 4 := hl i (by simp)
      have : wakeCtx s { core := c, ctx := i } = s := wakeCtx_idle (fun k hk => h i hi k hk)
      simp only [List.foldl_cons, this]
      exact ih (fun j hj => hl j (by simp [hj]))
  apply key
  intro i hi
  simp only [List.mem_flatMap, List.mem_range] at hi
  obtain ⟨_, _, hi⟩ := hi
  exact hi

/-- A calm core stays calm when a context that can issue changes nothing that another waits for. -/
theorem calm_of {s t : State} {x : CtxId} {k : Ctx} (hs : Calm s x.core)
    (hx : ctxOf t x = some k) (hw : k.wait = none) (hf : k.failing = none)
    (hy : ∀ y, y.core = x.core → y ≠ x → ctxOf t y = ctxOf s y)
    (hc : (coreOf t x.core).map latheView = (coreOf s x.core).map latheView)
    (hq : t.cores.sources = s.cores.sources) : Calm t x.core := by
  intro i hi k' hk'
  by_cases h : i = x.ctx
  · subst h
    rw [hx] at hk'
    cases hk'
    exact due_idle _ _ _ hw hf
  · have hne : ({ core := x.core, ctx := i } : CtxId) ≠ x := fun e => h (congrArg CtxId.ctx e)
    rw [hy { core := x.core, ctx := i } rfl hne] at hk'
    exact (due_congr { core := x.core, ctx := i } k' hc hq).trans (hs i hi k' hk')

/-! ## The issue of an instruction -/

/-- What `canIssue` says of the context. -/
theorem canIssue_some {s : State} {x : CtxId} {k : Ctx} (h : canIssue s x = some k) :
    ∃ c, coreOf s x.core = some c ∧ ctxOf s x = some k ∧ c.recovering = false ∧ partState s k.item.part = .active ∧
      k.item.engine = 5 ∧ k.item.coll = none ∧ k.wait = none ∧ k.failing = none ∧ k.pc < codeLen s k := by
  unfold canIssue at h
  split at h
  · rename_i c k' hc hk
    split at h
    · cases h
    · rename_i hn
      cases h
      refine ⟨c, hc, hk, ?_⟩
      simp only [Bool.or_eq_true, not_or, Bool.not_eq_true, bne_eq_false_iff_eq, Option.isSome_eq_false_iff,
        Option.isNone_iff_eq_none, decide_eq_false_iff_not, Nat.not_le] at hn
      obtain ⟨⟨⟨⟨⟨⟨h1, h2⟩, h3⟩, h4⟩, h5⟩, h6⟩, h7⟩ := hn
      exact ⟨h1, h2, h3, h4, h5, h6, h7⟩
  · cases h

/-- An instruction that a context can issue is concluded at once on a calm core. -/
theorem insn_issue {c : Instr} {s : State} {x : CtxId} {o : Ops} {k : Ctx} (h : Ready c s x o k) (body : Ctx → State → IOut) :
    insn c x o body s = .next (follows x (conclude x k (issuing k) s (body (issuing k) s))) := by
  have hg : guardOk (issuing k) o = true := h.guard
  unfold insn follows
  rw [wakeCore_calm h.calm]
  simp only [issueOne, h.able, h.turn, h.code, h.budget, Bool.not_true, bne_self_eq_false, Bool.or_self, Bool.false_eq_true, if_false]
  have : ({ k with issued := k.issued + 1 } : Ctx) = issuing k := rfl
  rw [this, hg]
  rfl

/-- After an effect that leaves what the other contexts wait for, nothing follows. -/
theorem follows_calm {s t : State} {x : CtxId} {k : Ctx} (hs : Calm s x.core) (h4 : x.ctx < 4)
    (hx : ctxOf t x = some k) (hw : k.wait = none) (hf : k.failing = none)
    (hy : ∀ y, y.core = x.core → y ≠ x → ctxOf t y = ctxOf s y)
    (hc : (coreOf t x.core).map latheView = (coreOf s x.core).map latheView)
    (hq : t.cores.sources = s.cores.sources) : follows x t = t := by
  have hcalm : Calm t x.core := calm_of hs hx hw hf hy hc hq
  have h1 : wakeCtx t x = t := wakeCtx_idle (fun k' hk' => hcalm x.ctx h4 k' hk')
  unfold follows
  rw [h1, wakeCore_calm hcalm]

/-- A context's code is its image's, whatever else of it changes. -/
theorem codeLen_item {k k' : Ctx} (s : State) (h : k'.item = k.item) : codeLen s k' = codeLen s k := by
  simp [codeLen, imageOf, h]

theorem conclude_go (x : CtxId) (k0 k k1 : Ctx) (s t : State) :
    conclude x k0 k s (.go k1 t) = didIssue x k.item.part (setPc x (k.pc + 1) k1 t) := rfl

theorem conclude_jump (x : CtxId) (n : Nat) (k0 k k1 : Ctx) (s t : State) :
    conclude x k0 k s (.jump n k1 t) = didIssue x k.item.part (setPc x n k1 t) := rfl

theorem conclude_stay (x : CtxId) (w : CtxWait) (k0 k k1 : Ctx) (s t : State) :
    conclude x k0 k s (.stay w k1 t) = didIssue x k.item.part (putCtx x { k1 with wait := some w } t) := rfl

theorem conclude_fail (x : CtxId) (st : St) (d : Word32) (k0 k : Ctx) (s : State) :
    conclude x k0 k s (.fail st d) = didIssue x k.item.part (failCtx x st d (putCtx x k s)) := rfl

theorem setPc_inside {x : CtxId} {n : Nat} {k : Ctx} {s : State} (h : n < codeLen s k) :
    setPc x n k s = putCtx x { k with pc := n, wait := none } s := if_pos h

/-- The effect of an instruction that goes on, seen from the next handshake: nothing follows. -/
theorem follows_retire {s : State} {x : CtxId} {k1 : Ctx} (hs : Calm s x.core) (h4 : x.ctx < 4)
    (hcore : (coreOf s x.core).isSome) (hf : k1.failing = none) : follows x (retire x k1 s) = retire x k1 s := by
  refine follows_calm hs h4 (k := { k1 with pc := k1.pc + 1, wait := none }) ?_ rfl hf ?_ ?_ ?_
  · rw [retire, ctxOf_didIssue]
    exact ctxOf_putCtx_same _ _ _ hcore
  · intro y _ hne
    rw [retire, ctxOf_didIssue]
    exact ctxOf_putCtx_ne _ _ _ _ hne
  · rw [retire, latheView_didIssue]
    exact latheView_putCtx _ _ _ _
  · rw [retire, sources_didIssue]
    rfl

/-- A register instruction completes: the context goes on with its new state, and nothing else changes. -/
theorem insn_go {i : Instr} {s : State} {x : CtxId} {o : Ops} {k k1 : Ctx} {body : Ctx → State → IOut} (h : Issues i s x o k)
    (hb : body (issuing k) s = .go k1 s) (hi : k1.item = k.item) (hp : k1.pc = k.pc) (hf : k1.failing = none) :
    insn i x o body s = .next (retire x k1 s) := by
  obtain ⟨c, hc, _⟩ := canIssue_some h.able
  have hlen : k.pc + 1 < codeLen s k1 := by rw [codeLen_item s hi]; exact h.more
  have hset : conclude x k (issuing k) s (.go k1 s) = retire x k1 s := by
    rw [conclude_go]
    show didIssue x k.item.part (setPc x (k.pc + 1) k1 s) = _
    rw [setPc_inside hlen, retire, hi, hp]
  have hcore : (coreOf s x.core).isSome := by rw [hc]; rfl
  rw [insn_issue h.toReady, hb, hset, follows_retire h.calm h.four hcore hf]

end Sys2Proof.Machine
end

