-- ==== Sys2Proof/Laws/Requests.lean ====
section
/-! SUPPORT. What a management request's checks let through (R380 to R384), and what an answer leaves. -/

namespace Sys2Proof.Machine

/-- A fabric manager's message of a defined code meets no check at a ready device. -/
theorem refusal_fm {s : State} {code part : Nat} (hf : s.boot.fenced = false) (hr : s.boot.phase = .ready)
    (hd : codeDefined code = true) : refusal s .fm code part = none := by
  simp [refusal, hf, hr, hd]

/-- A supervisor's message for its own partition, of a code that R384 grants it, meets no check at a ready device. -/
theorem refusal_supervisor {s : State} {code part : Nat} (hf : s.boot.fenced = false) (hr : s.boot.phase = .ready)
    (hd : codeDefined code = true) (hv : svCode code = true) : refusal s (.supervisor part) code part = none := by
  simp [refusal, hf, hr, hd, hv]

/-- A message that either kind of session may send. -/
theorem refusal_maySend {s : State} {h : Mgmt} {kind : SessKind} {code : Nat} (hm : MaySend h kind) (hf : s.boot.fenced = false)
    (hr : s.boot.phase = .ready) (hd : codeDefined code = true) (hv : svCode code = true) :
    refusal s kind code h.part = none := by
  rcases hm with rfl | rfl
  · exact refusal_fm hf hr hd
  · exact refusal_supervisor hf hr hd hv

/-- A request that meets no check is answered by its own rule. -/
theorem request_own {h : Mgmt} {s : State} {kind : SessKind} {code : Nat} {own : Bool} {go : SessKind → State → MRes}
    (hs : Requests h s kind) (hn : refusal s kind code h.part = none) :
    request code own h go s = match go kind s with
      | .done st body change t => .next (answered h code s.mgmt.eventSeq st body change t)
      | .wait t => .next t := by
  obtain ⟨k, hk, rfl, hl⟩ := hs.session
  simp only [request, hk, hl, hs.fresh, hn, hs.length]
  cases go k.kind s <;> rfl

/-- A request whose rule answers it at once. -/
theorem request_done {h : Mgmt} {s t : State} {kind : SessKind} {code : Nat} {own : Bool} {go : SessKind → State → MRes}
    {st : St} {body : List Nat} {change : Bool} (hs : Requests h s kind) (hn : refusal s kind code h.part = none)
    (hg : go kind s = .done st body change t) :
    request code own h go s = .next (answered h code s.mgmt.eventSeq st body change t) := by
  rw [request_own hs hn, hg]

/-- A request whose rule answers it apart from it. -/
theorem request_wait {h : Mgmt} {s t : State} {kind : SessKind} {code : Nat} {own : Bool} {go : SessKind → State → MRes}
    (hs : Requests h s kind) (hn : refusal s kind code h.part = none) (hg : go kind s = .wait t) :
    request code own h go s = .next t := by
  rw [request_own hs hn, hg]

/-- A fabric manager's request that meets no check. -/
theorem Requests.fm {h : Mgmt} {s : State} {code : Nat} (hs : Requests h s) (hd : codeDefined code = true) :
    refusal s .fm code h.part = none := refusal_fm hs.serves hs.ready hd

/-- A response is put out and noted in its session's log of 256. -/
theorem reply_session {h : Mgmt} {s : State} {k : Session} (hk : tget s.mgmt.sessions h.sess = some k) (code : Nat) (st : St)
    (body : List Nat) (seq : Nat) :
    let r : Reply := { sess := h.sess, reqId := h.reqId, code := code, status := st, evSeq := seq, body := body, part := h.part }
    (reply h code st body seq s).replies = s.replies ++ [r] ∧
    tget (reply h code st body seq s).mgmt.sessions h.sess = some { k with log := (k.log ++ [r]).drop ((k.log ++ [r]).length - 256) } := by
  simp [reply, hk]

end Sys2Proof.Machine
end

