-- ==== Sys2Proof/Tests/World.lean ====
section
/-! SUPPORT. A small device for the tests: it is READY, its charter gives partition 1 a template, a host-facing port 0
(node 7), a trunk 2 (node 9) and a memory-facing port 10 (node 0x100); a fabric manager has session 0 and the supervisor of
partition 1 session 1; four extents, one of each mode, lie in slots 3 to 6 of group 0. -/

namespace Sys2Proof.Tests

set_option Elab.async false

open Sys2Proof Sys2Proof.Machine

/-! ## The charter -/

def hostCfg : PortCfg := { role := .host, owner := some 1, shares := [], bundle := false, neighbour := none }
def trunkCfg : PortCfg := { role := .trunk, owner := none, shares := [1], bundle := false, neighbour := some 9 }
def memCfg : PortCfg := { role := .memory, owner := none, shares := [], bundle := false, neighbour := none }

def template : Template := {
  partition := 1, autostart := true, omitSlots := false, modes := 15, coresMin := 1, coresMax := 64, channelsMin := 2,
  channelsMax := 100, queueBase := 16, queueCount := 16, groupQuota := 16, watchdog := 0, dirLog2 := 10, ledgerK := 1,
  vindexMib := 16, sinterGib := 1, sinterGroup := 0, journalMib := 64, kernelMib := 16, fwMib := 16, queueMib := 16,
  cacheGib := 1, mirrorA := 0, mirrorB := 64, supKeys := [99], grants := [{ group := 0, first := 0, len := 4096 }],
  resident := [], reach := [] }

def partCfg (t : Option Template) (ports : List (Nat × PortCfg)) : PartCfg :=
  { ports := ports, limits := [], quota := 8192, meters := [], template := t }

/-- The bytes of the template above (R430, R431): its header, a key hash and a grant. -/
def templateBytes : List Byte :=
  ((leBytes 64 (inBits 1 511 508 + inBits 1 507 507 + inBits 15 505 502 + inBits 1 501 490 + inBits 64 489 478 + inBits 2 477 468 +
    inBits 100 467 458 + inBits 16 457 446 + inBits 16 445 435 + inBits 16 434 422 + inBits 10 410 406 + inBits 1 405 391 +
    inBits 16 390 375 + inBits 1 374 359 + inBits 64 350 338 + inBits 16 337 329 + inBits 16 328 321 + inBits 16 320 305 +
    inBits 1 304 294 + inBits 64 283 274 + inBits 1 273 270 + inBits 1 269 262)) ++
   beBytes 32 99 ++ leBytes 8 (inBits 4096 31 8)).map (BitVec.ofNat 8)

/-- The bytes of the charter (R427, R428): header, a directory of one entry, section 0x07 at byte 128. -/
def charterBytes : List Byte :=
  (leBytes 64 (inBits 0x4A574B31 511 480 + inBits 1 479 472 + inBits 2 471 456 + inBits 1 455 448) ++
   leBytes 16 (inBits 7 127 120 + inBits 128 95 64 + inBits 104 63 32 + (crc32c 104 (wordAt templateBytes 0 104)).toNat) ++
   List.replicate 48 0).map (BitVec.ofNat 8) ++ templateBytes

def modules : List Node := [0x100, 0x101, 0x102, 0x103, 0x104, 0x105]

def charter : Charter := {
  bytes := charterBytes, magic := 0x4A574B31, format := 1, node := 2, serial := 0, compiler := 0, fieldsOk := true,
  device := {
    nodeRanges := [], vddMv := 800, powerCapW := 10500, leaseMs := 2000, holdWindowUs := 1024, holdMarks := 64,
    sampleLog2 := 12, weights := List.replicate 8 1, scrubDays := 7, sinterWarnPct := 80, recallMin := 1, recallMax := 40,
    removalMs := 100 },
  keys := {
    fmKeys := [5], quorum := [(15, 1)], quorumK := 1, kernelKey := none, signedKernels := false, revokeVendor := 0,
    revokeOwner := 0 },
  sharedPorts := [(2, trunkCfg), (10, memCfg)], profiles := [],
  groups := [{
    group := 0, modules := modules, k := 4, m := 2, moduleGib := 4096, rebuildRate := 200, claimEpoch := 5,
    partner := some 9, receiver := 1 }],
  retired := [],
  parts := (List.range 16).map (fun i => if i = 1 then partCfg (some template) [(0, hostCfg)] else partCfg none []) }

/-! ## Extents -/

def host7 : Holder := { node := 7, hstate := .attached, caching := true, part := 1, agent := some 0, pins := 0 }
def host8 : Holder := { node := 8, hstate := .attached, caching := true, part := 1, agent := some 1, pins := 0 }

def ext (mode : Mode) (base : Nat) : Extent := {
  homeEpoch := 5, latest := 0, openV := 0, vindexRoot := 0, attachList := 0, deadline := 0, mapEpoch := 1, fwdNode := noNode,
  fwdSlot := 0, group := 0, base := base, leasePart := 0, leaseValid := false, owner := 1, state := .active, mode := mode,
  disposition := false, zeroPending := false, holders := [host7, host8], touched := [], layers := [], publishing := none,
  known := true }

/-- An extent COHERENT, SHARED_READ, PRIVATE. -/
def extC : Extent := ext .coherent 0
def extR : Extent := ext .sharedRead 2
def extP : Extent := ext .priv 3

def layer (v : Nat) (st : LayerState) : Layer := { version := v, sealEvent := 0, tilesWritten := 0, state := st, writer := 1 }

/-- A VERSIONED extent whose lease partition 1 holds, with version 1 sealed and version 2 OPEN; node 7 pins version 1. -/
def extV : Extent := { ext .versioned 1 with
  latest := 1, openV := 2, leasePart := 1, leaseValid := true, layers := [layer 1 .sealed, layer 2 .opened],
  holders := [{ host7 with pins := 1 }] }

/-- The same with no layer open. -/
def extW : Extent := { extV with openV := 0, layers := [layer 1 .sealed] }

/-! ## The device -/

def group0 : Group := {
  modules := modules, lost := 0, rebuildPos := 0, cursor := 0, gib := 4096, k := 4, m := 2, state := .optimal, rate := 200,
  replaced := [], pass := none, passPos := [], up := true, claimEpoch := 5, partner := some 9, receiver := 1 }

def part1 : Part := {
  state := .active, stalled := false, keeperFailed := false, applied := some (partCfg (some template) [(0, hostCfg)]),
  charterVersion := 18, deferred := false, cores := [0], channels := [0, 64], ports := [0], shares := [2],
  fw := [1, 2, 3, 4, 5].map (fun e => (e, { version := 18, digest := 0, svn := 0 })), fwRetiring := [], mirrors := (0, 64),
  placing := 0, placedOn := [0, 64], unitFault := false, ringLost := false }

def up (c : PortCfg) (peer : Node) (kind : Nat) : Port := { Port.down c with
  up := true, peer := some (peer, kind, 0), granted := List.replicate 8 64, given := List.replicate 8 64 }

def session (k : SessKind) (key : BitVec 256) : Session :=
  { kind := k, key := key, subscribed := false, readUpTo := 0, log := [], sink := none }

def core0 : Core := {
  phys := some 0, part := some 1, scrubbing := false, removing := false, recovering := false, acc := [], holder := none,
  releasing := false, waiters := [], latheQ := [], istore := [], ctxs := [], last := 3 }

def route (p : Nat) : Route := { ports := [p, 0, 0, 0], valid := 1, kind := 1 }

/-- The device. -/
def dev : State := { State.reset with
  boot := { BootSt.reset with
    phase := .ready, charter := some charter, leaseMs := some 2000, bootNonce := 11, challenge := 12, identity := [1, 2, 3] },
  phys := { PhysSt.reset with pwrgd := true, coolantOk := true, vddMv := 800 },
  mgmt := { MgmtSt.reset with sessions := [(0, session .fm 5), (1, session (.supervisor 1) 99)] },
  parts := { PartSt.reset with
    parts := [(1, part1)],
    channels := [(0, { retired := false, scrubbing := false, part := some 1, removing := false }),
      (64, { retired := false, scrubbing := false, part := some 1, removing := false })] },
  ext := { ExtMap.reset with mapEpoch := 1, entries := [(3, extC), (4, extV), (5, extR), (6, extP)] },
  pool := { PoolSt.reset with groups := [(0, group0)] },
  cores := { CoreSt.reset with
    cores := [(0, core0)], phys := [(0, { working := true, retired := false, faultBands := 0, quarantine := 0 })] },
  ports := { PortSt.reset with
    ports := [(0, up hostCfg 7 0), (2, up trunkCfg 9 2), (10, up memCfg 0x100 1)],
    routes := [(7, route 0), (9, route 2), (0x100, route 10)] } }

/-! ## Transactions and requests -/

def noTrailer : Trailer := { len := 0, val := 0, crc := 0 }

/-- A transaction of node 7 at slot 3, tile 5, first of its flow. -/
def tx7 : Tx := {
  dst := 2, src := 7, flowSeq := 0, offset := mkOffset 3 5 0, tag := 9, mapEpoch := 1, version := 0, op := 0, status := 0,
  length := 1, cls := 1, hop := 0, ptag := 1, colour := 0, mark := false, resp := false, ext := false, flowStart := true,
  engine := false, qual := 0, origin := 0, fwd := none, coll := none, tiles := [], trailer := noTrailer, body := none }

/-- A transaction of node 7 of a class at a tile, with a length and tiles; and one of node 9, on the trunk. -/
def rq (cls slot tile n : Nat) (ts : List Tile) : Tx := { tx7 with cls := cls, offset := mkOffset slot tile 0, length := n, tiles := ts }
def rq9 (cls slot tile : Nat) : Tx := { rq cls slot tile 0 [] with src := 9 }

/-- The device with another extent at a slot, and with a directory entry. -/
def withExt (slot : Nat) (e : Extent) : State := { dev with ext := { dev.ext with entries := tset dev.ext.entries slot e } }
def entry (st : DState) (o : Nat) (sh : Sharers) : DirEntry := { state := st, owner := o, sharers := sh, seq := 0 }
def withDir (d : DirEntry) : State := { dev with dir := { dev.dir with entries := [(tkey 3 5, d)] } }

/-- The tile of eight bytes 0x2A. -/
def tile42 : Tile := mkTile 42

def fm (n : Word32) : Mgmt := { sess := 0, reqId := n, part := 1, lenOk := true }
def sv (n : Word32) : Mgmt := { sess := 1, reqId := n, part := 1, lenOk := true }

/-! ## A kernel that runs -/

def image (n : Nat) (budget : Word32) (code : List Word64 := []) : KernelImage := {
  magic := 0x4B524E31, format := 1, codeInstrs := n, entry := 0, slots := 8, maxCtx := 4, idempotent := true, signed := false,
  itemBudget := budget, kversion := 1, length := 4096, code := code, digest := 7, modulus := 0, exponent := 0, signature := 0 }

def cmd (desc : BitVec 512) (n : Nat) (img : Option KernelImage) : Cmd := {
  seq := 0, desc := desc, reads := [], writes := [], anySlot := false, n := n, next := n, again := [], done := 0, failed := 0,
  fails := [], runs := [], faults := [], tatoms := [], image := img, fw := 18, forced := false, lastStrip := 0, packed := 0,
  selected := 0, sealing := false, wild := false }

def queue (engine : Nat) (cmds : List Cmd) : Queue := {
  part := 1, engine := engine, submitter := 7, depthLog2 := 6, prio := 0, tail := 1, head := 1, cqHead := 0, haltSeq := 0,
  state := .active, written := 0, ring := [], cq := [], cmds := cmds }

/-- The item of context 0 of core 0: item 0 of command 0 of queue 16. -/
def item0 : Item := { part := 1, coll := none, queue := 16, cmdSeq := 0, index := 0, engine := 5 }

def x0 : CtxId := { core := 0, ctx := 0 }

def ctx0 : Ctx := freshCtx item0 0 77 [] 8 0 1

/-- The device with contexts on core 0, which run items of a command of queue 16 with an image. -/
def running (img : KernelImage) (core : Core) : State := { dev with
  queues := { QueueSt.reset with queues := [(16, queue 5 [{ cmd 0 1 (some img) with
    runs := [{ item := 0, x := x0, epoch := 1, replay := 0 }] }])] },
  cores := { dev.cores with cores := [(0, core)] } }

/-- A kernel of eight instructions, all the one given. -/
def imageOf (i : Instr) (budget : Word32) : KernelImage :=
  image 8 budget (match encodeInsn i with | some w => List.replicate 8 w | none => [])

/-- Context 0 as given on a core, which runs that kernel. -/
def on (k : Ctx) (c : Core) (i : Instr := .rows 0) : State := running (imageOf i 0) { c with ctxs := [(0, k)] }

/-- The same on a core of its own. -/
def alone (k : Ctx) (i : Instr := .rows 0) : State := on k core0 i

/-- General registers, zero but for those listed. -/
def gs (l : List (Nat × Word64)) : Vector Word64 32 := l.foldl (fun v p => v.set! p.1 p.2) (Vector.replicate 32 0)

/-- A context at instruction 3 with registers. -/
def at3 (l : List (Nat × Word64)) : Ctx := { ctx0 with g := gs l, pc := 3 }

/-- A token of an operation. -/
def tok (op : AsyncOp) (sent : Option Node) : Token :=
  { serial := 4, op := op, pc := 0, wild := false, sent := sent, done := none }

/-- Operands: guard p0; D = 1, A = 2, B = 3, C = 4. -/
def ops : Ops := { pneg := false, pred := 0, d := 1, a := 2, b := 3, c := 4, f := 0, i := 0 }

/-! ## Checks that compute, and what they say -/

def calm (s : State) (core : Nat) : Bool :=
  (List.range 4).all (fun i => match ctxOf s { core := core, ctx := i } with
    | some k => !due s { core := core, ctx := i } k
    | none => true)

def readyB (i : Instr) (s : State) (x : CtxId) (o : Ops) (k : Ctx) : Bool :=
  decide (canIssue s x = some k) && hisTurn s x && decide (insnAt s x k = some i) && !spent s k && guardOk k o && calm s x.core &&
    decide (x.ctx < 4)

def issuesB (i : Instr) (s : State) (x : CtxId) (o : Ops) (k : Ctx) : Bool := readyB i s x o k && decide (k.pc + 1 < codeLen s k)

def nextB (s : State) (tx : Tx) : Bool :=
  match flowOf s (flowSrc tx) tx.cls with
  | none => true
  | some f => f.held.isEmpty && (tx.flowStart || (!f.gap && decide (f.expected = tx.flowSeq)))

def arrivesB (s : State) (port : Nat) (tx : Tx) : Bool :=
  portUp s (canonPort s port) && decide (rxCheck (canonPort s port) tx s = none) && isSelf s tx.dst &&
    tx.fwd.isNone && nextB s tx

def goesB (a : Adm) (part : Nat) (e : Extent) : Bool :=
  match a with
  | .go p f => decide (p = part) && decide (f = e)
  | _ => false

def admitsB (rid port : Nat) (tx : Tx) (s : State) (part : Nat) (e : Extent) : Bool :=
  !fenceHeld s tx.src rid && decide (check12 tx s = none) && goesB (admission port tx s) part e && decide (e.state ≠ .arriving)

def okB : Chk → Bool
  | .ok => true
  | _ => false

def freeB (tx : Tx) (s : State) : Bool :=
  (tilesOf tx).all (fun t => !isBusy s (oSlot tx.offset) t && !hasWaiters s (oSlot tx.offset) t)

def cachesB (tx : Tx) (s : State) (e : Extent) (a : Nat) : Bool :=
  decide (extOf s (oSlot tx.offset) = some e) && decide (agentOf e tx.src = some a) && decide (tx.length ≤ 1) &&
    !poisoned s (oSlot tx.offset) (oTile tx.offset) && freeB tx s &&
    ((dirOf s (oSlot tx.offset) (oTile tx.offset)).isSome ||
      decide (evictChoice s e.owner (tkey (oSlot tx.offset) (oTile tx.offset)) = .room))

def requestsB (h : Mgmt) (s : State) (kind : SessKind) : Bool :=
  (match tget s.mgmt.sessions h.sess with
    | some k => decide (k.kind = kind) && (k.log.find? (fun r => r.reqId == h.reqId)).isNone
    | none => false) &&
  !s.mgmt.waiting.any (waitsAs h) && h.lenOk && !s.boot.fenced && decide (s.boot.phase = .ready)

def clearB (rs ws : List Span) (x : CtxId) (k : Ctx) (s : State) : Bool :=
  k.tokens.all (fun t => !conflicts rs ws (opSpans t.2.op)) &&
  s.cores.cores.all (fun c => !(c.1 == x.core && c.2.holder == some x.ctx) ||
    c.2.latheQ.all (fun e => e.dead || !conflicts rs ws (latheSpans e.op)))

theorem clear_of {rs ws : List Span} {x : CtxId} {k : Ctx} {s : State} (h : clearB rs ws x k s = true) : Clear rs ws x k s := by
  simp only [clearB, Bool.and_eq_true, List.all_eq_true] at h
  refine ⟨fun t ht => by simpa using h.1 t ht, fun c hc h1 h2 e he hd => ?_⟩
  have := h.2 c hc
  simp only [h1, h2, beq_self_eq_true, Bool.and_self, Bool.not_true, Bool.false_or, List.all_eq_true] at this
  simpa [hd] using this e he

theorem calm_of {s : State} {c : Nat} (h : calm s c = true) : Calm s c := by
  intro i hi k hk
  have := List.all_eq_true.mp h i (List.mem_range.mpr hi)
  simpa [hk] using this

theorem ready_of {i : Instr} {s : State} {x : CtxId} {o : Ops} {k : Ctx} (h : readyB i s x o k = true) : Ready i s x o k := by
  simp only [readyB, Bool.and_eq_true, decide_eq_true_eq, Bool.not_eq_true'] at h
  obtain ⟨⟨⟨⟨⟨⟨h1, h2⟩, h3⟩, h4⟩, h5⟩, h6⟩, h7⟩ := h
  exact ⟨h1, h2, h3, h4, h5, calm_of h6, h7⟩

theorem issues_of {i : Instr} {s : State} {x : CtxId} {o : Ops} {k : Ctx} (h : issuesB i s x o k = true) : Issues i s x o k := by
  simp only [issuesB, Bool.and_eq_true, decide_eq_true_eq] at h
  exact ⟨ready_of h.1, h.2⟩

/-- Each of some instructions issues in context 0, on a core as given that runs it alone. -/
def EachIssues (l : List Instr) (o : Ops) (k : Ctx) (c : Core := core0) : Prop := ∀ i ∈ l, Issues i (on k c i) x0 o k
def EachReady (l : List Instr) (o : Ops) (k : Ctx) (c : Core := core0) : Prop := ∀ i ∈ l, Ready i (on k c i) x0 o k

theorem each_issues {l : List Instr} {o : Ops} {k : Ctx} {c : Core} (h : l.all (fun i => issuesB i (on k c i) x0 o k) = true) :
    EachIssues l o k c := fun i hi => issues_of (List.all_eq_true.mp h i hi)

theorem each_ready {l : List Instr} {o : Ops} {k : Ctx} {c : Core} (h : l.all (fun i => readyB i (on k c i) x0 o k) = true) :
    EachReady l o k c := fun i hi => ready_of (List.all_eq_true.mp h i hi)

theorem arrives_of {s : State} {port : Nat} {tx : Tx} (h : arrivesB s port tx = true) : Arrives s port tx := by
  simp only [arrivesB, Bool.and_eq_true, decide_eq_true_eq, Option.isNone_iff_eq_none] at h
  refine ⟨h.1.1.1.1, h.1.1.1.2, h.1.1.2, h.1.2, fun f hf => ?_⟩
  have := h.2
  simpa [nextB, hf] using this

theorem admits_of {rid port : Nat} {tx : Tx} {s : State} {part : Nat} {e : Extent}
    (h : admitsB rid port tx s part e = true) : Admits rid port tx s part e := by
  simp only [admitsB, Bool.and_eq_true, decide_eq_true_eq, Bool.not_eq_true'] at h
  refine ⟨h.1.1.1, h.1.1.2, ?_, h.2⟩
  have := h.1.2
  revert this
  cases admission port tx s <;> simp [goesB]

theorem ok_of {c : Chk} (h : okB c = true) : c = .ok := by
  cases c <;> simp_all [okB]

theorem free_of {tx : Tx} {s : State} (h : freeB tx s = true) : TilesFree tx s := by
  intro t ht
  simpa using List.all_eq_true.mp h t ht

theorem caches_of {tx : Tx} {s : State} {e : Extent} {a : Nat} (h : cachesB tx s e a = true) : Caches tx s e a := by
  simp only [cachesB, Bool.and_eq_true, decide_eq_true_eq, Bool.not_eq_true', Bool.or_eq_true] at h
  exact ⟨h.1.1.1.1.1, h.1.1.1.1.2, h.1.1.1.2, h.1.1.2, h.2, free_of h.1.2⟩

theorem requests_of {h : Mgmt} {s : State} {kind : SessKind} (g : requestsB h s kind = true) : Requests h s kind := by
  simp only [requestsB, Bool.and_eq_true, decide_eq_true_eq, Bool.not_eq_true'] at g
  obtain ⟨⟨⟨⟨g1, g2⟩, g3⟩, g4⟩, g5⟩ := g
  refine ⟨?_, g2, g3, g4, g5⟩
  cases hk : tget s.mgmt.sessions h.sess with
  | none => simp [hk] at g1
  | some k => exact ⟨k, rfl, by simpa [hk] using g1⟩

/-- A request of a row arrives, and is admitted for a partition at an extent. -/
structure Meets (s : State) (port : Nat) (op : Byte) (tx0 : Tx) (q : Nat) (e : Extent) : Prop where
  arrives : Arrives s port (arriving s port op false tx0)
  admits : Admits s.home.nextId (canonPort s port) (arriving s port op false tx0) (taken port (arriving s port op false tx0) s) q e

theorem meets_of {s : State} {port : Nat} {op : Byte} {tx0 : Tx} {q : Nat} {e : Extent}
    (h : (arrivesB s port (arriving s port op false tx0) &&
      admitsB s.home.nextId (canonPort s port) (arriving s port op false tx0) (taken port (arriving s port op false tx0) s) q e) = true) :
    Meets s port op tx0 q e := by
  rw [Bool.and_eq_true] at h
  exact ⟨arrives_of h.1, admits_of h.2⟩

end Sys2Proof.Tests
end

