-- ==== Sys2Proof/Tests/Cores.lean ====
section
/-! SUPPORT. Contexts of cores that meet the hypotheses of the statements about core instructions: one theorem for each
set of hypotheses that go together, at a boundary value where a clause has a range. -/

namespace Sys2Proof.Tests

set_option Elab.async false

open Sys2Proof Sys2Proof.Machine

/-- Contexts at instruction 3: g2 = 1, g31 = 3; and g2 = 9, g31 = 8, outside a code of eight instructions. -/
def kc : Ctx := at3 [(2, 1), (31, 3)]
def kd : Ctx := at3 [(2, 9), (31, 8)]

/-! ## Scalars, predicates, branches, the guard -/

/-- The instructions of classes, with operands. -/
def scalars (o : Ops) : List Instr := (coreInstrs x0 o).take 21
def predicates (o : Ops) : List Instr := ((coreInstrs x0 o).drop 21).take 11
def branches (o : Ops) : List Instr := ((coreInstrs x0 o).drop 32).take 5
def tileMoves (o : Ops) : List Instr := [.tld x0 o, .tst x0 o, .tcpy x0 o, .tzero x0 o]
def slotMoves (o : Ops) : List Instr := ((coreInstrs x0 o).drop 42).take 4
def latheInstrs (o : Ops) : List Instr := ((coreInstrs x0 o).drop 46).take 9
def vectors (o : Ops) : List Instr := ((coreInstrs x0 o).drop 55).take 11
def syncs (o : Ops) : List Instr := (coreInstrs x0 o).drop 66

theorem test_meets_ScalarResults : EachIssues (scalars ops) ops kc := each_issues (by decide +kernel)

theorem test_meets_PredicateResults : EachIssues (predicates { ops with d := 7, a := 7, b := 7 }) { ops with d := 7, a := 7, b := 7 } kc :=
  each_issues (by decide +kernel)

theorem test_meets_PredicateResults_above : EachReady (predicates { ops with d := 8, a := 8, b := 8 }) { ops with d := 8, a := 8, b := 8 } kc :=
  each_ready (by decide +kernel)

theorem test_meets_BranchResults_inside : EachReady (branches { ops with i := -3 }) { ops with i := -3 } kc ∧
    (0 : Int) ≤ kc.pc + (-3 : BitVec 20).toInt ∧ kc.pc + (-3 : BitVec 20).toInt < codeLen (alone kc) kc ∧
    gget (gset (issuing kc) 2 (gget kc 2 - 1)) 2 = 0 ∧ kc.pc + 1 < codeLen (alone kc) kc ∧
    (gget kc 31).toNat < codeLen (alone kc) kc ∧ (gget kc 2).toNat < codeLen (alone kc) kc :=
  ⟨each_ready (by decide +kernel), by decide +kernel⟩

theorem test_meets_BranchResults_outside : EachReady (branches { ops with i := 5 }) { ops with i := 5 } kd ∧
    ¬ (kd.pc + (5 : BitVec 20).toInt < codeLen (alone kd) kd) ∧ gget (gset (issuing kd) 2 (gget kd 2 - 1)) 2 ≠ 0 ∧
    codeLen (alone kd) kd ≤ (gget kd 31).toNat ∧ codeLen (alone kd) kd ≤ (gget kd 2).toNat :=
  ⟨each_ready (by decide +kernel), by decide +kernel⟩

theorem test_meets_BranchResults_loop : EachReady [.loop x0 { ops with i := 4 }] { ops with i := 4 } kd ∧
    (0 : Int) ≤ kd.pc + (4 : BitVec 20).toInt ∧ kd.pc + (4 : BitVec 20).toInt < codeLen (alone kd) kd ∧
    gget (gset (issuing kd) 2 (gget kd 2 - 1)) 2 ≠ 0 :=
  ⟨each_ready (by decide +kernel), by decide +kernel⟩

/-- Operands whose guard, not p0, fails. -/
def onp : Ops := { ops with pneg := true }

theorem test_meets_GuardAndCodeEnd : canIssue (alone kc (.add x0 onp)) x0 = some kc ∧ spent (alone kc (.add x0 onp)) kc = false ∧
    guardOk kc onp = false ∧ hisTurn (alone kc (.add x0 onp)) x0 = true ∧ Calm (alone kc (.add x0 onp)) x0.core ∧ x0.ctx < 4 ∧
    kc.pc + 1 < codeLen (alone kc (.add x0 onp)) kc ∧ insnAt (alone kc (.add x0 onp)) x0 kc = some (.add x0 onp) ∧ onp.wf = true :=
  ⟨by decide +kernel, by decide +kernel, by decide +kernel, by decide +kernel, calm_of (by decide +kernel), by decide, by decide +kernel⟩

theorem test_meets_GuardAndCodeEnd_last : EachReady [.syncYield x0 ops, .movi x0 ops] ops { kc with pc := 7 } ∧
    codeLen (alone { kc with pc := 7 }) { kc with pc := 7 } = 7 + 1 :=
  ⟨each_ready (by decide +kernel), by decide +kernel⟩

theorem test_meets_GuardAndCodeEnd_other : insnAt (alone kc (.add x0 ops)) x0 kc ≠ some (.sub x0 ops) ∧ Calm (alone kc (.add x0 ops)) x0.core :=
  ⟨by decide +kernel, calm_of (by decide +kernel)⟩

/-- R213: CLASS, PNEG, PRED, OP, D, A, B, C, F and I of a word, bit by bit. -/
theorem test_word_fields : insnOf 0b0000_1_101_00000001_00001_00010_00011_00100_11111111_10000000000000000001 x0 =
    some (.sub x0 { pneg := true, pred := 5, d := 1, a := 2, b := 3, c := 4, f := 255, i := 0x80001 }) := by decide +kernel

/-- R217, R218, R219, R220, R221, R222: a word of each other class, and reserved ones. -/
theorem test_words : insnOf 0x1001084000000000 x0 = some (.loop x0 { ops with d := 1, a := 1, b := 0, c := 0 }) ∧
    insnOf 0x2008080000000000 x0 = some (.lds x0 { ops with a := 0, b := 0, c := 0 }) ∧
    insnOf 0x3002000000000000 x0 = some (.lzero x0 { ops with d := 0, a := 0, b := 0, c := 0 }) ∧
    insnOf 0x400A000000000000 x0 = some (.vbcast x0 { ops with d := 0, a := 0, b := 0, c := 0 }) ∧
    insnOf 0x5003000000000000 x0 = some (.syncYield x0 { ops with d := 0, a := 0, b := 0, c := 0 }) ∧
    insnOf 0x6004000000000000 x0 = some (.endItem x0 { ops with d := 0, a := 0, b := 0, c := 0 }) ∧
    insnOf 0x000E000000000000 x0 = none ∧ insnOf 0x7000000000000000 x0 = none := by decide +kernel

/-- R213, R214: every instruction's word is read as it. -/
theorem test_words_read_back : (coreInstrs x0 { ops with pneg := true, pred := 7, f := 170, i := 0xABCDE }).all (fun c =>
    match encodeInsn c with | some w => decide (insnOf w x0 = some c) | none => false) = true := by decide +kernel

theorem test_meets_RegisterFrame : coreOf (alone kc) x0.core = some { core0 with ctxs := [(0, kc)] } ∧ 31 < 32 ∧ 7 < 8 := by
  decide +kernel

/-! ## Sync and system -/

/-- kc with a token of entry 3, serial 4, named by g2. -/
def kt (d : Option (BitVec 128)) : Ctx :=
  { at3 [(2, 3 + 32 * 4)] with tokens := [(3, { tok (.zero 0 1) none with done := d })] }

theorem test_meets_SyncAndSystem : EachIssues (syncs ops) ops kc ∧ tokenMatch kc (gget kc 2) = none ∧ openTokens kc = [] ∧
    fencePending kc (aNode (gget kc 2)) = false ∧ (cmdOfItem (alone kc) kc.item).isSome = true :=
  ⟨each_issues (by decide +kernel), by decide +kernel⟩

theorem test_meets_SyncAndSystem_done : EachIssues (syncs ops) ops (kt (some 99)) ∧
    (tokenMatch (kt (some 99)) (gget (kt (some 99)) 2)).map (·.done) = some (some 99) :=
  ⟨each_issues (by decide +kernel), by decide +kernel⟩

theorem test_meets_SyncAndSystem_open : EachIssues (syncs ops) ops (kt none) ∧
    (tokenMatch (kt none) (gget (kt none) 2)).map (·.done) = some none ∧ openTokens (kt none) ≠ [] :=
  ⟨each_issues (by decide +kernel), by decide +kernel⟩

/-- A context with a request outstanding at node 9, which g2 addresses. -/
def kf : Ctx := { at3 [(2, 0x0009000000000000)] with tokens := [(3, tok (.load .global 0x0009000000000000 0 1) (some 9))] }

theorem test_meets_SyncAndSystem_fence : EachIssues (syncs ops) ops kf ∧ fencePending kf (aNode (gget kf 2)) = true :=
  ⟨each_issues (by decide +kernel), by decide +kernel⟩

theorem test_meets_ItemEnds : EachReady (syncs ops) ops kc ∧ quiet (alone kc) x0 kc = true :=
  ⟨each_ready (by decide +kernel), by decide +kernel⟩

theorem test_meets_ItemEnds_open : EachReady (syncs ops) ops kf ∧ quiet (alone kf) x0 kf = false :=
  ⟨each_ready (by decide +kernel), by decide +kernel⟩

/-- kc past a budget of one slice. -/
def kb : Ctx := { kc with issued := 65536 }
def spentDev : State := running (imageOf (.add x0 ops) 1) { core0 with ctxs := [(0, kb)] }

theorem test_meets_ItemEnds_spent : canIssue spentDev x0 = some kb ∧ spent spentDev kb = true ∧ x0.ctx < 4 := by decide +kernel

theorem test_meets_ItemEnds_failing : ctxOf (alone { kc with failing := some (.state, 3) }) x0 = some { kc with failing := some (.state, 3) } ∧
    quiet (alone { kc with failing := some (.state, 3) }) x0 { kc with failing := some (.state, 3) } = true := by decide +kernel

/-! ## Tile operations -/

/-- g2 an address or a slot, g3 a slot, g4 a value; eight slots. -/
def kz (ad sl : Word64) : Ctx := at3 [(2, ad), (3, sl), (4, 5)]

theorem test_meets_TileOperations_away : EachIssues (tileMoves { ops with i := 1 }) { ops with i := 1 } (kz 0x0009000000000000 6) ∧
    freeEntry (kz 0x0009000000000000 6) = some 0 ∧ 6 + 2 ≤ (kz 0x0009000000000000 6).slotCount ∧
    Clear [] [(6, 2)] x0 (kz 0x0009000000000000 6) (alone (kz 0x0009000000000000 6)) :=
  ⟨each_issues (by decide +kernel), by decide +kernel, by decide +kernel, clear_of (by decide +kernel)⟩

theorem test_meets_TileOperations_here : EachIssues (tileMoves { ops with i := 1 }) { ops with i := 1 } (kz 0x0002000000000000 6) ∧
    freeEntry (kz 0x0002000000000000 6) = some 0 ∧ awayHome (alone (kz 0x0002000000000000 6)) 0x0002000000000000 = none ∧
    6 + 2 ≤ (kz 0x0002000000000000 6).slotCount ∧ Clear [(6, 2)] [] x0 (kz 0x0002000000000000 6) (alone (kz 0x0002000000000000 6)) :=
  ⟨each_issues (by decide +kernel), by decide +kernel, by decide +kernel, by decide +kernel, clear_of (by decide +kernel)⟩

theorem test_meets_TileOperations_slots : EachIssues (tileMoves { ops with i := 17 }) { ops with i := 17 } (kz 0 6) ∧ freeEntry (kz 0 6) = some 0 ∧
    (17 : BitVec 20).toNat / 16 % 4 = 1 ∧ (17 : BitVec 20).toNat % 2048 + 1 = 18 ∧ Clear [] [(6, 2)] x0 (kz 0 6) (alone (kz 0 6)) ∧
    Clear [(6, 2)] [] x0 (kz 0 6) (alone (kz 0 6)) ∧ (kz 0 6).slotCount < 6 + 18 :=
  ⟨each_issues (by decide +kernel), by decide +kernel, by decide +kernel, by decide +kernel, clear_of (by decide +kernel),
    clear_of (by decide +kernel), by decide +kernel⟩

theorem test_meets_TileOperations_copy : EachIssues (tileMoves { ops with i := 1 }) { ops with i := 1 } (kz 0 6) ∧
    (gget (kz 0 6) 2).toNat + 2 ≤ (kz 0 6).slotCount ∧ (gget (kz 0 6) 3).toNat + 2 ≤ (kz 0 6).slotCount ∧
    Clear [(0, 2)] [(6, 2)] x0 (kz 0 6) (alone (kz 0 6)) ∧ Clear [] [(6, 2)] x0 (kz 0 6) (alone (kz 0 6)) :=
  ⟨each_issues (by decide +kernel), by decide +kernel, by decide +kernel, clear_of (by decide +kernel), clear_of (by decide +kernel)⟩

theorem test_meets_TileOperations_fails : EachReady (tileMoves { ops with i := 33 }) { ops with i := 33 } (kz 0 7) ∧
    2 ≤ (33 : BitVec 20).toNat / 16 % 4 ∧ EachReady (tileMoves { ops with i := 1 }) { ops with i := 1 } (kz 0 7) ∧ (kz 0 7).slotCount < 7 + 2 :=
  ⟨each_ready (by decide +kernel), by decide, each_ready (by decide +kernel), by decide +kernel⟩

theorem test_meets_TileOperations_tatom : EachIssues [.tatom x0 { ops with f := 1, i := 1 }] { ops with f := 1, i := 1 } (kz 0x0009000000000000 1) ∧
    freeEntry (kz 0x0009000000000000 1) = some 0 ∧ aopOk 1 1 = true ∧
    recAt (alone (kz 0x0009000000000000 1)) item0 0 = none ∧
    (sourceOf (alone (kz 0x0009000000000000 1)) 1 (atomHome (alone (kz 0x0009000000000000 1)) 0x0009000000000000)).outstanding.length < 1024 :=
  ⟨each_issues (by decide +kernel), by decide +kernel, by decide +kernel, by decide +kernel, by decide +kernel⟩

theorem test_meets_SlotInstructions : EachIssues (slotMoves { ops with d := 6, i := 0xF8 }) { ops with d := 6, i := 0xF8 } (kz 6 1) ∧
    (0xF8 : BitVec 20).toNat % 256 % 8 = 0 ∧ (gget (kz 6 1) 2).toNat + 2 ≤ (kz 6 1).slotCount ∧
    Clear [(6, 1)] [] x0 (kz 6 1) (alone (kz 6 1)) ∧ Clear [] [(6, 1)] x0 (kz 6 1) (alone (kz 6 1)) ∧
    Clear [(6, 2)] [] x0 (kz 6 1) (alone (kz 6 1)) ∧ Clear [] [(6, 2)] x0 (kz 6 1) (alone (kz 6 1)) :=
  ⟨each_issues (by decide +kernel), by decide, by decide +kernel, clear_of (by decide +kernel), clear_of (by decide +kernel),
    clear_of (by decide +kernel), clear_of (by decide +kernel)⟩

theorem test_meets_SlotInstructions_fails : EachReady (slotMoves { ops with d := 8, i := 0xFC }) { ops with d := 8, i := 0xFC } (kz 6 1) ∧
    (0xFC : BitVec 20).toNat % 256 % 8 ≠ 0 :=
  ⟨each_ready (by decide +kernel), by decide⟩

/-! ## Completions -/

/-- A context with one token, and what `TileCompletions` asks of it. -/
def kone (t : Token) : Ctx := { kc with tokens := [(2, t)] }
def actor1 (k : Ctx) : Option Actor := itemActor (alone k) x0 k false

def completes (t : Token) (s : State) : Bool :=
  (match coreOf s 0, ctxOf s x0, itemActor s x0 (kone t) false with
    | some c, some k, some a => decide (k = kone t) && !c.recovering && decide (partState s a.part = .active)
    | _, _, _ => false) && t.done.isNone && !t.wild && !heldBack (kone t) 2 t

def remoteLoad : Token := tok (.load .global 0x0009000000000000 1 2) (some 9)
def remoteStore : Token := tok (.store .global 0x0009000000000000 1 2) (some 9)
def remoteAtomic : Token := tok (.atomic 0x0009000000000000 33 1 5 0 7 1 0) (some 9)

theorem test_meets_TileCompletions : completes (tok (.zero 2 2) none) (alone (kone (tok (.zero 2 2) none))) = true ∧
    completes (tok (.copy 2 4 2) none) (alone (kone (tok (.copy 2 4 2) none))) = true ∧
    completes remoteLoad (alone (kone remoteLoad)) = true ∧ completes remoteStore (alone (kone remoteStore)) = true ∧
    completes remoteAtomic (alone (kone remoteAtomic)) = true ∧ [tile42, zeroTile].all tileOk = true ∧ stOf 0 = .ok ∧
    recAt (alone (kone remoteAtomic)) item0 0 = none := by decide +kernel

/-- The device with a resident segment of partition 1 that holds a tile. -/
def residentLoad : Token := tok (.load .resident 1 1 1) none
def residentDev : State :=
  let s := alone (kone residentLoad)
  { s with cores := { s.cores with segments := [(0, { part := 1, tiles := 100 })], resident := [(1, tile42)] } }

def residentReads : Bool := match itemActor residentDev x0 (kone residentLoad) false with
  | none => false
  | some a => match runIo ((List.range 1).mapM (ioGet a true 1)) [] residentDev with
    | (.ok ts, _) => decide (ts = [tile42])
    | _ => false

theorem test_meets_TileCompletions_resident : completes residentLoad residentDev = true ∧ residentReads = true := by decide +kernel

/-- A TATOM of partition 1 to node 9 that has no answer yet. -/
def unanswered : SentAtomic := {
  aseq := 1, tag := 0x1007, done := false, queue := 16, cmdSeq := 0, item := 0, idx := 0, op := .atomic 0x0009000000000000 33 1 5 0 0x1007 1 0,
  sub := 7, epoch := 1, wv := 0 }
def resendDev : State := { dev with cores := { dev.cores with sources := [(sourceKey 1 9, { nextTag := 8, nextAseq := 2, outstanding := [unanswered] })] } }

theorem test_meets_TileCompletions_resend :
    (sourceOf resendDev ((0x1007 : BitVec 16).toNat / 4096) 9).outstanding.find? (fun y => y.tag == 0x1007 && !y.done) = some unanswered ∧
    (match placeOf resendDev 0x0009000000000000 with | .away n _ none => n == 9 | _ => false) = true := by decide +kernel

/-! ## The lathe -/

/-- A lathe that context 0 holds, with operations queued. -/
def held (n : Nat) : Core := { core0 with holder := some 0, latheQ := List.replicate n { op := .zero, wild := false } }

/-- One whose operation belongs to an item that has ended. -/
def heldDead : Core := { core0 with holder := some 0, latheQ := [{ op := .zero, wild := false, dead := true }] }

theorem test_meets_LatheHolder_free : EachIssues (latheInstrs ops) ops kc ∧ (coreOf (on kc core0) 0).map (·.holder) = some none ∧
    core0.holder = none ∧ core0.waiters = [] :=
  ⟨each_issues (by decide +kernel), by decide +kernel⟩

theorem test_meets_LatheHolder_held : EachIssues (latheInstrs ops) ops kc (held 0) ∧
    coreOf (on kc (held 0)) 0 = some { held 0 with ctxs := [(0, kc)] } ∧ (held 0).holder = some 0 ∧ (held 0).releasing = false ∧
    (held 0).latheQ = [] ∧ (held 0).waiters = [] ∧ { held 0 with waiters := [2] }.waiters = 2 :: [] ∧ 0 ∉ [2] ∧ (held 1).latheQ ≠ [] :=
  ⟨each_issues (by decide +kernel), by decide +kernel⟩

/-- g2 = 126, the last pair of rows. -/
def kr : Ctx := at3 [(2, 126)]

theorem test_meets_LatheHolder_rows : EachIssues [.lrd x0 { ops with d := 6 }, .lwr x0 { ops with d := 6 }] { ops with d := 6 } kr (held 0) ∧
    coreOf (on kr (held 0)) 0 = some { held 0 with ctxs := [(0, kr)] } ∧ (gget kr 2).toNat % 2 = 0 ∧ (gget kr 2).toNat ≤ 126 ∧
    EachIssues [.lrd x0 { ops with d := 6 }, .lwr x0 { ops with d := 6 }] { ops with d := 6 } kr (held 1) ∧ coreOf (on kr (held 1)) 0 = some { held 1 with ctxs := [(0, kr)] } :=
  ⟨each_issues (by decide +kernel), by decide +kernel, by decide +kernel, by decide +kernel, each_issues (by decide +kernel),
    by decide +kernel⟩

/-- g1 = 32 rows of K, operands at slots 0 and 1; 64 slots. -/
def kp : Ctx := { at3 [(1, 32), (2, 0), (3, 1), (4, 0)] with slotCount := 64 }

def passOp : LatheOp := .pass 32 0 1 0 0 4 3 3
def loadOp : LatheOp := .load 3 1
def storeOp : LatheOp := .store 3 1 0 3 0 0

theorem test_meets_LatheSteps_pass : EachIssues [.lpass x0 { ops with i := 0x3061, f := 3 }] { ops with i := 0x3061, f := 3 } kp (held 7) ∧
    coreOf (on kp (held 7)) 0 = some { held 7 with ctxs := [(0, kp)] } ∧ latheBusy (on kp (held 7)) x0 < 8 ∧ pairOk 3 3 = true ∧
    (gget kp 1).toNat % 32 = 0 ∧ 32 ≤ (gget kp 1).toNat ∧ (gget kp 1).toNat ≤ 32768 ∧
    (∀ p ∈ (latheSpans passOp).1, p.2 = 0 ∨ p.1 + p.2 ≤ kp.slotCount) ∧ Clear (latheSpans passOp).1 [] x0 kp (on kp (held 7)) :=
  ⟨each_issues (by decide +kernel), by decide +kernel, by decide +kernel, by decide +kernel, by decide +kernel, by decide +kernel,
    by decide +kernel, by decide +kernel, clear_of (by decide +kernel)⟩

theorem test_meets_LatheSteps_move : EachIssues (latheInstrs { ops with i := 2, f := 3 }) { ops with i := 2, f := 3 } kp (held 2) ∧ freeEntry kp = some 0 ∧ fsOk 3 = true ∧
    (∀ p ∈ (latheSpans loadOp).1, p.2 = 0 ∨ p.1 + p.2 ≤ kp.slotCount) ∧ Clear (latheSpans loadOp).1 [] x0 kp (on kp (held 2)) ∧
    (∀ p ∈ (latheSpans storeOp).2, p.2 = 0 ∨ p.1 + p.2 ≤ kp.slotCount) ∧ Clear [] (latheSpans storeOp).2 x0 kp (on kp (held 2)) ∧
    latheBusy (on kp (held 2)) x0 ≤ 2 % 16 ∧ 2 % 16 < latheBusy (on kp (held 3)) x0 ∧ latheBusy (on kp (held 8)) x0 = 8 :=
  ⟨each_issues (by decide +kernel), by decide +kernel, by decide +kernel, by decide +kernel, clear_of (by decide +kernel),
    by decide +kernel, clear_of (by decide +kernel), by decide +kernel⟩

theorem test_meets_LatheSteps_complete : coreOf (on kp (held 1)) 0 = some { held 1 with ctxs := [(0, kp)] } ∧
    (held 1).recovering = false ∧ (held 1).holder = some 0 ∧ (held 1).latheQ = { op := .zero, wild := false } :: [] ∧
    tget [(0, kp)] 0 = some kp ∧ coreOf (on kp heldDead) 0 = some { heldDead with ctxs := [(0, kp)] } ∧ heldDead.recovering = false ∧
    heldDead.holder = some 0 ∧ heldDead.latheQ.map (·.dead) = [true] := by decide +kernel

/-! ## Vectors -/

theorem test_meets_VectorResults : EachIssues (vectors { ops with d := 6, a := 4, b := 2 }) { ops with d := 6, a := 4, b := 2 } kc ∧ vecSpecOk 0 = true ∧ vtOk 6 = true ∧
    vtOk 4 = true ∧ vtOk 2 = true ∧ fsFmt 0 = 0 ∧ EachIssues [.vsfu x0 { ops with d := 6, a := 4, i := 0x1070 }] { ops with d := 6, a := 4, i := 0x1070 } kc ∧
    (0x1070 : BitVec 20).toNat / 16 % 16 ≤ 7 ∧ vecSpecOk (BitVec.ofNat 8 ((0x1070 : BitVec 20).toNat / 4096)) = true :=
  ⟨each_issues (by decide +kernel), by decide, by decide, by decide, by decide, by decide, each_issues (by decide +kernel), by decide⟩

theorem test_meets_VectorResults_fails : EachReady (vectors { ops with d := 7 }) { ops with d := 7 } kc ∧ vtOk 7 = false ∧ vtOk 8 = false ∧
    vecSpecOk 3 = false := ⟨each_ready (by decide +kernel), by decide⟩

end Sys2Proof.Tests
end

