-- ==== Sys2Proof/Tests/Faulty.lean ====
section
/-! SUPPORT. Faults, drag, recovery, start, power and the device's pins: states and operands that meet the hypotheses of
their statements (chapters 14, 17 and 19), one theorem for each set that go together. -/

namespace Sys2Proof.Tests

set_option Elab.async false

open Sys2Proof Sys2Proof.Machine

/-! ## Core faults -/

theorem test_meets_CoreFaultsAndDrag_cores : tget (alone ctx0).cores.phys 0 = some { working := true, retired := false, faultBands := 0, quarantine := 0 } ∧
    logicalOf (alone ctx0) 0 = some (0, { core0 with ctxs := [(0, ctx0)] }) ∧ core0.recovering = false ∧ core0.part = some 1 ∧
    partState (alone ctx0) 1 ≠ .resetting ∧ tget dev.cores.phys 5 = none ∧ coreOf (alone ctx0) 0 = some { core0 with ctxs := [(0, ctx0)] } := by
  decide +kernel

/-- Context 0's item, which has faulted before, of an idempotent kernel or another. -/
def faulted (n : Nat) (idem : Bool) : State := { alone ctx0 with
  queues := { dev.queues with queues := [(16, queue 5 [{ cmd 0 1 (some { image 8 0 with idempotent := idem }) with
    runs := [{ item := 0, x := x0, epoch := 1, replay := 0 }], faults := [(0, n)] }])] } }
def replays (s : State) : Option (Bool × Nat) := match ctxOf s x0 with
  | none => none
  | some k => match cmdOfItem s k.item with
    | some (_, c) => some (replayable c k, tgetD c.faults k.item.index 0)
    | none => none

theorem test_meets_CoreFaultsAndDrag_items : ctx0.item.coll = none ∧ ctx0.item.engine ≠ 1 ∧ replays (faulted 1 true) = some (true, 1) ∧
    replays (faulted 2 true) = some (true, 2) ∧ replays (faulted 0 false) = some (false, 0) := by decide +kernel

/-! ## Drag and power -/

def drag (own rtp : Bool) : Drag := { own := own, rtp := rtp, junction := 45000, since := 0 }
def dragged (d : Drag) : State := setStrip 3 d dev
def limited (w : Nat) (n : Nat) : State := { dev with phys := { dev.phys with
  vddMv := 700, watts := w, limiting := true, strips := (List.range n).map (fun i => (i, drag false true)) } }

theorem test_meets_CoreFaultsAndDrag_drag : dataUp dev = true ∧ inDrag (stripAt dev 3) = false ∧ inDrag (stripAt (dragged (drag true false)) 3) = true ∧
    inDrag (stripAt (dragged (drag false true)) 3) = true ∧ dev.phys.coolantFell = none ∧ powerCap dev = 10500 ∧ 700 ≤ dev.phys.vddMv ∧
    powerCap (limited 20000 9) < (limited 20000 9).phys.watts ∧
    (List.range 8).find? (fun f => (List.range 8).any (fun i => !(stripAt (limited 20000 9) (8 * f + i)).rtp)) = some 1 ∧
    (∀ n < 64, (stripAt (limited 20000 64) n).rtp = true) ∧
    (limited 9974 0).phys.watts * 100 < powerCap (limited 9974 0) * 95 ∧ powerCap (limited 9975 0) * 95 ≤ (limited 9975 0).phys.watts * 100 := by
  decide +kernel

/-! ## Partition faults -/

def withPart (f : Part → Part) : State := modPart 1 f dev
def ownedBy (c p : Nat) (s : State) : State := setChannel c { channelAt s c with part := some p } s
def degraded (l : List Mirror) (s : State) : State := { s with parts := { s.parts with degraded := l } }
def bare : State := { dev with cores := { dev.cores with cores := [] }, ext := { dev.ext with entries := [] } }

/-- How a channel's fault stands: its partition, whether what lay on it has no other copy, whether it is a mirror. -/
def standing (c : Nat) (s : State) : Option (Bool × Bool) := match (channelAt s c).part with
  | none => none
  | some p => match tget s.parts.parts p with
    | none => none
    | some x => some (unmirrored (retireChannel c s) p x c, x.mirrors.1 == c || x.mirrors.2 == c)

/-- Partition 1 holds channel 3 too, and its areas lie on channel 64 alone. -/
def third : State := ownedBy 3 1 (withPart (fun p => { p with channels := [0, 3, 64], placedOn := [64] }))
theorem test_meets_PartitionFaultsAndRecovery_units : partState dev 1 = .active ∧ partState dev 2 ≠ .active ∧
    tget bare.parts.parts 1 = some part1 ∧ part1.state = .active ∧ bare.home.parked = [] ∧ bare.home.busy = [] ∧ bare.groups = [] ∧
    bare.mgmt.waiting = [] ∧ bare.queues.queues = [] ∧ bare.ext.invals = [] ∧ bare.ext.older = none ∧
    bare.pool.journal = [] ∧ bare.home.heldPulls = [] := by decide +kernel

theorem test_meets_PartitionFaultsAndRecovery_channels : (channelAt (retireChannel 5 dev) 5).retired = true ∧ (channelAt dev 5).part = none ∧
    standing 0 third = some (false, true) ∧ (degraded [.ledger 1] dev).parts.degraded.any (fun m => mirrorPart m == some 1) = true ∧
    standing 3 third = some (false, false) ∧ (channelAt third 3).retired = false := by decide +kernel

def spread : State := degraded [.ledger 1, .journal 1] third

theorem test_meets_PartitionFaultsAndRecovery_mirrors : mirrorPart (.ledger 1) = some 1 ∧ Mirror.ledger 1 ∉ dev.parts.degraded ∧
    Mirror.ledger 1 ∈ spread.parts.degraded ∧ (tget spread.parts.parts 1).map (·.state) = some .active ∧
    ((tget spread.parts.parts 1).map (fun x =>
      let ms := placeMirrors spread x.channels x.mirrors
      decide ((channelAt spread ms.1).retired = false ∧ (channelAt spread ms.2).retired = false ∧ channelField ms.1 ≠ channelField ms.2))) =
        some true := by decide +kernel

def empty : State := { bare with parts := PartSt.reset, ports := { bare.ports with ports := [] } }

theorem test_meets_PartitionFaultsAndRecovery_fields : dev.phys.isolated.getLsbD 2 = false ∧
    ({ dev.phys with isolated := 4 } : PhysSt).isolated.getLsbD 2 = true ∧ dataUp empty = true ∧ empty.cores.cores = [] ∧
    empty.parts.parts = [] ∧ empty.ports.ports = [] ∧ empty.home.parked = [] ∧ empty.mgmt.waiting = [] ∧ empty.ext.entries = [] := by
  decide +kernel

/-! ## Recovery -/

def resetting : State := beginReset 1 true false dev
def fits (s : State) : Option (PState × Bool × Bool) :=
  (tget s.parts.parts 1).map (fun x => (x.state, x.stalled, stillFits (applyRecord 1 (testKeeper 1 true s)) 1))

theorem test_meets_PartitionFaultsAndRecovery_reset : fits dev = some (.active, false, true) ∧ fits resetting = some (.resetting, false, true) ∧
    fits (retireChannel 64 (retireChannel 0 resetting)) = some (.resetting, false, false) ∧
    fits (modPart 1 (fun p => { p with stalled := true }) resetting) = some (.resetting, true, true) ∧
    keySlot (tkey 3 7) = 3 ∧ ownerOf dev 3 = 1 ∧ dev.queues.queues = [] := by decide +kernel

def scrubbed : State := setChannel 5 { channelAt dev 5 with scrubbing := true } dev
def oneMore : Resources := { cores := [1], channels := [], ports := [], shares := [] }
/-- A grow by core 1 waits for its scrub. -/
def growing : State := { dev with
  cores := { dev.cores with cores := [(0, core0), (1, { core0 with part := none, scrubbing := true })] },
  mgmt := { dev.mgmt with waiting := [.grow (fm 7) 1 oneMore] } }
def leaves : State := modCore 0 (fun k => { k with removing := true }) (alone ctx0)
def okCfg {α ε : Type} (r : Except ε α) : Bool := match r with
  | .ok _ => true
  | .error _ => false

theorem test_meets_PartitionFaultsAndRecovery_scrubs : (channelAt scrubbed 5).scrubbing = true ∧ dev.mgmt.waiting = [] ∧
    growing.mgmt.waiting = [.grow (fm 7) 1 oneMore] ∧ scrubs (modCore 1 (fun k => { k with scrubbing := false }) growing) oneMore = false ∧
    okCfg (growCheck { growing with mgmt := { growing.mgmt with waiting := [] } } 1 oneMore) = true ∧
    (∀ x ∈ dev.cores.cores, x.2.part = some 1 → x.2.removing = false) ∧
    leaves.cores.cores = [(0, { core0 with ctxs := [(0, ctx0)], removing := true })] := by decide +kernel

def pair (a : Nat) (p : Bool × Bool) : State := { dev with boot := { dev.boot with activePair := a, pairOk := p } }

theorem test_meets_PartitionFaultsAndRecovery_pairs : (pair 1 (true, true)).boot.phase = .ready ∧ (pair 1 (true, true)).boot.pairOk = (true, true) ∧
    (pair 1 (true, true)).boot.activePair = 1 ∧ (pair 0 (true, false)).boot.pairOk = (true, false) := by decide +kernel

/-! ## Power and start -/

/-- A board whose slots hold images that verify: a small modulus, exponent 1, and its hash in the fuses of key slot
0 of the vendor and of the owner. -/
def modulus : Nat := 2 ^ 527 + 1
def signingBlock (type : Nat) : SigningBlock := {
  magic := 0x53474E31, type := BitVec.ofNat 8 type, keySlot := 0, svn := 4, version := 3, length := 100, sha := 5, modulus := modulus,
  exponent := 1, signature := 0 }
def flashImage (type : Nat) (c : Content) (signature : Nat) (n : Nat := 100) (d : BitVec 256 := 5) : Image :=
  { count := n, digest := d, content := c, block := { signingBlock type with length := n, sha := d, signature := signature } }
/-- SHA-256 of the key as R373 gives it. -/
def keyFuses : Nat := 112059037878204843383555498030390476481232254405332507876734437829440616304093
def rtpImage : Image := flashImage 1 .rtpFw
  72330945615903155412739739858136012739577122963860616318293953071453417075983854544592143288644647480192694478331491177536365395682170403991680208230325846972
def charterImage : Image := flashImage 3 (.charter charter)
  163686498650329193343274253371349696371707695358764534407038515944335393888683316860092628739962016160798092627182430357990719533752048135628427843863594270140
  232 95265536227350846319328507914105525794061550216182264116978973257642935941518
def board : Board := {
  slots := [(.rtp false, rtpImage), (.charter false, charterImage)], identity := [1],
  fuses := BitVec.ofNat 4096 (keyFuses * 2 ^ 3072 + keyFuses * 2 ^ 2048 + 2 ^ 1524) }
def boards (b : Board) : State := provision (some b) (wiped State.reset)
def rtpOnly : Board := { board with slots := [(.rtp false, rtpImage)] }

theorem test_key_hash : keyHash modulus 1 = BitVec.ofNat 256 keyFuses := by decide +kernel

theorem test_key_slots : slotHash board.fuses true 0 = BitVec.ofNat 256 keyFuses ∧ slotHash board.fuses false 0 = BitVec.ofNat 256 keyFuses ∧
    slotRevoked board.fuses true 0 = false ∧ slotRevoked board.fuses false 0 = false := by decide +kernel

/-- An image of the board's key is signed if the signature verifies. -/
theorem signed_of {type n sig m : Nat} {d : BitVec 256} {c : Content}
    (h : rsaVerify modulus 1 sig (blockBytes (flashImage n c sig m d).block) = true) :
    signatureOk board.fuses type (flashImage n c sig m d) = true := by
  have hk : (flashImage n c sig m d).block.keySlot.toNat = 0 := rfl
  have hm : keyHash (flashImage n c sig m d).block.modulus (flashImage n c sig m d).block.exponent = BitVec.ofNat 256 keyFuses := test_key_hash
  have hv : rsaVerify (flashImage n c sig m d).block.modulus (flashImage n c sig m d).block.exponent (flashImage n c sig m d).block.signature
      (blockBytes (flashImage n c sig m d).block) = true := h
  simp only [signatureOk, hk, hm, hv]
  cases type == 3 <;> simp [test_key_slots]

theorem test_rtp_signature : signatureOk board.fuses 1 rtpImage = true := signed_of (by decide +kernel)

theorem test_charter_signature : signatureOk board.fuses 3 charterImage = true := signed_of (by decide +kernel)

/-- The charter's bytes hold what it says: its header, a directory of one section with its CRC, and its template (R427 to R431). -/
theorem test_charter_bytes : headerHeld charter = true ∧ directoryOk charter = true ∧ templatesHeld charter = true := by decide +kernel

theorem test_rtp_form : digestOk rtpImage = true ∧ formOk board.fuses (.rtp false) rtpImage = true ∧ digestOk charterImage = true ∧
    formOk board.fuses (.charter false) charterImage = true ∧ charterOk board.fuses charter = true := by decide +kernel

/-- What a slot holds boots, if it passes the checks. -/
theorem boots_of {s : State} {l : Bool → FlashSlot} {i : Image} (h : slotImage s (l false) = some i) (d : digestOk i = true)
    (g : signatureOk s.boot.fuses (slotType (l false)) i = true) (f : formOk s.boot.fuses (l false) i = true)
    (c : ∀ c, i.content = .charter c → charterOk s.boot.fuses c = true) : bootImage s l = some (i, false) := by
  have k : slotCheck s (l false) = .ok i := by
    simp only [slotCheck, h, d, g, f, Bool.not_true, Bool.false_eq_true, if_false]
    split
    · next c' hc => simp [c c' hc]
    · rfl
  simp [bootImage, k]

/-- A fresh device has the fuses that its board provisions. -/
theorem boards_fuses (b : Board) : (boards b).boot.fuses = b.fuses := by
  simp only [boards, provision]
  exact BitVec.zero_or

theorem boards_rtp (b : Board) (h : b.slots.find? (fun x => x.1 == .rtp false) = some (.rtp false, rtpImage)) (f : b.fuses = board.fuses) :
    bootImage (boards b) .rtp = some (rtpImage, false) := by
  apply boots_of
  · simp [slotImage, boards, provision, h]
  · exact test_rtp_form.1
  · rw [boards_fuses, f]; exact test_rtp_signature
  · rw [boards_fuses, f]; exact test_rtp_form.2.1
  · simp [rtpImage, flashImage]

theorem test_meets_PowerAndStart_boot : bootImage (boards board) .rtp = some (rtpImage, false) ∧ lifecycle (boards board).boot.fuses ≠ 15 ∧
    bootImage (boards board) .charter = some (charterImage, false) ∧ charterImage.content = .charter charter := by
  refine ⟨boards_rtp board (by rfl) rfl, by decide +kernel, ?_, rfl⟩
  apply boots_of
  · rfl
  · exact test_rtp_form.2.2.1
  · rw [boards_fuses]; exact test_charter_signature
  · rw [boards_fuses]; exact test_rtp_form.2.2.2.1
  · intro c h
    rw [boards_fuses, ← Content.charter.inj h]; exact test_rtp_form.2.2.2.2

theorem test_meets_PowerAndStart_rtp : bootImage (boards rtpOnly) .rtp = some (rtpImage, false) ∧
    lifecycle (boards rtpOnly).boot.fuses ≠ 15 ∧ (bootImage (boards rtpOnly) .charter).isNone = true :=
  ⟨boards_rtp rtpOnly (by rfl) rfl, by decide +kernel, by decide +kernel⟩

theorem test_meets_PowerAndStart_none : (bootImage (provision none (wiped State.reset)) .rtp).isNone = true ∧ State.reset.phys.pwrgd = false ∧
    dev.phys.pwrgd = true := by decide +kernel

def coldStart (rails : Bool) : State := { dev with
  boot := { dev.boot with phase := .waitCoolant }, phys := { dev.phys with railsOk := rails, coolantOk := false } }
def startTests (n : Nat) : StartTests := {
  badChannels := [], badCores := [], deadMiddles := List.range n, badBanks := [], peers := [], silentModules := [],
  refusingModules := [], claimRecords := [] }
def heldStart : State := { coldStart false with boot := { (coldStart false).boot with tests := some (startTests 1) } }

theorem test_meets_PowerAndStart_coolant : waits6 (coldStart true) = true ∧ (coldStart true).phys.railsOk = true ∧
    waits6 (coldStart false) = true ∧ (coldStart false).phys.railsOk = false ∧ waits6 heldStart = true ∧ heldStart.boot.tests = some (startTests 1) ∧
    (coldStart true).boot.tests = none ∧ waits6 dev = false ∧ dev.boot.charter = some charter ∧
    8 < ((startTests 9).deadMiddles.filter (decide <| · < 384)).eraseDups.length ∧
    ((startTests 8).deadMiddles.filter (decide <| · < 384)).eraseDups.length = 8 := by decide +kernel

/-! ## Pins and sensors -/

theorem test_meets_PhysicalEvents : dev.boot.phase = .ready ∧ (coldStart true).boot.phase = .waitCoolant ∧ dev.phys.refSys = true ∧
    mgmtUp dev = true ∧ mgmtUp { dev with boot := { dev.boot with pairOk := (false, false) } } = false ∧ dataUp dev = true ∧
    dev.phys.coolantFell = none ∧ ({ dev.phys with coolantFell := some 800 } : PhysSt).coolantFell = some 800 := by decide +kernel

/-- A device that has tripped. -/
def tripped : State := { dev with boot := { dev.boot with phase := .tripped }, phys := { dev.phys with thermtripN := true } }

theorem test_meets_TripLasts : tripped.phys.pwrgd = true ∧ tripped.boot.phase = .tripped ∧ tripped.phys.thermtripN = true ∧
    tripped.pending.head? ≠ some .powerDown := by decide +kernel

end Sys2Proof.Tests
end

