-- ==== Sys2Proof/Tests/Trust.lean ====
section
/-! SUPPORT. The root of trust, images in service and certificates: states and operands that meet the hypotheses of their
statements (chapters 14, 15 and 17), one theorem for each set that go together. -/

namespace Sys2Proof.Tests

set_option Elab.async false

open Sys2Proof Sys2Proof.Machine

/-- A fabric manager's request, and a supervisor's, meet nothing before their own rule. -/
theorem asks_fm : Requests (fm 3) dev .fm := requests_of (by decide +kernel)
theorem asks_sv : Requests (sv 3) dev (.supervisor 1) := requests_of (by decide +kernel)
theorem sends_fm (h : Mgmt) : MaySend h .fm := .inl rfl
theorem sends_sv : MaySend (sv 3) (.supervisor 1) := .inr rfl

/-! ## The root of trust -/

def fused (n : Nat) : State := { dev with boot := { dev.boot with fuses := BitVec.ofNat 4096 n } }

/-- A running image of an SVN, signed with a key slot. -/
def running1 (svn k : Nat) (c : Content) : Image := {
  count := 1, digest := 5, content := c,
  block := { signingBlock 1 with keySlot := BitVec.ofNat 8 k, svn := svn } }

/-- A device that runs a charter which revokes key slots, with its images. -/
def revoking (svn k : Nat) (slots : BitVec 4) : State := { dev with boot := { dev.boot with
  rtpFw := some (running1 svn k .rtpFw), charterImage := some (running1 svn k (.charter charter)),
  charter := some { charter with keys := { charter.keys with revokeVendor := slots, revokeOwner := slots } } } }

def revokes (s : State) : List Nat := match s.boot.charter with
  | some c => revokeFuses s.boot.fuses c
  | none => []

theorem test_meets_TrustRequests : lifecycle dev.boot.fuses ≠ 15 ∧ lifecycle (fused (15 * 2 ^ 1524)).boot.fuses = 15 ∧
    svnFuses dev.boot.fuses 1 (runningSvn (revoking 4 0 0) 1) ≠ [] ∧ svnFuses dev.boot.fuses 1 (runningSvn dev 1) = [] ∧
    (revokes (revoking 4 0 2)).any (signingFuses (revoking 4 0 2)).contains = false ∧ revokes (revoking 4 0 2) ≠ [] ∧
    (revokes (revoking 4 1 2)).any (signingFuses (revoking 4 1 2)).contains = true := by decide +kernel

theorem test_meets_TrustRequests_requests : Requests (fm 3) (fused (15 * 2 ^ 1524)) .fm ∧ Requests (fm 3) (revoking 4 0 2) .fm ∧
    Requests (fm 3) (revoking 4 1 2) .fm :=
  ⟨requests_of (by decide +kernel), requests_of (by decide +kernel), requests_of (by decide +kernel)⟩

/-! ## Images -/

def engineImage : Image := flashImage 2 (.engineFw 1)
  254313420262974208210189706736054430403220847819077922942573741687328171616451353164644489366765822285424790587918144898645913145528233180903247102117888886716

/-- A device in service whose flash holds images that verify. -/
def stocked (c : Charter) : State := { dev with boot := { dev.boot with
  flash := (.engine 1 false, engineImage) :: board.slots, fuses := board.fuses, charter := some c } }

theorem test_engine_signature : signatureOk board.fuses 2 engineImage = true := signed_of (by decide +kernel)

theorem test_engine_form : digestOk engineImage = true ∧ formOk board.fuses (.engine 1 false) engineImage = true := by decide +kernel

theorem slotCheck_of {s : State} {l : FlashSlot} {i : Image} (h : slotImage s l = some i) (d : digestOk i = true)
    (g : signatureOk s.boot.fuses (slotType l) i = true) (f : formOk s.boot.fuses l i = true)
    (c : ∀ c, i.content = .charter c → charterOk s.boot.fuses c = true) : slotCheck s l = .ok i := by
  simp only [slotCheck, h, d, g, f, Bool.not_true, Bool.false_eq_true, if_false]
  split
  · next c' hc => simp [c c' hc]
  · rfl

theorem test_meets_ImageRequests_slots (c : Charter) : slotCheck (stocked c) (.rtp false) = .ok rtpImage ∧
    slotCheck (stocked c) (.charter false) = .ok charterImage ∧ slotCheck (stocked c) (.engine 1 false) = .ok engineImage :=
  ⟨slotCheck_of rfl test_rtp_form.1 test_rtp_signature test_rtp_form.2.1 (by simp [rtpImage, flashImage]),
    slotCheck_of rfl test_rtp_form.2.2.1 test_charter_signature test_rtp_form.2.2.2.1 (by
      intro c h
      rw [← Content.charter.inj h]; exact test_rtp_form.2.2.2.2),
    slotCheck_of rfl test_engine_form.1 test_engine_signature test_engine_form.2 (by simp [engineImage, flashImage])⟩

/-- The status of a slot's check. -/
def refusedAs (s : State) (l : FlashSlot) : Option St := match slotCheck s l with
  | .ok _ => none
  | .error st => some st

theorem test_meets_ImageRequests : (lifecycle dev.boot.fuses ≠ 1 ∧ lifecycle dev.boot.fuses ≠ 3) ∧
    lifecycle (fused (2 ^ 1524)).boot.fuses = 1 ∧ writeFits .identity (.bytes 2 [9, 9]) = true ∧ writeFits (.rtp true) (.image rtpImage) = true ∧
    writeFits (.rtp true) (.bytes 8388608 [9]) = false ∧ sameDevice charter charter = true ∧
    sameDevice charter { charter with profiles := [], retired := [1] } = false ∧
    refusedAs dev (.rtp false) = some .state ∧ refusedAs dev (.charter false) = some .state ∧ refusedAs dev (.engine 1 false) = some .state ∧
    canUpdate dev 1 1 = true ∧ canUpdate dev 2 1 = false := by decide +kernel

theorem test_meets_ImageRequests_requests : Requests (fm 3) (stocked charter) .fm ∧ Requests (fm 3) (fused (2 ^ 1524)) .fm :=
  ⟨requests_of (by decide +kernel), requests_of (by decide +kernel)⟩

/-! ## Certificates -/

/-- A certificate of a kind with one signature, of node 7. -/
def cert (kind : Byte) (sig : Nat) : Cert := {
  len := 512, magic := 0x51435431, kind := kind, signers := 1, device := 2, target := 7, leaseMs := 0, certSeq := 9, bootNonce := 11,
  challenge := 12, charterSha := charterImage.block.sha, sigs := [sig] }

/-- The device knows its charter's image and the signer's key; it has taken a certificate before. -/
def trusting : State := { dev with boot := { dev.boot with
  charterImage := some charterImage, certSeq := some 8,
  charter := some { charter with keys := { charter.keys with quorum := [(modulus, 1)] } } } }
def expelled7 : State := { trusting with boot := { trusting.boot with expelled := [7] } }

theorem test_meets_CertificateEffects_expel : certCheck trusting (cert 1
    379696116874665415482082530037855106915924155378466060472009300898516009377948993046262347876811616849896777486124858433341049273876656142190549401203336972988) true = none := by
  decide +kernel

/-- The same device under a charter that asks for no signatures: what the checks of the other kinds ask besides. -/
def easy (s : State) : State := { s with boot := { s.boot with
  charter := s.boot.charter.map (fun c => { c with keys := { c.keys with quorumK := 0 } }) } }
def unsigned (kind : Byte) : Cert := { cert kind 0 with signers := 0, len := 128, sigs := [] }

theorem test_meets_CertificateEffects_kinds : certCheck (easy expelled7) (unsigned 2) true = none ∧ certCheck (easy trusting) (unsigned 3) true = none ∧
    certCheck (easy trusting) (unsigned 4) true = none ∧ certCheck (easy trusting) (unsigned 5) true = none := by decide +kernel

theorem test_meets_CertificateEffects : certCheck trusting (cert 1 7) true = some .noAccess ∧ certCheck dev (cert 2 7) true = some .state ∧
    certCheck dev { cert 1 7 with device := 3 } true = some .opcode ∧ (cert 6 7).kind.toNat = 6 ∧
    dev.boot.phase = .ready ∧ dev.boot.leaseMs.isSome = true ∧
    ({ dev.boot with leaseMs := none } : BootSt).leaseMs = none ∧ trusting.boot.certSeq = some 8 := by decide +kernel

theorem test_meets_CertificateEffects_requests : Requests (fm 3) trusting .fm ∧ Requests (fm 3) (easy trusting) .fm ∧
    Requests (fm 3) (easy expelled7) .fm :=
  ⟨requests_of (by decide +kernel), requests_of (by decide +kernel), requests_of (by decide +kernel)⟩

/-! ## Fuses -/

theorem test_meets_FusesReachTheSvn : (2047 : Nat) < 4096 ∧ (1 ≤ 3 ∧ 3 ≤ (3 : Nat)) ∧ svnFuses dev.boot.fuses 3 70 ≠ [] := by decide +kernel

end Sys2Proof.Tests
end

