-- ==== Sys2Proof/Tests/Work.lean ====
section
/-! SUPPORT. Requests that wait, revocation, background work, commands of queues and items: states and operands that meet
the hypotheses of their statements (chapters 2 to 8 and 10 to 12), one theorem for each set that go together. -/

namespace Sys2Proof.Tests

set_option Elab.async false

open Sys2Proof Sys2Proof.Machine

/-! ## Requests that wait -/

def waits (id : Nat) (tx : Tx) (w : Wait) : Parked := { id := id, port := 0, tx := tx, why := w }
def waitDev (l : List Parked) : State := { dev with home := { dev.home with parked := l, nextId := 10 } }
def rdOp : Tx := { rq 1 3 5 1 [] with op := 1 }
def wrOp : Tx := { rq 1 3 5 1 [tile42] with op := 2 }
def atomicOp : Tx := { rq 2 3 5 1 [] with op := 4, trailer := mkTrailer 64 (2 ^ 186 + 2 ^ 183) }
def snapOp : Tx := { wrOp with offset := mkOffset 4 5 0, version := 2 }
def busyTile : Busy := {
  slot := 3, tile := 5, why := .request 0 0 { rdOp with src := 8 }, recalls := [{ node := 7, agent := 0, tag := 9, inv := false }], data := none }
def busyWait : State :=
  let s := waitDev [waits 3 rdOp (.tile 3 5)]
  { s with home := { s.home with busy := [busyTile] } }
def threeWait : State := waitDev [waits 3 wrOp (.journal 1), waits 4 atomicOp (.ledger 1), waits 5 snapOp (.sinter 1)]
/-- Partition 1's template with no ledger. -/
def noLedger : State := modPart 1 (fun p => { p with applied := p.applied.map (fun c => { c with
  template := c.template.map (fun t => { t with ledgerK := 0 }) }) }) dev

theorem test_meets_WaitingRequests : isBusy (waitDev [waits 3 rdOp (.tile 3 5)]) 3 5 = false ∧
    (waitDev [waits 3 rdOp (.tile 3 5)]).home.parked.find? (fun y => y.why == .tile 3 5) = some (waits 3 rdOp (.tile 3 5)) ∧
    isBusy busyWait 3 5 = true ∧ dev.home.parked = [] ∧ ledgerFull threeWait 1 = false ∧
    threeWait.home.parked.find? (fun y => y.why == .ledger 1) = some (waits 4 atomicOp (.ledger 1)) ∧
    (retryHeld (retryBusy 1 threeWait)).home.parked.find? (fun y => y.why == .journal 1) = some (waits 3 wrOp (.journal 1)) ∧
    (retryBusy 1 threeWait).home.parked.find? (fun y => y.why == .sinter 1) = some (waits 5 snapOp (.sinter 1)) ∧
    ledgerFull noLedger 1 = true ∧ (retryBusy 1 dev).home.parked = [] ∧
    (retryHeld (retryBusy 1 dev)).home.parked = [] := by decide +kernel

/-- A record of tile 5 of slot 3, at row 8192 (region 2). -/
def jrec : JRec := {
  id := 0, part := 1, key := tkey 3 5, group := 0, row := 8192, col := 0, tile := tile42, time := 0, diff := none, full := false,
  txn := 0, after := none, cls := 1, started := false }

/-- A journal with as many records as its area holds, whatever that number is. -/
def fullJournal : State := { dev with pool := { dev.pool with
  journal := List.replicate (max (256 * journalMib dev 1) (Config.journalRecords (journalMib dev 1))) jrec } }

theorem test_meets_WaitingRequests_journal : journalFull threeWait 1 = false ∧ journalFull fullJournal 1 = true := by
  refine ⟨by decide +kernel, ?_⟩
  have hm : journalMib fullJournal 1 = journalMib dev 1 := rfl
  have hc : journalCount fullJournal 1 = max (256 * journalMib dev 1) (Config.journalRecords (journalMib dev 1)) := by
    simp [journalCount, fullJournal, show (jrec.part == 1) = true from rfl]
  simp only [journalFull, journalCap, hm, hc, Bool.and_eq_true, decide_eq_true_eq]
  omega

theorem test_meets_WaitingRequests_write : wrOp.op = 2 ∧ check1 wrOp dev = none ∧ extOf dev 3 = some extC ∧ domainDown dev extC = false ∧
    extC.state ≠ .arriving ∧ tilesOf wrOp = [5] ∧ isBusy dev 3 5 = false ∧ waitersBefore dev 10 3 5 = false ∧
    writeRecalls extC (dirOf (touched wrOp dev) 3 5) = [] ∧
    (match writeTiles 3 (touched wrOp dev).pool.nextRec (fullTiles (touched wrOp dev) extC (tilesOf wrOp)) ((tilesOf wrOp).zip wrOp.tiles)
      (touched wrOp dev) with | .done _ => true | _ => false) = true := by decide +kernel

/-! ## Revocation and map epochs -/

def force (hs : List Node) (st : Bool) : Force :=
  { id := 4, slot := 3, holders := hs, toFree := false, seq := 2, stopped := st, poisoned := [] }
def forceDev (f : Force) (e : Extent) (l : List Parked) : State :=
  { waitDev l with ext := { dev.ext with forces := [f], entries := [(3, e)] } }
def drainExt : Extent := { extC with state := .draining, holders := [{ host7 with hstate := .forced }, { host8 with hstate := .forced }] }

theorem test_meets_RevocationAndBackground_stop : (forceDev (force [7] false) extC []).ext.forces.find? (fun y => y.id == 4) = some (force [7] false) ∧
    (force [7] true).stopped = true ∧ (forceDev (force [7] false) extC []).queues.queues = [] ∧
    (forceDev (force [7] false) extC []).home.parked = [] ∧ admitted (waits 3 rdOp (.journal 1)) = true ∧
    (force [7] false).holders.contains rdOp.src = true ∧ oSlot rdOp.offset = (force [7] false).slot := by decide +kernel

theorem test_meets_RevocationAndBackground_quiescent :
    quiescent (forceDev (force [7, 8] false) drainExt []) (force [7, 8] false) drainExt = true ∧
    quiescent (forceDev (force [7] false) { extC with mode := .priv } [waits 3 rdOp (.journal 1)]) (force [7] false) { extC with mode := .priv } = false ∧
    drainExt.state = .draining ∧ (∀ h ∈ drainExt.holders, h.node ∈ (force [7, 8] false).holders) := by decide +kernel

def growOp : ExtentOp := .grow 3 [{ node := 8, caching := true, part := 1 }]
/-- A batch that waits; a request counts against the older epoch, or none does. -/
def batchDev (l : List Parked) : State := { waitDev l with
  ext := { dev.ext with mapEpoch := 2, older := some 1, entries := [(3, { extC with holders := [host7] })] },
  mgmt := { dev.mgmt with waiting := [.batch (fm 3) 0x31 [growOp]] } }
def counted : State := batchDev [waits 3 rdOp (.journal 1)]
def freeEpoch : State := { batchDev [] with ext := { (batchDev []).ext with older := none } }

/-- The first batch that waits is the one of `growOp`, and nothing else waits. -/
def waitsAlone (s : State) : Bool := match firstBatch s.mgmt.waiting with
  | some ((h, code, ops), r) => decide (h = fm 3) && decide (code = 0x31) && decide (ops = [growOp]) && r.isEmpty
  | none => false

theorem test_meets_RevocationAndBackground_batch : (firstBatch dev.mgmt.waiting).isNone = true ∧
    waitsAlone counted = true ∧ batchWaits [growOp] counted = true ∧ waitsAlone (forceRetire counted) = true ∧ batchWaits [growOp] (forceRetire counted) = false ∧
    [growOp].any (waitsForReset (forceRetire counted)) = false ∧ batchWaits [growOp] freeEpoch = false ∧
    [growOp].any (waitsForReset freeEpoch) = false ∧ waitsAlone freeEpoch = true := by decide +kernel

/-! ## Background work on extents -/

def extD : Extent := { extV with layers := [layer 1 .sealed, layer 2 .discarding] }
def lateWrite : Parked := waits 3 { wrOp with version := 2, offset := mkOffset 4 5 0 } (.journal 1)
/-- A version-2 head of tile 5, its copy a tile of zeros. -/
def headDev : State := { withExt 4 extD with vers := { dev.vers with heads := [(tkey 4 5, { backVersion := 2, copies := [{ til := 1, content := .zero }] })] } }

theorem test_meets_RevocationAndBackground_discard : extD.openV ≠ 0 ∧
    extD.layers.any (fun l => l.version == extD.openV && l.state == .discarding) = true ∧ drained (withExt 4 extD) 4 extD = true ∧
    openTiles (withExt 4 extD) 4 extD = [] ∧ openTiles headDev 4 extD = [tkey 4 5] ∧ (restoreTile 4 (tkey 4 5) headDev).isSome = true ∧
    drained { withExt 4 extD with home := { dev.home with parked := [lateWrite] } } 4 extD = false := by decide +kernel

def extS : Extent := { extW with layers := [] }
def extAr (k : Bool) : Extent := { extC with state := .arriving, fwdNode := 9, fwdSlot := 3, base := 6, known := k }

theorem test_meets_RevocationAndBackground_sweep : extOf (withExt 4 extS) 4 = some extS ∧ keySlot (tkey 4 5) = 4 ∧ extS.openV = 0 ∧
    deadCopies extS 0 [{ til := 1, content := .zero }] = [{ til := 1, content := .zero }] ∧ extOf dev 44 = none ∧
    extC.state ≠ .arriving ∧ extOf (withExt 8 (extAr true)) 8 = some (extAr true) ∧ nextPull (withExt 8 (extAr true)) 8 < 4194304 ∧
    thas (withExt 8 (extAr true)).ext.adopted 8 = false ∧ (extAr false).known = false := by decide +kernel

/-- An ARRIVING extent: tile 0 asked for by a class, or its answer held. -/
def askDev (asked : List (Nat × Nat)) (held : List (Nat × PullTile)) : State := { withExt 8 (extAr true) with
  ext := { (withExt 8 (extAr true)).ext with asked := asked, held := held } }
def tile0 : PullTile := {
  tile := 0, dstate := 0, owner := 0, ptrs := [], groups := none, poison := false, zero := true, backVersion := none, copies := [],
  data := none }

theorem test_meets_RevocationAndBackground_pull : (∀ s ∈ [askDev [] [], askDev [(tkey 8 0, 6)] [], askDev [(tkey 8 0, 1)] [], askDev [] [(8, tile0)]],
      extOf s 8 = some (extAr true) ∧ nextPull s 8 = 0 ∧ thas s.ext.adopted 8 = false) ∧
    tget (askDev [] []).ext.asked (tkey 8 0) = none ∧ tget (askDev [(tkey 8 0, 6)] []).ext.asked (tkey 8 0) = some 6 ∧
    tget (askDev [(tkey 8 0, 1)] []).ext.asked (tkey 8 0) = some 1 ∧
    (askDev [] [(8, tile0)]).ext.held.any (fun h => h.1 == 8 && h.2.tile == 0) = true ∧
    (askDev [] []).ext.held.any (fun h => h.1 == 8 && h.2.tile == 0) = false ∧
    thas ({ askDev [] [] with ext := { (askDev [] []).ext with adopted := [(8, ())] } } : State).ext.adopted 8 = true := by decide +kernel

theorem test_meets_RevocationAndBackground_retire : counted.ext.older = some 1 ∧ counted.home.busy = [] ∧
    counted.home.parked = [waits 3 rdOp (.journal 1)] ∧ admitted (waits 3 rdOp (.journal 1)) = true ∧ rdOp.mapEpoch = 1 ∧
    (batchDev []).home.parked = [] ∧ (batchDev []).ext.older = some 1 ∧ dev.home.busy = [] ∧ dev.ext.invals = [] ∧
    (∀ x ∈ dev.ext.entries, x.2.publishing = none) := by decide +kernel

theorem freeSinter_range (n a : Nat) : freeSinter ((List.range n).map (· + a)) a = n + a := by
  induction n generalizing a with
  | zero => simp [freeSinter]
  | succ n ih =>
    have h : (List.range (n + 1)).map (· + a) = a :: (List.range n).map (· + (a + 1)) := by
      rw [List.range_succ_eq_map]
      simp [Function.comp_def, Nat.add_assoc, Nat.add_comm 1 a]
    rw [h, freeSinter, if_pos rfl, ih]
    omega

/-- An ARRIVING extent whose first `n` tiles have been taken. -/
def pulledTo (n : Nat) : State := { withExt 8 (extAr true) with ext := { (withExt 8 (extAr true)).ext with
  pulled := (List.range n).map (fun i => (tkey 8 i, ())) } }

theorem nextPull_pulledTo {n : Nat} (hn : n ≤ 4194304) : nextPull (pulledTo n) 8 = n := by
  have hs : ∀ x ∈ (List.range n).map (fun i => (tkey 8 i, ())), (keySlot x.1 == 8) = true := by
    intro x hx
    obtain ⟨i, hi, rfl⟩ := List.mem_map.mp hx
    have := List.mem_range.mp hi
    simp only [keySlot, tkey, beq_iff_eq]
    omega
  have h : ((pulledTo n).ext.pulled.filter (fun x => keySlot x.1 == 8)).map (fun x => keyTile x.1) = (List.range n).map (· + 0) := by
    show (((List.range n).map (fun i => (tkey 8 i, ()))).filter _).map _ = _
    rw [List.filter_eq_self.mpr hs, List.map_map]
    apply List.map_congr_left
    intro i hi
    have := List.mem_range.mp hi
    simp only [Function.comp, keyTile, tkey]
    omega
  rw [nextPull, h, freeSinter_range, Nat.add_zero]

theorem test_meets_RevocationAndBackground_pulled : 4194304 ≤ nextPull (pulledTo 4194304) 8 ∧
    extOf (pulledTo 4194304) 8 = some (extAr true) :=
  ⟨Nat.le_of_eq (nextPull_pulledTo (Nat.le_refl _)).symm, rfl⟩

/-! ## The pool -/

def withGroup (f : Group → Group) : State := modGroup 0 f dev
def intentDev : State := { dev with pool := { dev.pool with intent := [(2, ()), (7, ())], journal := [jrec] } }
def ownDev : State := { dev with dir := { dev.dir with own := [(3 * 2 ^ 16, ()), (3 * 2 ^ 16 + 1, ())], entries := [(tkey 3 5, entry .m 0 (.ptrs []))] } }

theorem test_meets_PoolBackground_marks : (∃ r ∈ intentDev.pool.journal, r.group = 0 ∧ r.row / 4096 = 2) ∧
    (∀ r ∈ intentDev.pool.journal, r.group = 0 → r.row / 4096 ≠ 7) ∧
    ownDev.dir.entries.any (fun x => keySlot x.1 == 3 && keyTile x.1 / 64 == 0 && (x.2.state == .m || x.2.state == .o)) = true ∧
    ownDev.dir.entries.any (fun x => keySlot x.1 == 3 && keyTile x.1 / 64 == 1 && (x.2.state == .m || x.2.state == .o)) = false := by
  decide +kernel

theorem test_meets_PoolBackground_lost : groupOf dev 0 = some group0 ∧ group0.modules.findIdx? (· == 0x105) = some 5 ∧ 5 < widthOf group0 ∧
    dev.pool.reqs = [] ∧ ({ dev with pool := PoolSt.reset } : State).pool.groups = [] := by decide +kernel

def rebuilding (lost : BitVec 18) (cursor : Nat) : Group :=
  { group0 with state := .rebuilding, lost := lost, replaced := [1], rebuildPos := 1, cursor := cursor }

theorem test_meets_PoolBackground_rebuild : group0.pass = none ∧ group0.state ≠ .rebuilding ∧
    (solveCol (withGroup (fun _ => rebuilding 2 77)) 0 (rebuilding 2 77) 77 (colAt (rebuilding 2 77) 77 1)).isSome = true ∧
    solveCol (withGroup (fun _ => rebuilding 14 77)) 0 (rebuilding 14 77) 77 (colAt (rebuilding 14 77) 77 1) = none ∧
    groupOf (withGroup (fun _ => rebuilding 2 77)) 0 = some (rebuilding 2 77) ∧ dev.boot.fenced = false ∧
    (withGroup (fun _ => rebuilding 2 77)).boot.fenced = false ∧
    (withGroup (fun g => { g with pass := some 5, passPos := [1], lost := 2 })).boot.fenced = false ∧
    (groupOf (withGroup (fun g => { g with pass := some 5, passPos := [1], lost := 2 })) 0).map (·.pass) = some (some 5) := by decide +kernel

theorem test_meets_PoolBackground_patrol : 5 < rowsOf group0 ∧ group0.up = true ∧ rowsOf group0 = 4096 * 4194304 ∧ 1 ≤ group0.k ∧
    (∀ pos < 6, isMissing dev 0 group0 5 pos = false ∧ tileOk (storedUnit dev (modAt group0 pos) 5) = true) ∧ widthOf group0 = 6 ∧
    (match wholeRow dev 0 group0 5 with
      | some ds => (List.range 2).all (fun j => decide (storedUnit dev (modAt group0 (posOf group0 5 (4 + j))) 5 = mkTile (foldCols j ds)))
      | none => false) = true ∧
    dev.boot.fenced = false ∧ thas dev.pool.resync 2 = false ∧ thas { dev.pool with resync := [(2, ())] }.resync (0 * 2 ^ 40 + 2) = true := by decide +kernel

/-- A group of a data unit and its mirror; with the mirror not what the data gives; with the data unit failing its check. -/
def oneAndMirror : Group := { group0 with modules := modules.take 2, k := 1, m := 1 }
def mirrorOff : State := setUnit 0x101 0 tile42 (withGroup (fun _ => oneAndMirror))
def mirrorLost : Group := { oneAndMirror with lost := 2, state := .degraded }
def mirrorBad : State := setUnit 0x100 0 { data := 0, crc := 0 } (withGroup (fun _ => mirrorLost))

theorem test_meets_PoolBackground_mirror :
    (wholeRow mirrorOff 0 oneAndMirror 0).map (fun ds => mkTile (foldCols 0 (ds.take 1))) = some zeroTile ∧ oneAndMirror.m = 1 ∧
    isMissing mirrorOff 0 oneAndMirror 0 (posOf oneAndMirror 0 1) = false ∧ storedUnit mirrorOff (modAt oneAndMirror (posOf oneAndMirror 0 1)) 0 ≠ zeroTile ∧
    wholeRow mirrorBad 0 mirrorLost 0 = none := by decide +kernel

/-! ## Commands -/

/-- An address of this device, and a descriptor from its engine, opcode and fields. -/
def addr (slot tile : Nat) : Nat := 2 * 2 ^ 48 + slot * 2 ^ 30 + tile * 2 ^ 8
def desc (e op : Nat) (l : List (Nat × Nat)) : BitVec 512 :=
  BitVec.ofNat 512 (l.foldl (fun n x => n + x.2 * 2 ^ x.1) (op * 2 ^ 32 + e * 2 ^ 28))

def dRows : BitVec 512 := desc 2 1 [(448, addr 3 0), (384, addr 3 100), (320, addr 6 0), (290, 64), (266, 64), (235, 2), (225, 8), (215, 8),
  (207, 1), (199, 1)]
def dKv : BitVec 512 := desc 2 2 [(448, addr 3 0), (384, addr 6 0), (360, 16), (349, 4)]
def dDispatch (op : Nat) : BitVec 512 := desc 2 op [(448, addr 3 0), (384, addr 3 100), (320, addr 6 0), (296, 64), (272, 4), (267, 2),
  (260, 2), (250, 8), (240, 8), (232, 1), (224, 1)]
def dScan : BitVec 512 := desc 3 1 [(448, addr 3 0), (384, addr 3 100), (320, addr 6 0), (256, 0xFFFF * 2 ^ 48), (224, 100), (221, 1)]
def dTopk : BitVec 512 := desc 3 2 [(448, addr 3 0), (384, 0xFFFF * 2 ^ 48), (320, addr 6 0), (256, 0xFFFF * 2 ^ 48), (228, 100), (208, 2),
  (195, 5)]
def dScore : BitVec 512 := desc 3 3 [(448, addr 3 0), (384, addr 3 100), (320, addr 6 0), (264, 16), (254, 8), (243, 1), (235, 1)]
def dAttend : BitVec 512 := desc 3 4 [(448, addr 3 0), (384, addr 3 100), (320, addr 6 0), (264, 16), (254, 8), (243, 1), (235, 1), (223, 8)]
def dCopy : BitVec 512 := desc 4 1 [(448, addr 3 0), (384, addr 6 0), (288, 300)]
def dFill : BitVec 512 := desc 4 2 [(384, addr 6 0), (288, 300)]
def dConvert : BitVec 512 := desc 4 3 [(448, addr 3 0), (384, addr 6 0), (288, 8192), (270, 1)]
def dPublish : BitVec 512 := desc 4 4 [(448, addr 3 0), (384, addr 4 0), (360, 300), (359, 1), (64, 2)]
def dRebuild : BitVec 512 := desc 4 5 [(472, 5), (432, 4096)]
def dApply : BitVec 512 := desc 5 1 [(360, 2), (336, 2), (312, 1)]
def dReduce (op : Nat) (l : List (Nat × Nat)) : BitVec 512 := desc 1 op ([(464, 1), (432, 2)] ++ l)
def dRun : BitVec 512 := dReduce 1 [(368, addr 6 0)]
def dFrom : BitVec 512 := dReduce 2 [(368, addr 6 0), (215, 1)]
def dAbort : BitVec 512 := dReduce 3 []

def groupR : CGroup := {
  e := {
    collId := 1, generation := 2, parentNode := 0, parentPort := 0, chunks := 4, members := 2, source := 0, fanIn := 2, window := 2,
    inFspec := 0, outFspec := 0, genTimeout := 1, kind := 0, op := 0, role := 0, partition := 1 },
  children := [{ type := 0, port := 0, node := 7, memberLo := 0, memberHi := 0 }, { type := 2, port := 0, node := 0, memberLo := 1, memberHi := 1 }],
  running := false, chunks := [], committed := [], run := none, froms := [], results := [], childListAddr := 0 }

/-- Queue 16 of an engine with one descriptor to read; a group registered, a kernel loaded, a stripe group that rebuilds. -/
def descDev (e : Nat) (d : BitVec 512) : State := { dev with
  queues := { dev.queues with queues := [(16, { queue e [] with head := 0, ring := [(0, d)] })] },
  groups := [(1, groupR)],
  cores := { dev.cores with kernels := [(64, { current := some (image 8 0), retiring := [] })] },
  pool := { dev.pool with groups := [(0, rebuilding 2 0)] } }

/-- The descriptor is the next of its queue, is encoded as it says, and passes the checks of R159. -/
def readable (e op : Nat) (d : BitVec 512) : Bool :=
  let s := descDev e d
  match queueOf s 16 with
  | none => false
  | some q => decide (nextDesc s q = some d) && decide (q.engine = e) && decide (dEngine d = e) && decide (dOpcode d = op) && encodingOk d &&
      decide (checkCmd (bump 4 (5 * q.part + q.engine - 1) 8 1 (readSlot 16 q.head s)) q d = none)

theorem test_meets_CommandsAndRecords : readable 2 1 dRows = true ∧ readable 2 2 dKv = true ∧ readable 2 3 (dDispatch 3) = true ∧
    readable 2 4 (dDispatch 4) = true ∧ readable 3 1 dScan = true ∧ readable 3 2 dTopk = true ∧ readable 3 3 dScore = true ∧
    readable 3 4 dAttend = true ∧ readable 4 1 dCopy = true ∧ readable 4 2 dFill = true ∧ readable 4 3 dConvert = true ∧
    readable 4 4 dPublish = true ∧ readable 4 5 dRebuild = true ∧ readable 5 1 dApply = true := by decide +kernel

theorem test_meets_CommandsAndRecords_reduce : readable 1 1 dRun = true ∧ readable 1 2 dFrom = true ∧ readable 1 3 dAbort = true := by
  decide +kernel

/-- SCAN with RSIZE reserved, whose effect the manual leaves open. -/
def dWild : BitVec 512 := dScan ||| BitVec.ofNat 512 (6 * 2 ^ 221)

theorem test_meets_CommandsAndRecords_wild : (queueOf (descDev 3 dWild) 16).map (fun q => decide (nextDesc (descDev 3 dWild) q = some dWild) &&
    decide (dEngine dWild = 3) && decide (dOpcode dWild = 1) && !encodingOk dWild &&
    decide (checkCmd (bump 4 (5 * q.part + q.engine - 1) 8 1 (readSlot 16 q.head (descDev 3 dWild))) q dWild = none)) = some true := by
  decide +kernel

def drainCopy : State := setExt 6 { extP with state := .draining } (descDev 4 dCopy)

theorem test_meets_CommandsAndRecords_refused : (queueOf drainCopy 16).map (fun q => (checkCmd drainCopy q dCopy).isSome) = some true ∧
    opcodeOk 4 (dOpcode (desc 4 9 [])) = false ∧ dEngine dCopy ≠ 1 ∧ itemsOf (descDev 4 dCopy) dCopy ≠ 0 ∧
    (descDev 4 dCopy).obs.sampling = [] ∧ dHaltOnError (dCopy ||| 1 <<< 27) = true ∧ (queue 4 []).state = .active ∧
    (queue 4 []).head = (queue 4 []).tail := by decide +kernel

/-! ## Items -/

def itemDev (e : Nat) (c : Cmd) : State :=
  { dev with queues := { dev.queues with queues := [(16, { queue e [c] with head := 1 })] } }
def applyCmd : Cmd := { cmd (desc 5 1 [(360, 2), (336, 1), (312, 1)]) 2 (some (image 8 0)) with next := 0 }
def copyCmd : Cmd := { cmd dCopy 2 none with reads := [3], writes := [6], next := 0 }
def pick (s : State) : Option (Nat × Nat × Nat × Option St) := match pickItem s 1 with
  | some (qn, q, c, i, core, _) => some (qn, i, core, recheck s q c)
  | none => none

theorem test_meets_Items_dispatch : partState (itemDev 5 applyCmd) 1 = .active ∧ (itemDev 5 applyCmd).phys.hold = false ∧
    (foldWaiting (itemDev 5 applyCmd) 1).isNone = true ∧ pick (itemDev 5 applyCmd) = some (16, 0, 0, none) ∧
    rebuildLost (itemDev 5 applyCmd) applyCmd = false ∧ partState (itemDev 5 applyCmd) 2 ≠ .active ∧
    pick (itemDev 5 { applyCmd with next := 2 }) = none ∧ (itemDev 5 applyCmd).obs.sampling = [] ∧
    copyCmd.image = none ∧ (coreOf (itemDev 4 copyCmd) 0).isSome = true := by decide +kernel

theorem test_meets_Items_recheck : (queueOf (setExt 3 { extC with state := .draining } (itemDev 4 copyCmd)) 16).map
    (fun q => (recheck (setExt 3 { extC with state := .draining } (itemDev 4 copyCmd)) q copyCmd).isSome) = some true := by decide +kernel

/-- A REBUILD whose group has been broken since; an image gives it sizes that compute. -/
def rebuildCmd : Cmd := { cmd dRebuild 2 (some (image 8 0)) with next := 0 }
def brokenDev : State := { itemDev 4 rebuildCmd with pool := { dev.pool with groups := [(0, { rebuilding 2 0 with broken := true })] } }

theorem test_meets_Items_broken : (pickItem brokenDev 1).map (fun p => rebuildLost brokenDev p.2.2.1) = some true ∧
    partState brokenDev 1 = .active ∧ brokenDev.phys.hold = false ∧ (foldWaiting brokenDev 1).isNone = true := by decide +kernel

/-- Context 0 with an item of an engine's command, and how the item's work ends: 0 done, 1 failed, 2 waits. -/
def vendorCtx (e : Nat) : Ctx := freshCtx { item0 with engine := e } 0 0 [] 0 0 1
def vendorDev (e : Nat) (c : Cmd) : State := { dev with
  queues := { dev.queues with queues := [(16, { queue e [{ c with runs := [{ item := 0, x := x0, epoch := 1, replay := 0 }] }] with head := 1 })] },
  cores := { dev.cores with cores := [(0, { core0 with ctxs := [(0, vendorCtx e)] })] } }
def copy2 (src : Nat) : Cmd := { cmd (desc 4 1 [(448, src), (384, addr 6 0), (288, 2)]) 1 none with reads := [3], writes := [6], next := 1 }
def ends (ans : List RemoteAnswer) (s : State) : Option Nat :=
  match ctxOf s x0 with
  | none => none
  | some k => match cmdOfItem s k.item with
    | none => none
    | some (q, c) => match (runIo (itemWork (actorOf s x0 k.item q c) c k.item.index) ans s).1 with
      | .ok _ => some 0
      | .error (.fail _ _) => some 1
      | .error .wait => some 2

theorem test_meets_Items_complete : (vendorCtx 4).item.coll = none ∧ ends [] (vendorDev 4 (copy2 (addr 3 0))) = some 0 ∧
    ends [] { vendorDev 4 (copy2 (addr 3 0)) with dir := { dev.dir with poison := [(tkey 3 1, ())] } } = some 1 ∧
    ends [] { vendorDev 4 (copy2 (addr 3 0)) with dir := { dev.dir with entries := [(tkey 3 1, entry .m 0 (.ptrs []))] } } = some 2 ∧
    (ctxOf (vendorDev 5 (copy2 (addr 3 0))) x0).map (fun k => k.item.engine) = some 5 ∧
    (ctxOf (vendorDev 1 (copy2 (addr 3 0))) x0).map (fun k => k.item.engine) = some 1 := by decide +kernel

def sealCmd : Cmd := { cmd dPublish 3 none with reads := [3], writes := [4], done := 2, next := 2 }

theorem test_meets_Items_seal : hasSeal sealCmd = true ∧ sealCmd.sealing = false ∧ sealCmd.runs = [] ∧ sealCmd.again = [] ∧
    sealCmd.done + sealCmd.failed + 1 = sealCmd.n ∧ ({ sealCmd with done := 1 } : Cmd).done + sealCmd.failed + 1 ≠ sealCmd.n ∧
    0 < ({ sealCmd with done := 1, failed := 1 } : Cmd).failed ∧
    (queueOf (itemDev 4 sealCmd) 16).map (fun q => recheck (itemDev 4 sealCmd) q sealCmd) = some none ∧
    (match placeOf (itemDev 4 sealCmd) (pubArgs sealCmd.desc).dest with | .here sl e => decide (sl = 4 ∧ e = extV) | _ => false) = true ∧
    (holderOf extV 7).isSome = true ∧ leaseHolder extV 1 = true ∧ dWriteV sealCmd.desc = extV.openV ∧ layerOpen extV = true ∧
    dWriteV (desc 4 4 [(448, addr 3 0), (384, addr 4 0), (360, 300), (359, 1), (64, 1)]) ≠ extV.openV := by decide +kernel

/-! ## Chunks -/

def contribution (i : Nat) : Contribution := { child := i, elems := List.replicate 1024 5, owed := none }
def chunkDev (f : CGroup → CGroup) (l : List Contribution) : State :=
  { dev with groups := [(1, f { groupR with running := true, chunks := [{ chunk := 0, held := l, x := some x0, faults := 0 }] })] }
def full (s : State) : Option (Bool × Nat) := match cgOf s 1 with
  | none => none
  | some g => (chunkOf g 0).map (fun c => (chunkFull g c && c.x.isSome, g.e.role))
def interior (g : CGroup) : CGroup := { g with e := { g.e with role := 1, parentNode := 9 } }

theorem test_meets_ChunksCommit : full (chunkDev id [contribution 0, contribution 1]) = some (true, 0) ∧
    full (chunkDev interior [contribution 0, contribution 1]) = some (true, 1) ∧ full (chunkDev id [contribution 0]) = some (false, 0) ∧
    groupR.e.genTimeout ≠ 0 ∧ groupR.running = false ∧ (cgOf (chunkDev id []) 1).map (·.running) = some true := by decide +kernel

theorem test_meets_ChunksCommit_held :
    (((cgOf (chunkDev interior [{ contribution 0 with owed := some (0, blankTx dev) }]) 1).bind (chunkOf · 0)).map
      (fun c => c.x.isSome && c.held.any (fun h => h.child == 0 && h.owed.isSome))) = some true ∧
    (∀ s ∈ [failHeld 1 0 0 (chunkDev interior [{ contribution 0 with owed := some (0, blankTx dev) }])],
      s.groups.length = 1 ∧ (cgOf s 1).map (·.running) = some false) := by decide +kernel

/-- A RUN command in queue 16, and its group, whose chunk 0 has a context. -/
def runCmd : Cmd := { cmd dRun 4 none with writes := [6], next := 0 }
def red0 : RedCmd := { queue := 16, cmdSeq := 0, member := 0, desc := dRun }
def meetDev (img : Extent) : State := setExt 6 img { chunkDev (fun g => { g with run := some red0 }) [] with
  queues := (itemDev 1 runCmd).queues }

theorem test_meets_ChunksCommit_run : (∀ s ∈ [meetDev extP, meetDev { extP with state := .draining }],
      ((cgOf s 1).bind (·.run)).map (fun r => (r.queue, r.cmdSeq)) = some (16, 0) ∧
      (cgOf s 1).bind (fun g => (chunkOf g 0).bind (·.x)) = some x0 ∧
      (redCmd s red0).map (fun p => decide (p.1.state ≠ .disabled) && !p.2.runs.any (fun y => y.item == 0) &&
        !p.2.fails.any (fun f => f.item == 0) && inOrder p.1 p.2 && !heldByPublish s p.1 p.2 && !overLimit p.1 p.2) = some true) ∧
    (redCmd (meetDev extP) red0).map (fun p => recheck (meetDev extP) p.1 p.2) = some none ∧
    (redCmd (meetDev { extP with state := .draining }) red0).map
      (fun p => (recheck (meetDev { extP with state := .draining }) p.1 p.2).isSome) = some true ∧ groupR.run = none := by decide +kernel

/-! ## Code and cores -/

def fetchDev : State :=
  let s := alone { ctx0 with wait := some .code }
  { s with cores := { s.cores with kernels := [(64, { current := some (image 8 0), retiring := [] })] } }
def recoveringDev : State := modCore 0 (fun k => { k with recovering := true }) dev
/-- Spare physical cores 33 and 35 of strip 0. -/
def spares (s : State) : State := { s with cores := { s.cores with phys := s.cores.phys ++ [33, 35].map (fun n =>
  (n, { working := true, retired := false, faultBands := 0, quarantine := 0 })) } }

theorem test_meets_CodeAndCores : (coreOf fetchDev 0).map (·.ctxs) = some [(0, { ctx0 with wait := some .code })] ∧
    waitsFor fetchDev 1 0 { ctx0 with wait := some .code } = true ∧ waitsFor fetchDev 1 5 { ctx0 with wait := some .code } = false ∧
    logicalOf dev 0 = some (0, core0) ∧ logicalOf recoveringDev 0 = some (0, { core0 with recovering := true }) ∧
    tget dev.cores.phys 0 = some { working := true, retired := false, faultBands := 0, quarantine := 0 } ∧ core0.ctxs = [] ∧
    coreOf dev 0 = some core0 ∧
    sparesOf (modPhys 0 (fun x => { x with retired := true }) (spares dev)) (physStrip 0) = [33, 35] ∧
    sparesOf (modPhys 0 (fun x => { x with retired := true }) dev) (physStrip 0) = [] := by decide +kernel

end Sys2Proof.Tests
end

