-- ==== Sys2Proof/Tests/Device.lean ====
section
/-! SUPPORT. Management requests, sessions, events, observation and the whole block: states and operands that meet the
hypotheses of their statements (chapters 2, 14, 15 and 18), one theorem for each set that go together. -/

namespace Sys2Proof.Tests

set_option Elab.async false

open Sys2Proof Sys2Proof.Machine

/-! ## Requests -/

def answered7 : Reply := { sess := 0, reqId := 7, code := 0x39, status := .ok, evSeq := 0, body := [] }
def answeredDev : State := { dev with mgmt := { dev.mgmt with sessions := [(0, { session .fm 5 with log := [answered7] })] } }

theorem test_meets_RequestsAdmitted : tget dev.mgmt.sessions 0 = some (session .fm 5) ∧ tget dev.mgmt.sessions 1 = some (session (.supervisor 1) 99) ∧
    (tget answeredDev.mgmt.sessions 0).bind (fun k => k.log.find? (fun y => y.reqId == (fm 7).reqId)) = some answered7 ∧
    (session .fm 5).log = [] ∧ dev.mgmt.waiting = [] ∧ codeDefined 0x55 = false ∧ codeDefined 0x39 = true ∧ svCode 0x39 = false ∧
    dev.boot.fenced = false ∧ dev.boot.phase = .ready ∧ ({ fm 7 with lenOk := false } : Mgmt).lenOk = false := by decide +kernel

/-! ## Extents -/

def waitingBatch : State := { dev with mgmt := { dev.mgmt with waiting := [.batch (fm 9) 0x3A [.readExtent 3]] } }
def hosts (n : Nat) : List HolderSpec := (List.range n).map (fun i => { node := BitVec.ofNat 16 (7 + i), caching := false, part := 1 })

theorem test_meets_ExtentRequests : mustWait [.attach 10 1 1 0 10 []] dev = false ∧ mustWait [.readExtent 3] dev = false ∧
    mustWait [.setRecallTimeout 5, .grantLease 4 1] dev = false ∧ mustWait [.readExtent 3] waitingBatch = true := by decide +kernel

theorem test_meets_ExtentRequests_requests : Requests (fm 3) dev .fm ∧ Requests (fm 3) waitingBatch .fm :=
  ⟨asks_fm, requests_of (by decide +kernel)⟩

theorem test_meets_ExtentOperations_attach : extOf dev 10 = none ∧ modeGranted dev 1 (modeOf 2) = true ∧ grantedBase dev 1 0 10 = true ∧
    holdersBad dev 1 (modeOf 2) [] (hosts 1) = none ∧ backingUsed dev 0 10 = false ∧ groupUp dev 0 = true ∧ extOf dev 3 ≠ none := by
  decide +kernel

def migrating : Extent := { extR with state := .migrating }
def draining : Extent := { extR with state := .draining }
/-- extP with nobody on it. -/
def nobody : Extent := { extP with holders := [] }
def leasable : Extent := { extV with leaseValid := false }

theorem test_meets_ExtentOperations_states : extOf dev 3 = some extC ∧ live extC = true ∧ holdersBad dev 1 .coherent extC.holders
      [{ node := 9, caching := false, part := 1 }] = none ∧
    namedOk extC [7] = true ∧ extC.state = .active ∧ nobody.state = .active ∧ nobody.holders = [] ∧ nobody.leaseValid = false ∧
    extOf (withExt 6 nobody) 6 = some nobody ∧ extC.holders ≠ [] ∧ migrating.state = .migrating ∧
    extOf (withExt 5 migrating) 5 = some migrating ∧ draining.state ≠ .active ∧ grants dev 1 leasable.owner (·.lease) = true ∧
    extOf (withExt 4 leasable) 4 = some leasable ∧ leasable.mode = .versioned ∧ live leasable = true ∧ leasable.leaseValid = false ∧
    layerOpen leasable = true ∧ leasable.publishing = none ∧ extV.leaseValid = true := by decide +kernel

/-- A MIGRATING extent of which `n` tiles have been handed over. -/
def handedTo (n : Nat) : State := { withExt 5 migrating with ext := { (withExt 5 migrating).ext with
  handed := (List.range n).map (fun i => (tkey 5 i, tile0)) } }

theorem handed_length {n : Nat} (hn : n ≤ 4194304) : ((handedTo n).ext.handed.filter (fun x => keySlot x.1 == 5)).length = n := by
  have hs : ∀ x ∈ (List.range n).map (fun i => (tkey 5 i, tile0)), (keySlot x.1 == 5) = true := by
    intro x hx
    obtain ⟨i, hi, rfl⟩ := List.mem_map.mp hx
    have := List.mem_range.mp hi
    simp only [keySlot, tkey, beq_iff_eq]
    omega
  have h : (handedTo n).ext.handed.filter (fun x => keySlot x.1 == 5) = (List.range n).map (fun i => (tkey 5 i, tile0)) :=
    List.filter_eq_self.mpr hs
  rw [h, List.length_map, List.length_range]

theorem allHanded_handedTo : allHanded (handedTo 4194304) 5 = true :=
  decide_eq_true (Nat.le_of_eq (handed_length (Nat.le_refl _)).symm)

theorem test_meets_ExtentOperations_handed : extOf (handedTo 4194304) 5 = some migrating ∧ allHanded (handedTo 4194304) 5 = true ∧
    allHanded dev 5 = false := ⟨rfl, allHanded_handedTo, by decide +kernel⟩

theorem test_meets_ExtentOperations_rehome : (9 : Node) ≠ myNode dev ∧ dev.boot.takenOver.any (fun x => x.1 == (9 : Node)) = false ∧
    dev.boot.charter = some charter ∧ charter.device.recallMin ≤ 5 ∧ 5 ≤ charter.device.recallMax ∧ 0 < charter.device.recallMin := by
  decide +kernel

/-! ## Partitions -/

/-- Partition 2 may be composed of what is idle. -/
def composing : State := { dev with
  boot := { dev.boot with charter := some { charter with parts := (List.range 16).map (fun i =>
    if i = 1 then partCfg (some template) [(0, hostCfg)] else if i = 2 then partCfg (some { template with partition := 2, mirrorB := 1 }) []
    else partCfg none []) } },
  cores := { dev.cores with cores := [(0, core0), (1, { core0 with part := none, phys := some 1 })] } }
def new2 : Resources := { cores := [1], channels := [1, 65], ports := [], shares := [] }
def scrubbing1 : State := modCore 1 (fun k => { k with scrubbing := true }) composing

theorem test_meets_PartitionRequests_compose : okCfg (composeCheck composing 2 new2) = true ∧ scrubs composing new2 = false ∧
    okCfg (composeCheck scrubbing1 2 new2) = true ∧ scrubs scrubbing1 new2 = true ∧ okCfg (composeCheck composing 3 new2) = false ∧
    okCfg (growCheck composing 1 oneMore) = true ∧ scrubs composing oneMore = false ∧ okCfg (growCheck scrubbing1 1 oneMore) = true ∧
    scrubs scrubbing1 oneMore = true ∧ okCfg (growCheck composing 2 oneMore) = false := by decide +kernel

theorem test_meets_PartitionRequests_requests : Requests (fm 3) composing .fm ∧ Requests (fm 3) scrubbing1 .fm :=
  ⟨requests_of (by decide +kernel), requests_of (by decide +kernel)⟩

/-- Partition 1 holds channel 3, on which nothing lies, and a second core. -/
def shrinkable : State := { third with cores := { third.cores with cores := [(0, core0), (1, core0)] } }
def shrinkable1 : State := modPart 1 (fun p => { p with cores := [0, 1] }) shrinkable
def less : Resources := { cores := [1], channels := [3], ports := [0], shares := [] }

theorem test_meets_PartitionRequests : shrinkOk shrinkable1 1 less = true ∧ shrinkOk shrinkable1 1 { less with cores := [0, 1] } = false ∧
    partState dev 1 = .active ∧ partState dev 2 ≠ .active ∧ dissolveOk bare 1 = true ∧ dissolveOk dev 1 = false := by decide +kernel

theorem test_meets_PartitionRequests_more : Requests (fm 3) shrinkable1 .fm ∧ Requests (fm 3) bare .fm :=
  ⟨requests_of (by decide +kernel), requests_of (by decide +kernel)⟩

/-! ## Queues and kernels -/

def withQueue (q : Queue) : State := { dev with queues := { dev.queues with queues := [(16, q)] } }
def emptyQueue : Queue := { queue 4 [] with head := 0 }

theorem test_meets_QueueAndKernelRequests_queues : queueAssigned dev 1 17 = true ∧ foreignHost dev 1 7 = false ∧ queueOf dev 17 = none ∧
    depthOk 64 = true ∧ hasFw dev 1 4 = true ∧ queueAssigned dev 1 15 = false ∧ depthOk 65 = false ∧
    queueOf (withQueue emptyQueue) 16 = some emptyQueue ∧ emptyQueue.part = (sv 3).part ∧ emptyQueue.written = emptyQueue.head ∧
    emptyQueue.cmds = [] ∧ ({ emptyQueue with part := 2 } : Queue).part ≠ (sv 3).part ∧
    ({ emptyQueue with head := 1 } : Queue).written ≠ 1 ∧ queueOf dev 16 = none ∧ queueAssigned dev 1 16 = true := by decide +kernel

def kernel0 : KernelImage := { image 1 0 with codeInstrs := 1, code := [0], length := 104 }
def kernel1 : KernelImage := { kernel0 with digest := sha256 (imageBytes kernel0) }
def loaded : State := setKernel 1 3 { current := some kernel1, retiring := [] } dev
def onlySigned : State := { dev with boot := { dev.boot with
  charter := some { charter with keys := { charter.keys with signedKernels := true } } } }

theorem test_meets_QueueAndKernelRequests_kernels : imageForm kernel0 = true ∧ imageTrusted dev kernel0 = true ∧
    kernelUse (freeImages 1 dev) 1 + kernel0.length ≤ kernelArea dev 1 ∧ imageForm { kernel0 with entry := 1 } = false ∧
    imageTrusted onlySigned kernel0 = false ∧ ¬ kernelUse (freeImages 2 dev) 2 + kernel0.length ≤ kernelArea dev 2 ∧
    (kernelOf loaded 1 3).current.isSome = true ∧ (kernelOf dev 1 3).current.isSome = false := by decide +kernel

/-- A digest does not cover itself. -/
theorem imageBytes_digest (k : KernelImage) (d : BitVec 256) : imageBytes { k with digest := d } = imageBytes k := rfl

theorem test_meets_QueueAndKernelRequests_digest : kernel1.digest = sha256 (imageBytes kernel1) := by
  have h : ∀ k : KernelImage, ({ k with digest := sha256 (imageBytes k) } : KernelImage).digest =
      sha256 (imageBytes { k with digest := sha256 (imageBytes k) }) := fun k => congrArg sha256 (imageBytes_digest k _).symm
  exact h kernel0

theorem test_meets_QueueAndKernelRequests_torn : kernel0.digest ≠ sha256 (imageBytes kernel0) := by decide +kernel

theorem test_meets_QueueAndKernelRequests : Requests (sv 3) (withQueue emptyQueue) (.supervisor 1) ∧ Requests (sv 3) loaded (.supervisor 1) ∧
    MaySend (sv 3) (.supervisor 1) ∧ Requests (fm 3) onlySigned .fm :=
  ⟨requests_of (by decide +kernel), requests_of (by decide +kernel), sends_sv, requests_of (by decide +kernel)⟩

/-! ## Routes and registries -/

def degradedGroup : Group := { group0 with lost := 2, state := .degraded }
def groupDev (g : Group) : State := { dev with pool := { dev.pool with groups := [(0, g)] } }
def cgroup (running : Bool) : CGroup := {
  e := {
    collId := 1, generation := 2, parentNode := 0, parentPort := 0, chunks := 4, members := 2, source := 0, fanIn := 2, window := 2,
    inFspec := 0, outFspec := 0, genTimeout := 1, kind := 0, op := 0, role := 0, partition := 1 },
  children := [{ type := 0, port := 0, node := 7, memberLo := 0, memberHi := 0 }, { type := 2, port := 255, node := 2, memberLo := 1, memberHi := 1 }],
  running := running, chunks := [], committed := [], run := none, froms := [], results := [], childListAddr := 0 }
def registered (running : Bool) : State := { dev with groups := [(1, cgroup running)] }

theorem test_meets_RoutesAndRegistries : groupOf (groupDev degradedGroup) 0 = some degradedGroup ∧ (replaceAt degradedGroup 1 0x110).isSome = true ∧
    replaceAt degradedGroup 0 0x110 = none ∧ groupOf dev 3 = none ∧ (registerGroup (cgroup false).e (cgroup false).children dev).1 = .ok ∧
    (registerGroup (cgroup false).e (cgroup false).children (registered false)).1 = .state ∧ (releaseGroup 1 (registered false)).1 = .ok ∧
    (releaseGroup 1 (registered true)).1 = .state ∧ (cgOf (registered false) 1).isSome = true ∧ cgOf dev 1 = none ∧
    routeIn (route 2) = true ∧ routeIn { route 2 with kind := 3 } = false ∧ portRole dev 2 ≠ .unused ∧ canonPort dev 2 = 2 ∧ portRole dev 9 = .unused := by
  decide +kernel

def routesOk (s : State) (n : Node) (r : Route) : Bool := (List.range 4).all (fun k => !r.valid.getLsbD k || routePortOk s n (r.ports.getD k 255))

theorem test_meets_RoutesAndRegistries_routes : routesOk dev 9 (route 2) = true ∧ routesOk dev 7 (route 0) = true ∧
    routesOk dev 9 (route 0) = false ∧ (9 : Node) ≠ noNode ∧ routesOk dev noNode (route 2) = true := by decide +kernel

theorem test_meets_RoutesAndRegistries_requests : Requests (fm 3) dev .fm ∧ Requests (fm 3) (groupDev degradedGroup) .fm ∧
    Requests (fm 3) (registered false) .fm ∧ Requests (fm 3) (registered true) .fm :=
  ⟨asks_fm, requests_of (by decide +kernel), requests_of (by decide +kernel), requests_of (by decide +kernel)⟩

/-! ## Observation -/

def control (event : Nat) : Control := {
  event := event, master := 7, masterKind := 1, slotLo := 0, slotHi := 7, addrEn := true, classes := 255, priv := 15, part := 1, partEn := true,
  enable := true }
def traceCfg (l : List Nat) : TraceCfg := { types := l, cellLanes := [], cellClasses := 0, cellLog2 := 0, snapLog2 := 0, rateGbps := 10 }
def sinkOf (l : List (Word32 × FumRec)) : Sink := { cfg := traceCfg [4], fseq := 1, buffer := l, bytes := 0, losses := 0, taken := [] }
def sinkDev (n : Nat) (k : Sink) : State := { dev with mgmt := { dev.mgmt with
  sessions := (List.range n).map (fun i => (i + 2, { session .fm 5 with sink := some k })) ++ dev.mgmt.sessions } }

theorem test_meets_ObservationRequests : programOk 0 0 3 0 (control 4) = true ∧ programOk 0 0 3 0 (control 9) = false ∧
    scopeOk [(0, 0, 3)] = true ∧ scopeOk [(7, 0, 3)] = false ∧ traceOk (traceCfg [1, 4]) = true ∧ sinkCount dev < 2 ∧
    traceOk (traceCfg [7]) = false ∧ ¬ sinkCount (sinkDev 2 (sinkOf [])) < 2 ∧ dataUp dev = true ∧
    dataUp State.reset = false ∧ dev.phys.pwrgd = true := by decide +kernel

theorem test_meets_ObservationRequests_requests : Requests (fm 3) dev .fm ∧ Requests (sv 3) dev (.supervisor 1) ∧
    Requests (fm 3) (sinkDev 2 (sinkOf [])) .fm :=
  ⟨asks_fm, asks_sv, requests_of (by decide +kernel)⟩

/-! ## Sessions and events -/

def aRecord : FumRec := { type := 4, source := 0, time := 0, more := false, body := [] }
def sunk (l : List (Word32 × FumRec)) (k : Nat) : State :=
  { dev with mgmt := { dev.mgmt with sessions := [(0, { session .fm 5 with sink := some { sinkOf l with cfg := traceCfg [k] } })] } }
def toHost (n : Node) : State := { dev with mgmt := { dev.mgmt with
  hostEvents := [(n.toNat, [{ seq := 1, code := 1, part := 1, slot := 3, arg := 0, epoch := 1 }])] } }
def eventTx (n : Node) : Tx := { blankTx dev with dst := n, op := 0x34, cls := 5, ptag := 1 }

theorem test_meets_SessionsEventsAndSinks : sessionFor dev 5 = some .fm ∧ sessionFor dev 99 = some (.supervisor 1) ∧ sessionFor dev 6 = none ∧
    mgmtUp dev = true ∧ dev.mgmt.sessions.length < 32 ∧ dev.boot.phase ≠ .recovery ∧ dev.boot.charter = some charter ∧
    charter.keys.fmKeys.contains 5 = true ∧ charter.keys.fmKeys.contains 6 = false ∧ (∀ p < 16, (supKeysOf dev p).contains 6 = false) ∧
    (tget (sunk [(1, aRecord)] 4).mgmt.sessions 0).map (fun k => (k.sink.map (fun x => (x.cfg.types, x.buffer)))) =
      some (some ([4], [(1, aRecord)])) ∧
    (traceCfg [4]).types.contains 4 = true ∧ (traceCfg [2]).types.contains 4 = false ∧
    tgetD dev.mgmt.hostEvents 7 [] = [] ∧ (tgetD (toHost 7).mgmt.hostEvents 7 []).length = 1 ∧
    reachable (toHost 7) (eventTx 7) = true ∧ reachable (toHost 8) (eventTx 8) = false := by decide +kernel

/-! ## The whole block -/

def settled (m : Option (BitVec 16)) : State := { dev with ext := { dev.ext with entries := [(3, extC)], older := m } }
/-- An item that runs is counted against epoch 1. -/
def countedEpoch : State := { settled (some 1) with queues := { dev.queues with queues := [(16, queue 5 [{ cmd 0 1 none with
  runs := [{ item := 0, x := x0, epoch := 1, replay := 0 }] }])] } }

theorem test_meets_QuietStateSettles : dev.home.parked = [] ∧ dev.home.heldPulls = [] ∧
    (∀ x ∈ (settled none).ext.entries, x.2.mode ≠ .versioned ∧ x.2.dead = []) ∧ dev.mgmt.waiting = [] ∧ dev.pool.journal = [] ∧
    (∀ q ∈ countedEpoch.queues.queues, ∀ c ∈ q.2.cmds, c.ending = none) ∧ mayStart { dev with pool := { dev.pool with
      journal := [{ jrec with started := true }] } } { jrec with started := true } = false ∧ (settled none).ext.older = none ∧ countedEpoch.ext.older = some 1 ∧ epochCounted countedEpoch 1 = true ∧
    epochCounted (settled (some 1)) 1 = false := by decide +kernel

theorem test_meets_StepTakesTheFront : dev.pending = [] ∧ dev.phys.pwrgd = true ∧ dev.phys.refSys = true := by decide +kernel

def nextOk (s : State) (p : State → Bool) : Bool := match step s with
  | .next t => p t
  | _ => false

theorem test_meets_FusesStayBlown : (fused 8).boot.fuses.getLsbD 3 = true ∧ nextOk (fused 8) (fun _ => true) = true := by decide +kernel

theorem test_meets_TripLasts_step : nextOk tripped (fun _ => true) = true := by decide +kernel

theorem test_meets_SequencesRise : dev.phys.pwrgd = true ∧ ({ dev with pending := [.startWait] } : State).pending.head? ≠ some .powerDown ∧
    nextOk { dev with pending := [.startWait] } (fun _ => true) = true ∧ dev.pending.head? ≠ some .powerDown := by decide +kernel

theorem test_meets_PathChoice : tx7.dst ≠ noNode ∧ tget dev.ports.routes 9 = some (route 2) ∧ (route 2).kind = 1 ∧
    routePort dev { tx7 with dst := 9 } = some 2 ∧ routePort dev { tx7 with dst := 33 } = none := by decide +kernel

end Sys2Proof.Tests
end

