-- ==== Sys2Proof/Tests/Fabric.lean ====
section
/-! SUPPORT. Queue windows, collectives, pool modules, links and the switch core: states and operands that meet the
hypotheses of their statements (chapters 6, 7, 10, 13 and 14), one theorem for each set that go together. -/

namespace Sys2Proof.Tests

set_option Elab.async false

open Sys2Proof Sys2Proof.Machine

/-! ## Queue windows -/

/-- An offset of queue 16's window: region, tile, byte (R151). -/
def window (r t b : Nat) : BitVec 48 := BitVec.ofNat 48 (16 * 2 ^ 36 + r * 2 ^ 34 + t * 2 ^ 8 + b)
def atWindow (r t b n : Nat) : Tx := { tx7 with cls := 5, offset := window r t b, length := n }
def q16 : Queue := { queue 5 [] with ring := [(0, 7)], cq := [(1, 9)] }
def queueDev (q : Queue) : State := { dev with queues := { dev.queues with queues := [(16, q)] } }
/-- A doorbell's tile: TAIL, CQ_HEAD and RESUME (R155). -/
def bellTx (tail cq res : Nat) : Tx :=
  { atWindow 2 0 0 0 with tiles := [mkTile (BitVec.ofNat 2048 (tail * 2 ^ 96 + cq * 2 ^ 64 + res * 2 ^ 63))] }
/-- Three descriptors pushed at the last tile of the ring of 64, from its third on: they wrap. -/
def pushTx : Tx := { atWindow 0 15 128 0 with version := 4, trailer := mkTrailer 256 (5 + 2 ^ 512 * 6) }

/-- A queue message arrives, and its window is the queue's, or nobody's it may use. -/
def windowB (s : State) (op : Byte) (tx0 : Tx) (q : Option Queue) : Bool :=
  let a := taken 0 (arriving s 0 op false tx0) s
  arrivesB s 0 (arriving s 0 op false tx0) && decide (check1 (arriving s 0 op false tx0) a = none) &&
    decide (windowQueue (canonPort a 0) (arriving s 0 op false tx0) a = q)

theorem test_meets_QueueWindows_push : Arrives (queueDev q16) 0 (arriving (queueDev q16) 0 0x30 false pushTx) ∧
    windowB (queueDev q16) 0x30 pushTx (some q16) = true ∧ wRegion pushTx.offset = 0 ∧ wTile pushTx.offset < depthOf q16 / 4 ∧
    wByte pushTx.offset % 64 = 0 ∧ pushTx.version.toNat % 128 ≤ depthOf q16 ∧ q16.unread = [] ∧
    windowB (queueDev q16) 0x30 { pushTx with offset := window 0 16 0 } (some q16) = true ∧
    depthOf q16 / 4 ≤ wTile (window 0 16 0) ∧ windowB (queueDev q16) 0x30 { pushTx with offset := window 1 0 0 } (some q16) = true ∧
    wRegion (window 1 0 0) ≠ 0 ∧ windowB (queueDev { q16 with submitter := 9 }) 0x30 pushTx none = true :=
  ⟨arrives_of (by decide +kernel), by decide +kernel⟩

theorem test_meets_QueueWindows_bell : Arrives (queueDev q16) 0 (arriving (queueDev q16) 0 0x31 false (bellTx 3 1 0)) ∧
    windowB (queueDev q16) 0x31 (bellTx 3 1 0) (some q16) = true ∧ wRegion (window 2 0 0) = 2 ∧ wTile (window 2 0 0) = 0 ∧
    doorbellBad q16 3 1 = false ∧ doorbellBad q16 65 0 = true ∧ windowB (queueDev q16) 0x31 (bellTx 65 0 0) (some q16) = true ∧
    windowB (queueDev { q16 with state := .halted }) 0x31 (bellTx 3 1 1) (some { q16 with state := .halted }) = true ∧
    (bellTx 3 1 1).tiles.map (fun t => t.data.getLsbD 63) = [true] ∧ partState (queueDev q16) 1 = .active ∧
    windowB (queueDev { q16 with submitter := 9 }) 0x31 (bellTx 3 1 1) none = true :=
  ⟨arrives_of (by decide +kernel), by decide +kernel⟩

theorem test_meets_QueueWindows_read : Arrives (queueDev q16) 0 (arriving (queueDev q16) 0 0x32 false (atWindow 0 15 0 16)) ∧
    windowB (queueDev q16) 0x32 (atWindow 0 15 0 16) (some q16) = true ∧ 15 < depthOf q16 / 4 ∧ 16 ≤ depthOf q16 / 4 ∧
    windowB (queueDev q16) 0x32 (atWindow 1 7 0 8) (some q16) = true ∧ wRegion (window 1 7 0) = 1 ∧ 7 < depthOf q16 / 8 ∧
    8 ≤ depthOf q16 / 8 ∧ windowB (queueDev q16) 0x32 (atWindow 2 0 0 1) (some q16) = true ∧
    windowB (queueDev { q16 with submitter := 9 }) 0x32 (atWindow 2 0 0 1) none = true :=
  ⟨arrives_of (by decide +kernel), by decide +kernel⟩

/-! ## Collectives -/

def ge : GroupEntry := {
  collId := 1, generation := 2, parentNode := 9, parentPort := 2, chunks := 4, members := 2, source := 0, fanIn := 2, window := 2,
  inFspec := 0, outFspec := 0, genTimeout := 1, kind := 0, op := 0, role := 1, partition := 1 }
def group1 : CGroup := {
  e := ge, children := [{ type := 0, port := 0, node := 7, memberLo := 0, memberHi := 0 },
    { type := 0, port := 0, node := 8, memberLo := 1, memberHi := 1 }],
  running := true, chunks := [], committed := [], run := none, froms := [], results := [], childListAddr := 0 }
def collExt (gen : Word32) (chunk : Nat) : CollExt := { collId := 1, generation := gen, chunk := chunk, isPartial := false }
def collDev : State := { dev with groups := [(1, group1)] }
def contr (gen : Word32) : Tx := { rq 3 3 5 16 (List.replicate 16 tile42) with coll := some (collExt gen 0) }

def contribCode (tx0 : Tx) (gen : Word32) : Option (Except St Nat) :=
  match contributeCheck 0 (arriving collDev 0 0x38 false tx0) (collExt gen 0) (taken 0 (arriving collDev 0 0x38 false tx0) collDev) with
  | .ok (g, i) => if g = group1 then some (.ok i) else none
  | .error st => some (.error st)

theorem test_meets_CollectiveMessages_contribute : Arrives collDev 0 (arriving collDev 0 0x38 false (contr 2)) ∧
    (match contribCode (contr 2) 2 with | some (.ok i) => some i | _ => none) = some 0 ∧
    Arrives collDev 0 (arriving collDev 0 0x38 false (contr 1)) ∧
    (match contribCode (contr 1) 1 with | some (.error st) => some st | _ => none) = some .state ∧
    cgOf collDev 1 = some group1 ∧ chunkOf group1 0 = none :=
  ⟨arrives_of (by decide +kernel), by decide +kernel, arrives_of (by decide +kernel), by decide +kernel⟩

def up9 (st : Byte) (gen : Word32) (cls v : Nat) : Tx :=
  { rq9 cls 3 5 with coll := some (collExt gen 0), status := st, trailer := mkTrailer 32 v }
def result9 (gen : Word32) : Tx := { rq9 4 3 5 with coll := some (collExt gen 0), tiles := [tile42], length := 1 }

theorem test_meets_CollectiveMessages_response :
    Arrives collDev 2 (arriving collDev 2 0x38 true { rq9 3 3 5 with coll := some (collExt 2 0), status := 2 }) ∧
    stOf 2 ≠ .ok ∧ stOf 2 ≠ .aborted ∧ ge.role = 1 ∧ ge.parentNode = 9 ∧ ge.generation = (collExt 2 0).generation ∧
    Arrives collDev 2 (arriving collDev 2 0x38 true { rq9 3 3 5 with coll := some (collExt 2 0), status := 0 }) ∧ stOf 0 = .ok ∧
    Arrives collDev 2 (arriving collDev 2 0x39 false (result9 2)) ∧ Arrives collDev 2 (arriving collDev 2 0x39 false (result9 1)) ∧
    (collExt 1 0).generation ≠ ge.generation :=
  ⟨arrives_of (by decide +kernel), by decide +kernel, by decide +kernel, by decide +kernel, by decide +kernel, by decide +kernel,
    arrives_of (by decide +kernel), by decide +kernel, arrives_of (by decide +kernel), arrives_of (by decide +kernel), by decide +kernel⟩

theorem test_meets_CollectiveMessages_status : Arrives collDev 2 (arriving collDev 2 0x3A false (up9 0 2 4 (77 * 2 ^ 144))) ∧
    stOf (BitVec.ofNat 8 (bitsOf (77 * 2 ^ 144) 168 8)) = .ok ∧
    Arrives collDev 2 (arriving collDev 2 0x3A false (up9 10 2 0 (10 * 2 ^ 168 + 6 * 2 ^ 160 + 77 * 2 ^ 144))) ∧
    stOf (BitVec.ofNat 8 (bitsOf (10 * 2 ^ 168 + 6 * 2 ^ 160 + 77 * 2 ^ 144) 168 8)) ≠ .ok ∧
    Arrives collDev 2 (arriving collDev 2 0x3A false (up9 0 7 4 0)) ∧ (collExt 7 0).generation ≠ ge.generation :=
  ⟨arrives_of (by decide +kernel), by decide +kernel, arrives_of (by decide +kernel), by decide +kernel, arrives_of (by decide +kernel),
    by decide +kernel⟩

/-! ## Pool modules, transit -/

def fromModule (op st : Byte) (cls : Nat) (ts : List Tile) : Tx :=
  { rq cls 0 5 ts.length ts with src := 0x100, op := op, status := st, tag := 4 }
def modReq (k : ModKind) : ModReq := { tag := 4, node := 0x100, unit := 3, kind := k }
def reqDev (r : ModReq) : State := { dev with pool := { dev.pool with reqs := [r] } }
def badTile : Tile := { data := 5, crc := 0 }

theorem test_meets_PoolAndTransit_status : Arrives dev 10 (arriving dev 10 0x41 false { fromModule 0x41 0 5 [] with version := 1 }) ∧
    Arrives dev 10 (arriving dev 10 0x41 false (fromModule 0x41 0 5 [])) ∧ (fromModule 0x41 0 5 []).version ≠ 1 :=
  ⟨arrives_of (by decide +kernel), arrives_of (by decide +kernel), by decide⟩

/-- A response of a module arrives, and names the request that is outstanding. -/
def respondsB (s : State) (r : ModReq) (op st : Byte) (cls : Nat) (ts : List Tile) : Bool :=
  arrivesB s 10 (arriving s 10 op true (fromModule op st cls ts)) &&
    decide (s.pool.reqs.find? (fun y => y.tag == (arriving s 10 op true (fromModule op st cls ts)).tag &&
      y.node == (arriving s 10 op true (fromModule op st cls ts)).src) = some r)
/-- The request alone is outstanding. -/
def respondB (r : ModReq) (op st : Byte) (cls : Nat) (ts : List Tile) : Bool := respondsB (reqDev r) r op st cls ts

theorem test_meets_PoolAndTransit_response : respondB (modReq (.commit [3])) 2 0 1 [] = true ∧
    respondB (modReq (.commit [3])) 2 9 1 [] = true ∧ (9 : Byte) ≠ 0 ∧
    arrivesB dev 10 (arriving dev 10 2 true (fromModule 2 0 1 [])) = true ∧ dev.pool.reqs = [] ∧
    respondB (modReq (.claim 0 false)) 0x40 4 5 [] = true ∧ respondB (modReq (.claim 0 true)) 0x40 4 5 [] = true ∧
    groupOf (reqDev (modReq (.claim 0 false))) 0 = some group0 ∧ group0.up = true := by decide +kernel

/-- A group of one data unit and its mirror, whose second position is lost: no row can be solved. -/
def groupAlone : Group := { group0 with modules := modules.take 2, k := 1, m := 1, lost := 2, state := .degraded }
def aloneReq : ModReq := { tag := 4, node := 0x100, unit := 0, kind := .read (some (3, 5)) 1 0 0 0 }
def aloneDev : State := { reqDev aloneReq with pool := { (reqDev aloneReq).pool with groups := [(0, groupAlone)] } }

theorem test_meets_PoolAndTransit_read : respondB (modReq (.read (some (3, 5)) 1 0 2 1)) 1 0 1 [tile42] = true ∧ [tile42].all tileOk = true ∧
    respondB (modReq (.read none 1 0 2 1)) 1 9 1 [] = true ∧ respondB (modReq (.read none 1 0 2 1)) 1 0 1 [badTile] = true ∧
    [badTile].all tileOk = false ∧ (solveCol (reqDev (modReq (.read none 1 0 2 1))) 0 group0 2 1).isSome = true ∧
    respondsB aloneDev aloneReq 1 0 1 [badTile] = true ∧ groupOf aloneDev 0 = some groupAlone ∧ solveCol aloneDev 0 groupAlone 0 0 = none := by
  decide +kernel

def toward9 : Tx := { rq 1 3 5 1 [] with dst := 9, op := 1 }
def flowDev (h : List (Nat × Tx)) : State := { dev with home := { dev.home with
  flows := [{ src := 7, cls := 1, expected := 5, held := h, gap := false }] } }

theorem test_meets_PoolAndTransit_transit : portUp dev (canonPort dev 0) = true ∧ toward9.hop + 1 < 1023 ∧
    rxCheck (canonPort dev 0) (arriving dev 0 toward9.op toward9.resp toward9) dev = none ∧
    isSelf dev (arriving dev 0 toward9.op toward9.resp toward9).dst = false ∧ opDefined 7 = false ∧ bodyOk { toward9 with length := 40 } = false ∧
    (opClasses toward9).contains 2 = false ∧ flowOf (flowDev []) 7 1 = some { src := 7, cls := 1, expected := 5, held := [], gap := false } ∧
    (flowOf (flowDev [(0, toward9)]) 7 1).map (·.held) = some [(0, toward9)] := by decide +kernel

/-! ## Links -/

/-- A frame whose FCRC is its own. -/
def sound (f : Frame) : Frame := { f with fcrc := fcrcOf f }
/-- It is received well where it decodes and its lock pattern stands. -/
theorem sound_ok {f : Frame} (h : f.decodes = true) (hs : f.sync = 0xC6) : frameOk (sound f) = true := by
  have : fcrcOf (sound f) = fcrcOf f := rfl
  simp [frameOk, this]
  simp [sound, h, hs]
def idle0 : Frame := {
  decodes := true, fcrc := 0, sync := 0xC6, crTotal := 0, crClass := 0, first := 1023, ack := 4095, seq := 0, nak := false, body := .idle }
def frame0 : Frame := sound idle0
def withPort (n : Nat) (f : Port → Port) : State := modPort n f dev
def port0 : Port := up hostCfg 7 0

/-- R342: the check value of the CRC-24, over the digits 1 to 9. -/
theorem test_crc24 : crc24 ((List.range 9).map (· + 0x31)) = 0x21CF02 := by decide +kernel

theorem test_meets_LinkFrames_receive : portOf dev 0 = some port0 ∧ port0.up = true ∧ port0.rxLast = 4095 ∧
    frameOk frame0 = true ∧ frameOk (sound { idle0 with seq := 4095 }) = true ∧ (sound { idle0 with seq := 4095 }).seq = port0.rxLast ∧
    ({ frame0 with decodes := false } : Frame).decodes = false ∧ port0.receiving = false ∧
    (portOf (withPort 0 (fun p => { p with up := false })) 0).map (fun p => (p.up, p.training)) = some (false, false) ∧
    frame0.nak = false ∧ (frame0.ack - port0.acked).toNat ≤ 64 ∧ port0.retained = [] :=
  ⟨by decide +kernel, by decide +kernel, by decide +kernel, sound_ok rfl rfl, sound_ok rfl rfl, by decide +kernel⟩

def partOf (skip : Nat) (last : Bool) : TxPart := { tx := toward9, skip := skip, last := last }
def dataFrame (n : BitVec 12) (skip : Nat) (last : Bool) : Frame :=
  sound { idle0 with seq := n, body := .data [partOf skip last], first := firstOf [partOf skip last] }

theorem test_meets_LinkFrames_data : frameOk (dataFrame 0 0 true) = true ∧ (dataFrame 0 0 true).seq = port0.rxLast + 1 ∧
    frameOk (dataFrame 0 16 true) = true ∧ frameOk (dataFrame 0 0 false) = true ∧
    frameOk (dataFrame 5 0 true) = true ∧ (dataFrame 5 0 true).body ≠ .idle ∧ (dataFrame 5 0 true).seq ≠ port0.rxLast + 1 ∧
    (portOf (withPort 0 (fun p => { p with receiving := true })) 0).map (fun p => (p.up, p.receiving, p.rxLast)) = some (true, true, 4095) ∧
    frameOk (sound { idle0 with body := .link (.down 1) }) = true ∧ idle0.seq = port0.rxLast + 1 :=
  ⟨sound_ok rfl rfl, by decide +kernel, sound_ok rfl rfl, sound_ok rfl rfl, sound_ok rfl rfl, by decide, by decide +kernel, by decide +kernel,
    sound_ok rfl rfl, by decide +kernel⟩

def training0 : State := withPort 0 (fun p => { p with up := false, training := true, linkQ := [.hello 2 2 0] })
def replaying0 : State := withPort 0 (fun p => { p with up := false, training := true, replay := [idle0] })
def sending0 : State := withPort 0 (fun p => { p with sendQ := [toward9] })
/-- The port as FRAME_TRANSMIT finds it once grants are given. -/
def granted0 (s : State) : Option Port := portOf (grantUnits 0 0 0 255 (dropWithheld s)) 0

theorem test_meets_LinkFrames_transmit : (portOf training0 0).map (·.nakOut) = some false ∧ (portOf training0 0).map (·.replay) = some [] ∧
    (portOf training0 0).map (·.linkQ) = some [.hello 2 2 0] ∧ (portOf replaying0 0).map (·.replay) = some [idle0] ∧ port0.rotate = 0 ∧
    (granted0 dev).map (·.nakOut) = some false ∧ (granted0 dev).map (·.replay) = some [] ∧ (granted0 dev).map (·.linkQ) = some [] ∧
    (granted0 dev).map (·.sending.isNone) = some true ∧ (granted0 dev).map (·.sendQ) = some [] := by decide +kernel

theorem test_meets_LinkFrames_transmit_data : (granted0 sending0).map (·.up) = some true ∧ (granted0 sending0).map (·.sending.isNone) = some true ∧
    (granted0 sending0).map (·.sendQ) = some [toward9] ∧ txBytes toward9 ≤ 2560 ∧
    (granted0 sending0).map (fun p => decide (p.retained.length < 64)) = some true := by decide +kernel

def trains (n : Nat) : State := withPort n (fun p => { p with up := false, training := true })

theorem test_meets_PortsUpAndDown_hello : (portOf dev 0).map (·.training) = some false ∧ (portOf (trains 0) 0).map (·.training) = some true ∧
    kindOf hostCfg.role = some 0 ∧ kindOf hostCfg.role ≠ some 1 ∧ kindOf trunkCfg.role = some 2 ∧ trunkCfg.neighbour = some 9 ∧
    (portOf (trains 2) 2).map (·.training) = some true := by decide +kernel

theorem test_meets_PortsUpAndDown_lanes : port0.up = true ∧ lanesIn 3 = 2 ∧ lanesIn 4 < 2 ∧ port0.rxLanes.getLsbD 3 = true ∧
    2 ≤ lanesIn (port0.rxLanes &&& ~~~ BitVec.ofNat 4 8) ∧
    lanesIn ((3 : BitVec 4) &&& ~~~ BitVec.ofNat 4 1) < 2 ∧ (3 : BitVec 4).getLsbD 2 = false := by decide +kernel

theorem test_meets_PortsUpAndDown_fault : portOf dev 0 = some port0 ∧ port0.up = true ∧ port0.retained = [] ∧ port0.sending = none ∧
    (portOf (withPort 0 (fun p => { p with up := false })) 0).map (·.up) = some false ∧ dev.boot.phase = .ready ∧
    dev.phys.isolated.getLsbD (0 / 24) = false := by decide +kernel

/-! ## The switch core -/

def tx97 : Tx := { rq 1 3 5 1 [] with op := 1, dst := 7, src := 9 }
def cellA : Cell := {
  sidecar := cellSidecar tx97 0, inLane := 2, cls := 1, part := 1, colour := 0, mark := false, first := true, last := true, ncells := 1, mcast := false, target := 0,
  arrival := 0, slot := 1, bank := 3, shared := false, packet := 0, links := [{ out := 0, seq := none, tx := some tx97 }] }
def cellB : Cell := { cellA with ncells := 0, links := [{ out := 0, seq := some 0, tx := some tx97 }] }
def packet1 (p : SpindleSt) : SpindleSt := { p with
  packets := [(0, { left := 1, cells := 1, retain := none })],
  accounts := [(17, { promised := 7, promisedShared := 1, used := 1, usedShared := 0 })], bankUse := [(3, 1)] }
def spDev (f : SpindleSt → SpindleSt) : State := modSp (fun p => packet1 (f p)) dev
def inputDev : State := spDev (fun p => { p with inputs := [(2, [cellA])], turn := 383 })
def midDev (j turn : Nat) : State := spDev (fun p => { p with mids := [(j * 384, [cellB])], turn := turn })

theorem test_meets_Spindle_turn : dataUp inputDev = true ∧ inputDev.spindle.stopped = false ∧ inputDev.out = [] ∧
    inputDev.spindle.inputs = [(2, [cellA])] ∧ inputDev.spindle.mids = [] ∧ inputDev.spindle.egress = [] ∧ cellA.inLane = 2 ∧
    cellA.links = [{ out := 0, seq := none, tx := some tx97 }] ∧ mayLeave inputDev cellA = true ∧
    (2 + inputDev.spindle.turn) % 384 ∉ inputDev.spindle.dead ∧ 2 ∉ inputDev.spindle.badLanes ∧
    (midDev 5 379).spindle.mids = [(5 * 384 + 0, [cellB])] ∧ (5 + (midDev 5 379).spindle.turn) % 384 = 0 ∧ cellB.cls < 8 ∧
    cellOut cellB = 0 ∧ dataUp (midDev 5 379) = true := by decide +kernel

def egressDev (out : Nat) (tx : Tx) : State := spDev (fun p => { p with
  recvSeq := [(pairKey 2 out 1, 1)], egress := [(out, [{ cellB with links := [{ out := out, seq := some 0, tx := some tx }] }])] })
def outCell (out : Nat) (tx : Tx) : Cell := { cellB with links := [{ out := out, seq := some 0, tx := some tx }] }

theorem test_meets_Spindle_egress : wholePacket (egressDev 0 tx97) 0 = some [outCell 0 tx97] ∧ (outCell 0 tx97).first = true ∧
    (portOf (egressDev 0 tx97) 0).map (fun p => (p.up, creditOf p 1)) = some (true, 64) ∧ tx97.mark = false ∧
    wholePacket (egressDev 2 { tx97 with dst := 9 }) 2 = some [outCell 2 { tx97 with dst := 9 }] ∧
    wholePacket (egressDev 200 { tx97 with dst := 2 }) 200 = some [outCell 200 { tx97 with dst := 2 }] ∧
    (portOf (modPort 2 (fun p => { p with granted := List.replicate 8 0 }) (egressDev 2 { tx97 with dst := 9 })) 2).map
      (fun p => creditOf p 1) = some 0 := by decide +kernel

def meterE : MeterEntry :=
  { pir := 1000, cir := 500, pbs := 100, cbs := 60, profG := 0, profY := 0, profR := 0, colourAware := false, enable := true }
def meter0 : Meter := { tc := 59990, tp := 3, wtc := 0, wtp := 0, red := 9, lastRed := 9, wouldRed := 4, held := false }
/-- A meter of port 0, partition 1, class 1, with marks at its output. -/
def meterDev (m : Meter) (marks : Nat × Nat) : State :=
  modPart 1 (fun p => { p with applied := p.applied.map (fun c => { c with meters := [(0, 1, meterE)] }) })
    (spDev (fun p => { p with meters := [((0 * 16 + 1) * 8 + 1, m)], marks := [(1, marks)] }))

theorem test_meets_Spindle_meters : (meterDev meter0 (64, 3)).spindle.withheld = [] ∧ meterCfg (meterDev meter0 (64, 3)) 0 1 1 = some meterE ∧
    (meterDev meter0 (64, 3)).spindle.meters = [((0 * 16 + 1) * 8 + 1, meter0)] ∧ portRole (meterDev meter0 (64, 3)) 0 = .host ∧
    charter.device.holdMarks ≤ (tgetD (meterDev meter0 (64, 3)).spindle.marks 1 (0, 0)).1 ∧ meter0.lastRed ≤ meter0.red ∧
    meter0.wouldRed ≠ 0 ∧ meter0.held = false ∧ ¬ charter.device.holdMarks ≤ (tgetD (meterDev meter0 (63, 3)).spindle.marks 1 (0, 0)).1 ∧
    { meter0 with held := true }.held = true ∧ { meter0 with held := true, wouldRed := 0 }.wouldRed = 0 := by decide +kernel

def manyDead : State := spDev (fun p => { p with dead := [1, 2, 3, 4, 5, 6, 7, 8] })

theorem test_meets_Spindle_dead : dataUp dev = true ∧ 383 < 384 ∧ 383 ∉ dev.spindle.dead ∧ dev.spindle.mids = [] ∧
    dev.spindle.dead.length < 8 ∧ dataUp manyDead = true ∧ 9 ∉ manyDead.spindle.dead ∧ 8 ≤ manyDead.spindle.dead.length ∧
    manyDead.spindle.mids = [] ∧ (egressDev 0 tx97).spindle.samples = [] ∧ (egressDev 0 tx97).spindle.mids = [] ∧
    (egressDev 0 tx97).spindle.inputs = [] ∧ (outCell 0 tx97).links = [{ out := 0, seq := some 0, tx := some tx97 }] ∧
    (egressDev 0 tx97).spindle.egress = [(0, [outCell 0 tx97])] ∧ cellOut (outCell 0 tx97) = 0 := by decide +kernel

end Sys2Proof.Tests
end

