-- ==== Sys2Proof/Tests/Home.lean ====
section
/-! SUPPORT. Transactions at the home that meet the hypotheses of the statements of chapters 2 to 5: one theorem for each
set of hypotheses that go together, at a boundary value where a clause has a range. -/

namespace Sys2Proof.Tests

set_option Elab.async false

open Sys2Proof Sys2Proof.Machine

/-- The state that serves a request of a row. -/
def served (op : Byte) (tx0 : Tx) (s : State) : State := taken 0 (arriving s 0 op false tx0) s

/-- What that state is once the request has its turn at its tiles. -/
def seen (op : Byte) (tx0 : Tx) (s : State) : State := touched (arriving s 0 op false tx0) (served op tx0 s)

/-! ## The checks of R39 -/

def fencedDev : State := { dev with boot := { dev.boot with fenced := true } }
def expelDev : State := { dev with boot := { dev.boot with expelled := [7] } }
def read1 : Tx := rq 1 3 5 1 []

theorem test_meets_AdmissionChecks_fenced : Arrives fencedDev 0 (arriving fencedDev 0 1 false read1) ∧
    fenceHeld (served 1 read1 fencedDev) 7 fencedDev.home.nextId = false ∧ fencedDev.boot.fenced = true ∧
    Arrives expelDev 0 (arriving expelDev 0 1 false read1) ∧ 7 ∈ expelDev.boot.expelled :=
  ⟨arrives_of (by decide +kernel), by decide +kernel, by decide +kernel, arrives_of (by decide +kernel), by decide +kernel⟩

theorem test_meets_AdmissionChecks_stale : Arrives dev 0 (arriving dev 0 1 false { read1 with mapEpoch := 0 }) ∧
    dev.boot.fenced = false ∧ 7 ∉ dev.boot.expelled ∧ (0 : BitVec 16) ≠ dev.ext.mapEpoch ∧ dev.ext.older ≠ some 0 :=
  ⟨arrives_of (by decide +kernel), by decide +kernel⟩

theorem test_meets_AdmissionChecks_unbound : Arrives (modPort 0 (fun p => { p with removed := true }) dev) 0 (arriving (modPort 0 (fun p => { p with removed := true }) dev) 0 1 false read1) ∧
    bindPart (modPort 0 (fun p => { p with removed := true }) dev) 0 (arriving dev 0 1 false read1) = none :=
  ⟨arrives_of (by decide +kernel), by decide +kernel⟩

theorem test_meets_AdmissionChecks_absent : Arrives dev 0 (arriving dev 0 1 false (rq 1 9 5 1 [])) ∧
    bindPart dev 0 (arriving dev 0 1 false (rq 1 9 5 1 [])) = some 1 ∧ extOf dev 9 = none :=
  ⟨arrives_of (by decide +kernel), by decide +kernel⟩

theorem test_meets_AdmissionChecks_reach : Arrives (withExt 3 { extC with owner := 2 }) 0 (arriving (withExt 3 { extC with owner := 2 }) 0 1 false read1) ∧
    extOf (withExt 3 { extC with owner := 2 }) 3 = some { extC with owner := 2 } ∧
    mayReach (withExt 3 { extC with owner := 2 }) 1 2 = false :=
  ⟨arrives_of (by decide +kernel), by decide +kernel⟩

theorem test_meets_AdmissionChecks_range : Arrives dev 0 (arriving dev 0 1 false (rq 1 3 4194303 2 [])) ∧ mayReach dev 1 1 = true ∧
    4194304 < oTile (rq 1 3 4194303 2 []).offset + 2 ∧ Arrives dev 0 (arriving dev 0 1 false (rq 1 3 4194303 1 [])) ∧
    oTile (rq 1 3 4194303 1 []).offset + 1 ≤ 4194304 :=
  ⟨arrives_of (by decide +kernel), by decide +kernel, by decide +kernel, arrives_of (by decide +kernel), by decide +kernel⟩

def resettingDev : State := modPart 1 (fun p => { p with state := .resetting }) dev

theorem test_meets_AdmissionChecks_reset : Arrives resettingDev 0 (arriving resettingDev 0 1 false read1) ∧ domainDown resettingDev extC = true :=
  ⟨arrives_of (by decide +kernel), by decide +kernel⟩

theorem test_meets_AdmissionChecks_holder : Arrives dev 0 (arriving dev 0 1 false { read1 with src := 9 }) ∧ holderOf extC 9 = none ∧
    domainDown dev extC = false ∧ holderOf { extC with state := .draining } 7 = some host7 ∧
    Arrives (withExt 3 { extC with state := .draining }) 0 (arriving (withExt 3 { extC with state := .draining }) 0 1 false read1) ∧
    Arrives (withExt 3 { extC with holders := [{ host7 with hstate := .forced }] }) 0 (arriving (withExt 3 { extC with holders := [{ host7 with hstate := .forced }] }) 0 1 false read1) :=
  ⟨arrives_of (by decide +kernel), by decide +kernel, by decide +kernel, by decide +kernel, arrives_of (by decide +kernel),
    arrives_of (by decide +kernel)⟩

/-! ## Reads and writes -/

def reads (op : Byte) (tx0 : Tx) (s : State) (e : Extent) (v : Nat) : Except St (List Tile) :=
  (readTiles (oSlot tx0.offset) v e [] (tilesOf tx0) (seen op tx0 s)).1

theorem test_meets_ReadTile : Meets dev 0 1 (rq 1 3 5 2 []) 1 extC ∧ TilesFree (arriving dev 0 1 false (rq 1 3 5 2 [])) (served 1 (rq 1 3 5 2 []) dev) ∧
    checkRead 1 extC 7 0 = .ok ∧ dirOf (seen 1 (rq 1 3 5 2 []) dev) 3 5 = none ∧ dirOf (seen 1 (rq 1 3 5 2 []) dev) 3 6 = none ∧
    (match reads 1 (rq 1 3 5 2 []) dev extC 0 with | .ok ts => ts.length | .error _ => 0) = 2 :=
  ⟨meets_of (by decide +kernel), free_of (by decide +kernel), ok_of (by decide +kernel), by decide +kernel⟩

def poisonDev : State := { dev with dir := { dev.dir with poison := [(tkey 3 6, ())] } }

theorem test_meets_ReadTile_fails : Meets poisonDev 0 1 (rq 1 3 5 2 []) 1 extC ∧
    TilesFree (arriving dev 0 1 false (rq 1 3 5 2 [])) (served 1 (rq 1 3 5 2 []) poisonDev) ∧
    (match reads 1 (rq 1 3 5 2 []) poisonDev extC 0 with | .ok _ => none | .error st => some st) = some .poison :=
  ⟨meets_of (by decide +kernel), free_of (by decide +kernel), by decide +kernel⟩

theorem test_meets_ReadTile_recall : Meets (withDir (entry .m 1 (.ptrs []))) 0 1 read1 1 extC ∧
    TilesFree (arriving dev 0 1 false read1) (served 1 read1 (withDir (entry .m 1 (.ptrs [])))) ∧
    tilesOf (arriving dev 0 1 false read1) = [5] ∧ nodeOfAgent extC 1 = some 8 ∧ 8 ∉ dev.boot.expelled ∧
    dirOf (seen 1 read1 (withDir (entry .m 1 (.ptrs [])))) 3 5 = some (entry .m 1 (.ptrs [])) :=
  ⟨meets_of (by decide +kernel), free_of (by decide +kernel), by decide +kernel⟩

/-- The write of a request: 0 done, 1 waits, 2 fails. -/
def writes (tx0 : Tx) (s : State) : Nat :=
  let v := seen 2 tx0 s
  match writeTiles (oSlot tx0.offset) v.pool.nextRec (fullTiles v extC (tilesOf tx0)) ((tilesOf tx0).zip tx0.tiles) v with
  | .done _ => 0
  | .wait _ _ => 1
  | .fail _ _ => 2

def write1 : Tx := rq 1 3 5 2 [tile42, tile42]
def failedDev : State := modGroup 0 (fun g => { g with lost := 7 }) dev

theorem test_meets_Writes : Meets dev 0 2 write1 1 extC ∧ TilesFree (arriving dev 0 2 false write1) (served 2 write1 dev) ∧
    checkWrite (served 2 write1 dev) 1 extC 0 = .ok ∧ writeRecalls extC none = [] ∧ writes write1 dev = 0 ∧ tileOk tile42 = true ∧
    group0.lost = 0 ∧ group0.pass = none :=
  ⟨meets_of (by decide +kernel), free_of (by decide +kernel), ok_of (by decide +kernel), by decide +kernel, by decide +kernel,
    by decide +kernel⟩

theorem test_meets_Writes_fails : Meets failedDev 0 2 write1 1 extC ∧ checkWrite (served 2 write1 failedDev) 1 extC 0 = .ok ∧
    writes write1 failedDev = 2 :=
  ⟨meets_of (by decide +kernel), ok_of (by decide +kernel), by decide +kernel⟩

def partial1 : Tx := { rq 1 3 5 1 [tile42] with trailer := mkTrailer 32 0xFF }
def merges (s : State) : Nat :=
  match doChange 3 5 0 [] (fun old => mergeMask old tile42.data 0xFF) (seen 3 partial1 s) with
  | (some _, .done _) => 0
  | (_, .fail _ _) => 2
  | _ => 1

theorem test_meets_Writes_partial : Meets dev 0 3 partial1 1 extC ∧ TilesFree (arriving dev 0 3 false partial1) (served 3 partial1 dev) ∧
    checkWrite (served 3 partial1 dev) 1 extC 0 = .ok ∧ merges dev = 0 ∧
    poisoned (seen 3 partial1 dev) 3 5 = false ∧
    poisoned (seen 3 partial1 { dev with dir := { dev.dir with poison := [(tkey 3 5, ())] } }) 3 5 = true ∧ writeRecalls extC none = [] :=
  ⟨meets_of (by decide +kernel), free_of (by decide +kernel), ok_of (by decide +kernel), by decide +kernel, by decide +kernel⟩

/-! ## Atomics -/

/-- The atomic block (R89) without an acknowledgement. -/
def block (aop size opnd aseq retry : Nat) : Nat := opnd * 2 ^ 256 + aseq * 2 ^ 224 + aop * 2 ^ 186 + size * 2 ^ 183 + retry * 2 ^ 181
def atomic1 (aop size retry : Nat) : Tx :=
  { rq 2 3 5 1 [] with offset := mkOffset 3 5 0xFF, trailer := mkTrailer 64 (block aop size 5 0 retry) }
def lentry (tag : BitVec 16) (d : Bool) : LEntry :=
  { src := 7, sub := 0, tag := tag, aseq := 0, status := .ok, result := 99, aop := 33, size := 1, done := d, slot := 3, area := 1 }
def ledgerDev (l : List LEntry) : State := { dev with ledger := { dev.ledger with entries := l } }

theorem test_meets_AtomicApplies_formed : Arrives dev 0 (arriving dev 0 4 false (atomic1 33 1 0)) ∧
    fenceHeld (served 4 (atomic1 33 1 0) dev) 7 dev.home.nextId = false ∧ check1 (arriving dev 0 4 false (atomic1 33 1 0)) dev = none ∧
    abAop (atomic1 33 1 0).trailer.val = 33 ∧ sizeBytes (abSize (atomic1 33 1 0).trailer.val) = 8 ∧
    abAckValid (atomic1 33 1 0).trailer.val = false ∧ Arrives dev 0 (arriving dev 0 4 false (atomic1 44 1 0)) ∧
    Arrives dev 0 (arriving dev 0 4 false (atomic1 0 1 0)) ∧ Arrives dev 0 (arriving dev 0 4 false (atomic1 2 1 0)) :=
  ⟨arrives_of (by decide +kernel), by decide +kernel, by decide +kernel, by decide +kernel, by decide +kernel, by decide +kernel,
    arrives_of (by decide +kernel), arrives_of (by decide +kernel), arrives_of (by decide +kernel)⟩

theorem test_meets_AtomicApplies_matched :
    ledgerFind (served 4 (atomic1 33 1 0) (ledgerDev [lentry 9 true])) (7, 0) 9 = some (lentry 9 true) ∧
    ledgerFind (served 4 (atomic1 33 1 0) (ledgerDev [lentry 9 false])) (7, 0) 9 = some (lentry 9 false) ∧
    epochLive (ledgerDev []) 1 = true ∧ Arrives (ledgerDev [lentry 9 true]) 0 (arriving (ledgerDev [lentry 9 true]) 0 4 false (atomic1 33 1 0)) ∧
    Arrives (ledgerDev [lentry 9 false]) 0 (arriving (ledgerDev [lentry 9 false]) 0 4 false (atomic1 33 1 0)) :=
  ⟨by decide +kernel, by decide +kernel, by decide +kernel, arrives_of (by decide +kernel), arrives_of (by decide +kernel)⟩

theorem test_meets_AtomicApplies_unknown : Arrives dev 0 (arriving dev 0 4 false (atomic1 33 1 2)) ∧
    abRetry (atomic1 33 1 2).trailer.val = 2 ∧ ledgerFind dev (7, 0) 9 = none ∧ needLedgerPull dev 3 (7, 0) = none :=
  ⟨arrives_of (by decide +kernel), by decide +kernel⟩

def fullDev : State := ledgerDev ((List.range 1024).map (fun i => lentry (BitVec.ofNat 16 (i + 100)) true))

theorem test_meets_AtomicApplies_full : Meets fullDev 0 4 (atomic1 33 1 0) 1 extC ∧ 1024 ≤ ledgerCount fullDev (7, 0) ∧
    ledgerFind fullDev (7, 0) 9 = none ∧ checkWrite (served 4 (atomic1 33 1 0) fullDev) 1 extC 0 = .ok :=
  ⟨meets_of (by decide +kernel), by decide +kernel, by decide +kernel, ok_of (by decide +kernel)⟩

/-- The state that applies it: its entry is taken, and its tile has its turn. -/
def entered (s : State) : State :=
  touched (arriving s 0 4 false (atomic1 33 1 0)) (ledgerTake (arriving s 0 4 false (atomic1 33 1 0)) 3 1 (served 4 (atomic1 33 1 0) s))

theorem test_meets_AtomicApplies : Meets dev 0 4 (atomic1 33 1 0) 1 extC ∧ ledgerCount dev (7, 0) < 1024 ∧ ledgerFull dev 1 = false ∧
    dev.home.parked = [] ∧ TilesFree (arriving dev 0 4 false (atomic1 33 1 0)) (served 4 (atomic1 33 1 0) dev) ∧
    checkWrite (served 4 (atomic1 33 1 0) dev) 1 extC 0 = .ok ∧
    aheadOf (served 4 (atomic1 33 1 0) dev) 1 dev.home.nextId = false ∧ poisoned (entered dev) 3 5 = false ∧ writeRecalls extC none = [] ∧
    (match doChange 3 5 0 [] (fun old => setBytes old 248 8 (aopApply 33 8 (bytesAt old 248 8) 5 0)) (entered dev) with
      | (some _, .done _) => true | _ => false) = true :=
  ⟨meets_of (by decide +kernel), by decide +kernel, by decide +kernel, by decide +kernel, free_of (by decide +kernel),
    ok_of (by decide +kernel), by decide +kernel⟩

/-- Another ATOMIC waits for room in the ledger; a tile is poisoned. -/
def queuedDev : State := { dev with home := { dev.home with
  parked := [{ id := 0, port := 0, tx := { arriving dev 0 4 false (atomic1 33 1 0) with src := 8 }, why := .ledger 1 }], nextId := 1 } }
def poison5 : State := { dev with dir := { dev.dir with poison := [(tkey 3 5, ())] } }

theorem test_meets_AtomicApplies_waits : Meets queuedDev 0 4 (atomic1 33 1 0) 1 extC ∧
    aheadOf (served 4 (atomic1 33 1 0) queuedDev) 1 queuedDev.home.nextId = true ∧ Meets poison5 0 4 (atomic1 33 1 0) 1 extC ∧
    ledgerFull poison5 1 = false ∧ TilesFree (arriving poison5 0 4 false (atomic1 33 1 0)) (served 4 (atomic1 33 1 0) poison5) ∧
    poisoned (entered poison5) 3 5 = true :=
  ⟨meets_of (by decide +kernel), by decide +kernel, meets_of (by decide +kernel), by decide +kernel, free_of (by decide +kernel),
    by decide +kernel⟩

/-! ## FENCE and ATOMIC_ACK -/

def parkedDev : State := { dev with home := { dev.home with
  parked := [{ id := 3, port := 0, tx := read1, why := .journal 1 }], nextId := 10 } }

theorem test_meets_FenceAndAck : Arrives dev 0 (arriving dev 0 6 false read1) ∧ check1 (arriving dev 0 6 false read1) dev = none ∧
    outstanding (served 6 read1 dev) 7 dev.home.nextId = false ∧ Arrives parkedDev 0 (arriving parkedDev 0 6 false read1) ∧
    outstanding (served 6 read1 parkedDev) 7 parkedDev.home.nextId = true ∧ bindPart dev 0 (arriving dev 0 6 false read1) ≠ none ∧
    Arrives (ledgerDev [lentry 9 true]) 0 (arriving (ledgerDev [lentry 9 true]) 0 5 false { rq 2 3 5 1 [] with version := 1 }) :=
  ⟨arrives_of (by decide +kernel), by decide +kernel, by decide +kernel, arrives_of (by decide +kernel), by decide +kernel,
    by decide +kernel, arrives_of (by decide +kernel)⟩

def unboundDev : State := modPort 0 (fun p => { p with removed := true }) dev

/-- A FENCE of node 7 waits. -/
def fencing : State := { dev with home := { dev.home with
  parked := [{ id := 0, port := 0, tx := arriving dev 0 6 false read1, why := .fence 7 }], nextId := 1 } }

theorem test_meets_FenceAndAck_unbound : Arrives unboundDev 0 (arriving unboundDev 0 6 false read1) ∧
    check1 (arriving unboundDev 0 6 false read1) unboundDev = none ∧ bindPart unboundDev 0 (arriving unboundDev 0 6 false read1) = none :=
  ⟨arrives_of (by decide +kernel), by decide +kernel⟩

theorem test_meets_FenceAndAck_held : Arrives fencing 0 (arriving fencing 0 1 false read1) ∧
    fenceHeld (served 1 read1 fencing) 7 fencing.home.nextId = true ∧ Arrives fencing 0 (arriving fencing 0 2 false write1) :=
  ⟨arrives_of (by decide +kernel), by decide +kernel, arrives_of (by decide +kernel)⟩

/-! ## Caching -/

/-- The state in which a caching request is granted, and whether it can read the tile. -/
def agentOfReq (op : Byte) (s : State) : State := ensureAgent 3 7 (served op read1 s)
def turnOf (op : Byte) (s : State) : State := touched (arriving s 0 op false read1) (agentOfReq op s)
def backs (op : Byte) (s : State) : Bool := match backingRead 3 5 extC (turnOf op s) with | (.ok _, _) => true | _ => false

theorem test_meets_CachingGrants_none : Meets dev 0 0x10 read1 1 extC ∧ checkCache (served 0x10 read1 dev) 1 extC 7 false = .ok ∧
    Caches (arriving dev 0 0x10 false read1) (agentOfReq 0x10 dev) extC 0 ∧ dirOf (turnOf 0x10 dev) 3 5 = none ∧ backs 0x10 dev = true ∧
    Meets dev 0 0x11 read1 1 extC ∧ checkCache (served 0x11 read1 dev) 1 extC 7 true = .ok ∧
    Caches (arriving dev 0 0x11 false read1) (agentOfReq 0x11 dev) extC 0 :=
  ⟨meets_of (by decide +kernel), ok_of (by decide +kernel), caches_of (by decide +kernel), by decide +kernel, by decide +kernel,
    meets_of (by decide +kernel), ok_of (by decide +kernel), caches_of (by decide +kernel)⟩

theorem test_meets_CachingGrants_shared : Meets (withDir (entry .s 0 (.ptrs [1]))) 0 0x10 read1 1 extC ∧
    Caches (arriving dev 0 0x10 false read1) (agentOfReq 0x10 (withDir (entry .s 0 (.ptrs [1])))) extC 0 ∧
    dirOf (turnOf 0x10 (withDir (entry .s 0 (.ptrs [1])))) 3 5 = some (entry .s 0 (.ptrs [1])) ∧
    Meets (withDir (entry .s 0 (.ptrs [0]))) 0 0x12 read1 1 extC ∧
    Caches (arriving dev 0 0x12 false read1) (agentOfReq 0x12 (withDir (entry .s 0 (.ptrs [0])))) extC 0 ∧
    dirOf (turnOf 0x12 (withDir (entry .s 0 (.ptrs [0])))) 3 5 = some (entry .s 0 (.ptrs [0])) :=
  ⟨meets_of (by decide +kernel), caches_of (by decide +kernel), by decide +kernel, meets_of (by decide +kernel),
    caches_of (by decide +kernel), by decide +kernel⟩

theorem test_meets_CachingGrants_owner : Meets (withDir (entry .m 0 (.ptrs []))) 0 0x10 read1 1 extC ∧
    Caches (arriving dev 0 0x10 false read1) (agentOfReq 0x10 (withDir (entry .m 0 (.ptrs [])))) extC 0 ∧
    dirOf (turnOf 0x10 (withDir (entry .m 0 (.ptrs [])))) 3 5 = some (entry .m 0 (.ptrs [])) :=
  ⟨meets_of (by decide +kernel), caches_of (by decide +kernel), by decide +kernel⟩

/-- Node 7 without an agent index, which the request gives it. -/
def extN : Extent := { extC with holders := [{ host7 with agent := none }, host8] }

theorem test_meets_CachingGrants_first : Meets (withExt 3 extN) 0 0x10 read1 1 extN ∧
    Caches (arriving dev 0 0x10 false read1) (agentOfReq 0x10 (withExt 3 extN)) extC 0 :=
  ⟨meets_of (by decide +kernel), caches_of (by decide +kernel)⟩

theorem test_meets_AgentMessages : Arrives (withDir (entry .e 0 (.ptrs []))) 0 (arriving (withDir (entry .e 0 (.ptrs []))) 0 0x13 false (rq 0 3 5 1 [])) ∧
    check1 (arriving dev 0 0x13 false (rq 0 3 5 1 [])) (withDir (entry .e 0 (.ptrs []))) = none ∧
    extOf (withDir (entry .e 0 (.ptrs []))) 3 = some extC ∧ dirOf (withDir (entry .e 0 (.ptrs []))) 3 5 = some (entry .e 0 (.ptrs [])) ∧
    agentOf extC 7 = some 0 ∧ Arrives (withDir (entry .s 0 (.ptrs [0, 1]))) 0 (arriving (withDir (entry .s 0 (.ptrs [0, 1]))) 0 0x13 false (rq 0 3 5 1 [])) ∧
    Arrives (withDir (entry .e 0 (.ptrs []))) 0 (arriving (withDir (entry .e 0 (.ptrs []))) 0 0x15 false read1) ∧ isSharer 0 (.ptrs [0, 1]) = true ∧
    Arrives (withDir (entry .m 0 (.ptrs []))) 0 (arriving (withDir (entry .m 0 (.ptrs []))) 0 0x15 false read1) :=
  ⟨arrives_of (by decide +kernel), by decide +kernel, by decide +kernel, by decide +kernel, by decide +kernel,
    arrives_of (by decide +kernel), arrives_of (by decide +kernel), by decide +kernel, arrives_of (by decide +kernel)⟩

theorem test_meets_AgentMessages_turn : TilesFree (arriving dev 0 0x13 false (rq 0 3 5 1 [])) (withDir (entry .e 0 (.ptrs []))) ∧
    dirOf (seen 0x13 (rq 0 3 5 1 []) (withDir (entry .e 0 (.ptrs [])))) 3 5 = some (entry .e 0 (.ptrs [])) ∧
    dirOf (seen 0x15 (rq 0 3 5 1 []) (withDir (entry .m 0 (.ptrs [])))) 3 5 = some (entry .m 0 (.ptrs [])) ∧
    dirOf (seen 0x15 (rq 0 3 5 1 []) (withDir (entry .s 0 (.ptrs [0, 1])))) 3 5 = some (entry .s 0 (.ptrs [0, 1])) :=
  ⟨free_of (by decide +kernel), by decide +kernel⟩

def wbTx : Tx := rq 1 3 5 1 [tile42]
def wbDone (s : State) : Bool := match backingWrite {} 3 5 extC tile42 (served 0x14 wbTx s) with | .done _ => true | _ => false

theorem test_meets_AgentMessages_writeback : Meets (withDir (entry .m 0 (.ptrs []))) 0 0x14 wbTx 1 extC ∧
    checkCache (served 0x14 wbTx (withDir (entry .m 0 (.ptrs [])))) 1 extC 7 true = .ok ∧ wbDone (withDir (entry .m 0 (.ptrs []))) = true ∧
    Meets (withDir (entry .o 1 (.ptrs [0]))) 0 0x14 wbTx 1 extC ∧ isBusy (served 0x14 wbTx (withDir (entry .o 1 (.ptrs [0])))) 3 5 = false :=
  ⟨meets_of (by decide +kernel), ok_of (by decide +kernel), by decide +kernel, meets_of (by decide +kernel), by decide +kernel⟩

/-- A tile of node 8's read that waits for node 7's answer. -/
def busy1 : Busy := {
  slot := 3, tile := 5, why := .request 0 0 { arriving dev 0 0x01 false read1 with src := 8 },
  recalls := [{ node := 7, agent := 0, tag := 9, inv := false }], data := none }
def busyDev : State :=
  let s := withDir (entry .e 0 (.ptrs []))
  { s with home := { s.home with busy := [busy1], nextId := 1 } }

theorem test_meets_AgentMessages_busy : Arrives busyDev 0 (arriving busyDev 0 0x13 false (rq 0 3 5 1 [])) ∧
    check1 (arriving busyDev 0 0x13 false (rq 0 3 5 1 [])) busyDev = none ∧ isBusy busyDev 3 5 = true ∧
    Arrives busyDev 0 (arriving busyDev 0 0x15 false read1) :=
  ⟨arrives_of (by decide +kernel), by decide +kernel, by decide +kernel, arrives_of (by decide +kernel)⟩

theorem test_meets_RecallAnswers : Arrives busyDev 0 (arriving busyDev 0 0x16 false (rq 0 3 5 1 [])) ∧ busyOf busyDev 3 5 = some busy1 ∧
    busy1.recalls.find? (fun y => y.tag == (9 : BitVec 16) && y.node == 7) = some { node := 7, agent := 0, tag := 9, inv := false } ∧
    Arrives dev 0 (arriving dev 0 0x16 false (rq 0 3 5 1 [])) ∧ busyOf dev 3 5 = none ∧
    Arrives busyDev 0 (arriving busyDev 0 0x17 false { rq 0 3 5 1 [] with tiles := [tile42] }) :=
  ⟨arrives_of (by decide +kernel), by decide +kernel, by decide +kernel, arrives_of (by decide +kernel), by decide +kernel,
    arrives_of (by decide +kernel)⟩

/-! ## Versions -/

def wr4 : Tx := { rq 1 4 5 1 [] with qual := 1, version := 2, length := 0 }
def rd4 (v : Word32) : Tx := { wr4 with qual := 0, version := v }
def extFull : Extent := { extW with layers := (List.range 8).map (fun i => layer (i + 1) .sealed), latest := 8 }
def extLast : Extent := { extW with latest := 0xFFFFFFFF }
def extLapsed : Extent := { extV with leaseValid := false }

theorem test_meets_VersionMessages_writer : Meets (withExt 4 extW) 0 0x28 { wr4 with version := 0 } 1 extW ∧ extW.mode = .versioned ∧
    (1 : BitVec 8).getLsbD 0 = true ∧ leaseHolder extW 1 = true ∧ extW.openV = 0 ∧ liveCount extW < 8 ∧ extW.latest < 0xFFFFFFFF ∧
    Meets dev 0 0x28 wr4 1 extV ∧ layerOpen extV = true ∧ extV.openV ≠ 0 ∧ leaseHolder extV 1 = true ∧ extV.publishing = none ∧
    Meets (withExt 4 extLapsed) 0 0x28 wr4 1 extLapsed ∧ leaseHolder extLapsed 1 = false ∧
    Meets dev 0 0x29 wr4 1 extV :=
  ⟨meets_of (by decide +kernel), by decide +kernel, by decide, by decide +kernel, by decide +kernel, by decide +kernel, by decide +kernel,
    meets_of (by decide +kernel), by decide +kernel, by decide +kernel, by decide +kernel, by decide +kernel,
    meets_of (by decide +kernel), by decide +kernel, meets_of (by decide +kernel)⟩

theorem test_meets_VersionMessages_full : Meets (withExt 4 extFull) 0 0x28 { wr4 with version := 0 } 1 extFull ∧ 8 ≤ liveCount extFull ∧
    Meets (withExt 4 extLast) 0 0x28 { wr4 with version := 0 } 1 extLast ∧ 0xFFFFFFFF ≤ extLast.latest :=
  ⟨meets_of (by decide +kernel), by decide +kernel, meets_of (by decide +kernel), by decide +kernel⟩

theorem test_meets_VersionMessages_reader : Meets dev 0 0x28 (rd4 1) 1 extV ∧ sealedLive extV 1 = true ∧ layerIdx extV 1 = some 0 ∧
    Meets dev 0 0x28 (rd4 0) 1 extV ∧ extV.latest = 1 ∧ Meets dev 0 0x28 (rd4 5) 1 extV ∧ sealedLive extV 5 = false ∧
    Meets dev 0 0x29 (rd4 1) 1 extV ∧ holderOf extV 7 = some { host7 with pins := 1 } ∧ pinsV extV { host7 with pins := 1 } 1 = true :=
  ⟨meets_of (by decide +kernel), by decide +kernel, by decide +kernel, meets_of (by decide +kernel), by decide +kernel,
    meets_of (by decide +kernel), by decide +kernel, meets_of (by decide +kernel), by decide +kernel⟩

def publ : Extent := { extV with publishing := some (.host 0 wr4), holders := [] }
def publDev : State := withExt 4 publ
def undrained : State := { publDev with home := { publDev.home with
  parked := [{ id := 0, port := 0, tx := arriving dev 0 2 false { rq 1 4 5 1 [tile42] with version := 2 }, why := .journal 1 }] } }

theorem test_meets_VersionMessages_publish : Meets dev 0 0x2A wr4 1 extV ∧ Meets dev 0 0x2A { wr4 with version := 1 } 1 extV ∧
    Meets (withExt 4 { extV with publishing := some (.host 0 wr4) }) 0 0x2A wr4 1 { extV with publishing := some (.host 0 wr4) } ∧
    extOf publDev 4 = some publ ∧ publ.publishing = some (.host 0 wr4) ∧ drained publDev 4 publ = true ∧
    extOf undrained 4 = some publ ∧ publDev.home.parked = [] :=
  ⟨meets_of (by decide +kernel), meets_of (by decide +kernel), meets_of (by decide +kernel), by decide +kernel⟩

theorem test_meets_VersionMessages_undrained : drained undrained 4 publ = false := by decide +kernel

/-! ## INVALIDATE -/

/-- Partition 1 may reach partition 2. -/
def reachDev (s : State) : State := modPart 1 (fun p => { p with applied := p.applied.map (fun c => { c with
  template := c.template.map (fun t => { t with reach := [{ owner := 2, hold := true, write := true, lease := true, cache := true }] }) }) }) s
def inval3 : Tx := { rq 1 5 5 1 [] with length := 3 }

theorem test_meets_InvalidateMessages : Meets dev 0 0x20 inval3 1 extR ∧ extR.mode = .sharedRead ∧ extR.owner = 1 ∧
    Meets dev 0 0x20 { rq 1 3 5 1 [] with length := 3 } 1 extC ∧ extC.mode ≠ .sharedRead ∧
    Meets (reachDev (withExt 5 { extR with owner := 2 })) 0 0x20 inval3 1 { extR with owner := 2 } :=
  ⟨meets_of (by decide +kernel), by decide +kernel, by decide +kernel, meets_of (by decide +kernel), by decide +kernel,
    meets_of (by decide +kernel)⟩

/-- A store of node 7 on the flow of the INVALIDATE waits for its tile. -/
def storing : State := { dev with home := { dev.home with
  parked := [{ id := 0, port := 0, tx := arriving dev 0 2 false (rq 1 3 5 1 [tile42]), why := .journal 1 }], nextId := 1 } }

theorem test_meets_InvalidateMessages_stores : Meets storing 0 0x20 inval3 1 extR ∧ storesBefore (served 0x20 inval3 storing) 7 1 storing.home.nextId = true ∧
    storesBefore (served 0x20 inval3 dev) 7 1 dev.home.nextId = false ∧ inval3.cls ≠ 4 ∧
    Arrives dev 2 (arriving dev 2 0x20 false { rq9 4 5 5 with length := 3, targets := [7] }) ∧
    check1 (arriving dev 2 0x20 false { rq9 4 5 5 with length := 3, targets := [7] }) dev = none :=
  ⟨meets_of (by decide +kernel), by decide +kernel, by decide +kernel, by decide +kernel, arrives_of (by decide +kernel), by decide +kernel⟩

def inval (w : List Node) : Inval := {
  id := 9, slot := 5, tile := 5, count := 1, whole := false, writer := some (0, { arriving dev 0 0x20 false (rq 1 5 5 1 []) with src := 8 }),
  force := none, waiting := w, answered := 3 }
def invalDev (w : List Node) : State := { dev with ext := { dev.ext with invals := [inval w] } }

theorem test_meets_InvalidateMessages_answer : Arrives (invalDev [7, 9]) 0 (arriving (invalDev [7, 9]) 0 0x20 true (rq 4 5 5 0 [])) ∧
    (invalDev [7, 9]).ext.invals.find? (fun y => BitVec.ofNat 16 y.id == 9) = some (inval [7, 9]) ∧ (7 : Node) ∈ (inval [7, 9]).waiting ∧
    (inval [7, 9]).waiting.filter (· ≠ 7) ≠ [] ∧ (inval [7]).waiting.filter (· ≠ 7) = [] ∧
    Arrives (invalDev [7]) 0 (arriving (invalDev [7]) 0 0x20 true (rq 4 5 5 0 [])) ∧
    Arrives (invalDev [7]) 0 (arriving (invalDev [7]) 0 0x20 true { rq 4 5 5 0 [] with tag := 10 }) ∧
    (invalDev [7]).ext.invals.find? (fun y => BitVec.ofNat 16 y.id == 10) = none ∧ (inval []).waiting = [] :=
  ⟨arrives_of (by decide +kernel), by decide +kernel, by decide +kernel, by decide +kernel, by decide +kernel,
    arrives_of (by decide +kernel), arrives_of (by decide +kernel), by decide +kernel⟩

/-- A holder's answer, and a switch's for two holders below it. -/
theorem test_meets_InvalidateMessages_next : ((invalAnswered 7 1 (inval [7, 9]) dev).1.waiting, (invalAnswered 7 1 (inval [7]) dev).1.waiting) = ([9], []) ∧
    (inval [7, 9]).branches.find? (fun b => b.1 == 7) = none ∧
    { inval [7, 8] with branches := [(9, [7, 8])] }.branches.find? (fun b => b.1 == 9) = some (9, [7, 8]) ∧
    ([7, 8] : List Node).length ≤ 2 ∧ { inval [] with up := none }.writer.isSome = true := by decide +kernel

/-! ## Rehoming -/

def extM : Extent := { extC with state := .migrating, fwdNode := 9, fwdSlot := 8 }
def extA : Extent := { extC with state := .arriving, fwdNode := 9, fwdSlot := 3, base := 6 }
def pullT : PullTile := {
  tile := 5, dstate := 0, owner := 0, ptrs := [], groups := none, poison := false, zero := false, backVersion := none, copies := [],
  data := some tile42 }
def pullX : PullExt := {
  mode := 1, owner := 1, latest := 0, openV := 0, leasePart := 0, leaseValid := false, holders := [], layers := [], modules := [], base := 0, deadline := 0 }

theorem test_meets_RehomingMessages_pull : Arrives dev 2 (arriving dev 2 0x48 false (rq9 6 11 5)) ∧ extOf dev 11 = none ∧
    Arrives dev 2 (arriving dev 2 0x48 false (rq9 6 3 5)) ∧ extOf dev 3 = some extC ∧ extC.state ≠ .migrating ∧
    Arrives (withExt 3 extM) 2 (arriving (withExt 3 extM) 2 0x48 false { rq9 6 3 5 with qual := 1 }) ∧ extOf (withExt 3 extM) 3 = some extM ∧
    Arrives (withExt 3 extM) 2 (arriving (withExt 3 extM) 2 0x48 false { rq9 6 3 5 with qual := 4 }) ∧ isBusy (withExt 3 extM) 3 5 = false ∧
    hasWaiters (withExt 3 extM) 3 5 = false :=
  ⟨arrives_of (by decide +kernel), by decide +kernel, arrives_of (by decide +kernel), by decide +kernel, by decide +kernel,
    arrives_of (by decide +kernel), by decide +kernel, arrives_of (by decide +kernel), by decide +kernel⟩

/-- A tile that has been handed over. -/
def handedDev : State := { withExt 3 extM with ext := { (withExt 3 extM).ext with handed := [(tkey 3 5, pullT)] } }

theorem test_meets_RehomingMessages_again : Arrives handedDev 2 (arriving handedDev 2 0x48 false (rq9 6 3 5)) ∧
    tget handedDev.ext.handed (tkey 3 5) = some pullT ∧ tget (withExt 3 extM).ext.handed (tkey 3 5) = none ∧ extM.publishing = none ∧
    Arrives (withExt 3 extM) 2 (arriving dev 2 0x48 false { rq9 6 3 5 with qual := 2, trailer := mkTrailer 8 224 }) ∧
    pendingOf (withExt 3 extM) (7, 0) = false :=
  ⟨arrives_of (by decide +kernel), by decide +kernel, by decide +kernel, by decide +kernel, arrives_of (by decide +kernel), by decide +kernel⟩

/-- Nothing that waits for a pull. -/
def noPulls (s : State) : Bool := s.home.parked.all (fun w => match w.why with | .pull _ _ => false | _ => true)

def taking (b : PullBody) : Tx := { rq9 6 3 5 with body := some b }
def tileBody : PullBody := { ext := none, tiles := [pullT], ledger := [] }
def extBody : PullBody := { ext := some pullX, tiles := [], ledger := [] }

theorem test_meets_RehomingMessages_response : Arrives (withExt 8 extA) 2 (arriving (withExt 8 extA) 2 0x48 true (taking tileBody)) ∧
    arrivingSlot (withExt 8 extA) 9 3 = some 8 ∧ noPulls (takeTile 8 pullT (taken 2 (arriving dev 2 0x48 true (taking tileBody)) (withExt 8 extA))) = true ∧
    Arrives (withExt 8 { extA with known := false }) 2 (arriving (withExt 8 { extA with known := false }) 2 0x48 true (taking extBody)) ∧
    arrivingSlot (withExt 8 { extA with known := false }) 9 3 = some 8 ∧
    Arrives (withExt 8 extA) 2 (arriving dev 2 0x48 true (rq9 6 3 5)) ∧ (rq9 6 3 5).body = none ∧
    Arrives dev 2 (arriving dev 2 0x48 true (taking extBody)) ∧ arrivingSlot dev 9 3 = none :=
  ⟨arrives_of (by decide +kernel), by decide +kernel, by decide +kernel, arrives_of (by decide +kernel), by decide +kernel,
    arrives_of (by decide +kernel), by decide +kernel, arrives_of (by decide +kernel), by decide +kernel⟩

theorem test_meets_RehomingMessages_yield : Arrives dev 2 (arriving dev 2 0x49 false { rq9 0 3 5 with version := 6 }) ∧
    extC.homeEpoch.toNat < (6 : Word32).toNat ∧ extC.state = .active ∧ Arrives dev 2 (arriving dev 2 0x49 false { rq9 0 3 5 with version := 5 }) ∧
    (5 : Word32).toNat = extC.homeEpoch.toNat ∧ Arrives (withExt 3 extM) 2 (arriving (withExt 3 extM) 2 0x49 false { rq9 0 3 5 with version := 4 }) ∧
    (4 : Word32).toNat < extM.homeEpoch.toNat ∧ extM.state = .migrating :=
  ⟨arrives_of (by decide +kernel), by decide +kernel, by decide +kernel, arrives_of (by decide +kernel), by decide +kernel,
    arrives_of (by decide +kernel), by decide +kernel⟩

end Sys2Proof.Tests
end

