-- ==== Sys2Proof/Tests/Slice0.lean ====
section
/-! SUPPORT. Tests of the model: for each check of WellFormed a command that it refuses, and small effects whose results
are worked out from the manual's words or from the standards that it names. -/

namespace Sys2Proof.Tests

set_option Elab.async false

open Sys2Proof Sys2Proof.Machine

/-! ## Ill-formed commands -/

theorem test_wf_accepts : (Instr.rdTile 191 tx7).wf = true ∧ (Instr.add x0 ops).wf = true ∧ (Instr.rows 4095).wf = true ∧
    (Instr.readExtent (fm 3) 5).wf = true ∧ (Instr.coreFault 2303 0).wf = true := by decide +kernel

theorem test_wf_header : (Instr.rdTile 0 { tx7 with cls := 7 }).wf = false ∧ (Instr.rdTile 0 { tx7 with hop := 1024 }).wf = false ∧
    (Instr.rdTile 0 { tx7 with ptag := 16 }).wf = false ∧ (Instr.rdTile 0 { tx7 with colour := 3 }).wf = false ∧
    (Instr.rdTile 0 { tx7 with length := 17 }).wf = false ∧
    (Instr.wrTile 0 { tx7 with tiles := List.replicate 17 tile42 }).wf = false := by decide +kernel

theorem test_wf_numbers : (Instr.portFault 192).wf = false ∧ (Instr.itemDispatch 16).wf = false ∧ (Instr.rows 4096).wf = false ∧
    (Instr.versionSweep 262144).wf = false ∧ (Instr.flowGapLoss 7 7).wf = false ∧ (Instr.laneFault 0 4).wf = false ∧
    (Instr.egressSend 384).wf = false ∧ (Instr.rebuildRow 256).wf = false ∧ (Instr.channelFault 512).wf = false ∧
    (Instr.latheOpComplete 2048).wf = false ∧ (Instr.coreHang 2304).wf = false ∧ (Instr.sentinelTrip 64).wf = false ∧
    (Instr.fieldIsolated 8).wf = false ∧ (Instr.stackHot 16).wf = false := by decide +kernel

theorem test_wf_fetch : (Instr.codeFetchComplete 0 1 63).wf = true ∧ (Instr.codeFetchComplete 2048 1 0).wf = false ∧
    (Instr.codeFetchComplete 0 16 0).wf = false ∧ (Instr.codeFetchComplete 0 1 64).wf = false := by decide +kernel

theorem test_wf_contexts : (Instr.add { x0 with core := 2048 } ops).wf = false ∧ (Instr.add { x0 with ctx := 4 } ops).wf = false ∧
    (Instr.mirrorResilver (.failing .extentMap 2)).wf = false := by decide +kernel

theorem test_wf_fields : (Instr.add x0 { ops with pred := 8 }).wf = false ∧ (Instr.add x0 { ops with d := 32 }).wf = false ∧
    (Instr.add x0 { ops with a := 32 }).wf = false ∧ (Instr.add x0 { ops with b := 32 }).wf = false ∧
    (Instr.add x0 { ops with c := 32 }).wf = false := by decide +kernel

theorem test_wf_request : (Instr.readExtent { fm 3 with part := 16 } 5).wf = false := by decide +kernel

/-! ## Core instructions (R216) -/

/-- Register 1 after an instruction of context 0 with g2 and g3. -/
def gives (c : Instr) (a b : Word64) : Option Word64 := match exec c (alone (at3 [(2, a), (3, b)]) c) with
  | .next t => (ctxOf t x0).map (fun k => gget k 1)
  | _ => none

theorem test_add_wraps : gives (.add x0 ops) (-1) 2 = some 1 := by decide +kernel
theorem test_sub_borrows : gives (.sub x0 ops) 1 2 = some (-1) := by decide +kernel
theorem test_mulhu_is_unsigned : gives (.mulhu x0 ops) (-1) (-1) = some (-2) := by decide +kernel
theorem test_divu_by_zero : gives (.divu x0 ops) 5 0 = some (-1) := by decide +kernel
theorem test_remu_by_zero : gives (.remu x0 ops) 5 0 = some 5 := by decide +kernel
theorem test_sar_keeps_sign : gives (.sar x0 ops) (-8) 1 = some (-4) := by decide +kernel
theorem test_shr_clears_sign : gives (.shr x0 ops) 0x8000000000000000 63 = some 1 := by decide +kernel
theorem test_min_is_signed : gives (.minS x0 ops) (-1) 1 = some (-1) := by decide +kernel

/-! ## Checks and digests: published vectors -/

/-- CRC-32C of the bytes "123456789" (R125 names the Castagnoli polynomial). -/
theorem test_crc32c : crc32c 9 0x393837363534333231 = 0xE3069283 := by decide +kernel

/-- SHA-256 of "abc" (FIPS 180-4). -/
theorem test_sha256 : sha256 [0x61, 0x62, 0x63] = 0xba7816bf8f01cfea414140de5dae2223b00361a396177a9cb410ff61f20015ad := by
  decide +kernel

/-! ## Numbers (R270, IEEE 754) -/

theorem test_f32_add : f32add 0x3FC00000 0x40200000 = 0x40800000 := by decide +kernel
/-- 1 + 2^-24 ties to the even 1. -/
theorem test_f32_tie : f32add 0x3F800000 0x33800000 = 0x3F800000 := by decide +kernel
theorem test_f32_mul_overflows : f32mul 0x7F7FFFFF 0x40000000 = 0x7F800000 := by decide +kernel
/-- R205: 1/3 is 0x3EAAAAAB rounded; one ulp off is in reach, two are not. -/
theorem test_sfu_rcp_bound : (sfuNear 0 (f32 0x40400000) (sfuReal 0 false 3 0) 0x3EAAAAAB,
    sfuNear 0 (f32 0x40400000) (sfuReal 0 false 3 0) 0x3EAAAAAA,
    sfuNear 0 (f32 0x40400000) (sfuReal 0 false 3 0) 0x3EAAAAAC) = (true, true, false) := by decide +kernel
/-- R205: 2^0.5 is the root of two, and sin π/6 is one half, within their bounds. -/
theorem test_sfu_bounds : (sfuNear 3 (f32 0x3F000000) (sfuReal 3 false 1 (-1)) 0x3FB504F3,
    sfuNear 3 (f32 0x3F000000) (sfuReal 3 false 1 (-1)) 0x3FB504F6,
    sfuNear 5 (f32 0x3E2AAAAB) (sfuReal 5 false 11184811 (-26)) 0x3F000000) = (true, false, true) := by decide +kernel

end Sys2Proof.Tests
end

/-! # Extents and maps (chapter 2): the proofs of their statements -/

namespace Sys2Proof.Machine

/-! ## Requests of extent operations (R35 to R38, R50) -/

/-- A request of extent operations that meets no check is carried out at once, or joins the operations that wait. -/
theorem extentReq_eq {h : Mgmt} {s : State} {code : Nat} {ops : List ExtentOp} (hs : Requests h s)
    (hd : codeDefined code = true) (hl : code = 0x3A → ops ≠ [] ∧ ops.length ≤ 4096) :
    extentReq h code ops s = .next (if mustWait ops s
      then { s with mgmt := { s.mgmt with waiting := s.mgmt.waiting ++ [.batch h code ops] } } else runBatch h code ops s) := by
  have hlen : ¬ (code = 0x3A ∧ (ops.isEmpty ∨ 4096 < ops.length)) := by
    rintro ⟨hc, he | hlt⟩
    · exact (hl hc).1 (List.isEmpty_iff.1 he)
    · exact absurd (hl hc).2 (by omega)
  refine request_wait hs (hs.fm hd) ?_
  rw [if_neg hlen]
  split <;> rfl

/-- The row of one extent operation, under a code of its own. -/
theorem extentReq_one {h : Mgmt} {s : State} {code : Nat} (hs : Requests h s) (o : ExtentOp)
    (hd : codeDefined code = true := by decide) (hc : code ≠ 0x3A := by decide) :
    (mustWait [o] s = false → extentReq h code [o] s = .next (runBatch h code [o] s)) ∧
    (mustWait [o] s = true → extentReq h code [o] s =
      .next { s with mgmt := { s.mgmt with waiting := s.mgmt.waiting ++ [.batch h code [o]] } }) := by
  constructor <;> intro hw <;> rw [extentReq_eq hs hd (fun e => absurd e hc), hw] <;> rfl

/-- Settles O43: each row is its operation's request, whose checks `Requests` meets. -/
theorem extentRequests : Obligations.ExtentRequests := by
  unfold Obligations.ExtentRequests
  intro h s hs
  refine ⟨?_, ?_, ?_, ?_, ?_, ?_, ?_, ?_, ?_, ?_, ?_⟩
  case refine_6 =>
    exact fun slot => ⟨extentReq_one hs (.release slot), extentReq_one hs (.rehomeFinish slot),
      extentReq_one hs (.readExtent slot), extentReq_one hs (.revokeLease slot), extentReq_one hs (.discardOpen slot)⟩
  case refine_11 =>
    intro ops hne hlen
    have hb := extentReq_eq (code := 0x3A) hs (by decide) (fun _ => ⟨hne, hlen⟩)
    constructor <;> intro hw <;> rw [hw] at hb <;> exact hb
  · exact fun slot mode owner group base hs' => extentReq_one hs (.attach slot mode owner group base hs')
  · exact fun slot hs' => extentReq_one hs (.grow slot hs')
  · exact fun slot ns d => extentReq_one hs (.notice slot ns d)
  · exact fun slot ns => extentReq_one hs (.cancel slot ns)
  · exact fun slot ns f => extentReq_one hs (.force slot ns f)
  · exact fun slot n ss e g b => extentReq_one hs (.rehomeIn slot n ss e g b)
  · exact fun slot n ds e => extentReq_one hs (.rehomeOut slot n ds e)
  · exact fun slot p => extentReq_one hs (.grantLease slot p)
  · exact fun ms => extentReq_one hs (.setRecallTimeout ms)

end Sys2Proof.Machine

namespace Sys2Proof.Machine

/-! ## The operations of R35 and of leases, where they are legal -/

theorem opAttach_legal {slot mode owner group base : Nat} {hs : List HolderSpec} {s : State} (hslot : slot ≤ 262143)
    (hfree : extOf s slot = none) (hmode : modeGranted s owner (modeOf mode) = true)
    (hbase : grantedBase s owner group base = true) (hhold : holdersBad s owner (modeOf mode) [] hs = none)
    (hback : backingUsed s group base = false) (hup : groupUp s group = true) :
    opAttach slot mode owner group base hs s = doneOp slot true
      (setExt slot (newExtent (modeOf mode) owner group base slot (addHolders [] hs []) s) s) := by
  simp [opAttach, slotOk, hslot, hfree, hmode, hbase, hhold, hback, hup]

/-- A slot that is not FREE, or that no home has, is looked at before everything else (log entry 18). -/
theorem opAttach_taken {slot mode owner group base : Nat} {hs : List HolderSpec} {s : State}
    (h : extOf s slot ≠ none ∨ 262143 < slot) : opAttach slot mode owner group base hs s = refusedOp .state s := by
  refine if_pos ?_
  rcases h with h | h
  · simp [Option.isSome_iff_ne_none.2 h]
  · simp [slotOk, h]

theorem opGrow_legal {slot : Nat} {hs : List HolderSpec} {s : State} {e : Extent} (he : extOf s slot = some e)
    (hl : live e = true) (hb : holdersBad s e.owner e.mode e.holders hs = none) :
    opGrow slot hs s = doneOp slot true (setExt slot { e with holders := addHolders e.dead hs e.holders, state := .active } s) := by
  simp [opGrow, he, hl, hb]

/-- At an ACTIVE extent any holders that are not FORCED may be given notice (R36). -/
theorem opNotice_active {slot : Nat} {ns : List Node} {d : Word32} {s : State} {e : Extent} (he : extOf s slot = some e)
    (hl : live e = true) (hn : namedOk e ns = true) (ha : e.state = .active) :
    opNotice slot ns d s =
      let hs := e.holders.map (fun h => if ns.contains h.node then { h with hstate := .noticed } else h)
      doneOp slot false (postHosts e.owner 0x01 slot ns.eraseDups d
        (setExt slot { e with holders := hs, deadline := d, state := noticeState hs } s)) := by
  simp [opNotice, he, hl, hn, ha]

theorem opCancel_legal {slot : Nat} {ns : List Node} {s : State} {e : Extent} (he : extOf s slot = some e)
    (hl : live e = true) (hn : namedOk e ns = true) :
    opCancel slot ns s =
      let hs := e.holders.map (fun h => if ns.contains h.node && h.hstate == .noticed then { h with hstate := .attached } else h)
      doneOp slot false (setExt slot { e with
        holders := hs, deadline := if hs.any (fun h => h.hstate == .noticed) then e.deadline else 0, state := noticeState hs } s) := by
  simp [opCancel, he, hl, hn]

theorem opForce_named {slot : Nat} {ns : List Node} {s : State} {e : Extent} (he : extOf s slot = some e)
    (hl : live e = true) (hn : namedOk e ns = true) :
    opForce slot ns false s = doneOp slot true (forcePoint slot e ns.eraseDups false s) := by
  simp [opForce, he, hl, hn]

/-- A force toward FREE names every holder that is not FORCED, whatever its message lists (R484). -/
theorem opForce_toFree {slot : Nat} {ns : List Node} {s : State} {e : Extent} (he : extOf s slot = some e) (hl : live e = true) :
    opForce slot ns true s =
      doneOp slot true (forcePoint slot e ((e.holders.filter (fun h => h.hstate ≠ .forced)).map (·.node)) true s) := by
  simp [opForce, he, hl]

/-- RELEASE frees an ACTIVE extent without holders or lease, and refuses every other. -/
theorem opRelease_eq {slot : Nat} {s : State} {e : Extent} (he : extOf s slot = some e) :
    opRelease slot s = if e.state = .active ∧ e.holders = [] ∧ e.leaseValid = false
      then { st := .ok, body := [], installs := true, s := freeSlot slot s } else refusedOp .state s := by
  simp [opRelease, he]

theorem opRehomeOut_active {slot : Nat} {n : Node} {d : Nat} {v : Word32} {s : State} {e : Extent} (he : extOf s slot = some e)
    (ha : e.state = .active) : opRehomeOut slot n d v s = doneOp slot true
      (setExt slot { e with state := .migrating, fwdNode := n, fwdSlot := d, homeEpoch := v } s) := by
  simp [opRehomeOut, he, ha]

/-- REHOME_FINISH frees a MIGRATING extent every tile of which has been handed over, and refuses every other (log entry 159). -/
theorem opRehomeFinish_eq {slot : Nat} {s : State} {e : Extent} (he : extOf s slot = some e) :
    opRehomeFinish slot s = if e.state = .migrating ∧ allHanded s slot = true
      then { st := .ok, body := [], installs := true, s := freeSlot slot s } else refusedOp .state s := by
  simp [opRehomeFinish, he]

theorem opGrantLease_legal {slot p : Nat} {s : State} {e : Extent} (he : extOf s slot = some e)
    (hg : grants s p e.owner (·.lease) = true) (hm : e.mode = .versioned) (hl : live e = true) (hv : e.leaseValid = false) :
    opGrantLease slot p s =
      let e1 := { e with leasePart := p, leaseValid := true }
      doneOp slot false (postLease .leaseGranted 0x08 slot e1 (setExt slot e1 s)) := by
  simp [opGrantLease, he, hg, hm, hl, hv]

theorem opRevokeLease_valid {slot : Nat} {s : State} {e : Extent} (he : extOf s slot = some e) (hv : e.leaseValid = true) :
    opRevokeLease slot s = doneOp slot false (postLease .leaseLost 0x09 slot e (setExt slot { e with leaseValid := false } s)) := by
  simp [opRevokeLease, he, hv]

theorem opDiscard_legal {slot : Nat} {s : State} {e : Extent} (he : extOf s slot = some e) (hv : e.leaseValid = false)
    (ho : layerOpen e = true) (hp : e.publishing = none) : opDiscard slot s = doneOp slot false (startDiscard slot s) := by
  simp [opDiscard, he, hv, ho, hp]

theorem opRehomeIn_taken {slot : Nat} {n : Node} {ss : Nat} {v : Word32} {g b : Nat} {s : State} {e : Extent}
    (he : extOf s slot = some e) : opRehomeIn slot n ss v g b s = refusedOp .state s := by
  simp [opRehomeIn, he]

/-- The entry of an extent that has yet to ask its old home for its own state (R54). -/
def arrivingExtent (slot : Nat) (n : Node) (ss : Nat) (v : Word32) (g b : Nat) (s : State) : Extent :=
  { newExtent .priv 0 g b slot [] s with homeEpoch := v, state := .arriving, fwdNode := n, fwdSlot := ss, known := false }

theorem opRehomeIn_away {slot : Nat} {n : Node} {ss : Nat} {v : Word32} {g b : Nat} {s : State} (hslot : slot ≤ 262143)
    (hfree : extOf s slot = none) (hup : groupUp s g = true) (hback : backingUsed s g b = false) (hn : n ≠ myNode s)
    (ht : s.boot.takenOver.any (fun x => x.1 == n) = false) :
    opRehomeIn slot n ss v g b s = doneOp slot true
      (askPull (arrivingExtent slot n ss v g b s) 0 6 1 0 (setExt slot (arrivingExtent slot n ss v g b s) s)) := by
  simp [opRehomeIn, arrivingExtent, slotOk, hslot, hfree, hup, hback, hn, ht]

/-- SET_RECALL_TIMEOUT takes what lies between the charter's bounds (R46). -/
theorem opRecallTimeout_eq {ms : Nat} {s : State} {c : Charter} (hc : s.boot.charter = some c) :
    opRecallTimeout ms s = if c.device.recallMin ≤ ms ∧ ms ≤ c.device.recallMax
      then { st := .ok, body := [], installs := false, s := { s with ext := { s.ext with recallMs := ms } } }
      else refusedOp .state s := by
  simp [opRecallTimeout, hc]

/-! ## A slot that is freed -/

@[simp] theorem extOf_freeSlot_same (slot : Nat) (s : State) : extOf (freeSlot slot s) slot = none :=
  tget_tdel_same _ _

theorem extOf_freeSlot_ne {slot n : Nat} (s : State) (h : n ≠ slot) : extOf (freeSlot slot s) n = extOf s n :=
  tget_tdel_ne _ h

/-- Settles O44: one lemma for each operation. -/
theorem extentOperations : Obligations.ExtentOperations := by
  unfold Obligations.ExtentOperations
  intro slot s
  refine ⟨?attach, ?taken, ?present, ?rehomeIn, ?recallTime, extOf_freeSlot_same slot s, fun n hn => extOf_freeSlot_ne s hn⟩
  case attach => exact fun mode owner group base hs h1 h2 h3 h4 h5 h6 h7 => opAttach_legal h1 h2 h3 h4 h5 h6 h7
  case taken => exact fun mode owner group base hs h => opAttach_taken h
  case present =>
    intro e he
    refine ⟨fun hs hl hb => opGrow_legal he hl hb, fun ns d hl hn ha => opNotice_active he hl hn ha,
      fun ns hl hn => opCancel_legal he hl hn, fun ns hl hn => opForce_named he hl hn, fun ns hl => opForce_toFree he hl,
      ?release, ?releaseNot, fun n d v ha => opRehomeOut_active he ha, ?finishNot, ?finish,
      fun p hg hm hl hv => opGrantLease_legal he hg hm hl hv, fun hv => opRevokeLease_valid he hv,
      fun hv ho hp => opDiscard_legal he hv ho hp, fun n ss v g b => opRehomeIn_taken he⟩
    case release => exact fun ha hh hv => (opRelease_eq he).trans (if_pos ⟨ha, hh, hv⟩)
    case releaseNot =>
      refine fun h => (opRelease_eq he).trans (if_neg ?_)
      rintro ⟨ha, hh, hv⟩
      simp [ha, hh, hv] at h
    case finishNot =>
      refine fun h => (opRehomeFinish_eq he).trans (if_neg ?_)
      rintro ⟨hm, ha⟩
      simp [hm, ha] at h
    case finish => exact fun hm ha => (opRehomeFinish_eq he).trans (if_pos ⟨hm, ha⟩)
  case rehomeIn =>
    exact fun n ss v g b h1 h2 h3 h4 h5 h6 => ⟨arrivingExtent slot n ss v g b s, opRehomeIn_away h1 h2 h3 h4 h5 h6,
      rfl, rfl, rfl, rfl, rfl, rfl, rfl, rfl⟩
  case recallTime =>
    intro ms c hc
    refine ⟨fun h1 h2 => ?_, fun h => ?_⟩
    · rw [opRecallTimeout_eq hc, if_pos ⟨h1, h2⟩]
    · exact (opRecallTimeout_eq hc).trans (if_neg (by omega))

end Sys2Proof.Machine

namespace Sys2Proof.Machine

/-! ## What follows a step in a quiet state (R49, R66, R82, R135, R333, R367) -/

/-- A fold that no element moves from its start ends there. -/
theorem foldl_unmoved {α β : Type} {f : α → β → α} {a : α} {l : List β} (h : ∀ b ∈ l, f a b = a) : l.foldl f a = a :=
  List.foldlRecOn (motive := (· = a)) l f rfl (fun _ hx b hb => hx ▸ h b hb)

theorem settleN_quiet {s : State} (n : Nat) (h : s.home.parked = []) : settleN n s = s := by
  cases n <;> simp [settleN, h]

theorem endAll_quiet {s : State} (h : ∀ q ∈ s.queues.queues, ∀ c ∈ q.2.cmds, c.ending = none) : endAll s = s := by
  refine foldl_unmoved fun q hq => ?_
  have hnone : q.2.cmds.filter (fun c => match c.ending with | some e => e.owed.isNone | none => false) = [] :=
    List.filter_eq_nil_iff.2 fun c hc => by simp [h q hq c hc]
  exact congrArg (List.foldl _ s) hnone

theorem sweepDead_quiet {s : State} (h : ∀ x ∈ s.ext.entries, x.2.mode ≠ .versioned) : sweepDead s = s := by
  have hnone : s.ext.entries.filter (fun x => x.2.mode == .versioned) = [] :=
    List.filter_eq_nil_iff.2 fun x hx => by simp [h x hx]
  simp [sweepDead, hnone]

theorem freeDead_quiet {s : State} (h : ∀ x ∈ s.ext.entries, x.2.dead = []) : freeDead s = s := by
  have hnone : s.ext.entries.filter (fun x => !x.2.dead.isEmpty) = [] :=
    List.filter_eq_nil_iff.2 fun x hx => by simp [h x hx]
  simp [freeDead, hnone]

theorem leave_quiet {s : State} (h : s.mgmt.waiting = []) : leave s = s := by simp [leave, h]

theorem releasePulls_quiet {s : State} (h : s.home.heldPulls = []) : releasePulls s = s := by
  simp [releasePulls, h, sendHeld]

theorem startRecs_quiet {s : State} (h : ∀ r ∈ s.pool.journal, s.boot.fenced = true ∨ mayStart s r = false) : startRecs s = s := by
  unfold startRecs
  split
  · rfl
  case isFalse hf =>
    refine foldl_unmoved fun r _ => ?_
    split
    case h_1 x hx => simp [(h x (List.mem_of_find?_eq_some hx)).resolve_left hf]
    case h_2 => rfl

/-- In a quiet state only the older epoch may be left to retire. -/
theorem settle_quiet {s : State} (hp : s.home.parked = []) (hpulls : s.home.heldPulls = [])
    (he : ∀ x ∈ s.ext.entries, x.2.mode ≠ .versioned ∧ x.2.dead = []) (hw : s.mgmt.waiting = [])
    (hq : ∀ q ∈ s.queues.queues, ∀ c ∈ q.2.cmds, c.ending = none)
    (hj : ∀ r ∈ s.pool.journal, s.boot.fenced = true ∨ mayStart s r = false) : settle s = retireOlder s := by
  have hsame : retireOlder s = s ∨ retireOlder s = { s with ext := { s.ext with older := none } } := by
    unfold retireOlder
    split
    · exact .inl rfl
    · split
      · exact .inl rfl
      · exact .inr rfl
  rw [settle, settleN_quiet _ hp, endAll_quiet hq, sweepDead_quiet fun x hx => (he x hx).1, freeDead_quiet fun x hx => (he x hx).2]
  rcases hsame with h | h <;> rw [h, leave_quiet, releasePulls_quiet, startRecs_quiet] <;> assumption

theorem retireOlder_none {s : State} (h : s.ext.older = none) : retireOlder s = s := by simp [retireOlder, h]

theorem retireOlder_counted {s : State} {m : BitVec 16} (h : s.ext.older = some m) (hc : epochCounted s m = true) :
    retireOlder s = s := by simp [retireOlder, h, hc]

theorem retireOlder_free {s : State} {m : BitVec 16} (h : s.ext.older = some m) (hc : epochCounted s m = false) :
    retireOlder s = { s with ext := { s.ext with older := none } } := by simp [retireOlder, h, hc]

/-- Settles O56: a quiet state has only its older epoch left to retire. -/
theorem quietStateSettles : Obligations.QuietStateSettles := by
  unfold Obligations.QuietStateSettles
  intro s hp hpulls he hw hq hj
  rw [settle_quiet hp hpulls he hw hq hj]
  exact ⟨retireOlder_none, fun m => retireOlder_counted, fun m => retireOlder_free⟩

end Sys2Proof.Machine

namespace Sys2Proof.Machine

/-! ## The state that serves a transaction (R333, R361) -/

theorem hearMark_windows (port : Nat) (tx : Tx) (s : State) :
    ∃ w, hearMark port tx s = { s with home := { s.home with windows := w } } := by
  unfold hearMark
  split
  · exact ⟨_, rfl⟩
  · exact ⟨_, rfl⟩

/-- Taking a transaction changes flows, windows and the next number of the home alone. -/
theorem taken_home (port : Nat) (tx : Tx) (s : State) : ∃ fl w, taken port tx s =
    { s with home := { s.home with flows := fl, windows := w, nextId := s.home.nextId + 1 } } := by
  obtain ⟨w, hw⟩ := hearMark_windows (canonPort s port) tx _
  exact ⟨_, w, hw⟩

section
variable (port : Nat) (tx : Tx) (s : State)

@[simp] theorem taken_boot : (taken port tx s).boot = s.boot := by obtain ⟨fl, w, h⟩ := taken_home port tx s; rw [h]
@[simp] theorem taken_ext : (taken port tx s).ext = s.ext := by obtain ⟨fl, w, h⟩ := taken_home port tx s; rw [h]
@[simp] theorem taken_ports : (taken port tx s).ports = s.ports := by obtain ⟨fl, w, h⟩ := taken_home port tx s; rw [h]
@[simp] theorem taken_parts : (taken port tx s).parts = s.parts := by obtain ⟨fl, w, h⟩ := taken_home port tx s; rw [h]
@[simp] theorem taken_parked : (taken port tx s).home.parked = s.home.parked := by
  obtain ⟨fl, w, h⟩ := taken_home port tx s; rw [h]
@[simp] theorem taken_busy : (taken port tx s).home.busy = s.home.busy := by
  obtain ⟨fl, w, h⟩ := taken_home port tx s; rw [h]

@[simp] theorem extOf_taken (n : Nat) : extOf (taken port tx s) n = extOf s n := by simp [extOf]
@[simp] theorem isBusy_taken (n t : Nat) : isBusy (taken port tx s) n t = isBusy s n t := by simp [isBusy, busyOf]
@[simp] theorem hasWaiters_taken (n t : Nat) : hasWaiters (taken port tx s) n t = hasWaiters s n t := by simp [hasWaiters]
@[simp] theorem arrivingSlot_taken (n : Node) (slot : Nat) : arrivingSlot (taken port tx s) n slot = arrivingSlot s n slot := by
  simp [arrivingSlot]

@[simp] theorem check12_taken (tx' : Tx) : check12 tx' (taken port tx s) = check12 tx' s := by
  simp [check12, check1, epochLive]

/-- Checks 4 to 8 look at ports, extents and partitions, which taking a transaction leaves. -/
@[simp] theorem admission_taken (p : Nat) (tx' : Tx) : admission p tx' (taken port tx s) = admission p tx' s := by
  obtain ⟨fl, w, h⟩ := taken_home port tx s
  rw [h]
  rfl
end

/-- Equal effects are followed alike. -/
theorem next_settle {s t : State} (h : s = t) : (.next (settle s) : Out) = .next (settle t) := by rw [h]

/-! ## The checks of R39 -/

theorem check12_barred {tx : Tx} {s : State} (h : s.boot.fenced = true ∨ tx.src ∈ s.boot.expelled) :
    check12 tx s = some .fenced := by
  rcases h with h | h <;> simp [check12, check1, h]

theorem check12_stale {tx : Tx} {s : State} (hf : s.boot.fenced = false) (hx : tx.src ∉ s.boot.expelled)
    (hm : tx.mapEpoch ≠ s.ext.mapEpoch) (ho : s.ext.older ≠ some tx.mapEpoch) : check12 tx s = some .mapStale := by
  simp [check12, check1, epochLive, hf, hx, hm, ho]

theorem check12_live {tx : Tx} {s : State} (hf : s.boot.fenced = false) (hx : tx.src ∉ s.boot.expelled)
    (hm : tx.mapEpoch = s.ext.mapEpoch ∨ s.ext.older = some tx.mapEpoch) : check12 tx s = none := by
  rcases hm with hm | hm <;> simp [check12, check1, epochLive, hf, hx, hm]

theorem admission_unbound {port : Nat} {tx : Tx} {s : State} (h : bindPart s port tx = none) :
    admission port tx s = .stop .noAccess := by simp [admission, h]

theorem admission_noExtent {port q : Nat} {tx : Tx} {s : State} (h : bindPart s port tx = some q)
    (he : extOf s (oSlot tx.offset) = none) : admission port tx s = .stop .noAccess := by simp [admission, h, he]

theorem oTile_lt (o : BitVec 48) : oTile o < 4194304 := by
  unfold oTile fld
  exact Nat.mod_lt _ (Nat.two_pow_pos _)

/-- A range of tiles past the end of its extent, whether it names none or one at least. -/
theorem tiles_outside_iff (tx : Tx) :
    4194304 < oTile tx.offset + max 1 tx.length ↔ 4194304 < oTile tx.offset + tx.length := by
  have := oTile_lt tx.offset
  omega

section
variable {port q : Nat} {tx : Tx} {s : State} {e : Extent}
variable (hb : bindPart s port tx = some q) (he : extOf s (oSlot tx.offset) = some e) (ha : e.state ≠ .arriving)
include hb he ha

theorem admission_unreached (hr : mayReach s q e.owner = false) : admission port tx s = .stop .noAccess := by
  simp [admission, hb, he, ha, hr]

theorem admission_outside (hr : mayReach s q e.owner = true) (ht : 4194304 < oTile tx.offset + tx.length) :
    admission port tx s = .stop .noAccess := by
  simp [admission, hb, he, ha, hr, tiles_outside_iff, ht]

theorem admission_down (hr : mayReach s q e.owner = true) (ht : oTile tx.offset + tx.length ≤ 4194304)
    (hd : domainDown s e = true) : admission port tx s = .stop .domainReset := by
  simp [admission, hb, he, ha, hr, tiles_outside_iff, ht, hd]

theorem admission_noHolder (hr : mayReach s q e.owner = true) (hd : domainDown s e = false) (hm : e.state ≠ .migrating)
    (hh : holderOf e tx.src = none) : admission port tx s = .stop .noAccess := by
  simp [admission, hb, he, ha, hr, hd, hm, hh]

theorem admission_revoked (hr : mayReach s q e.owner = true) (ht : oTile tx.offset + tx.length ≤ 4194304)
    (hd : domainDown s e = false) (hm : e.state ≠ .migrating) {h : Holder} (hh : holderOf e tx.src = some h)
    (hf : h.hstate = .forced ∨ e.state = .draining) : admission port tx s = .stop .revoked := by
  simp [admission, hb, he, ha, hr, tiles_outside_iff, ht, hd, hm, hh, hf]
end

/-- What checks 4 to 8 admit lies in the extent of the slot named. -/
theorem extOf_of_admission_go {port q : Nat} {tx : Tx} {s : State} {e : Extent} (h : admission port tx s = .go q e) :
    extOf s (oSlot tx.offset) = some e := by
  cases hb : bindPart s port tx with
  | none => simp [admission, hb] at h
  | some part =>
    cases he : extOf s (oSlot tx.offset) with
    | none => simp [admission, hb, he] at h
    | some e' =>
      simp only [admission, hb, he] at h
      repeat' split at h
      all_goals simp_all

/-! ## Meeting the checks -/

theorem refuse_eq_answer {tx : Tx} (st : St) (s : State) (h : tx.op ≠ 0x04) : refuse tx st s = answer tx st s := if_neg h

section
variable {rid port : Nat} {tx : Tx} {chk : Nat → Extent → State → Chk} {go : Nat → Extent → State → State} {s : State}

theorem meet_barred {st : St} (h : check12 tx s = some st) : meet true rid port tx chk go s = refuse tx st s := by
  simp [meet, h]

theorem meet_stopped {st : St} (h : check12 tx s = none) (ha : admission port tx s = .stop st) :
    meet true rid port tx chk go s = refuse tx st s := by simp [meet, h, ha]

/-- Nothing of an extent that is not ARRIVING has to be pulled. -/
theorem pullFirst_present {e : Extent} (slot : Nat) (ts : List Nat) (s : State) (h : e.state ≠ .arriving) :
    pullFirst slot e ts s = (none, s) := by
  induction ts with
  | nil => rfl
  | cons t ts ih => simp [pullFirst, needPull, h, ih]

/-- A request that passes every check goes on to its tiles. -/
theorem meet_admitted {part : Nat} {e : Extent} (h : Admits rid port tx s part e) (hc : chk part e s = .ok) :
    meet true rid port tx chk go s = go part e s := by
  simp [meet, h.live, h.home, meet9, hc, pullFirst_present _ _ _ h.here]
end

/-- A transaction that arrives and is no response is served by its op. -/
theorem recv_request {port : Nat} {op : Byte} {tx : Tx} {s : State} (h : Arrives s port (arriving s port op false tx)) :
    recv port { tx with op := op, resp := false } s = settle (serveOp true s.home.nextId (canonPort s port)
      (arriving s port op false tx) (taken port (arriving s port op false tx) s)) := recv_serves h

theorem recv_response {port : Nat} {op : Byte} {tx : Tx} {s : State} (h : Arrives s port (arriving s port op true tx)) :
    recv port { tx with op := op, resp := true } s = settle (serveResponse (arriving s port op true tx)
      (taken port (arriving s port op true tx) s)) := recv_serves h

/-- A new request that no FENCE holds is served by its op; here an RD_TILE. -/
theorem serveOp_read {rid port : Nat} {tx : Tx} {s : State} (hop : tx.op = 0x01) (hf : fenceHeld s tx.src rid = false) :
    serveOp true rid port tx s = serveRead true rid port tx s := by
  simp [serveOp, hop, hf]

/-- An RD_TILE that arrives and that no FENCE holds is served as a read. -/
theorem exec_rdTile {port : Nat} {tx0 : Tx} {s : State} (h : Arrives s port (arriving s port 0x01 false tx0))
    (hf : fenceHeld (taken port (arriving s port 0x01 false tx0) s) (arriving s port 0x01 false tx0).src s.home.nextId = false) :
    exec (.rdTile port tx0) s = .next (settle (serveRead true s.home.nextId (canonPort s port) (arriving s port 0x01 false tx0)
      (taken port (arriving s port 0x01 false tx0) s))) := by
  refine congrArg Host.Outcome.next ((recv_request h).trans ?_)
  exact congrArg settle (serveOp_read rfl hf)

/-- A read that a check before the extent's bars has its answer and nothing else. -/
theorem serveRead_barred {rid port : Nat} {tx : Tx} {s : State} {st : St} (hop : tx.op = 0x01) (h : check12 tx s = some st) :
    serveRead true rid port tx s = answer tx st s :=
  (meet_barred h).trans (refuse_eq_answer st s (by rw [hop]; decide))

/-- A read that checks 4 to 8 stop has its answer and nothing else. -/
theorem serveRead_stopped {rid port : Nat} {tx : Tx} {s : State} {st : St} (hop : tx.op = 0x01) (h : check12 tx s = none)
    (ha : admission port tx s = .stop st) : serveRead true rid port tx s = answer tx st s :=
  (meet_stopped h ha).trans (refuse_eq_answer st s (by rw [hop]; decide))

/-- Settles O14: checks 1 and 2 are `check12`, checks 4 to 8 `admission`; the first that fails is the answer. -/
theorem admissionChecks : Obligations.AdmissionChecks := by
  unfold Obligations.AdmissionChecks
  intro port tx0 s tx a p slot ends harr hfence
  have hexec : exec (.rdTile port tx0) s = .next (settle (serveRead true s.home.nextId p tx a)) := exec_rdTile harr hfence
  have barred : ∀ st, check12 tx s = some st → ends st := fun st h =>
    hexec.trans (next_settle (serveRead_barred rfl ((check12_taken port tx s tx).trans h)))
  refine ⟨fun h => barred _ (check12_barred h), fun hf hx => ⟨fun hm ho => barred _ (check12_stale hf hx hm ho), fun hm => ?_⟩⟩
  have stopped : ∀ st, admission p tx s = .stop st → ends st := fun st h =>
    hexec.trans (next_settle
      (serveRead_stopped rfl ((check12_taken port tx s tx).trans (check12_live hf hx hm)) ((admission_taken port tx s p tx).trans h)))
  refine ⟨fun hb => stopped _ (admission_unbound hb), fun q hb => ⟨fun he => stopped _ (admission_noExtent hb he), ?_⟩⟩
  intro e he hstate
  refine ⟨fun hr => stopped _ (admission_unreached hb he hstate hr), fun hr =>
    ⟨fun ht => stopped _ (admission_outside hb he hstate hr ht),
      fun ht hd => stopped _ (admission_down hb he hstate hr ht hd), fun ht hd hmig =>
      ⟨fun hh => stopped _ (admission_noHolder hb he hstate hr hd hmig hh),
        fun h hh hf => stopped _ (admission_revoked hb he hstate hr ht hd hmig hh hf)⟩⟩⟩

end Sys2Proof.Machine

namespace Sys2Proof.Machine

/-! ## Tiles that are free, and their entries (R69, R72) -/

/-- An agent that leaves an entry changes the directory alone. -/
theorem removeAgent_dir (slot tile a : Nat) (s : State) : ∃ d, removeAgent slot tile a s = { s with dir := d } := by
  simp only [removeAgent]
  repeat' split
  all_goals exact ⟨_, rfl⟩

theorem purgeDead_dir (slot tile : Nat) (s : State) : ∃ d, purgeDead slot tile s = { s with dir := d } := by
  unfold purgeDead
  split
  · exact ⟨s.dir, rfl⟩
  · refine List.foldlRecOn (motive := fun t => ∃ d, t = { s with dir := d }) _ _ ⟨s.dir, rfl⟩ ?_
    rintro _ ⟨d, rfl⟩ b _
    exact removeAgent_dir slot tile b _

/-- A request that has its turn at its tiles has changed the directory alone. -/
theorem touched_dir (tx : Tx) (s : State) : ∃ d, touched tx s = { s with dir := d } := by
  refine List.foldlRecOn (motive := fun t => ∃ d, t = { s with dir := d }) _ _ ⟨s.dir, rfl⟩ ?_
  rintro _ ⟨d, rfl⟩ b _
  exact purgeDead_dir _ b _

section
variable (tx : Tx) (s : State)

@[simp] theorem touched_boot : (touched tx s).boot = s.boot := by obtain ⟨d, h⟩ := touched_dir tx s; rw [h]
@[simp] theorem touched_home : (touched tx s).home = s.home := by obtain ⟨d, h⟩ := touched_dir tx s; rw [h]
@[simp] theorem touched_pool : (touched tx s).pool = s.pool := by obtain ⟨d, h⟩ := touched_dir tx s; rw [h]
@[simp] theorem touched_out : (touched tx s).out = s.out := by obtain ⟨d, h⟩ := touched_dir tx s; rw [h]
@[simp] theorem extOf_touched (n : Nat) : extOf (touched tx s) n = extOf s n := by
  obtain ⟨d, h⟩ := touched_dir tx s
  rw [h]
  rfl
@[simp] theorem isBusy_touched (n t : Nat) : isBusy (touched tx s) n t = isBusy s n t := by simp [isBusy, busyOf]
end

/-- Without requests that wait on a tile, none of before waits on it. -/
theorem waitersBefore_of_none {s : State} {slot tile : Nat} (rid : Nat) (h : hasWaiters s slot tile = false) :
    waitersBefore s rid slot tile = false := by
  simp only [hasWaiters, List.any_eq_false] at h
  simp only [waitersBefore, List.any_eq_false, Bool.and_eq_true, not_and]
  exact fun p hp _ => h p hp

/-- A request has its turn at once where no tile of it is BUSY or waited for. -/
theorem inTurn_free {rid port : Nat} {tx : Tx} {s : State} (go : State → State) (h : TilesFree tx s) :
    inTurn rid port tx go s = go (touched tx s) := by
  have hnone : (tilesOf tx).find? (fun t => isBusy s (oSlot tx.offset) t || waitersBefore s rid (oSlot tx.offset) t) = none :=
    List.find?_eq_none.2 fun t ht => by simp [(h t ht).1, waitersBefore_of_none rid (h t ht).2]
  simp only [inTurn, hnone]
  rfl

/-! ## Recalls (R68) -/

/-- A read needs no recall of a tile that no agent owns in M or O. -/
theorem readRecalls_unowned {x : Option DirEntry} (h : ∀ d, x = some d → d.state ≠ .m ∧ d.state ≠ .o) : readRecalls x = [] := by
  cases x with
  | none => rfl
  | some d => simp [readRecalls, h d rfl]

theorem readRecalls_owned {d : DirEntry} (h : d.state = .m ∨ d.state = .o) : readRecalls (some d) = [(d.owner, false)] := if_pos h

theorem recallFor_none {rid port : Nat} {tx : Tx} {e : Extent} {need : Nat → List (Nat × Bool)} {s : State}
    (h : ∀ t ∈ tilesOf tx, need t = []) : recallFor rid port tx e need s = runReq rid port tx s := by
  have hnone : (tilesOf tx).filter (fun t => !(need t).isEmpty) = [] := List.filter_eq_nil_iff.2 fun t ht => by simp [h t ht]
  simp [recallFor, hnone]

theorem recallFor_single {rid port t : Nat} {tx : Tx} {e : Extent} {need : Nat → List (Nat × Bool)} {s : State}
    (ht : tilesOf tx = [t]) (h : need t ≠ []) : recallFor rid port tx e need s =
      tryFinish (oSlot tx.offset) t (startRecalls (oSlot tx.offset) t e (.request rid port tx) (need t) s) := by
  simp [recallFor, ht, h]

/-- The BUSY tile with one recall outstanding. -/
def busyWith (slot tile : Nat) (why : Purpose) (n : Node) (a : Nat) (tag : BitVec 16) (inv : Bool) : Busy :=
  { slot := slot, tile := tile, why := why, recalls := [{ node := n, agent := a, tag := tag, inv := inv }], data := none }

theorem spotOcc_obs (event : Nat) (p : Spot) (s : State) : ∃ o, spotOcc event p s = { s with obs := o } := by
  unfold spotOcc
  split
  · exact ⟨s.obs, rfl⟩
  · exact ⟨_, rfl⟩

/-- A change of the BUSY record of a tile that has just become BUSY leaves every other record. -/
theorem map_busy_last {l : List Busy} {slot tile : Nat} {b : Busy} (f : Busy → Busy) (hb : b.slot = slot ∧ b.tile = tile)
    (h : l.find? (fun b => b.slot == slot && b.tile == tile) = none) :
    (l ++ [b]).map (fun b => if b.slot == slot && b.tile == tile then f b else b) = l ++ [f b] := by
  have hl : l.map (fun b => if b.slot == slot && b.tile == tile then f b else b) = l :=
    (List.map_congr_left fun x hx => if_neg (List.find?_eq_none.1 h x hx)).trans (List.map_id' l)
  rw [List.map_append, hl]
  simp [hb]

/-- A recall to a host that is not expelled (R62): the tile is BUSY with it alone, one message names the agent's node, and
neither the directory nor the pool nor the requests that wait change. -/
theorem startRecalls_single {slot tile a : Nat} {e : Extent} {why : Purpose} {inv : Bool} {s : State} {n : Node}
    (hn : nodeOfAgent e a = some n) (hx : n ∉ s.boot.expelled) (hb : isBusy s slot tile = false) :
    let u := startRecalls slot tile e why [(a, inv)] s
    u.dir = s.dir ∧ u.pool = s.pool ∧ u.home.parked = s.home.parked ∧
      u.home.busy = s.home.busy ++ [busyWith slot tile why n a s.home.nextTag inv] ∧
      ∃ m, u.out = s.out ++ [m] ∧ m.op = (if inv then 0x1C else 0x1B) ∧ m.dst = n ∧ m.tag = s.home.nextTag ∧
        m.offset = mkOffset slot tile 0 := by
  have hfree : s.home.busy.find? (fun b => b.slot == slot && b.tile == tile) = none := by simpa [isBusy, busyOf] using hb
  have hbusy := map_busy_last (slot := slot) (tile := tile)
    (fun b => { b with recalls := b.recalls ++ [{ node := n, agent := a, tag := s.home.nextTag, inv := inv }] })
    (b := { slot := slot, tile := tile, why := why, recalls := [], data := none }) ⟨rfl, rfl⟩ hfree
  obtain ⟨m, o, hu, hop, hdst, htag, hoff⟩ : ∃ m o, startRecalls slot tile e why [(a, inv)] s = { send m (modBusy slot tile
      (fun b => { b with recalls := b.recalls ++ [{ node := n, agent := a, tag := s.home.nextTag, inv := inv }] })
      { s with home := { s.home with nextTag := s.home.nextTag + 1, busy := s.home.busy ++
        [{ slot := slot, tile := tile, why := why, recalls := [], data := none }] } }) with obs := o } ∧
      m.op = (if inv then 0x1C else 0x1B) ∧ m.dst = n ∧ m.tag = s.home.nextTag ∧ m.offset = mkOffset slot tile 0 := by
    simp only [startRecalls, List.foldl_cons, List.foldl_nil, sendRecall, hn, List.contains_eq_mem, hx, decide_false,
      Bool.false_eq_true, if_false]
    obtain ⟨o, ho⟩ := spotOcc_obs 0x64 (spotOf slot tile e) _
    exact ⟨_, o, ho, rfl, rfl, rfl, rfl⟩
  rw [hu]
  exact ⟨rfl, rfl, rfl, hbusy, _, rfl, hop, hdst, htag, hoff⟩

/-- A BUSY tile whose recalls are not all answered goes on waiting. -/
theorem tryFinish_waits {slot tile : Nat} {s : State} {b : Busy} (hb : busyOf s slot tile = some b) (hr : b.recalls ≠ []) :
    tryFinish slot tile s = s := by
  simp [tryFinish, hb, hr]

theorem busyOf_append_last {slot tile : Nat} {s u : State} {b : Busy} (hb : isBusy s slot tile = false)
    (hu : u.home.busy = s.home.busy ++ [b]) (hat : b.slot = slot ∧ b.tile = tile) : busyOf u slot tile = some b := by
  have hnone : s.home.busy.find? (fun b => b.slot == slot && b.tile == tile) = none := by simpa [isBusy, busyOf] using hb
  simp [busyOf, hu, List.find?_append, hnone, hat]

theorem tryFinish_startRecalls_single {slot tile a : Nat} {e : Extent} {why : Purpose} {inv : Bool} {s : State} {n : Node}
    (hn : nodeOfAgent e a = some n) (hx : n ∉ s.boot.expelled) (hb : isBusy s slot tile = false) :
    tryFinish slot tile (startRecalls slot tile e why [(a, inv)] s) = startRecalls slot tile e why [(a, inv)] s := by
  obtain ⟨-, -, -, hbusy, -⟩ := startRecalls_single (why := why) (inv := inv) hn hx hb
  exact tryFinish_waits (busyOf_append_last hb hbusy ⟨rfl, rfl⟩) (by simp [busyWith])

/-! ## RD_TILE at its tiles -/

/-- A read that needs no recall answers its tiles, or the status of the first that cannot be read (R71, R129). -/
theorem runReq_read {rid port : Nat} {tx : Tx} {s : State} {e : Extent} (hop : tx.op = 0x01)
    (he : extOf s (oSlot tx.offset) = some e) :
    (∀ ts b, readTiles (oSlot tx.offset) tx.version.toNat e [] (tilesOf tx) s = (.ok ts, b) →
      runReq rid port tx s = answerTiles tx ts b) ∧
    (∀ st b, readTiles (oSlot tx.offset) tx.version.toNat e [] (tilesOf tx) s = (.error st, b) →
      runReq rid port tx s = answer tx st b) := by
  have hrow : finishRow false tx [] s = doRead tx e [] s := by simp [finishRow, he, hop]
  constructor
  · intro ts b h
    simp only [runReq, hrow, doRead, h]
  · intro st b h
    simp only [runReq, hrow, doRead, h]
    simp [failReq, hop]

/-- An RD_TILE that is admitted, and has its turn, at the recalls it needs. -/
theorem serveRead_admitted {rid port part : Nat} {tx : Tx} {s : State} {e : Extent} (h : Admits rid port tx s part e)
    (hfree : TilesFree tx s) (hc : checkRead part e tx.src tx.version.toNat = .ok) :
    serveRead true rid port tx s = recallFor rid port tx e
      (fun t => readRecalls (dirOf (touched tx s) (oSlot tx.offset) t)) (touched tx s) := by
  rw [serveRead, meet_admitted h hc]
  exact inTurn_free _ hfree

/-- Settles O15: an admitted read needs no recall, and runs at once, or recalls the one owner of its tile. -/
theorem readTile : Obligations.ReadTile := by
  unfold Obligations.ReadTile
  intro port tx0 s q e tx a slot v harr hadm hfree hc
  have hexec : exec (.rdTile port tx0) s = .next (settle (recallFor s.home.nextId (canonPort s port) tx e
      (fun t => readRecalls (dirOf v slot t)) v)) :=
    (exec_rdTile harr hadm.fence).trans (next_settle (serveRead_admitted hadm hfree hc))
  have he : extOf v slot = some e := (extOf_touched tx a slot).trans (extOf_of_admission_go hadm.home)
  constructor
  · intro hun
    rw [hexec, recallFor_none fun t ht => readRecalls_unowned (hun t ht)]
    obtain ⟨hok, herr⟩ := runReq_read (rid := s.home.nextId) (port := canonPort s port) (tx := tx) rfl he
    exact ⟨fun ts b h => by rw [hok ts b h], fun st b h => by rw [herr st b h]⟩
  · intro t d n ht hd hown hn hx
    have hneed : readRecalls (dirOf v slot t) = [(d.owner, false)] := by rw [hd]; exact readRecalls_owned hown
    have hbusy : isBusy v slot t = false := (isBusy_touched tx a slot t).trans (hfree t (by simp [ht])).1
    have hx' : n ∉ v.boot.expelled := by simpa [v, a] using hx
    obtain ⟨hdir, hpool, hpark, hb, m, hout, hop, hdst, htag, hoff⟩ :=
      startRecalls_single (why := .request s.home.nextId (canonPort s port) tx) (inv := false) hn hx' hbusy
    refine ⟨_, ?_, hdir, ?_, ?_, ⟨busyWith slot t _ n d.owner v.home.nextTag false, ?_, rfl, rfl, rfl, ?_, rfl⟩,
      m, ?_, hop, hdst, ?_, hoff⟩
    · rw [hexec, recallFor_single ht (by simp [hneed]), hneed, tryFinish_startRecalls_single hn hx' hbusy]
    · rw [hpool, touched_pool]
    · rw [hpark, touched_home]
    · rw [hb, touched_home]
    · simp [busyWith, v]
    · rw [hout, touched_out]
    · rw [htag, touched_home]

end Sys2Proof.Machine

namespace Sys2Proof.Machine

/-! ## PULL_STATE at the old home (R54, R332; log entries 158 and 169) -/

section
variable {rid port : Nat} {tx : Tx} {s : State} {e : Extent}

theorem servePull_noExtent (h : extOf s (oSlot tx.offset) = none) : servePull rid port tx s = answer tx .noAccess s := by
  simp [servePull, h]

theorem servePull_settled (h : extOf s (oSlot tx.offset) = some e) (hm : e.state ≠ .migrating) :
    servePull rid port tx s = answer tx .state s := by simp [servePull, h, hm]

theorem servePull_extent (h : extOf s (oSlot tx.offset) = some e) (hm : e.state = .migrating) (hq : tx.qual.getLsbD 0 = true)
    (hp : e.publishing = none) : servePull rid port tx s =
      send { answerTx s tx .ok with qual := tx.qual, body := some { ext := some (pullExt e s), tiles := [], ledger := [] } } s := by
  simp [servePull, h, hm, hq, hp, -BitVec.getLsbD_eq_getElem]

theorem servePull_ledger (h : extOf s (oSlot tx.offset) = some e) (hm : e.state = .migrating) (hq0 : tx.qual.getLsbD 0 = false)
    (hq1 : tx.qual.getLsbD 1 = true) :
    let k : Node × Nat := (BitVec.ofNat 16 (tx.trailer.val / 32), tx.trailer.val % 32)
    pendingOf s k = false → servePull rid port tx s = send { answerTx s tx .ok with
      qual := tx.qual, trailer := tx.trailer, body := some { ext := none, tiles := [], ledger := pullEntries s k } } s := by
  intro k hk
  simp [servePull, h, hm, hq0, hq1, k, hk, -BitVec.getLsbD_eq_getElem]

/-- The answer that hands a tile over. -/
def handOver (tx : Tx) (p : PullTile) (s : State) : State :=
  send { answerTx s tx .ok with qual := tx.qual, body := some { ext := none, tiles := [p], ledger := [] } } s

/-- A tile that was handed over before is answered with the same state again. -/
theorem servePull_again (h : extOf s (oSlot tx.offset) = some e) (hm : e.state = .migrating) (hq0 : tx.qual.getLsbD 0 = false)
    (hq1 : tx.qual.getLsbD 1 = false) {p : PullTile} (hp : tget s.ext.handed (tkey (oSlot tx.offset) (oTile tx.offset)) = some p) :
    servePull rid port tx s = handOver tx p s := by
  simp [servePull, handOver, h, hm, hq0, hq1, hp, -BitVec.getLsbD_eq_getElem]

/-- A tile that nothing waits for is handed over: what is told of it is kept, and its entry and its log record go. -/
theorem servePull_first (h : extOf s (oSlot tx.offset) = some e) (hm : e.state = .migrating) (hq0 : tx.qual.getLsbD 0 = false)
    (hq1 : tx.qual.getLsbD 1 = false) (hp : tget s.ext.handed (tkey (oSlot tx.offset) (oTile tx.offset)) = none)
    (hb : isBusy s (oSlot tx.offset) (oTile tx.offset) = false) (hw : hasWaiters s (oSlot tx.offset) (oTile tx.offset) = false) :
    let p := pullTile (oSlot tx.offset) (oTile tx.offset) e (tx.qual.getLsbD 2) s
    servePull rid port tx s = handOver tx p.1 (delLog (oSlot tx.offset) (oTile tx.offset)
      (delDir (oSlot tx.offset) (oTile tx.offset) { p.2 with ext := { p.2.ext with
        handed := tset p.2.ext.handed (tkey (oSlot tx.offset) (oTile tx.offset)) p.1 } })) := by
  simp [servePull, handOver, h, hm, hq0, hq1, hp, hb, waitersBefore_of_none rid hw, -BitVec.getLsbD_eq_getElem]

theorem serveOp_pull (hop : tx.op = 0x48) (hf : isRequest tx = true → fenceHeld s tx.src rid = false) :
    serveOp true rid port tx s = servePull rid port tx s := by
  have : (isRequest tx && fenceHeld s tx.src rid) = false := by
    cases hr : isRequest tx
    · rfl
    · simp [hf hr]
  simp [serveOp, hop, this]
end

/-- A row of PULL_STATE has the effect that the old home's rule gives at the state that serves it. -/
theorem pullState_serves {port : Nat} {tx0 : Tx} {hyp : State → Tx → State → Prop} {eff : Tx → State → State}
    (h : ∀ s rid p tx, hyp s tx (taken port tx s) → servePull rid p tx (taken port tx s) = eff tx (taken port tx s)) :
    Serves (.pullState port tx0) 0x48 false port tx0 hyp eff := by
  intro s tx harr hf hh
  refine congrArg Host.Outcome.next ((recv_request harr).trans (congrArg settle ?_))
  exact (serveOp_pull rfl fun hr => hf hr (show (0x48 : Byte) ≠ 0x06 by decide)).trans (h s _ _ _ hh)

/-! ## The response at the new home (R54) -/

section
variable {tx : Tx} {s : State} {slot : Nat}

/-- No request waits for a pull. -/
def NoPulls (s : State) : Prop := ∀ w ∈ s.home.parked, ∀ sl t, w.why ≠ .pull sl t

theorem pullsDone_none (h : NoPulls s) : pullsDone s slot = [] := by
  unfold pullsDone
  split
  · rfl
  · refine List.filter_eq_nil_iff.2 fun w hw => ?_
    cases hwhy : w.why <;> simp
    exact absurd hwhy (h w hw _ _)

theorem servePullAnswer_tile {p : PullTile} (ha : arrivingSlot s tx.src (oSlot tx.offset) = some slot)
    (hq : tx.qual.getLsbD 1 = false) (hb : tx.body = some { ext := none, tiles := [p], ledger := [] })
    (hn : NoPulls (takeTile slot p s)) : servePullAnswer tx s = ([], rehomeCheck slot (takeTile slot p s)) := by
  simp only [servePullAnswer, ha, hb, hq, List.foldl_cons, List.foldl_nil]
  cases extOf (takeTile slot p s) slot <;> simp [pullsDone_none hn]

theorem servePullAnswer_extent {p : PullExt} (ha : arrivingSlot s tx.src (oSlot tx.offset) = some slot)
    (hq : tx.qual.getLsbD 1 = false) (hb : tx.body = some { ext := some p, tiles := [], ledger := [] })
    (hn : NoPulls s) : servePullAnswer tx s = ([], rehomeCheck slot (takeExt slot p s)) := by
  have hn' : NoPulls (takeExt slot p s) := hn
  simp only [servePullAnswer, ha, hb, hq, List.foldl_nil]
  cases extOf (takeExt slot p s) slot <;> simp [pullsDone_none hn']

theorem servePullAnswer_nothing (ha : arrivingSlot s tx.src (oSlot tx.offset) = some slot)
    (hq : tx.qual.getLsbD 1 = false) (hb : tx.body = none) : servePullAnswer tx s =
      ([], { s with ext := { s.ext with asked := tdel s.ext.asked (tkey slot (oTile tx.offset)) } }) := by
  simp [servePullAnswer, ha, hb, hq, -BitVec.getLsbD_eq_getElem]

theorem servePullAnswer_unknown (ha : arrivingSlot s tx.src (oSlot tx.offset) = none) : servePullAnswer tx s = ([], s) := by
  simp [servePullAnswer, ha]

theorem serveResponse_pull {t : State} (hop : tx.op = 0x48) (h : servePullAnswer tx s = ([], t)) : serveResponse tx s = t := by
  simp [serveResponse, hop, h]
end

/-- A row of the response to PULL_STATE that lets no request go on. -/
theorem pullResponse_serves {port : Nat} {tx0 : Tx} {hyp : State → Tx → State → Prop} {eff : Tx → State → State}
    (h : ∀ s tx, hyp s tx (taken port tx s) → servePullAnswer tx (taken port tx s) = ([], eff tx (taken port tx s))) :
    Serves (.pullStateResponse port tx0) 0x48 true port tx0 hyp eff := by
  intro s tx harr _ hh
  refine congrArg Host.Outcome.next ((recv_response harr).trans (congrArg settle ?_))
  exact serveResponse_pull rfl (h s tx hh)

/-! ## YIELD (R55) -/

section
variable {tx : Tx} {s : State} {e : Extent}

theorem serveYield_lower (h : extOf s (oSlot tx.offset) = some e) (hlt : e.homeEpoch.toNat < tx.version.toNat)
    (hst : e.state = .active ∨ e.state = .migrating ∨ e.state = .arriving) :
    serveYield tx s = setExt (oSlot tx.offset) (noted s { e with state := .migrating, fwdNode := tx.src }) s := by
  simp [serveYield, h, hlt, hst]

theorem serveYield_higher (h : extOf s (oSlot tx.offset) = some e) (hlt : tx.version.toNat < e.homeEpoch.toNat)
    (hst : e.state = .migrating) : serveYield tx s = setExt (oSlot tx.offset) (noted s { e with state := .active }) s := by
  simp [serveYield, h, hlt, hst, Nat.lt_asymm hlt]

theorem serveYield_equal (h : extOf s (oSlot tx.offset) = some e) (heq : tx.version.toNat = e.homeEpoch.toNat) :
    serveYield tx s = s := by
  simp [serveYield, h, heq]
end

/-- YIELD is no request, so that no FENCE holds it. -/
theorem serveOp_yield {rid port : Nat} {tx : Tx} {s : State} (hop : tx.op = 0x49) :
    serveOp true rid port tx s = serveYield tx s := by
  simp [serveOp, isRequest, opAnswered, opDefined, hop]

/-- A row of YIELD has the effect that its rule gives at the state that serves it. -/
theorem yield_serves {port : Nat} {tx0 : Tx} {hyp : State → Tx → State → Prop} {eff : Tx → State → State}
    (h : ∀ s tx, hyp s tx (taken port tx s) → serveYield tx (taken port tx s) = eff tx (taken port tx s)) :
    Serves (.yieldMsg port tx0) 0x49 false port tx0 hyp eff := by
  intro s tx harr _ hh
  refine congrArg Host.Outcome.next ((recv_request harr).trans (congrArg settle ?_))
  exact (serveOp_yield rfl).trans (h s tx hh)

/-- Settles O24: the old home's rule for PULL_STATE, the new home's for its response, and YIELD's, case by case. -/
theorem rehomingMessages : Obligations.RehomingMessages := by
  unfold Obligations.RehomingMessages
  refine ⟨fun port tx0 e => ⟨?free, ?settled, ?extent, ?ledger, ?again, ?first⟩,
    fun port tx0 slot => ⟨?tile, ?own, ?nothing, ?unknown⟩, fun port tx0 e => ⟨?lower, ?higher, ?equal⟩⟩
  case free => exact pullState_serves fun s _ _ _ h => servePull_noExtent (by simpa using h)
  case settled =>
    refine pullState_serves fun s _ _ _ ⟨h, hm⟩ => servePull_settled (by simpa using h) hm
  case extent =>
    refine pullState_serves fun s _ _ _ ⟨⟨h, hm⟩, hq, hp⟩ => servePull_extent (by simpa using h) hm hq hp
  case ledger =>
    refine pullState_serves fun s _ _ _ ⟨⟨h, hm⟩, hq0, hq1, hp⟩ => servePull_ledger (by simpa using h) hm hq0 hq1 hp
  case again =>
    refine fun p => pullState_serves fun s _ _ _ ⟨⟨⟨h, hm⟩, hq0, hq1⟩, hp⟩ =>
      servePull_again (by simpa using h) hm hq0 hq1 (by simpa using hp)
  case first =>
    refine pullState_serves fun s _ _ _ ⟨⟨⟨h, hm⟩, hq0, hq1⟩, hp, hb, hw⟩ => ?_
    exact servePull_first (by simpa using h) hm hq0 hq1 (by simpa using hp) (by simpa using hb) (by simpa using hw)
  case tile =>
    exact fun p => pullResponse_serves fun s _ ⟨⟨ha, hq⟩, hb, hn⟩ => servePullAnswer_tile (by simpa using ha) hq hb hn
  case own =>
    exact fun p => pullResponse_serves fun s _ ⟨⟨ha, hq⟩, hb, hn⟩ => servePullAnswer_extent (by simpa using ha) hq hb hn
  case nothing =>
    exact pullResponse_serves fun s _ ⟨⟨ha, hq⟩, hb, _⟩ => servePullAnswer_nothing (by simpa using ha) hq hb
  case unknown => exact pullResponse_serves fun s _ ha => servePullAnswer_unknown (by simpa using ha)
  case lower => exact yield_serves fun s _ ⟨h, hlt, hst⟩ => serveYield_lower (by simpa using h) hlt hst
  case higher => exact yield_serves fun s _ ⟨h, hlt, hst⟩ => serveYield_higher (by simpa using h) hlt hst
  case equal => exact yield_serves fun s _ ⟨h, heq⟩ => serveYield_equal (by simpa using h) heq

end Sys2Proof.Machine

namespace Sys2Proof.Machine

/-! ## Answers leave extents and BUSY tiles as they are -/

/-- Extents and BUSY tiles are the same. -/
def SameTiles (s t : State) : Prop := t.ext = s.ext ∧ t.home.busy = s.home.busy

theorem SameTiles.trans {s t u : State} (h : SameTiles s t) (h' : SameTiles t u) : SameTiles s u :=
  ⟨h'.1.trans h.1, h'.2.trans h.2⟩

theorem sameTiles_answerHeld (tx : Tx) (st : St) (r : BitVec 128) (s : State) : SameTiles s (answerHeld tx st r s) := by
  simp only [answerHeld]
  split
  · exact ⟨rfl, rfl⟩
  · refine List.foldlRecOn (motive := SameTiles s) _ _ ⟨rfl, rfl⟩ ?_
    exact fun t h p _ => h.trans ⟨rfl, rfl⟩

theorem sameTiles_endAtomic (tx : Tx) (st : St) (r : BitVec 128) (s : State) : SameTiles s (endAtomic tx st r s) :=
  (SameTiles.trans (t := answerAtomic tx st r (ledgerDone tx st r s)) ⟨rfl, rfl⟩ (sameTiles_answerHeld _ _ _ _)).trans ⟨rfl, rfl⟩

/-- A waiting request that fails is answered, an atomic's ledger entry with it, and its retries. -/
theorem sameTiles_failWait (p : Parked) (st : St) (s : State) : SameTiles s (failWait p st s) := by
  unfold failWait
  split
  · exact ⟨rfl, rfl⟩
  · unfold failReq
    repeat' split
    · exact sameTiles_endAtomic _ _ _ _
    · exact SameTiles.trans (t := answerAtomic p.tx st 0 (ledgerDrop p.tx s)) ⟨rfl, rfl⟩ (sameTiles_answerHeld _ _ _ _)
    · exact ⟨rfl, rfl⟩
    · exact ⟨rfl, rfl⟩

/-- Waiting requests that end with a status, in order. -/
def failAll (st : St) (l : List Parked) (s : State) : State := l.foldl (fun t p => failWait p st (unpark p.id t)) s

theorem sameTiles_failAll (st : St) (l : List Parked) (s : State) : SameTiles s (failAll st l s) := by
  refine List.foldlRecOn (motive := SameTiles s) l _ ⟨rfl, rfl⟩ ?_
  exact fun t h p _ => h.trans (SameTiles.trans (t := unpark p.id t) ⟨rfl, rfl⟩ (sameTiles_failWait _ _ _))

/-! ## Where nothing is BUSY, invalidated or published, nothing of it ends -/

theorem dropBusyReqs_none {st : St} {hit : Tx → Bool} {s : State} (h : s.home.busy = []) : dropBusyReqs st hit s = s := by
  simp [dropBusyReqs, busyReqs, h]

theorem dropHeld_none {st : St} {hit : Tx → Bool} {s : State} (hi : s.ext.invals = [])
    (hp : ∀ x ∈ s.ext.entries, x.2.publishing = none) : dropHeld st hit s = s := by
  have hmap : ∀ f : Nat × Extent → Nat × Extent, (∀ x, x.2.publishing = none → f x = x) → s.ext.entries.map f = s.ext.entries :=
    fun f hf => (List.map_congr_left fun x hx => hf x (hp x hx)).trans (List.map_id' _)
  have hpub : ∀ f : Nat × Extent → Option Tx, (∀ x, x.2.publishing = none → f x = none) → s.ext.entries.filterMap f = [] :=
    fun f hf => List.filterMap_eq_nil_iff.2 fun x hx => hf x (hp x hx)
  simp only [dropHeld, hi, List.filterMap_nil, List.filter_nil, List.nil_append]
  rw [hpub _ (fun x hx => by rw [hx]), hmap _ (fun x hx => by rw [hx]; rfl), ← hi]
  rfl

theorem dropSeals_none {st : St} {d : Word32} {hit : Nat → Queue → Bool} {s : State}
    (hp : ∀ x ∈ s.ext.entries, x.2.publishing = none) : dropSeals st d hit s = s :=
  foldl_unmoved fun x hx => by rw [hp x hx]

/-! ## The stop of a force (R44) -/

/-- The force has been stopped. -/
def markStopped (id : Nat) (s : State) : State :=
  { s with ext := { s.ext with forces := s.ext.forces.map (fun y => if y.id = id then { y with stopped := true } else y) } }

theorem forceStop_stopped {id : Nat} {s : State} {f : Force} (hf : s.ext.forces.find? (fun y => y.id == id) = some f)
    (hs : f.stopped = true) : forceStop id s = s := by simp [forceStop, hf, hs]

/-- Where no item runs and nothing is BUSY, invalidated or published, a force that stops ends the waiting requests of its holders
alone. -/
theorem forceStop_idle {id : Nat} {s : State} {f : Force} (hf : s.ext.forces.find? (fun y => y.id == id) = some f)
    (hs : f.stopped = false) (hq : s.queues.queues = []) (hb : s.home.busy = []) (hi : s.ext.invals = [])
    (hp : ∀ x ∈ s.ext.entries, x.2.publishing = none) :
    forceStop id s = failAll .revoked
      (s.home.parked.filter (fun p => admitted p && f.holders.contains p.tx.src && oSlot p.tx.offset == f.slot)) (markStopped id s) := by
  generalize hl : s.home.parked.filter (fun p => admitted p && f.holders.contains p.tx.src && oSlot p.tx.offset == f.slot) = l
  obtain ⟨hext, hbusy⟩ := sameTiles_failAll .revoked l (markStopped id s)
  have hpub : ∀ x ∈ (failAll .revoked l (markStopped id s)).ext.entries, x.2.publishing = none := by rw [hext]; exact hp
  simp only [forceStop, hf, hs, hq, hl, Bool.false_eq_true, if_false, List.foldl_nil]
  change dropSeals _ _ _ (dropHeld _ _ (dropBusyReqs _ _ (failAll .revoked l (markStopped id s)))) = _
  rw [dropBusyReqs_none (hbusy.trans hb), dropHeld_none (by rw [hext]; exact hi) hpub, dropSeals_none hpub]

/-! ## Quiescence (R44, R45) -/

theorem quiesce_done {id : Nat} {s : State} {f : Force} {e : Extent} (hf : s.ext.forces.find? (fun y => y.id == id) = some f)
    (he : extOf s f.slot = some e) (hq : quiescent s f e = true) : quiesce id s = revokeDone f e s := by
  simp [quiesce, hf, he, hq]

theorem quiesce_waits {id : Nat} {s : State} {f : Force} {e : Extent} (hf : s.ext.forces.find? (fun y => y.id == id) = some f)
    (he : extOf s f.slot = some e) (hq : quiescent s f e = false) (hm : e.mode ≠ .coherent) : quiesce id s = s := by
  simp [quiesce, hf, he, hq, hm]

/-- The last force of a draining extent frees its slot. -/
theorem revokeDone_frees {f : Force} {e : Extent} (s : State) (hd : e.state = .draining)
    (hh : ∀ h ∈ e.holders, h.node ∈ f.holders) : extOf (revokeDone f e s) f.slot = none := by
  have hnone : e.holders.filter (fun h => !f.holders.contains h.node) = [] :=
    List.filter_eq_nil_iff.2 fun h hm => by simp [hh h hm]
  simp only [revokeDone, hnone]
  rw [if_pos ⟨hd, rfl⟩]
  exact extOf_freeSlot_same _ _

/-! ## Batches that wait, and the retirement of the older epoch (R49, R50) -/

theorem resumeBatch_none {s : State} (h : firstBatch s.mgmt.waiting = none) : resumeBatch s = s := by simp [resumeBatch, h]

section
variable {s : State} {h : Mgmt} {code : Nat} {ops : List ExtentOp} {r : List MgmtWait}
variable (hb : firstBatch s.mgmt.waiting = some ((h, code, ops), r))
include hb

theorem resumeBatch_held (hw : batchWaits ops s = true ∨ ops.any (waitsForReset s) = true) : resumeBatch s = s := by
  simp only [resumeBatch, hb]
  exact if_pos (by simpa using hw)

theorem resumeBatch_runs (hw : batchWaits ops s = false) (hr : ops.any (waitsForReset s) = false) :
    resumeBatch s = runBatch h code ops { s with mgmt := { s.mgmt with waiting := r } } := by
  simp only [resumeBatch, hb, hw, hr]
  rfl

/-- At the timeout the older epoch is retired by force where the first batch that waits needs it gone (R50). -/
theorem exec_epochRetireTimeout :
    exec .epochRetireTimeout s = .next (if batchWaits ops s then resumeBatch (forceRetire s) else s) := by
  show execEpochRetireTimeout s = _
  simp only [execEpochRetireTimeout, hb]
end

/-- The older epoch is gone. -/
def withoutOlder (s : State) : State := { s with ext := { s.ext with older := none } }

/-- Where nothing is BUSY, an epoch retired by force ends the waiting requests that count against it alone. -/
theorem forceRetire_idle {s : State} {m : BitVec 16} (ho : s.ext.older = some m) (hb : s.home.busy = []) :
    forceRetire s = settle (withoutOlder
      (failAll .mapStale (s.home.parked.filter (fun p => admitted p && p.tx.mapEpoch == m)) s)) := by
  generalize hl : s.home.parked.filter (fun p => admitted p && p.tx.mapEpoch == m) = l
  have hbusy : (failAll .mapStale l s).home.busy = [] := (sameTiles_failAll .mapStale l s).2.trans hb
  simp only [forceRetire, ho, hl]
  change settle (withoutOlder (dropBusyReqs _ _ (List.foldl _ (failAll .mapStale l s)
    ((failAll .mapStale l s).home.busy.filter _)))) = _
  rw [hbusy, List.filter_nil, List.foldl_nil, dropBusyReqs_none hbusy]

end Sys2Proof.Machine

namespace Sys2Proof.Machine

/-! ## The discard of an open layer (R113) -/

/-- Whether the open layer of an extent is being discarded. -/
def Discards (e : Extent) : Prop :=
  e.openV ≠ 0 ∧ e.layers.any (fun l => l.version == e.openV && l.state == .discarding) = true

section
variable {slot : Nat} {s : State} {e : Extent} (he : extOf s slot = some e)
include he

theorem exec_discardRestore_drained (hd : Discards e) (hdr : drained s slot e = true) {u : State} {e1 : Extent}
    (hr : restoreAll slot (openTiles s slot e) s = (true, u)) (he1 : extOf u slot = some e1) :
    exec (.discardRestore slot) s = .next (settle (endDiscard slot e1 u)) := by
  show execDiscardRestore slot s = _
  simp only [execDiscardRestore, he]
  rw [if_pos ⟨hd.1, hd.2, hdr⟩]
  simp only [hr, he1]

theorem exec_discardRestore_undrained (hdr : drained s slot e = false) : exec (.discardRestore slot) s = .next s := by
  show execDiscardRestore slot s = _
  simp [execDiscardRestore, he, hdr]
end

@[simp] theorem postHost_ext (seq code p slot : Nat) (h : Node) (arg : Word32) (s : State) :
    (postHost seq code p slot h arg s).ext = s.ext := by
  unfold postHost
  simp only
  split <;> rfl

@[simp] theorem postAll_ext (n : Ev) (p : Nat) (args : List Nat) (code slot : Nat) (hosts : List Node) (arg : Node → Word32)
    (s : State) : (postAll n p args code slot hosts arg s).ext = s.ext := by
  unfold postAll
  exact List.foldlRecOn (motive := fun t : State => t.ext = s.ext) _ _ (post_ext _ _ _ _)
    (fun t ht h _ => by rw [postHost_ext, ht])

/-- The entry once its discarded layer is FREE. -/
def discarded (v : Nat) (e : Extent) : Extent :=
  { e with openV := 0, layers := e.layers.map (fun l => if l.version = v ∧ l.state = .discarding then freeLayer else l) }

theorem extOf_endDiscard {slot : Nat} {s : State} {e : Extent} (he : extOf s slot = some e) :
    extOf (endDiscard slot e s) slot = some (noted s (discarded e.openV e)) := by
  have hmod := tget_tmod_same s.ext.entries slot (fun x => noted s (discarded e.openV x))
  rw [show tget s.ext.entries slot = some e from he] at hmod
  simp only [endDiscard, extOf, postAll_ext]
  exact hmod

/-! ## The sweep of records that no layer needs (R118) -/

@[simp] theorem checkSpace_heads (p : Nat) (s : State) : (checkSpace p s).vers.heads = s.vers.heads := by
  unfold checkSpace
  repeat' split
  all_goals rfl

theorem sweepSlot_free {slot : Nat} {s : State} (h : extOf s slot = none) : sweepSlot slot s = s := by simp [sweepSlot, h]

/-- A head all of whose copies are dead goes with them, where no layer is open. -/
theorem sweepSlot_heads_dead {slot k : Nat} {s : State} {e : Extent} {h : Head} (he : extOf s slot = some e)
    (hh : s.vers.heads = [(k, h)]) (hk : keySlot k = slot) (ho : e.openV = 0) (hd : deadCopies e 0 h.copies = h.copies) :
    (sweepSlot slot s).vers.heads = [] := by
  simp [sweepSlot, he, hh, hk, hd, headDead, ho, freeSinterKeys]

/-! ## The background pull (R54, R332, R419) -/

section
variable {slot : Nat} {s : State} {e : Extent} (he : extOf s slot = some e)
include he

theorem exec_rehomePull_settled (ha : e.state ≠ .arriving) : exec (.rehomePull slot) s = .next s := by
  show execRehomePull slot s = _
  simp [execRehomePull, he, ha]

theorem exec_rehomePull_unknown (ha : e.state = .arriving) (hk : e.known = false) :
    exec (.rehomePull slot) s = .next (askPull e 0 6 1 0 s) := by
  show execRehomePull slot s = _
  simp [execRehomePull, he, ha, hk]

variable (ha : e.state = .arriving) (hk : e.known = true)
include ha hk

theorem exec_rehomePull_all (ht : 4194304 ≤ nextPull s slot) :
    exec (.rehomePull slot) s = .next (settle (rehomeCheck slot s)) := by
  show execRehomePull slot s = _
  simp [execRehomePull, he, ha, hk, ht]

variable (ht : nextPull s slot < 4194304)
include ht

theorem exec_rehomePull_adopted (had : thas s.ext.adopted slot = true) :
    exec (.rehomePull slot) s = .next (settle (rehomeCheck slot (adoptTile slot (nextPull s slot) e s))) := by
  show execRehomePull slot s = _
  simp [execRehomePull, he, ha, hk, Nat.not_le.2 ht, had]

section
variable (had : thas s.ext.adopted slot = false)
include had

theorem exec_rehomePull_held (hh : s.ext.held.any (fun h => h.1 == slot && h.2.tile == nextPull s slot) = true) :
    exec (.rehomePull slot) s = .next s := by
  show execRehomePull slot s = _
  simp only [execRehomePull, he, ha, hk, Nat.not_le.2 ht, had, hh]
  rfl

variable (hh : s.ext.held.any (fun h => h.1 == slot && h.2.tile == nextPull s slot) = false)
include hh

/-- A tile that was asked for on TC6 and has not been answered is asked for again (log entry 169). -/
theorem exec_rehomePull_again (hq : tget s.ext.asked (tkey slot (nextPull s slot)) = some 6) :
    exec (.rehomePull slot) s = .next (sendPull e (nextPull s slot) 6 s) := by
  show execRehomePull slot s = _
  simp only [execRehomePull, he, ha, hk, Nat.not_le.2 ht, had, hh, hq]
  rfl

theorem exec_rehomePull_ask (hq : tget s.ext.asked (tkey slot (nextPull s slot)) ≠ some 6) :
    exec (.rehomePull slot) s = .next (askTile slot e (nextPull s slot) 6 s) := by
  show execRehomePull slot s = _
  simp only [execRehomePull, he, ha, hk, Nat.not_le.2 ht, had, hh, hq]
  rfl
end
end

theorem askTile_asked {slot tile cls c : Nat} {e : Extent} {s : State} (h : tget s.ext.asked (tkey slot tile) = some c) :
    askTile slot e tile cls s = s := by simp [askTile, thas, h]

theorem askTile_new {slot tile cls : Nat} {e : Extent} {s : State} (h : tget s.ext.asked (tkey slot tile) = none) :
    askTile slot e tile cls s = { sendPull e tile cls s with ext := { (sendPull e tile cls s).ext with
      asked := tset (sendPull e tile cls s).ext.asked (tkey slot tile) cls } } := by simp [askTile, thas, h]

/-- Settles O32: revocations and map epochs in time, then discards, sweeps and pulls in the background. -/
theorem revocationAndBackground : Obligations.RevocationAndBackground := by
  unfold Obligations.RevocationAndBackground
  refine ⟨⟨?force, ?batch, ?epoch⟩, ?discard, ?sweep, ?pull⟩
  case force =>
    intro id s f hf
    refine ⟨fun hs => next_settle (forceStop_stopped hf hs), fun _ => rfl, ?alone, ?one,
      fun e he hq => next_settle (quiesce_done hf he hq),
      fun e he hq hm => next_settle (quiesce_waits hf he hq hm),
      fun e _ hd hh => revokeDone_frees s hd hh⟩
    case alone =>
      intro hs hq hpark hb hi hp
      refine (next_settle (forceStop_idle hf hs hq hb hi hp)).trans ?_
      rw [hpark]
      rfl
    case one =>
      intro tx p hs hq hpark hadm htx hb hi hp hsrc hslot
      refine (next_settle (forceStop_idle hf hs hq hb hi hp)).trans ?_
      rw [hpark, List.filter_cons_of_pos (by rw [htx, hadm, hsrc, hslot]; simp)]
      rfl
  case batch =>
    refine fun s => ⟨rfl, fun hb => ⟨resumeBatch_none hb, ?_⟩, fun h code ops r hb =>
      ⟨resumeBatch_held hb, resumeBatch_runs hb, fun hw => ?_, fun hw => ?_⟩⟩
    · show execEpochRetireTimeout s = _
      simp only [execEpochRetireTimeout, hb]
    · rw [exec_epochRetireTimeout hb, if_neg (by simp [hw])]
    · rw [exec_epochRetireTimeout hb, if_pos hw]
  case epoch =>
    refine fun s m ho hb => ⟨fun hpark => ?_, fun p hpark hadm hm => ?_⟩
    · rw [forceRetire_idle ho hb, hpark]
      rfl
    · rw [forceRetire_idle ho hb, hpark, List.filter_cons_of_pos (by rw [hadm, hm]; simp)]
      rfl
  case discard =>
    intro slot s e he hv hl
    have hd : Discards e := ⟨hv, hl⟩
    refine ⟨fun hdr hnone => ?_, fun k u hdr hone hu e1 he1 => ?_, exec_discardRestore_undrained he,
      _, extOf_endDiscard he, rfl, fun i l hi hver hst => ?_⟩
    · exact exec_discardRestore_drained he hd hdr (by rw [hnone]; rfl) he
    · exact exec_discardRestore_drained he hd hdr (by simp [hone, restoreAll, hu]) he1
    · simp [noted, discarded, hi, hver, hst]
  case sweep =>
    exact fun slot s => ⟨rfl, fun e h k he hh hk ho hd => sweepSlot_heads_dead he hh hk ho hd, sweepSlot_free⟩
  case pull =>
    intro slot s e he t
    refine ⟨exec_rehomePull_settled he, exec_rehomePull_unknown he, fun ha hk ht had => ?_,
      exec_rehomePull_adopted he, exec_rehomePull_all he⟩
    refine ⟨exec_rehomePull_held he ha hk ht had, fun hh hq => ?_, exec_rehomePull_again he ha hk ht had, fun hh hq => ?_⟩
    · rw [exec_rehomePull_ask he ha hk ht had hh (by rw [show tget _ _ = none from hq]; simp), askTile_new hq]
    · rw [exec_rehomePull_ask he ha hk ht had hh (by rw [show tget _ _ = some 1 from hq]; simp), askTile_asked hq]

end Sys2Proof.Machine

/-! # Atomics, sources and routes (chapters 4, 6, 10 and 14): the proofs of their statements -/

namespace Sys2Proof.Machine

/-! ## Operations and their sizes (R85, R86) -/

/-- An operation of R85 and the bytes of its operand, among those that it allows. -/
def AtomicFormed (aop n : Nat) : Prop :=
  ((1 ≤ aop ∧ aop ≤ 13) ∨ (33 ≤ aop ∧ aop ≤ 43)) ∧
    (if aopBase aop = 2 ∨ aopBase aop = 5 ∨ aopBase aop = 8 then n = 4
      else if aopBase aop = 12 ∨ aopBase aop = 13 then n = 4 ∨ n = 8 ∨ n = 16 else n = 4 ∨ n = 8)

theorem abAop_lt (v : Nat) : abAop v < 64 := Nat.mod_lt _ (Nat.two_pow_pos 6)

theorem sizeBytes_eq_iff (size i : Nat) : sizeBytes size = sizeBytes i ↔ size = i :=
  (Nat.mul_left_cancel_iff (by decide)).trans (Nat.pow_right_inj (by decide))

/-- What the codes of an atomic block allow is what R85 lists. -/
theorem aopOk_iff {aop : Nat} (size : Nat) (h : aop < 64) : aopOk aop size = true ↔ AtomicFormed aop (sizeBytes size) := by
  have h4 : sizeBytes size = 4 ↔ size = 0 := sizeBytes_eq_iff size 0
  have h8 : sizeBytes size = 8 ↔ size = 1 := sizeBytes_eq_iff size 1
  have h16 : sizeBytes size = 16 ↔ size = 2 := sizeBytes_eq_iff size 2
  have hbase : aopBase aop = aop % 32 := rfl
  simp only [AtomicFormed, aopOk, h4, h8, h16, Bool.and_eq_true, Bool.or_eq_true, decide_eq_true_eq]
  refine and_congr (by omega) ?_
  split
  · simp
  · split <;> simp only [decide_eq_true_eq] <;> omega

theorem AtomicFormed.bytes {aop n : Nat} (h : AtomicFormed aop n) : n = 4 ∨ n = 8 ∨ n = 16 := by
  obtain ⟨-, hn⟩ := h
  split at hn
  · exact .inl hn
  · split at hn
    · exact hn
    · exact hn.imp_right .inl

/-- The bytes of an operand divide a tile. -/
theorem AtomicFormed.bytes_dvd {aop n : Nat} (h : AtomicFormed aop n) : n ∣ 256 := by
  rcases h.bytes with rfl | rfl | rfl <;> decide

theorem oByte_lt (o : BitVec 48) : oByte o < 256 := Nat.mod_lt _ (Nat.two_pow_pos 8)

/-- BYTE rounded down to the size of an operand that divides a tile: the operand lies at BYTE and within the tile (R86). -/
theorem operand_within {b n : Nat} (hn : n ∣ 256) (hb : b < 256) :
    n ∣ b / n * n ∧ b / n * n ≤ b ∧ b < b / n * n + n ∧ b / n * n + n ≤ 256 := by
  have hpos : 0 < n := Nat.pos_of_dvd_of_pos hn (by decide)
  refine ⟨Nat.dvd_mul_left _ _, Nat.div_mul_le_self _ _, Nat.lt_div_mul_add hpos, ?_⟩
  calc b / n * n + n = (b / n + 1) * n := (Nat.succ_mul _ _).symm
    _ ≤ 256 / n * n := Nat.mul_le_mul_right _ (Nat.div_lt_div_of_lt_of_dvd hn hb)
    _ = 256 := Nat.div_mul_cancel hn

/-! ## The row of ATOMIC -/

theorem serveOp_atomic {rid port : Nat} {tx : Tx} {s : State} (hop : tx.op = 0x04) (hf : fenceHeld s tx.src rid = false) :
    serveOp true rid port tx s = serveAtomic true rid port tx s := by
  simp [serveOp, hop, hf]

/-- An ATOMIC that arrives and that no FENCE holds is served as an atomic. -/
theorem exec_atomic {port : Nat} {tx0 : Tx} {s : State} (h : Arrives s port (arriving s port 0x04 false tx0))
    (hf : fenceHeld (taken port (arriving s port 0x04 false tx0) s) (arriving s port 0x04 false tx0).src s.home.nextId = false) :
    exec (.atomic port tx0) s = .next (settle (serveAtomic true s.home.nextId (canonPort s port) (arriving s port 0x04 false tx0)
      (taken port (arriving s port 0x04 false tx0) s))) := by
  refine congrArg Host.Outcome.next ((recv_request h).trans ?_)
  exact congrArg settle (serveOp_atomic rfl hf)

@[simp] theorem check1_taken (port : Nat) (tx tx' : Tx) (s : State) : check1 tx' (taken port tx s) = check1 tx' s := by
  simp [check1]

/-! ## What an arriving ATOMIC meets (R39, R86, R91, R99) -/

/-- The acknowledgement that an atomic may carry has been processed (R91). -/
def acknowledged (tx : Tx) (s : State) : State :=
  if abAckValid tx.trailer.val then processAck (atomSource tx) (abAck tx.trailer.val) s else s

section
variable {rid port : Nat} {tx : Tx} {s : State}
variable (h1 : check1 tx s = none)
include h1

theorem serveAtomic_reserved (hf : aopOk (abAop tx.trailer.val) (abSize tx.trailer.val) = false) :
    serveAtomic true rid port tx s = answerAtomic tx .opcode 0 (acknowledged tx s) := by
  simp [serveAtomic, acknowledged, h1, hf]

variable (hf : aopOk (abAop tx.trailer.val) (abSize tx.trailer.val) = true)
variable (hlive : epochLive (acknowledged tx s) tx.mapEpoch = true)
include hf hlive

/-- One that matches an entry is answered from it, or waits for the original. -/
theorem serveAtomic_matched {l : LEntry} (hl : ledgerFind (acknowledged tx s) (atomSource tx) tx.tag = some l) :
    serveAtomic true rid port tx s = if l.done then answerAtomic tx l.status l.result (acknowledged tx s)
      else park rid port tx (.pending (atomSource tx).1 (atomSource tx).2 tx.tag) (acknowledged tx s) := by
  simp only [acknowledged] at hl hlive ⊢
  simp only [serveAtomic, h1, hf, hlive, hl, Bool.not_true, Bool.false_eq_true, if_false]

variable (hl : ledgerFind (acknowledged tx s) (atomSource tx) tx.tag = none)
variable (hp : needLedgerPull (acknowledged tx s) (oSlot tx.offset) (atomSource tx) = none)
include hl hp

/-- One that matches no entry meets the other checks, unless it is a retry that may have been applied before. -/
theorem serveAtomic_unmatched :
    serveAtomic true rid port tx s =
      if abRetry tx.trailer.val = 2 ∨
          (abRetry tx.trailer.val = 1 ∧ historyLost (acknowledged tx s) (oSlot tx.offset) (atomSource tx) = true)
      then answerAtomic tx .outcomeUnknown 0 (acknowledged tx s)
      else meet true rid port tx (fun p e t => checkWrite t p e tx.version.toNat) (fun _ e t => atomicNew rid port tx e t)
        (acknowledged tx s) := by
  simp only [acknowledged] at hl hp hlive ⊢
  simp only [serveAtomic, h1, hf, hlive, hl, hp, Bool.not_true, Bool.false_eq_true, if_false] <;> rfl
end

/-! ## An admitted ATOMIC (R93, R95, R97) -/

section
variable {rid port : Nat} {tx : Tx} {e : Extent} {s : State}

theorem atomicNew_full (h : 1024 ≤ ledgerCount s (atomSource tx)) : atomicNew rid port tx e s = answerAtomic tx .state 0 s :=
  if_pos h

variable (h : ledgerCount s (atomSource tx) < 1024)
include h

theorem atomicNew_waits (hw : ledgerFull s e.owner = true ∨ aheadOf s e.owner rid = true) :
    atomicNew rid port tx e s = park rid port tx (.ledger e.owner) s := by
  rw [atomicNew, if_neg (Nat.not_le.2 h), if_pos (by simpa using hw)]

theorem atomicNew_enters (hr : ledgerFull s e.owner = false) (ha : aheadOf s e.owner rid = false) :
    atomicNew rid port tx e s = atomicAtTile rid port tx e (ledgerTake tx (oSlot tx.offset) e.owner s) := by
  simp [atomicNew, Nat.not_le.2 h, hr, ha]
end

/-! ## An ATOMIC at its tile (R68, R71, R86, R88) -/

/-- The operand changed as an atomic changes it, at BYTE rounded down to its size (R86). -/
def atomicChange (tx : Tx) (old : Block) : Block :=
  let v := tx.trailer.val
  let n := sizeBytes (abSize v)
  let off := oByte tx.offset / n * n
  setBytes old off n (aopApply (abAop v) n (bytesAt old off n) (abOperand v) (abCompare v))

/-- RESULT of an atomic that found `old`: the operand's old value in the FETCH forms (R85, R89). -/
def atomicResult (tx : Tx) (old : Tile) : BitVec 128 :=
  let n := sizeBytes (abSize tx.trailer.val)
  BitVec.ofNat 128 (if aopFetch (abAop tx.trailer.val) then bytesAt old.data (oByte tx.offset / n * n) n else 0)

section
variable {rid port : Nat} {tx : Tx} {e : Extent} {s : State}

/-- An ATOMIC that needs no recall is applied, and its entry is DONE. -/
theorem runReq_atomic {old : Tile} {b : State} (hop : tx.op = 0x04) (he : extOf s (oSlot tx.offset) = some e)
    (hc : doChange (oSlot tx.offset) (oTile tx.offset) tx.version.toNat [] (atomicChange tx) s = (some old, .done b)) :
    runReq rid port tx s = endAtomic tx .ok (atomicResult tx old) b := by
  have hrow : finishRow false tx [] s = doAtomic tx [] s := by simp [finishRow, he, hop]
  have hdone : doAtomic tx [] s = .done (endAtomic tx .ok (atomicResult tx old) b) := by
    unfold atomicChange at hc
    simp only [doAtomic, hc, atomicResult]
  simp only [runReq, hrow, hdone]

theorem atomicAtTile_free (hfree : TilesFree tx s) :
    atomicAtTile rid port tx e s =
      if poisoned (touched tx s) (oSlot tx.offset) (oTile tx.offset) then failReq tx .poison (touched tx s)
      else recallFor rid port tx e (fun t => writeRecalls e (dirOf (touched tx s) (oSlot tx.offset) t)) (touched tx s) := by
  rw [atomicAtTile, atTiles, inTurn_free _ hfree, Bool.true_and]

theorem failReq_poisoned_atomic (hop : tx.op = 0x04) : failReq tx .poison s = endAtomic tx .poison 0 s := by
  simp [failReq, hop]
end

/-- Settles O17: the checks in their order, then the ledger, then the tile. -/
theorem atomicApplies : Obligations.AtomicApplies := by
  unfold Obligations.AtomicApplies
  refine ⟨?_, fun _ _ _ => ⟨rfl, rfl, rfl, rfl, rfl, rfl, rfl, _, rfl, rfl, rfl, rfl, rfl, rfl⟩⟩
  intro port tx0 s tx v k a n off f base formed unknown place harr hfence h1
  have hexec := exec_atomic harr hfence
  have hc1 : check1 tx (taken port tx s) = none := (check1_taken port tx tx s).trans h1
  have hformed : aopOk (abAop v) (abSize v) = true ↔ formed := aopOk_iff (abSize v) (abAop_lt v)
  refine ⟨?reserved, fun hf hlive => ?allowed, fun hf => ?within⟩
  case within =>
    have hdvd : n ∣ 256 := AtomicFormed.bytes_dvd hf
    exact operand_within hdvd (oByte_lt tx.offset)
  case reserved =>
    exact fun hf => hexec.trans (next_settle (serveAtomic_reserved hc1 (Bool.eq_false_iff.2 fun h => hf (hformed.1 h))))
  have hok := hformed.2 hf
  refine ⟨fun l hl hd => ?done, fun l hl hd => ?pending, fun hl hp hu => ?unknown, fun q e hl hp hu hadm hw => ?new⟩
  case done => exact hexec.trans (next_settle ((serveAtomic_matched hc1 hok hlive hl).trans (if_pos hd)))
  case pending => exact hexec.trans (next_settle ((serveAtomic_matched hc1 hok hlive hl).trans (if_neg (by simp [hd]))))
  case unknown => exact hexec.trans (next_settle ((serveAtomic_unmatched hc1 hok hlive hl hp).trans (if_pos hu)))
  case new =>
    have hnew : exec (.atomic port tx0) s = .next (settle (atomicNew s.home.nextId (canonPort s port) tx e a)) :=
      hexec.trans (next_settle ((serveAtomic_unmatched hc1 hok hlive hl hp).trans ((if_neg hu).trans (meet_admitted hadm hw))))
    refine ⟨fun hc => hnew.trans (next_settle (atomicNew_full hc)),
      fun hc hwait => hnew.trans (next_settle (atomicNew_waits hc hwait)), fun hc hroom hahead hfree => ?_⟩
    intro y
    have htile := hnew.trans (next_settle ((atomicNew_enters hc hroom hahead).trans
      (atomicAtTile_free (s := place e.owner a) hfree)))
    refine ⟨fun hpois => ?_, fun hpois hnone old b hchange => ?_⟩
    · exact htile.trans (next_settle ((if_pos hpois).trans (failReq_poisoned_atomic rfl)))
    · have he : extOf y (oSlot tx.offset) = some e :=
        (extOf_touched tx (place e.owner a) _).trans (extOf_of_admission_go hadm.home)
      exact htile.trans (next_settle ((if_neg (by simp [y, hpois])).trans
        ((recallFor_none hnone).trans (runReq_atomic rfl he hchange))))

end Sys2Proof.Machine

namespace Sys2Proof.Machine

/-! ## Messages of fabric managers that their own rule answers (R380 to R384) -/

/-- The row of a fabric manager's message answers as its own rule does: `Requests` meets every check before it. -/
theorem answers_of_rule {c : Instr} {h : Mgmt} {code : Nat} {hyp : State → Prop} {st : St} {body : State → List Nat}
    {change : Bool} {eff : State → State} {own : Bool} {go : SessKind → State → MRes} (row : State → Out)
    (hrow : ∀ s, row s = request code own h go s) (hrule : ∀ s, hyp s → go .fm s = .done st (body s) change (eff s))
    (hexec : ∀ s, exec c s = row s := by exact fun _ => rfl) (hd : codeDefined code = true := by decide) :
    Answers c h .fm code hyp st body change eff :=
  fun s hs hh => ((hexec s).trans (hrow s)).trans (request_done hs (hs.fm hd) (hrule s hh))

/-! ## Routing entries (R356) -/

/-- Whether every valid slot of an entry names a port that the entry of a node may name (R356). -/
def routeSlotsOk (n : Node) (r : Route) (s : State) : Bool :=
  (List.range 4).all fun k => !r.valid.getLsbD k || routePortOk s n (r.ports.getD k 255)

section
variable {n : Node} {r : Route} {s : State}

/-- An entry with a slot that may not stand in it is not written. -/
theorem setRoute_refused (h : routeSlotsOk n r s = false) : setRoute (n, r) s = (.state, s) := by
  rw [setRoute, show List.all _ _ = false from h]
  rfl

/-- Entry 0xFFFF is accepted and never written. -/
theorem setRoute_noNode (h : routeSlotsOk noNode r s = true) : setRoute (noNode, r) s = (.ok, s) := by
  rw [setRoute, show List.all _ _ = true from h]
  rfl

/-- An entry whose valid slots may stand in it replaces the one before it whole. -/
theorem setRoute_written (h : routeSlotsOk n r s = true) (hn : n ≠ noNode) :
    setRoute (n, r) s = (.ok, { s with ports := { s.ports with routes := tset s.ports.routes n.toNat r } }) := by
  rw [setRoute, show List.all _ _ = true from h]
  exact if_neg hn

/-- Writing the entry of a node leaves the entries of all others. -/
theorem tget_setRoute_ne {m : Node} (h : m ≠ n) :
    tget (setRoute (n, r) s).2.ports.routes m.toNat = tget s.ports.routes m.toNat := by
  cases hok : routeSlotsOk n r s with
  | false => rw [setRoute_refused hok]
  | true =>
    by_cases hn : n = noNode
    · subst hn
      rw [setRoute_noNode hok]
    · rw [setRoute_written hok hn]
      exact tget_tset_ne _ _ fun he => h (BitVec.eq_of_toNat_eq he)

theorem routeVals_of_entry (h : tget s.ports.routes n.toNat = some r) : routeVals s n = r.ports ++ [r.valid.toNat, r.kind] := by
  simp [routeVals, h]
end

theorem routePort_noNode {tx : Tx} (s : State) (h : tx.dst = noNode) : routePort s tx = none := if_pos h

/-! ## The rows of ROUTE_SET, REPLACE_MODULE and GROUP_READ -/

/-- ROUTE_SET looks at the entries of a list that is neither empty nor longer than 4,096, all in their encoding. -/
theorem routeList_ok_iff (l : List (Node × Route)) :
    (l.isEmpty || decide (4096 < l.length) || !l.all (fun x => routeIn x.2)) = false ↔
      l ≠ [] ∧ l.length ≤ 4096 ∧ ∀ x ∈ l, routeIn x.2 = true := by
  simp [and_assoc]

/-- ROUTE_SET answers a status for each entry (log entry 88). -/
theorem exec_routeSet {h : Mgmt} {l : List (Node × Route)} {s : State} (hs : Requests h s) (hne : l ≠ [])
    (hlen : l.length ≤ 4096) (hin : ∀ x ∈ l, routeIn x.2 = true) :
    exec (.routeSet h l) s = .next (answered h 0x60 s.mgmt.eventSeq .ok ((setRoutes l s).1.map (fun x => (stCode x).toNat))
      ((setRoutes l s).1.contains .ok) (setRoutes l s).2) := by
  show execRouteSet h l s = _
  refine request_done hs (hs.fm (code := 0x60) (by decide)) ?_
  rw [(routeList_ok_iff l).2 ⟨hne, hlen, hin⟩]
  rfl

theorem routeSet_refused {h : Mgmt} {l : List (Node × Route)}
    (hbad : l = [] ∨ 4096 < l.length ∨ ∃ x ∈ l, routeIn x.2 = false) :
    Refuses (.routeSet h l) h .fm 0x60 (fun _ => True) .state := by
  refine answers_of_rule (execRouteSet h l) (fun _ => rfl) fun s _ => if_pos ?_
  refine Bool.of_not_eq_false fun hok => ?_
  obtain ⟨hne, hlen, hin⟩ := (routeList_ok_iff l).1 hok
  rcases hbad with he | hlt | ⟨x, hx, hr⟩
  · exact hne he
  · omega
  · simp [hin x hx] at hr

theorem replaceModule_changes (h : Mgmt) (gi pos : Nat) (n : Node) (g g1 : Group) :
    Changes (.replaceModule h gi pos n) h 0x41 (fun s => groupOf s gi = some g ∧ replaceAt g pos n = some g1)
      (fun s => settle (modGroup gi (fun _ => g1) (failBroken gi g s))) := by
  refine answers_of_rule (execReplaceModule h gi pos n) (fun _ => rfl) ?_
  rintro s ⟨hg, hr⟩
  simp only [hg, hr, yes]

theorem replaceModule_refused (h : Mgmt) (gi pos : Nat) (n : Node) (g : Group) :
    Refuses (.replaceModule h gi pos n) h .fm 0x41
      (fun s => groupOf s gi = none ∨ (groupOf s gi = some g ∧ replaceAt g pos n = none)) .state := by
  refine answers_of_rule (execReplaceModule h gi pos n) (fun _ => rfl) ?_
  rintro s (hg | ⟨hg, hr⟩)
  · simp only [hg, no]
  · simp only [hg, hr, no]

theorem groupRead_refused (h : Mgmt) (id : BitVec 48) :
    Refuses (.groupRead h id) h .fm 0x5A (fun s => cgOf s id = none) .state := by
  refine answers_of_rule (execGroupRead h id) (fun _ => rfl) fun s hs => ?_
  simp only [hs, no]

/-- Settles O51: each message by its own rule, and ROUTE_SET's entries one by one. -/
theorem routesAndRegistries : Obligations.RoutesAndRegistries := by
  unfold Obligations.RoutesAndRegistries
  refine ⟨fun h => ⟨?source, ?readGroup, fun gi pos n g g1 =>
      ⟨replaceModule_changes h gi pos n g g1, replaceModule_refused h gi pos n g⟩, ?register, ?release,
    fun id => ⟨?groupRead, groupRead_refused h id⟩, fun l hne hlen hin s hs => exec_routeSet hs hne hlen hin,
    fun l => routeSet_refused, ?routeRead, ?portReset⟩, ?entry⟩
  case source => exact fun src => answers_of_rule (execResetSource h src) (fun _ => rfl) fun _ _ => rfl
  case readGroup =>
    exact fun g => ⟨fun hg => answers_of_rule (execReadGroup h g) (fun _ => rfl) fun _ _ => if_neg (by omega),
      fun hg => answers_of_rule (execReadGroup h g) (fun _ => rfl) fun _ _ => if_pos hg⟩
  case register =>
    refine fun e ch st => answers_of_rule (execGroupRegister h e ch) (fun _ => rfl) ?_
    rintro s rfl
    rfl
  case release =>
    refine fun id st => answers_of_rule (execGroupRelease h id) (fun _ => rfl) ?_
    rintro s rfl
    rfl
  case groupRead =>
    refine answers_of_rule (execGroupRead h id) (fun _ => rfl) fun s hs => ?_
    obtain ⟨g, hg⟩ := Option.isSome_iff_exists.1 hs
    simp only [hg]
  case routeRead => exact fun l => answers_of_rule (execRouteRead h l) (fun _ => rfl) fun _ _ => rfl
  case portReset =>
    refine fun n => ⟨answers_of_rule (execPortReset h n) (fun _ => rfl) ?_,
      answers_of_rule (execPortReset h n) (fun _ => rfl) fun s hs => if_pos hs⟩
    rintro s ⟨hrole, hcanon⟩
    exact if_neg (by simp [hrole, hcanon])
  case entry =>
    intro n r s ok
    refine ⟨fun hok hn => ?_, setRoute_refused, fun m => tget_setRoute_ne, ?_, fun tx => routePort_noNode s⟩
    · have hw := setRoute_written hok hn
      have hread : tget (setRoute (n, r) s).2.ports.routes n.toNat = some r := by
        rw [hw]
        exact tget_tset_same _ _ _
      exact ⟨by rw [hw], hread, routeVals_of_entry hread⟩
    · rintro hok rfl
      exact setRoute_noNode hok

end Sys2Proof.Machine

/-! # Versioned extents (chapter 5): the proof of their statement -/

namespace Sys2Proof.Machine

/-! ## Messages at an admitted VERSIONED extent (R39, R107) -/

@[simp] theorem canonPort_taken (port : Nat) (tx : Tx) (s : State) (n : Nat) : canonPort (taken port tx s) n = canonPort s n := by
  simp [canonPort, portOf]

/-- A row whose message is admitted at an extent has the effect that its own rule gives there. -/
theorem admitted_serves {c : Instr} {op : Byte} {port q : Nat} {tx0 : Tx} {e : Extent} {hyp : Tx → Prop} {eff : Tx → State → State}
    {serve : Nat → Nat → Tx → State → State}
    (hserve : ∀ {rid p : Nat} {tx : Tx} {s : State}, tx.op = op → fenceHeld s tx.src rid = false →
      serveOp true rid p tx s = serve rid p tx s)
    (hrule : ∀ (rid : Nat) (tx : Tx) (s : State), tx.op = op → Admits rid (canonPort s port) tx s q e → e.mode = .versioned →
      hyp tx → serve rid (canonPort s port) tx s = eff tx s)
    (hrow : ∀ s, exec c s = recvOp op false port tx0 s := by exact fun _ => rfl) :
    Serves c op false port tx0
      (fun s tx a => (Admits s.home.nextId (canonPort s port) tx a q e ∧ e.mode = .versioned) ∧ hyp tx) eff := by
  rintro s tx harr - ⟨⟨hadm, hmode⟩, hh⟩
  have hown := hrule s.home.nextId tx (taken port tx s) rfl (by simpa using hadm) hmode hh
  rw [canonPort_taken] at hown
  exact (hrow s).trans (congrArg Host.Outcome.next ((recv_request harr).trans (congrArg settle ((hserve rfl hadm.fence).trans hown))))

/-- A request whose own check fails is answered with its status. -/
theorem meet_refused {rid port part : Nat} {tx : Tx} {chk : Nat → Extent → State → Chk} {go : Nat → Extent → State → State}
    {s : State} {e : Extent} {st : St} (h : Admits rid port tx s part e) (hc : chk part e s = .refuse st) :
    meet true rid port tx chk go s = refuse tx st s := by
  simp [meet, h.live, h.home, meet9, hc]

section
variable {rid port : Nat} {tx : Tx} {s : State}

theorem serveOp_snapOpen (hop : tx.op = 0x28) (hf : fenceHeld s tx.src rid = false) :
    serveOp true rid port tx s = serveOpen true rid port tx s := by simp [serveOp, hop, hf]

theorem serveOp_snapClose (hop : tx.op = 0x29) (hf : fenceHeld s tx.src rid = false) :
    serveOp true rid port tx s = serveClose true rid port tx s := by simp [serveOp, hop, hf]

theorem serveOp_publish (hop : tx.op = 0x2A) (hf : fenceHeld s tx.src rid = false) :
    serveOp true rid port tx s = servePublish true rid port tx s := by simp [serveOp, hop, hf]
end

/-! ## SNAP_OPEN (R107) -/

/-- The entry once a writer has opened its next version. -/
def openNext (q : Nat) (e : Extent) : Extent :=
  let l : Layer := { version := e.latest + 1, sealEvent := 0, tilesWritten := 0, state := .opened, writer := q }
  { e with openV := e.latest + 1, layers := addLayer l e.layers }

/-- The version that a reader's SNAP_OPEN asks for: the latest, where it names none. -/
def askedVersion (e : Extent) (tx : Tx) : Nat := if tx.version = 0 then e.latest else tx.version.toNat

section
variable {rid port q : Nat} {tx : Tx} {s : State} {e : Extent} (h : Admits rid port tx s q e) (hm : e.mode = .versioned)
include h hm

/-- A writer's open: its lease is looked at first, then the layer already open, then the room for another. -/
theorem serveOpen_writer (hw : tx.qual.getLsbD 0 = true) : serveOpen true rid port tx s =
    if leaseHolder e q = false then answer tx .state s
    else if e.openV ≠ 0 then
      if layerOpen e = true then answerVersion tx .ok (BitVec.ofNat 32 e.openV) s else answer tx .state s
    else if liveCount e < 8 ∧ e.latest < 0xFFFFFFFF then
      answerVersion tx .ok (BitVec.ofNat 32 (e.latest + 1)) (setExt (oSlot tx.offset) (noted s (openNext q e)) s)
    else answer tx .state s := by
  rw [serveOpen, meet_admitted h (if_pos hm)]
  simp only [hw, if_true, Bool.not_eq_true', openNext]

/-- A writer that can open no other layer is answered with ST_STATE, whether it holds the lease or not. -/
theorem serveOpen_noRoom (hw : tx.qual.getLsbD 0 = true) (ho : e.openV = 0) (hr : 8 ≤ liveCount e ∨ 0xFFFFFFFF ≤ e.latest) :
    serveOpen true rid port tx s = answer tx .state s := by
  have hno : ¬ (liveCount e < 8 ∧ e.latest < 0xFFFFFFFF) := by omega
  rw [serveOpen_writer h hm hw, if_neg (not_not_intro ho), if_neg hno, ite_self]

theorem serveOpen_pins {i : Nat} (hw : ¬ tx.qual.getLsbD 0 = true) (hv : sealedLive e (askedVersion e tx) = true)
    (hi : layerIdx e (askedVersion e tx) = some i) : serveOpen true rid port tx s =
      answerVersion tx .ok (BitVec.ofNat 32 (askedVersion e tx)) (setPin (oSlot tx.offset) tx.src i true s) := by
  unfold askedVersion at hv hi ⊢
  rw [serveOpen, meet_admitted h (if_pos hm)]
  simp only [hw, hv, hi, Bool.false_eq_true, if_false, if_true]

theorem serveOpen_unsealed (hw : ¬ tx.qual.getLsbD 0 = true) (hv : sealedLive e (askedVersion e tx) = false) :
    serveOpen true rid port tx s = answer tx .state s := by
  unfold askedVersion at hv
  rw [serveOpen, meet_admitted h (if_pos hm)]
  simp only [hw, hv, Bool.false_eq_true, if_false]
end

/-! ## SNAP_CLOSE and PUBLISH (R107, R110, R113) -/

/-- A message of partition `q` names the layer that `q` has open as the lease holder, and that no publication has. -/
def NamesOpenLayer (q : Nat) (e : Extent) (tx : Tx) : Prop :=
  leaseHolder e q = true ∧ tx.version.toNat = e.openV ∧ e.openV ≠ 0 ∧ layerOpen e = true ∧ e.publishing = none

/-- The test of `serveClose`. -/
theorem closeTest_iff {q : Nat} {e : Extent} {tx : Tx} :
    (leaseHolder e q && tx.version.toNat ≠ 0 && tx.version.toNat == e.openV && layerOpen e && e.publishing.isNone) = true ↔
      NamesOpenLayer q e tx := by
  simp only [NamesOpenLayer, Bool.and_eq_true, decide_eq_true_eq, beq_iff_eq, Option.isNone_iff_eq_none]
  constructor
  · rintro ⟨⟨⟨⟨hl, hz⟩, hv⟩, ho⟩, hp⟩
    exact ⟨hl, hv, hv ▸ hz, ho, hp⟩
  · rintro ⟨hl, hv, hz, ho, hp⟩
    exact ⟨⟨⟨⟨hl, hv ▸ hz⟩, hv⟩, ho⟩, hp⟩

/-- The test of `servePublish`, which looks at VERSION before it is a number. -/
theorem publishTest_iff {q : Nat} {e : Extent} {tx : Tx} :
    (leaseHolder e q && tx.version ≠ 0 && tx.version.toNat == e.openV && layerOpen e && e.publishing.isNone) = true ↔
      NamesOpenLayer q e tx := by
  have hzero : tx.version ≠ 0 ↔ tx.version.toNat ≠ 0 := (not_congr (BitVec.toNat_inj (y := 0))).symm
  rw [← closeTest_iff, decide_eq_decide.2 hzero]

section
variable {rid port q : Nat} {tx : Tx} {s : State} {e : Extent} (h : Admits rid port tx s q e) (hm : e.mode = .versioned)
include h hm

theorem serveClose_discards (hw : tx.qual.getLsbD 0 = true) (hn : NamesOpenLayer q e tx) :
    serveClose true rid port tx s = answerVersion tx .ok tx.version (startDiscard (oSlot tx.offset) s) := by
  rw [serveClose, meet_admitted h (if_pos hm)]
  exact (if_pos hw).trans (if_pos (closeTest_iff.2 hn))

theorem serveClose_refused (hw : tx.qual.getLsbD 0 = true) (hn : ¬ NamesOpenLayer q e tx) :
    serveClose true rid port tx s = answer tx .state s := by
  rw [serveClose, meet_admitted h (if_pos hm)]
  exact (if_pos hw).trans (if_neg ((not_congr closeTest_iff).2 hn))

theorem serveClose_unpins {d : Holder} {i : Nat} (hw : ¬ tx.qual.getLsbD 0 = true) (hd : holderOf e tx.src = some d)
    (hi : layerIdx e tx.version.toNat = some i) (hp : pinsV e d tx.version.toNat = true)
    (hv : sealedLive e tx.version.toNat = true) : serveClose true rid port tx s =
      answerVersion tx .ok tx.version (dropDead (oSlot tx.offset) (setPin (oSlot tx.offset) tx.src i false s)) := by
  rw [serveClose, meet_admitted h (if_pos hm)]
  simp only [hw, hd, hi, hp, hv, Bool.false_eq_true, if_false, Bool.and_self, if_true]

theorem servePublish_noted (hn : NamesOpenLayer q e tx) :
    servePublish true rid port tx s = setExt (oSlot tx.offset) { e with publishing := some (.host port tx) } s := by
  rw [servePublish, meet_admitted h ((if_neg (not_not_intro hm)).trans (if_pos (publishTest_iff.2 hn)))]

theorem servePublish_refused (hop : tx.op = 0x2A) (hn : ¬ NamesOpenLayer q e tx) :
    servePublish true rid port tx s = answer tx .state s := by
  rw [servePublish, meet_refused h ((if_neg (not_not_intro hm)).trans (if_neg ((not_congr publishTest_iff).2 hn)))]
  exact refuse_eq_answer .state s (by rw [hop]; decide)
end

/-! ## Layers that die (R105) -/

theorem getElem?_numberFrom {α : Type} (n : Nat) (l : List α) (i : Nat) : (numberFrom n l)[i]? = l[i]?.map (fun x => (n + i, x)) := by
  induction l generalizing n i with
  | nil => rfl
  | cons x l ih =>
    cases i with
    | zero => rfl
    | succ i => simp [numberFrom, ih, Nat.add_assoc, Nat.add_comm 1]

/-- The entry without the layers that have died. -/
def withoutDead (s : State) (slot : Nat) (e : Extent) : Extent :=
  { e with layers := (numberFrom 0 e.layers).map (fun p => if layerLive s slot e p.1 p.2 then p.2 else freeLayer) }

theorem extOf_dropDead {slot : Nat} {s : State} {e : Extent} (he : extOf s slot = some e) :
    extOf (dropDead slot s) slot = some (withoutDead s slot e) :=
  (tget_tmod_same s.ext.entries slot (withoutDead s slot)).trans (congrArg (Option.map _) he)

/-- A live layer keeps its record. -/
theorem withoutDead_live {s : State} {slot i : Nat} {e : Extent} {l : Layer} (hl : e.layers[i]? = some l)
    (hlive : layerLive s slot e i l = true) : (withoutDead s slot e).layers[i]? = some l := by
  simp [withoutDead, getElem?_numberFrom, hl, hlive]

theorem layerLive_latest {s : State} {slot i : Nat} {e : Extent} {l : Layer} (hs : l.state = .sealed) (hv : l.version = e.latest) :
    layerLive s slot e i l = true := by simp [layerLive, hs, hv]

/-! ## The seal step (R108) -/

section
variable {slot port : Nat} {tx : Tx} {s : State} {e : Extent}
variable (he : extOf s slot = some e) (hp : e.publishing = some (.host port tx))
include he hp

theorem exec_publishSeal_undrained (hd : drained s slot e = false) : exec (.publishSeal slot) s = .next (settle s) := by
  show execPublishSeal slot s = _
  simp [execPublishSeal, sealNow, he, hp, hd]

theorem exec_publishSeal_drained (hd : drained s slot e = true) :
    exec (.publishSeal slot) s = .next (settle (sealStep slot e s)) := by
  show execPublishSeal slot s = _
  simp [execPublishSeal, sealNow, he, hp, hd]
end

@[simp] theorem postHost_home (seq code p slot : Nat) (h : Node) (arg : Word32) (s : State) :
    (postHost seq code p slot h arg s).home = s.home := by
  unfold postHost
  simp only
  split <;> rfl

@[simp] theorem postAll_home (n : Ev) (p : Nat) (args : List Nat) (code slot : Nat) (hosts : List Node) (arg : Node → Word32)
    (s : State) : (postAll n p args code slot hosts arg s).home = s.home := by
  unfold postAll
  exact List.foldlRecOn (motive := fun t : State => t.home = s.home) _ _ (post_home _ _ _ _)
    (fun t ht h _ => by rw [postHost_home, ht])

@[simp] theorem dropDead_home (slot : Nat) (s : State) : (dropDead slot s).home = s.home := rfl

/-- The record of a layer once it is sealed under event sequence `n`. -/
def sealLayer (n : Nat) (l : Layer) : Layer := { l with state := .sealed, sealEvent := n }

/-- The entry once its open layer is the latest, before the former latest may die. -/
def sealedExt (s : State) (e : Extent) : Extent :=
  noted s { e with
    latest := e.openV, openV := 0, publishing := none,
    layers := e.layers.map (fun l => if l.version = e.openV then sealLayer s.mgmt.eventSeq l else l) }

/-- Where no request waits, the seal step changes of the extents its own entry alone. -/
theorem sealStep_ext {slot : Nat} {s : State} {e : Extent} (hw : s.home.parked = []) (hp : e.publishing = none) :
    (sealStep slot e s).ext = (dropDead slot (setExt slot (sealedExt s e) s)).ext := by
  simp [sealStep, hw, hp]
  rfl

theorem extOf_sealStep {slot : Nat} {s : State} {e : Extent} (hw : s.home.parked = []) (hp : e.publishing = none) :
    extOf (sealStep slot e s) slot = some (withoutDead (setExt slot (sealedExt s e) s) slot (sealedExt s e)) := by
  rw [extOf, sealStep_ext hw hp]
  exact extOf_dropDead (tget_tset_same _ _ _)

/-- The layer that is sealed is the latest, so it does not die. -/
theorem withoutDead_sealedExt {t s : State} {slot i : Nat} {e : Extent} {l : Layer} (hl : e.layers[i]? = some l)
    (hv : l.version = e.openV) :
    (withoutDead t slot (sealedExt s e)).layers[i]? = some (sealLayer s.mgmt.eventSeq l) := by
  refine withoutDead_live ?_ (layerLive_latest rfl hv)
  simp [sealedExt, noted, hl, hv]

/-- Settles O22: each message by its own rule at the extent that admits it, then the seal step. -/
theorem versionMessages : Obligations.VersionMessages := by
  unfold Obligations.VersionMessages
  refine ⟨fun port tx0 q e => ⟨?next, ?again, ?noLease, ?noRoom, fun w i => ?pins, ?unsealed, ?discards, fun d i => ?unpins, ?unnamed⟩,
    fun port tx0 q e => ⟨?publishes, ?unpublished⟩, ?step, ?sealed⟩
  case next =>
    refine admitted_serves serveOp_snapOpen fun rid tx s _ h hm ⟨hw, hl, ho, hr⟩ => ?_
    rw [serveOpen_writer h hm hw, if_neg (by simp [hl]), if_neg (not_not_intro ho), if_pos hr]
    rfl
  case again =>
    refine admitted_serves serveOp_snapOpen fun rid tx s _ h hm ⟨hw, hl, ho, hopen⟩ => ?_
    rw [serveOpen_writer h hm hw, if_neg (by simp [hl]), if_pos ho, if_pos hopen]
  case noLease =>
    refine admitted_serves serveOp_snapOpen fun rid tx s _ h hm ⟨hw, hl⟩ => ?_
    rw [serveOpen_writer h hm hw, if_pos hl]
  case noRoom => exact admitted_serves serveOp_snapOpen fun _ _ _ _ h hm ⟨hw, ho, hr⟩ => serveOpen_noRoom h hm hw ho hr
  case pins =>
    refine admitted_serves serveOp_snapOpen fun rid tx s _ h hm ⟨hw, hwant, hv, hi⟩ => ?_
    subst hwant
    exact serveOpen_pins h hm hw hv hi
  case unsealed => exact admitted_serves serveOp_snapOpen fun _ _ _ _ h hm ⟨hw, hv⟩ => serveOpen_unsealed h hm hw hv
  case discards => exact admitted_serves serveOp_snapClose fun _ _ _ _ h hm ⟨hw, hn⟩ => serveClose_discards h hm hw hn
  case unpins => exact admitted_serves serveOp_snapClose fun _ _ _ _ h hm ⟨hw, hd, hi, hp, hv⟩ => serveClose_unpins h hm hw hd hi hp hv
  case unnamed =>
    refine admitted_serves serveOp_snapClose fun _ _ _ _ h hm ⟨hw, hbad⟩ => serveClose_refused h hm hw ?_
    rintro ⟨hl, hv, -, ho, -⟩
    simp [hl, hv, ho] at hbad
  case publishes =>
    refine admitted_serves serveOp_publish fun rid tx s _ h hm hn => ?_
    rw [servePublish_noted h hm hn]
  case unpublished =>
    refine admitted_serves serveOp_publish fun _ _ _ hop h hm hbad => servePublish_refused h hm hop ?_
    rintro ⟨hl, hv, -, ho, hp⟩
    simp [hl, hv, ho, hp] at hbad
  case step => exact fun slot s e port tx he hp => ⟨exec_publishSeal_undrained he hp, exec_publishSeal_drained he hp⟩
  case sealed =>
    exact fun slot s e _ _ hw hp _ => ⟨_, extOf_sealStep hw hp, rfl, rfl, rfl, fun i l hl hv _ => withoutDead_sealedExt hl hv⟩

end Sys2Proof.Machine

/-! # Slots and pool redundancy (chapter 6): the proofs of their statements -/

namespace Sys2Proof.Machine

/-! ## Tables: a listed value, a removal, a change of every value -/

/-- What a table gives at a key is listed there. -/
theorem mem_of_tget {α : Type} {t : Table α} {n : Nat} {x : α} (h : tget t n = some x) : (n, x) ∈ t := by
  induction t with
  | nil => simp at h
  | cons p t ih =>
    obtain ⟨k, v⟩ := p
    rw [tget_cons] at h
    split at h
    case isTrue hk =>
      cases hk
      cases h
      exact List.mem_cons_self
    case isFalse => exact List.mem_cons_of_mem _ (ih h)

theorem tget_tdel {α : Type} (t : Table α) (n m : Nat) : tget (tdel t n) m = if m = n then none else tget t m := by
  split
  case isTrue h => rw [h, tget_tdel_same]
  case isFalse h => exact tget_tdel_ne t h

theorem tget_mapVal {α β : Type} (f : α → β) (t : Table α) (n : Nat) :
    tget (t.map (fun p => (p.1, f p.2))) n = (tget t n).map f := by
  induction t with
  | nil => rfl
  | cons p t ih =>
    rw [List.map_cons, tget_cons, ih, show tget (p :: t) n = _ from tget_cons p.1 n p.2 t]
    split <;> rfl

end Sys2Proof.Machine

namespace Sys2Proof.Machine

/-! ## Instructions on slots and vector registers (R126, R127, R218, R228) -/

/-- Where nothing outstanding touches its spans, an instruction meets no hazard (R228). -/
theorem hazard_of_clear {rs ws : List Span} {x : CtxId} {k k' : Ctx} {s s' : State} (h : Clear rs ws x k s)
    (hk : k'.tokens = k.tokens) (hs : s'.cores = s.cores) : hazard rs ws x k' s' = false := by
  obtain ⟨htok, hlathe⟩ := h
  have htokens : k'.tokens.any (fun t => t.2.done.isNone && conflicts rs ws (opSpans t.2.op)) = false :=
    List.any_eq_false.2 fun t ht => by simp [htok t (hk ▸ ht)]
  rw [hazard, htokens, Bool.false_or, coreOf, hs]
  cases hc : tget s.cores.cores x.core with
  | none => rfl
  | some c =>
    refine Bool.eq_false_iff.2 fun hmeets => ?_
    simp only [Bool.and_eq_true, beq_iff_eq, List.any_eq_true, Bool.not_eq_true'] at hmeets
    obtain ⟨hhold, e, he, hdead, hconf⟩ := hmeets
    rw [hlathe _ (mem_of_tget hc) rfl hhold e he hdead] at hconf
    cases hconf

/-- What an effect on registers and slots leaves of a context and of the state: the item, the PC, the operations outstanding,
and everything of the device but the free values it has drawn. -/
structure Draws (k : Ctx) (s : State) (r : Ctx × State) : Prop where
  item : r.1.item = k.item
  pc : r.1.pc = k.pc
  failing : r.1.failing = k.failing
  tokens : r.1.tokens = k.tokens
  state : ∃ f, r.2 = { s with free := f }

theorem Draws.cores {k : Ctx} {s : State} {r : Ctx × State} (h : Draws k s r) : r.2.cores = s.cores := by
  obtain ⟨f, hf⟩ := h.state
  rw [hf]

theorem Draws.trans {k : Ctx} {s : State} {r r' : Ctx × State} (h : Draws k s r) (h' : Draws r.1 r.2 r') : Draws k s r' := by
  obtain ⟨f, hf⟩ := h.state
  obtain ⟨f', hf'⟩ := h'.state
  exact ⟨h'.item.trans h.item, h'.pc.trans h.pc, h'.failing.trans h.failing, h'.tokens.trans h.tokens, f', by rw [hf', hf]⟩

theorem draws_slotRead (n : Nat) (k : Ctx) (s : State) : Draws k s (slotRead n k s).2 := by
  unfold slotRead
  split
  · exact ⟨rfl, rfl, rfl, rfl, s.free, rfl⟩
  · exact ⟨rfl, rfl, rfl, rfl, s.free + 1, rfl⟩

theorem draws_vtRead (r : Nat) (k : Ctx) (s : State) : Draws k s (vtRead r k s).2 := by
  unfold vtRead
  split
  · exact ⟨rfl, rfl, rfl, rfl, s.free, rfl⟩
  · exact ⟨rfl, rfl, rfl, rfl, s.free + 1, rfl⟩

/-- A change of the context that keeps its item, its PC and its operations. -/
theorem Draws.keep {k : Ctx} {s : State} {r : Ctx × State} (h : Draws k s r) (k' : Ctx) (hi : k'.item = r.1.item := by rfl)
    (hp : k'.pc = r.1.pc := by rfl) (hf : k'.failing = r.1.failing := by rfl) (ht : k'.tokens = r.1.tokens := by rfl) :
    Draws k s (k', r.2) := h.trans ⟨hi, hp, hf, ht, r.2.free, rfl⟩

/-- An instruction whose effect draws free values goes on: the context has its new state, and nothing else changes. -/
theorem insn_draws {i : Instr} {s : State} {x : CtxId} {o : Ops} {k : Ctx} {r : Ctx × State} {body : Ctx → State → IOut}
    (h : Issues i s x o k) (hb : body (issuing k) s = .go r.1 r.2) (hd : Draws (issuing k) s r) :
    insn i x o body s = .next (retire x r.1 r.2) := by
  obtain ⟨k1, t⟩ := r
  obtain ⟨f, rfl⟩ : ∃ f, t = { s with free := f } := hd.state
  obtain ⟨c, hc, -, -, -, -, -, -, hfail, -⟩ := canIssue_some h.able
  have hlen : k.pc + 1 < codeLen { s with free := f } k1 := (codeLen_item { s with free := f } hd.item).symm ▸ h.more
  have hset : conclude x k (issuing k) s (.go k1 { s with free := f }) = retire x k1 { s with free := f } := by
    rw [conclude_go]
    show didIssue x k.item.part (setPc x (k.pc + 1) k1 { s with free := f }) = _
    rw [setPc_inside hlen, retire, show k1.item = k.item from hd.item, show k1.pc = k.pc from hd.pc]
  have hcore : (coreOf { s with free := f } x.core).isSome := Option.isSome_of_eq_some (show coreOf s x.core = some c from hc)
  have hcalm : Calm { s with free := f } x.core := h.calm
  rw [insn_issue h.toReady, hb, hset, follows_retire hcalm h.four hcore (hd.failing.trans hfail)]

/-- The row of an instruction goes on where its own rule answers an effect that draws free values. -/
theorem goesOn_of_body {c : Instr} {x : CtxId} {o : Ops} {hyp : Ctx → State → Prop} {eff : Ctx → State → Ctx × State}
    (body : Ctx → State → IOut) (hexec : ∀ s, exec c s = insn c x o body s)
    (hbody : ∀ k s, hyp k s → body (issuing k) s = .go (eff (issuing k) s).1 (eff (issuing k) s).2)
    (hdraws : ∀ k s, Draws (issuing k) s (eff (issuing k) s)) : GoesOn c x o hyp eff :=
  fun s k hi hh => (hexec s).trans (insn_draws hi (hbody k s hh) (hdraws k s))

/-- The row of an instruction whose own rule finds that it fails with the PC. -/
theorem failsItem_of_body {c : Instr} {x : CtxId} {o : Ops} {st : St} {bad : Ctx → State → Prop} (body : Ctx → State → IOut)
    (hexec : ∀ s, exec c s = insn c x o body s) (hbody : ∀ k s, bad k s → body (issuing k) s = failPc (issuing k) st) :
    FailsItem c x o st bad := by
  intro s k hr hb
  rw [hexec, insn_issue hr, hbody k s hb, failPc, conclude_fail]
  rfl

theorem gget_issuing (k : Ctx) (r : Nat) : gget (issuing k) r = gget k r := rfl

theorem immF_byte (o : Ops) : immF o 7 0 = o.i.toNat % 256 := by simp [immF, fld]

theorem vtOk_iff (r : Nat) : vtOk r = true ↔ r % 2 = 0 ∧ r < 8 := by simp [vtOk]

@[simp] theorem gset_item (k : Ctx) (r : Nat) (v : Word64) : (gset k r v).item = k.item := by unfold gset; split <;> rfl
@[simp] theorem gset_pc (k : Ctx) (r : Nat) (v : Word64) : (gset k r v).pc = k.pc := by unfold gset; split <;> rfl
@[simp] theorem gset_failing (k : Ctx) (r : Nat) (v : Word64) : (gset k r v).failing = k.failing := by unfold gset; split <;> rfl
@[simp] theorem gset_tokens (k : Ctx) (r : Nat) (v : Word64) : (gset k r v).tokens = k.tokens := by unfold gset; split <;> rfl

section
variable {x : CtxId} {k k' : Ctx} {s s' : State} {n : Nat}

theorem insnReads_clear {c : Nat} (h : Clear [(n, c)] [] x k s) :
    insnReads n c x (issuing k) s = slotReads c n (issuing k) s :=
  if_neg (Bool.eq_false_iff.1 (hazard_of_clear h rfl rfl))

theorem insnWrites_clear {ts : List Tile} (h : Clear [] [(n, ts.length)] x k s) (hk : k'.tokens = k.tokens)
    (hs : s'.cores = s.cores) : insnWrites n ts x k' s' = (slotWrites n ts k', s') :=
  if_neg (Bool.eq_false_iff.1 (hazard_of_clear h hk hs))
end

/-! ## LDS, STS, VLD and VST (R218) -/

section
variable {x : CtxId} {o : Ops}

theorem lds_goesOn (h8 : o.i.toNat % 256 % 8 = 0) :
    GoesOn (.lds x o) x o (fun k s => (gget k o.a).toNat < k.slotCount ∧ Clear [((gget k o.a).toNat, 1)] [] x k s) (fun k s =>
      let r := slotRead (gget k o.a).toNat k s
      (gset r.2.1 o.d (BitVec.ofNat 64 (bytesAt r.1.data (o.i.toNat % 256) 8)), r.2.2)) := by
  refine goesOn_of_body _ (fun _ => rfl) (fun k s ⟨hn, hc⟩ => ?_) fun k s => ?_
  · have hin : slotsOk (issuing k) (gget k o.a) 1 = true := decide_eq_true (Nat.succ_le_of_lt hn)
    simp only [immF_byte, h8, gget_issuing, hin, insnReads_clear hc]
    rfl
  · exact (draws_slotRead _ _ _).keep _ (gset_item _ _ _) (gset_pc _ _ _) (gset_failing _ _ _) (gset_tokens _ _ _)

theorem sts_goesOn (h8 : o.i.toNat % 256 % 8 = 0) :
    GoesOn (.sts x o) x o (fun k s => (gget k o.a).toNat < k.slotCount ∧ Clear [((gget k o.a).toNat, 1)] [] x k s ∧
        Clear [] [((gget k o.a).toNat, 1)] x k s) (fun k s =>
      let r := slotRead (gget k o.a).toNat k s
      let t := changeTile r.1 (setBytes r.1.data (o.i.toNat % 256) 8 (gget k o.b).toNat)
      ({ r.2.1 with slots := tset r.2.1.slots (gget k o.a).toNat t }, r.2.2)) := by
  refine goesOn_of_body _ (fun _ => rfl) (fun k s ⟨hn, hr, hw⟩ => ?_) fun k s => (draws_slotRead _ _ _).keep _
  have hin : slotsOk (issuing k) (gget k o.a) 1 = true := decide_eq_true (Nat.succ_le_of_lt hn)
  have hd := draws_slotRead (gget k o.a).toNat (issuing k) s
  have hwrite := fun t => insnWrites_clear (ts := [t]) hw hd.tokens hd.cores
  simp only [immF_byte, h8, gget_issuing, hin, insnReads_clear hr]
  exact congrArg (fun r : Ctx × State => IOut.go r.1 r.2) (hwrite _)

theorem vld_goesOn (hd : o.d % 2 = 0) (h8 : o.d < 8) :
    GoesOn (.vld x o) x o (fun k s => (gget k o.a).toNat + 2 ≤ k.slotCount ∧ Clear [((gget k o.a).toNat, 2)] [] x k s) (fun k s =>
      let a := slotRead (gget k o.a).toNat k s
      let b := slotRead ((gget k o.a).toNat + 1) a.2.1 a.2.2
      (vtWrite (o.d + 1) b.1.data (vtWrite o.d a.1.data b.2.1), b.2.2)) := by
  refine goesOn_of_body _ (fun _ => rfl) (fun k s ⟨hn, hc⟩ => ?_) fun k s =>
    ((draws_slotRead _ _ _).trans (draws_slotRead _ _ _)).keep _
  have hin : slotsOk (issuing k) (gget k o.a) 2 = true := decide_eq_true hn
  simp only [(vtOk_iff o.d).2 ⟨hd, h8⟩, gget_issuing, hin, insnReads_clear hc]
  rfl

theorem vst_goesOn (hd : o.d % 2 = 0) (h8 : o.d < 8) :
    GoesOn (.vst x o) x o (fun k s => (gget k o.a).toNat + 2 ≤ k.slotCount ∧ Clear [] [((gget k o.a).toNat, 2)] x k s) (fun k s =>
      let a := vtRead o.d k s
      let b := vtRead (o.d + 1) a.2.1 a.2.2
      ({ b.2.1 with slots := tset (tset b.2.1.slots (gget k o.a).toNat (mkTile a.1)) ((gget k o.a).toNat + 1) (mkTile b.1) },
        b.2.2)) := by
  have hpair : ∀ k s, Draws k s (vtRead (o.d + 1) (vtRead o.d k s).2.1 (vtRead o.d k s).2.2).2 := fun k s =>
    (draws_vtRead o.d k s).trans (draws_vtRead (o.d + 1) _ _)
  refine goesOn_of_body _ (fun _ => rfl) (fun k s ⟨hn, hc⟩ => ?_) fun k s => (hpair _ _).keep _
  have hin : slotsOk (issuing k) (gget k o.a) 2 = true := decide_eq_true hn
  have hp := hpair (issuing k) s
  have hwrite := fun t u => insnWrites_clear (ts := [t, u]) hc hp.tokens hp.cores
  simp only [(vtOk_iff o.d).2 ⟨hd, h8⟩, gget_issuing, hin]
  exact congrArg (fun r : Ctx × State => IOut.go r.1 r.2) (hwrite _ _)

/-- A byte offset that is not a multiple of 8 fails the item (R215). -/
theorem lds_sts_fail (h8 : o.i.toNat % 256 % 8 ≠ 0) :
    FailsItem (.lds x o) x o .opcode (fun _ _ => True) ∧ FailsItem (.sts x o) x o .opcode (fun _ _ => True) := by
  have hbad : immF o 7 0 % 8 ≠ 0 := by rwa [immF_byte]
  exact ⟨failsItem_of_body _ (fun _ => rfl) fun _ _ _ => if_pos hbad,
    failsItem_of_body _ (fun _ => rfl) fun _ _ _ => if_pos hbad⟩

/-- A field that does not name the even register of a pair fails the item (R215; above 7, log entry 76). -/
theorem vld_vst_fail (hd : o.d % 2 ≠ 0 ∨ 8 ≤ o.d) :
    FailsItem (.vld x o) x o .opcode (fun _ _ => True) ∧ FailsItem (.vst x o) x o .opcode (fun _ _ => True) := by
  have hbad : (!vtOk o.d) = true := by
    rw [Bool.not_eq_true', ← Bool.not_eq_true, vtOk_iff]
    omega
  exact ⟨failsItem_of_body _ (fun _ => rfl) fun _ _ _ => if_pos hbad,
    failsItem_of_body _ (fun _ => rfl) fun _ _ _ => if_pos hbad⟩
end

/-- Settles O9: nothing outstanding touches the slots, so each instruction reads and writes them as they are. -/
theorem slotInstructions : Obligations.SlotInstructions := by
  unfold Obligations.SlotInstructions
  exact fun x o => ⟨fun h8 => ⟨lds_goesOn h8, sts_goesOn h8⟩, fun hd h8 => ⟨vld_goesOn hd h8, vst_goesOn hd h8⟩, lds_sts_fail,
    vld_vst_fail⟩

end Sys2Proof.Machine

namespace Sys2Proof.Machine

/-! ## What a row of the pool reads as (R132, R136) -/

/-- What modules hold, and the rows repaired, are the same. -/
def SameUnits (s t : State) : Prop := t.pool.units = s.pool.units ∧ t.pool.repaired = s.pool.repaired

section
variable {s t : State} (h : SameUnits s t)
include h

theorem SameUnits.storedUnit_eq : storedUnit t = storedUnit s := by
  funext n unit
  rw [storedUnit, storedUnit, h.1]

theorem SameUnits.isMissing_eq : isMissing t = isMissing s := by
  funext gi g row pos
  rw [isMissing, isMissing, h.2]

theorem SameUnits.goodCol_eq : goodCol t = goodCol s := by
  funext gi g row col
  simp only [goodCol, h.storedUnit_eq, h.isMissing_eq]

theorem SameUnits.solveData_eq : solveData t = solveData s := by
  funext gi g row col
  unfold solveData goodData
  rw [h.goodCol_eq]

theorem SameUnits.wholeRow_eq : wholeRow t = wholeRow s := by
  funext gi g row
  simp only [wholeRow, h.goodCol_eq, h.solveData_eq]

/-- A column is solved from what modules hold alone. -/
theorem SameUnits.solveCol_eq : solveCol t = solveCol s := by
  funext gi g row col
  simp only [solveCol, h.solveData_eq, h.wholeRow_eq]
end

theorem SameUnits.trans {s t u : State} (h : SameUnits s t) (h' : SameUnits t u) : SameUnits s u :=
  ⟨h'.1.trans h.1, h'.2.trans h.2⟩

/-! ## MODULE_STATUS and the responses of modules (R128, R133, R138, R145, R418) -/

@[simp] theorem taken_pool (port : Nat) (tx : Tx) (s : State) : (taken port tx s).pool = s.pool := by
  obtain ⟨fl, w, h⟩ := taken_home port tx s
  rw [h]

@[simp] theorem groupOf_taken (port : Nat) (tx : Tx) (s : State) (gi : Nat) : groupOf (taken port tx s) gi = groupOf s gi := by
  simp [groupOf]

@[simp] theorem solveCol_taken (port : Nat) (tx : Tx) (s : State) : solveCol (taken port tx s) = solveCol s :=
  SameUnits.solveCol_eq ⟨congrArg PoolSt.units (taken_pool port tx s), congrArg PoolSt.repaired (taken_pool port tx s)⟩

/-- MODULE_STATUS is no request, so that no FENCE holds it. -/
theorem serveOp_moduleStatus {rid port : Nat} {tx : Tx} {s : State} (hop : tx.op = 0x41) :
    serveOp true rid port tx s = if tx.version = 1 then loseModule tx.src s else s := by
  simp [serveOp, isRequest, opAnswered, opDefined, hop]

/-- A row of MODULE_STATUS has the effect that its rule gives at the state that serves it. -/
theorem moduleStatus_serves {port : Nat} {tx0 : Tx} {hyp : State → Tx → State → Prop} {eff : Tx → State → State}
    (h : ∀ s tx a, hyp s tx a → (if tx.version = 1 then loseModule tx.src a else a) = eff tx a) :
    Serves (.moduleStatus port tx0) 0x41 false port tx0 hyp eff := by
  intro s tx harr _ hh
  refine congrArg Host.Outcome.next ((recv_request harr).trans (congrArg settle ?_))
  exact (serveOp_moduleStatus rfl).trans (h s tx _ hh)

theorem serveResponse_module {tx : Tx} (s : State) (hop : tx.op = 0x01 ∨ tx.op = 0x02 ∨ tx.op = 0x40) :
    serveResponse tx s = serveModuleAnswer tx s := by
  rcases hop with hop | hop | hop <;> simp [serveResponse, hop]

/-- A row of a module's response has the effect that its rule gives at the state that serves it. -/
theorem moduleResponse_serves {port : Nat} {tx0 : Tx} {hyp : State → Tx → State → Prop} {eff : Tx → State → State}
    (hop : tx0.op = 0x01 ∨ tx0.op = 0x02 ∨ tx0.op = 0x40)
    (h : ∀ s tx, hyp s tx (taken port tx s) → serveModuleAnswer tx (taken port tx s) = eff tx (taken port tx s)) :
    Serves (.moduleResponse port tx0) tx0.op true port tx0 hyp eff := by
  intro s tx harr _ hh
  refine congrArg Host.Outcome.next ((recv_response harr).trans (congrArg settle ?_))
  exact (serveResponse_module _ hop).trans (h s tx hh)

/-- The module request that a response names (R138). -/
def namedReq (tx : Tx) (s : State) : Option ModReq := s.pool.reqs.find? (fun y => y.tag == tx.tag && y.node == tx.src)

/-- The request is no longer outstanding. -/
def withoutReq (q : ModReq) (s : State) : State :=
  { s with pool := { s.pool with reqs := s.pool.reqs.filter (fun y => !(y.tag == q.tag && y.node == q.node)) } }

theorem sameUnits_withoutReq (q : ModReq) (s : State) : SameUnits s (withoutReq q s) := ⟨rfl, rfl⟩

theorem namedReq_taken (port : Nat) (tx tx' : Tx) (s : State) : namedReq tx' (taken port tx s) = namedReq tx' s := by
  simp [namedReq]

section
variable {tx : Tx} {s : State} {q : ModReq}

theorem serveModuleAnswer_unnamed (hq : namedReq tx s = none) : serveModuleAnswer tx s = s := by
  unfold namedReq at hq
  simp only [serveModuleAnswer, hq]

variable (hq : namedReq tx s = some q)
include hq

/-- A write that its module refused stays in the journal (log entry 15). -/
theorem serveModuleAnswer_commit {ids : List Nat} (hk : q.kind = .commit ids) :
    serveModuleAnswer tx s = if tx.status = 0 then commitFree ids (withoutReq q s) else withoutReq q s := by
  unfold namedReq at hq
  simp only [serveModuleAnswer, hq, hk, withoutReq]

theorem serveModuleAnswer_claimRefused {gi : Nat} {g : Group} (hk : q.kind = .claim gi false) (hs : tx.status ≠ 0)
    (hg : groupOf s gi = some g) (hup : g.up = true) : serveModuleAnswer tx s =
      post .groupClaimRefused none [gi] (modGroup gi (fun g => { g with up := false }) (withoutReq q s)) := by
  unfold namedReq at hq
  have hg' : groupOf (withoutReq q s) gi = some g := hg
  unfold withoutReq at hg' ⊢
  simp only [serveModuleAnswer, hq, hk, hs, hg', hup, if_false, if_true, Bool.false_eq_true]

theorem serveModuleAnswer_takeoverRefused {gi : Nat} (hk : q.kind = .claim gi true) (hs : tx.status ≠ 0) :
    serveModuleAnswer tx s = loseModule q.node (post .groupClaimRefused none [gi] (withoutReq q s)) := by
  unfold namedReq at hq
  simp only [serveModuleAnswer, hq, hk, hs, if_false, if_true, withoutReq]

variable {own : Option (Nat × Nat)} {p gi r c : Nat} (hk : q.kind = .read own p gi r c)
include hk

theorem serveModuleAnswer_readPasses (h : tx.status ≠ 0 ∨ tx.tiles.all tileOk = true) :
    serveModuleAnswer tx s = withoutReq q s := by
  unfold namedReq at hq
  simp only [serveModuleAnswer, hq, hk, withoutReq]
  exact if_pos h

variable {g : Group} (hs : tx.status = 0) (hbad : tx.tiles.all tileOk = false) (hg : groupOf s gi = some g)
include hs hbad hg

/-- A tile whose sidecar fails is rebuilt from its row, and rewritten. -/
theorem serveModuleAnswer_readRebuilt {b : Block} (hb : solveCol s gi g r c = some b) : serveModuleAnswer tx s =
    rewriteUnit p 1 gi q.node q.unit (mkTile b) (askHelpers p 1 gi g r c (withoutReq q s)) := by
  unfold namedReq at hq
  have hg' : groupOf (withoutReq q s) gi = some g := hg
  have hb' : solveCol (withoutReq q s) gi g r c = some b := (sameUnits_withoutReq q s).solveCol_eq ▸ hb
  unfold withoutReq at hg' hb' ⊢
  simp only [serveModuleAnswer, hq, hk, hg', hb']
  exact if_neg (by simp [hs, hbad])

/-- One that cannot be rebuilt is named by TILE_CHECKSUM. -/
theorem serveModuleAnswer_readLost {slot tile : Nat} (ho : own = some (slot, tile)) (hb : solveCol s gi g r c = none) :
    serveModuleAnswer tx s = post .tileChecksum (some p) [slot, tile] (withoutReq q s) := by
  unfold namedReq at hq
  have hg' : groupOf (withoutReq q s) gi = some g := hg
  have hb' : solveCol (withoutReq q s) gi g r c = none := (sameUnits_withoutReq q s).solveCol_eq ▸ hb
  unfold withoutReq at hg' hb' ⊢
  simp only [serveModuleAnswer, hq, hk, hg', hb', ho]
  exact if_neg (by simp [hs, hbad])
end

/-! ## Transactions for other nodes, and those that fail check 1 (R355 to R359) -/

section
variable {port : Nat} {tx0 : Tx} {s : State} (hup : portUp s (canonPort s port) = true) (hhop : tx0.hop + 1 < 1023)
include hup hhop

/-- Below the last hop nothing loops; a transaction that fails a check of R355 is rejected. -/
theorem recv_rejected {st : St} (hc : rxCheck (canonPort s port) (arriving s port tx0.op tx0.resp tx0) s = some st) :
    recv port tx0 s = settle (reject (canonPort s port) (arriving s port tx0.op tx0.resp tx0) st s) := by
  have hlast : min 1023 (tx0.hop + 1) ≠ 1023 := by omega
  unfold arriving at hc ⊢
  simp only [recv, hup, hlast, false_and, if_false, Bool.not_true, Bool.false_eq_true, hc]

/-- One that passes them and is for another node is sent on. -/
theorem recv_sentOn (hc : rxCheck (canonPort s port) (arriving s port tx0.op tx0.resp tx0) s = none)
    (hd : isSelf s tx0.dst = false) :
    recv port tx0 s = { s with out := s.out ++ [arriving s port tx0.op tx0.resp tx0] } := by
  have hlast : min 1023 (tx0.hop + 1) ≠ 1023 := by omega
  unfold arriving at hc ⊢
  simp only [recv, hup, hlast, false_and, if_false, Bool.not_true, Bool.false_eq_true, hc, hd]

theorem exec_transitForward_other (hc : rxCheck (canonPort s port) (arriving s port tx0.op tx0.resp tx0) s = none)
    (hd : isSelf s tx0.dst = false) : exec (.transitForward port tx0) s =
      .next { s with out := s.out ++ [arriving s port tx0.op tx0.resp tx0] } := by
  show execTransitForward port tx0 s = _
  rw [execTransitForward, hd, if_neg Bool.false_ne_true, recv_sentOn hup hhop hc hd]

/-- A transaction whose op, class or body R353 does not give fails check 1. -/
theorem exec_undefinedOp_rejected (hbad : (opDefined tx0.op && (opClasses tx0).contains tx0.cls && bodyOk tx0) = false) :
    exec (.undefinedOp port tx0) s =
      .next (settle (reject (canonPort s port) (arriving s port tx0.op tx0.resp tx0) .opcode s)) := by
  have hc : rxCheck (canonPort s port) (arriving s port tx0.op tx0.resp tx0) s = some .opcode :=
    if_pos (by rw [Bool.not_eq_true']; exact hbad)
  show execUndefinedOp port tx0 s = _
  rw [execUndefinedOp, hbad, if_neg Bool.false_ne_true, recv_rejected hup hhop hc]
end

/-! ## Gap loss (R361) -/

section
variable {src : Node} {cls : Nat} {s : State} {f : Flow} (hf : flowOf s src cls = some f)
include hf

theorem gapLoss_empty (hh : f.held = []) : gapLoss src cls s = s := by
  simp [gapLoss, hf, hh]

/-- The one transaction that a flow holds is found at its own distance from what the flow expects. -/
theorem gapLoss_single {p : Nat} {tx : Tx} (hh : f.held = [(p, tx)]) :
    gapLoss src cls s = deliver1 true p tx (setFlow { f with
      expected := f.expected + BitVec.ofNat 32 ((tx.flowSeq - f.expected).toNat + 1), held := [], gap := true } s) := by
  have hfound : ∀ d : Nat, (List.range (d + 1)).filterMap (fun i => if d = i then some (p, tx) else none) = [(p, tx)] := by
    intro d
    have hnone : (List.range d).filterMap (fun i => if d = i then some (p, tx) else none) = [] :=
      List.filterMap_eq_nil_iff.2 fun i hi => if_neg (Nat.ne_of_gt (List.mem_range.1 hi))
    rw [List.range_succ, List.filterMap_append, hnone]
    simp
  simp [gapLoss, hf, hh, List.find?_singleton, hfound]
end

/-- Settles O27: a module's message by the request that it names, then transit, then gap loss. -/
theorem poolAndTransit : Obligations.PoolAndTransit := by
  unfold Obligations.PoolAndTransit
  refine ⟨fun port tx0 => ⟨?lost, ?kept, fun hop => ?responses⟩, ?transit, fun src cls s f hf => ⟨?empty, ?single⟩⟩
  case lost => exact moduleStatus_serves fun _ _ _ hv => if_pos hv
  case kept => exact moduleStatus_serves fun _ _ _ hv => if_neg hv
  case responses =>
    intro row names done
    have named : ∀ {s : State} {tx : Tx} {q : ModReq}, names s tx q → namedReq tx (taken port tx s) = some q :=
      fun h => (namedReq_taken _ _ _ _).trans h
    refine ⟨?unnamed, fun q ids => ?committed, fun q ids => ?refused, fun q gi g => ?claim, fun q gi => ?takeover,
      fun q own p gi r c => ?passes, fun q own p gi r c g b => ?rebuilt, fun q slot tile p gi r c g => ?unread⟩
    case unnamed =>
      exact moduleResponse_serves hop fun s tx h => serveModuleAnswer_unnamed ((namedReq_taken _ _ _ _).trans h)
    case committed =>
      exact moduleResponse_serves hop fun s tx ⟨hq, hk, hs⟩ => (serveModuleAnswer_commit (named hq) hk).trans (if_pos hs)
    case refused =>
      exact moduleResponse_serves hop fun s tx ⟨hq, hk, hs⟩ => (serveModuleAnswer_commit (named hq) hk).trans (if_neg hs)
    case claim =>
      exact moduleResponse_serves hop fun s tx ⟨hq, hk, hs, hg, hup⟩ =>
        serveModuleAnswer_claimRefused (named hq) hk hs ((groupOf_taken _ _ _ _).trans hg) hup
    case takeover =>
      exact moduleResponse_serves hop fun s tx ⟨hq, hk, hs⟩ => serveModuleAnswer_takeoverRefused (named hq) hk hs
    case passes =>
      exact moduleResponse_serves hop fun s tx ⟨hq, hk, h⟩ => serveModuleAnswer_readPasses (named hq) hk h
    case rebuilt =>
      refine moduleResponse_serves hop fun s tx ⟨hq, hk, hs, hbad, hg, hsolve⟩ => ?_
      exact serveModuleAnswer_readRebuilt (named hq) hk hs hbad ((groupOf_taken _ _ _ _).trans hg) (by rwa [solveCol_taken])
    case unread =>
      refine moduleResponse_serves hop fun s tx ⟨hq, hk, hs, hbad, hg, hsolve⟩ => ?_
      exact serveModuleAnswer_readLost (named hq) hk hs hbad ((groupOf_taken _ _ _ _).trans hg) rfl (by rwa [solveCol_taken])
  case transit =>
    intro port tx0 s p tx hup hhop
    refine ⟨exec_transitForward_other hup hhop, fun h => exec_undefinedOp_rejected hup hhop ?_⟩
    rcases h with h | h | h <;> simp only [h, Bool.false_and, Bool.and_false]
  case empty => exact fun hh => next_settle (gapLoss_empty hf hh)
  case single => exact fun p tx hh => next_settle (gapLoss_single hf hh)

end Sys2Proof.Machine

namespace Sys2Proof.Machine

/-! ## Reads that are sent leave what modules hold (R136) -/

theorem sameUnits_askCol (own : Option (Nat × Nat)) (part cls gi : Nat) (g : Group) (row col : Nat) (s : State) :
    SameUnits s (askCol own part cls gi g row col s) := ⟨rfl, rfl⟩

theorem sameUnits_askHelpers (part cls gi : Nat) (g : Group) (row col : Nat) (s : State) :
    SameUnits s (askHelpers part cls gi g row col s) :=
  List.foldlRecOn (motive := SameUnits s) _ _ ⟨rfl, rfl⟩ fun _ ht c _ => ht.trans (sameUnits_askCol none part cls gi g row c _)

/-! ## Marks (R137, R416) -/

section
variable {group region : Nat} {s : State}

/-- What keeps the mark of a region: a write of it that is not committed, or a resync that it awaits. -/
def KeepsMark (group region : Nat) (s : State) : Prop :=
  (s.pool.journal.any (fun r => r.group == group && r.row / 4096 == region)) = true ∨
    thas s.pool.resync (group * 2 ^ 40 + region) = true

theorem uncommitted_iff :
    (s.pool.journal.any (fun r => r.group == group && r.row / 4096 == region)) = true ↔
      ∃ r ∈ s.pool.journal, r.group = group ∧ r.row / 4096 = region := by
  simp

theorem exec_intentClear_keeps (h : KeepsMark group region s) : exec (.intentClear group region) s = .next s :=
  congrArg Host.Outcome.next (if_pos h)

theorem exec_intentClear_clears (h : ¬ KeepsMark group region s) : exec (.intentClear group region) s =
    .next { s with pool := { s.pool with intent := tdel s.pool.intent (group * 2 ^ 40 + region) } } :=
  congrArg Host.Outcome.next (if_neg h)
end

/-! ## The loss of a module (R138) -/

/-- An event that is held is among those that management holds, whichever gives way to it. -/
theorem mem_events_holdEvent (e : Event) (m : MgmtSt) : e ∈ (holdEvent e m).events := by
  simp only [holdEvent]
  split
  case isTrue => simp
  case isFalse h =>
    cases he : m.events with
    | nil => simp [he] at h
    | cons x l => simp

theorem mem_events_post (n : Ev) (p : Option Nat) (args : List Nat) (s : State) :
    ({ seq := s.mgmt.eventSeq, name := n, part := p, args := args } : Event) ∈ (post n p args s).mgmt.events :=
  mem_events_holdEvent _ _

theorem lostGroup_at {n : Node} {g : Group} {i : Nat} (h : g.modules.findIdx? (· == n) = some i) :
    (lostGroup n g).lost = g.lost ||| BitVec.ofNat 18 (1 <<< i) ∧ (lostGroup n g).modules = g.modules := by
  simp [lostGroup, h]

theorem getLsbD_lost {l : BitVec 18} {i : Nat} (h : i < 18) : (l ||| BitVec.ofNat 18 (1 <<< i)).getLsbD i = true := by
  rw [BitVec.getLsbD_or, BitVec.getLsbD_ofNat]
  simp [h, Nat.testBit_shiftLeft]

/-- Forgetting the repaired rows of groups changes those alone. -/
theorem dropRepaired_all (l : List (Nat × Group)) (s : State) :
    ∃ r : Table Unit, l.foldl (fun t p => dropRepaired p.1 t) s = { s with pool := { s.pool with repaired := r } } := by
  refine List.foldlRecOn (motive := fun t => ∃ r : Table Unit, t = { s with pool := { s.pool with repaired := r } }) l _
    ⟨s.pool.repaired, rfl⟩ ?_
  rintro _ ⟨r, rfl⟩ p _
  exact ⟨_, rfl⟩

/-- The position of a module among those that its group uses. -/
theorem uses_of_findIdx {n : Node} {g : Group} {i : Nat} (h : g.modules.findIdx? (· == n) = some i) (hi : i < widthOf g) :
    (g.modules.take (widthOf g)).contains n = true := by
  obtain ⟨hlen, heq, -⟩ := List.findIdx?_eq_some_iff_getElem.1 h
  rw [List.contains_iff_mem, List.mem_take_iff_getElem]
  exact ⟨i, by omega, by simpa using heq⟩

/-- The groups without a module. -/
def withoutModule (n : Node) (s : State) : State :=
  { s with pool := { s.pool with groups := s.pool.groups.map (fun p => (p.1, lostGroup n p.2)) } }

/-- Where no module request is outstanding, a lost module of some group leaves its groups without it, and MODULE_LOST. -/
theorem loseModule_idle {n : Node} {s : State} {gi i : Nat} {g : Group} (hg : groupOf s gi = some g)
    (hi : g.modules.findIdx? (· == n) = some i) (hw : i < widthOf g) (hr : s.pool.reqs = []) :
    ∃ rep : Table Unit, loseModule n s = post .moduleLost none [n.toNat]
      { withoutModule n s with pool := { (withoutModule n s).pool with repaired := rep } } := by
  have hmem : (gi, g) ∈ s.pool.groups.filter (fun p => (p.2.modules.take (widthOf p.2)).contains n) :=
    List.mem_filter.2 ⟨mem_of_tget hg, uses_of_findIdx hi hw⟩
  have hhit : ¬ (s.pool.groups.filter (fun p => (p.2.modules.take (widthOf p.2)).contains n)).isEmpty = true :=
    fun h => List.ne_nil_of_mem hmem (List.isEmpty_iff.1 h)
  obtain ⟨rep, hrep⟩ := dropRepaired_all
    ((s.pool.groups.filter (fun p => (p.2.modules.take (widthOf p.2)).contains n)).filter (fun p => rebuildGone n p.2))
    (withoutModule n s)
  refine ⟨rep, (if_neg hhit).trans ?_⟩
  unfold withoutModule at hrep ⊢
  rw [hrep]
  simp only [hr, List.filter_nil, List.foldl_nil, List.map_nil, List.flatten_nil, commitFree]

theorem loseModule_noGroup {n : Node} {s : State} (h : s.pool.groups = []) : loseModule n s = s := by
  simp [loseModule, h]

/-! ## Rebuild and re-forming, a row at a time (R141, R144, R390) -/

theorem rebuildUnit_solved {part cls gi row pos : Nat} {g : Group} {s : State} {d : Block}
    (h : solveCol s gi g row (colAt g row pos) = some d) :
    rebuildUnit part cls gi g row pos s = rewriteUnit part cls gi (modAt g pos) row (mkTile d) s := by
  simp only [rebuildUnit, h]

theorem rebuildUnit_unsolved {part cls gi row pos : Nat} {g : Group} {s : State}
    (h : solveCol s gi g row (colAt g row pos) = none) : rebuildUnit part cls gi g row pos s =
      rewriteUnit part cls gi (modAt g pos) row badTile (post .rowUnrebuilt none [gi, row] s) := by
  simp only [rebuildUnit, h]

section
variable {gi : Nat} {s : State}

theorem exec_rebuildRow_fenced (hf : s.boot.fenced = true) : exec (.rebuildRow gi) s = .next s := by
  show execRebuildRow gi s = _
  unfold execRebuildRow
  split
  · rfl
  · exact if_pos hf

variable {g : Group} (hg : groupOf s gi = some g) (hf : s.boot.fenced = false)
include hg hf

theorem exec_rebuildRow_pass {p : Nat} (hp : g.pass = some p) : exec (.rebuildRow gi) s =
    .next (endPass gi (modGroup gi (fun x => { x with pass := some (p + 1) }) (formRow gi g p s))) := by
  show execRebuildRow gi s = _
  simp only [execRebuildRow, hg, hf, hp, Bool.false_eq_true, if_false]

variable (hp : g.pass = none)
include hp

theorem exec_rebuildRow_idle (hs : g.state ≠ .rebuilding) : exec (.rebuildRow gi) s = .next s := by
  show execRebuildRow gi s = _
  simp only [execRebuildRow, hg, hf, hp, Bool.false_eq_true, if_false]
  exact if_pos hs

theorem exec_rebuildRow_row (hs : g.state = .rebuilding) : exec (.rebuildRow gi) s =
    .next (endRebuild gi (modGroup gi (fun x => { x with cursor := g.cursor + 1 }) (rebuildUnit 0 6 gi g g.cursor g.rebuildPos
      (askHelpers 0 6 gi g g.cursor (colAt g g.cursor g.rebuildPos) s)))) := by
  show execRebuildRow gi s = _
  simp only [execRebuildRow, hg, hf, hp, Bool.false_eq_true, if_false]
  exact if_neg (not_not_intro hs)
end

/-! ## Patrol and resync (R128, R137, R144) -/

theorem exec_patrolScrub_row {gi row : Nat} {s : State} {g : Group} (hg : groupOf s gi = some g) (hr : row < rowsOf g)
    (hup : g.up = true) : exec (.patrolScrub gi row) s = .next (reparity gi g row (repairRow gi g row s)) := by
  show execPatrolScrub gi row s = _
  simp only [execPatrolScrub, hg]
  exact if_pos ⟨hr, hup⟩

theorem exec_patrolScrub_outside {gi row : Nat} {s : State} {g : Group} (hg : groupOf s gi = some g) (hr : rowsOf g ≤ row) :
    exec (.patrolScrub gi row) s = .next s := by
  show execPatrolScrub gi row s = _
  simp only [execPatrolScrub, hg]
  exact if_neg fun h => absurd h.1 (Nat.not_lt.2 hr)

section
variable {gi row : Nat} {s : State} {g : Group}

/-- A row all of whose units are present and pass is read and left as it is. -/
theorem repairRow_sound (h : ∀ pos < widthOf g, isMissing s gi g row pos = false ∧ tileOk (storedUnit s (modAt g pos) row) = true) :
    repairRow gi g row s = (List.range (widthOf g)).foldl (fun t c => askCol none 0 6 gi g row c t) s := by
  have hcol : ∀ c ∈ List.range (widthOf g), isMissing s gi g row (posOf g row c) = false ∧
      tileOk (storedUnit s (modAt g (posOf g row c)) row) = true :=
    fun c hc => h _ (Nat.mod_lt _ (Nat.zero_lt_of_lt (List.mem_range.1 hc)))
  have hhere : (List.range (widthOf g)).filter (fun c => !isMissing s gi g row (posOf g row c)) = List.range (widthOf g) :=
    List.filter_eq_self.2 fun c hc => by rw [(hcol c hc).1]; rfl
  have hbad : (List.range (widthOf g)).filter (fun c => !tileOk (storedUnit s (modAt g (posOf g row c)) row)) = [] :=
    List.filter_eq_nil_iff.2 fun c hc => by simp [(hcol c hc).2]
  simp only [repairRow, hhere, hbad, List.foldl_nil]

theorem reparity_unsolved (h : wholeRow s gi g row = none) : reparity gi g row s = s := by
  simp only [reparity, h]

/-- The unit that the data of a row gives its parity column `j`. -/
def parityOf (g : Group) (ds : List (Nat × Block)) (j : Nat) : Tile :=
  mkTile (if g.k = 1 then foldCols 0 (ds.take 1) else foldCols j ds)

variable {ds : List (Nat × Block)} (hd : wholeRow s gi g row = some ds)
include hd

/-- Parity that agrees is left. -/
theorem reparity_agrees (h : ∀ j < g.m, storedUnit s (modAt g (posOf g row (g.k + j))) row = parityOf g ds j) :
    reparity gi g row s = s := by
  simp only [reparity, hd]
  exact foldl_unmoved fun j hj => if_pos (by simp [h j (List.mem_range.1 hj), parityOf])

/-- The one parity unit of a row that disagrees is rewritten. -/
theorem reparity_rewrites (hm : g.m = 1) (hp : isMissing s gi g row (posOf g row g.k) = false)
    (h : storedUnit s (modAt g (posOf g row g.k)) row ≠ parityOf g ds 0) :
    reparity gi g row s = rewriteUnit 0 6 gi (modAt g (posOf g row g.k)) row (parityOf g ds 0) s := by
  simp only [reparity, hd, hm, List.range_one, List.foldl_cons, List.foldl_nil]
  exact if_neg (by simpa [hp, parityOf] using h)
end

section
variable {gi region : Nat} {s : State} {g : Group} (hg : groupOf s gi = some g)
include hg

theorem exec_markedRegionResync_unmarked (hr : thas s.pool.resync (gi * 2 ^ 40 + region) = false) :
    exec (.markedRegionResync gi region) s = .next s := by
  show execMarkedRegionResync gi region s = _
  rw [execMarkedRegionResync, hg]
  exact if_pos (.inr hr)

/-- At a marked region every row's parity is made right, and what waited for it goes on. -/
theorem exec_markedRegionResync_marked (hf : s.boot.fenced = false) (hr : thas s.pool.resync (gi * 2 ^ 40 + region) = true) :
    let a := (((List.range 4096).map (fun i => region * 4096 + i)).filter (fun r => decide (r < rowsOf g))).foldl
      (fun t r => reparity gi g r (repairRow gi g r t)) s
    let b : State := { a with pool := { a.pool with resync := tdel a.pool.resync (gi * 2 ^ 40 + region) } }
    let u := retryHeld ((b.home.busy.filter (fun y => y.recalls.isEmpty)).foldl (fun t y => tryFinish y.slot y.tile t) b)
    exec (.markedRegionResync gi region) s = .next (settle
      ((b.home.parked.filter (fun p => p.why == .region gi region)).foldl (fun t p => serveParked p t) u)) := by
  show execMarkedRegionResync gi region s = _
  rw [execMarkedRegionResync, hg]
  generalize List.range 4096 = rows
  exact if_neg (by rw [hf, hr]; decide)
end

/-- Settles O33: marks, the loss of a module, rebuild, patrol and resync, each by its own rule. -/
theorem poolBackground : Obligations.PoolBackground := by
  unfold Obligations.PoolBackground
  refine ⟨fun group region s => ⟨?kept, ?cleared⟩, fun slot region s => ⟨?owned, ?disowned⟩, ?lost, ?noGroup, ?rebuild,
    fun gi s hf => exec_rebuildRow_fenced hf, fun gi p s g hg hp hf => exec_rebuildRow_pass hg hf hp, ?patrol, ?resync⟩
  case kept => exact fun h => exec_intentClear_keeps (h.imp_left uncommitted_iff.2)
  case cleared =>
    intro hj hr
    have hno : ¬ KeepsMark group region s := by
      rintro (h | h)
      · obtain ⟨r, hr, hgrp, hreg⟩ := uncommitted_iff.1 h
        exact hj r hr hgrp hreg
      · exact Bool.false_ne_true (hr.symm.trans h)
    exact ⟨_, exec_intentClear_clears hno, tget_tdel _ _, rfl⟩
  case owned => exact fun h => congrArg Host.Outcome.next (if_pos h)
  case disowned =>
    exact fun h => ⟨_, congrArg Host.Outcome.next (if_neg (Bool.eq_false_iff.1 h)), tget_tdel _ _, rfl⟩
  case lost =>
    intro node s gi i g hg hi hw h18 hr
    obtain ⟨rep, hlose⟩ := loseModule_idle hg hi hw hr
    obtain ⟨hlost, hmods⟩ := lostGroup_at hi
    have hgroup : tget (s.pool.groups.map (fun p => (p.1, lostGroup node p.2))) gi = some (lostGroup node g) :=
      (tget_mapVal _ _ _).trans (congrArg (Option.map _) hg)
    exact ⟨_, _, next_settle hlose, hgroup, hlost, hmods, hlost ▸ getLsbD_lost h18, rfl, _, mem_events_post _ _ _ _, rfl, rfl, rfl⟩
  case noGroup => exact fun node s h => next_settle (loseModule_noGroup h)
  case rebuild =>
    intro gi s g hg hp hf row next here
    have hsame := (sameUnits_askHelpers 0 6 gi g row (colAt g row g.rebuildPos) s).solveCol_eq
    refine ⟨exec_rebuildRow_idle hg hf hp, fun d hs hd => ?_, fun hs hd => ?_⟩
    · rw [exec_rebuildRow_row hg hf hp hs, rebuildUnit_solved (by rw [hsame]; exact hd)]
    · rw [exec_rebuildRow_row hg hf hp hs, rebuildUnit_unsolved (by rw [hsame]; exact hd)]
      rfl
  case patrol =>
    exact fun gi row s g hg => ⟨exec_patrolScrub_row hg, exec_patrolScrub_outside hg, repairRow_sound,
      fun ds hd => ⟨reparity_agrees hd, reparity_rewrites hd⟩, reparity_unsolved⟩
  case resync =>
    exact fun gi region s g hg hf => ⟨exec_markedRegionResync_unmarked hg, exec_markedRegionResync_marked hg hf⟩

end Sys2Proof.Machine

/-! # Commands (chapter 7): the proofs of their statements -/

namespace Sys2Proof.Machine

/-! ## Queues after a change -/

@[simp] theorem queueOf_modQueue_same (qn : Nat) (f : Queue → Queue) (s : State) :
    queueOf (modQueue qn f s) qn = (queueOf s qn).map f := tget_tmod_same _ _ _

@[simp] theorem queueOf_send (tx : Tx) (s : State) (qn : Nat) : queueOf (send tx s) qn = queueOf s qn := rfl
@[simp] theorem queueOf_occur (o : Occ) (s : State) (qn : Nat) : queueOf (occur o s) qn = queueOf s qn := rfl
@[simp] theorem queueOf_bump (type block idx n : Nat) (s : State) (qn : Nat) :
    queueOf (bump type block idx n s) qn = queueOf s qn := rfl

/-! ## Commands that are read (R158 to R163) -/

theorem nextDesc_none {s : State} {q : Queue} (h : q.state ≠ .active ∨ (∃ c ∈ q.cmds, dHaltOnError c.desc = true) ∨
    q.head = q.tail ∨ partState s q.part ≠ .active) : nextDesc s q = none := by
  refine if_neg ?_
  rintro ⟨hact, hpart, hmore, hnone⟩
  rcases h with h | ⟨c, hc, hhalt⟩ | h | h
  · exact h hact
  · rw [List.any_eq_true.2 ⟨c, hc, hhalt⟩] at hnone
    cases hnone
  · exact hmore h
  · exact h hpart

/-- The state once the device has read the descriptor at HEAD of a queue, and counted it (R154, R158). -/
def descRead (qn : Nat) (q : Queue) (s : State) : State := bump 4 (5 * q.part + q.engine - 1) 8 1 (readSlot qn q.head s)

section
variable {qn : Nat} {s : State} {q : Queue} {d : BitVec 512} (hq : queueOf s qn = some q) (hd : nextDesc s q = some d)
include hq hd

/-- The row of a command reads a descriptor of its own engine and opcode: refused by a check of R159, accepted, or with a code
that its encoding does not have (log entry 160). -/
theorem reads_of_row {c : Instr} {engine op : Nat} (hrow : ∀ s, exec c s = readCmd engine op qn s) (he : q.engine = engine)
    (hde : dEngine d = engine) (hop : dOpcode d = op) :
    (∀ st, checkCmd (descRead qn q s) q d = some st → exec c s = .next (refuseCmd qn q.head d st (descRead qn q s))) ∧
    (checkCmd (descRead qn q s) q d = none → encodingOk d = true →
      exec c s = .next (acceptCmd qn q q.head d (descRead qn q s))) ∧
    (checkCmd (descRead qn q s) q d = none → encodingOk d = false →
      exec c s = .next (wildCmd qn q q.head d (descRead qn q s))) := by
  have own : ¬ (dEngine d ≠ engine ∨ q.engine ≠ engine ∨ dOpcode d ≠ op) := by simp [he, hde, hop]
  unfold descRead
  refine ⟨fun st hc => ?_, fun hc henc => ?_, fun hc henc => ?_⟩
  · simp only [hrow, readCmd, hq, hd, own, if_false, hc]
  · simp only [hrow, readCmd, hq, hd, own, if_false, hc, henc, if_true]
  · simp only [hrow, readCmd, hq, hd, own, if_false, hc, henc, Bool.false_eq_true]

/-- A descriptor that fails check 1 of R159. -/
theorem readReserved_refused (h : dEngine d ≠ q.engine ∨ opcodeOk q.engine (dOpcode d) = false) :
    readReserved qn s = refuseCmd qn q.head d .opcode (descRead qn q s) := by
  have hbad : ¬ (dEngine d = q.engine ∧ opcodeOk q.engine (dOpcode d) = true) := by
    rintro ⟨he, hok⟩
    simp [he, hok] at h
  simp only [readReserved, hq, hd, hbad, if_false]
  rfl
end

/-! ## What a command that is read leaves (R159, R162, R166, R171) -/

section
variable {qn : Nat} {s : State} {q : Queue}

/-- Without sampling no item of a command has a stage to emit. -/
theorem tagQueued_unsampled {c : Cmd} (h : s.obs.sampling = []) : tagQueued qn q c s = s := if_pos (by rw [h]; rfl)

/-- An accepted command with items, of an engine other than REDUCE, joins its queue's list and nothing else happens. -/
theorem acceptCmd_listed {seq : Word32} {d : BitVec 512} (he : dEngine d ≠ 1) (hn : itemsOf s d ≠ 0) (ho : s.obs.sampling = []) :
    acceptCmd qn q seq d s = modQueue qn (fun x => { x with cmds := x.cmds ++ [newCmd s q seq d] }) s := by
  have hitems : (newCmd s q seq d).n ≠ 0 := hn
  simp only [acceptCmd, hitems, he, if_false]
  exact tagQueued_unsampled ho

/-- Whether a command that completes with a status halts its queue (R171). -/
def haltsQueue (q : Queue) (d : BitVec 512) (st : St) : Bool := dHaltOnError d && decide (st ≠ .ok) && q.state == .active

/-- A queue once a command of it has its record. -/
def recorded (qn : Nat) (q : Queue) (c : Word32) (d : BitVec 512) (st : St) (done failed unrec : Nat) (s : State) : Queue :=
  { q with
    cmds := q.cmds.filter (fun y => y.seq ≠ c), written := q.written + 1,
    cq := tset q.cq (c.toNat % depthOf q)
      (recordOf q qn c (dUserTag d) st (s.mgmt.eventSeq - 1) done failed unrec (haltsQueue q d st)),
    state := if haltsQueue q d st then .halted else q.state, haltSeq := if haltsQueue q d st then c else q.haltSeq }

/-- A command that completes has its record in its queue, whatever is then sent and counted. -/
theorem queueOf_finishCmd {c : Word32} {d : BitVec 512} {st : St} {done failed unrec : Nat} (hq : queueOf s qn = some q) :
    queueOf (finishCmd qn c d st done failed unrec s) qn = some (recorded qn q c d st done failed unrec s) := by
  simp only [finishCmd, hq]
  split <;> split <;> simp [notify, hq, recorded, haltsQueue]
end

/-- Settles O34: every row is `readCmd` of its own engine and opcode; an accepted command is listed, a refused one recorded. -/
theorem commandsAndRecords : Obligations.CommandsAndRecords := by
  unfold Obligations.CommandsAndRecords
  refine ⟨?rows, ?accepted, ?refused, fun s q h => nextDesc_none h⟩
  case rows =>
    intro qn s q d hq hd a reads
    have row : ∀ {c engine op}, (∀ s, exec c s = readCmd engine op qn s) → reads c engine op :=
      fun hrow => reads_of_row hq hd hrow
    exact ⟨row fun _ => rfl, row fun _ => rfl, row fun _ => rfl, row fun _ => rfl, row fun _ => rfl, row fun _ => rfl,
      row fun _ => rfl, row fun _ => rfl, row fun _ => rfl, row fun _ => rfl, row fun _ => rfl, row fun _ => rfl,
      row fun _ => rfl, row fun _ => rfl, row fun _ => rfl, row fun _ => rfl, row fun _ => rfl,
      fun h => congrArg Host.Outcome.next (readReserved_refused hq hd h)⟩
  case accepted =>
    intro qn s q seq d hq he hn ho
    refine ⟨newCmd s q seq d, { q with cmds := q.cmds ++ [newCmd s q seq d] }, ?_, rfl, rfl, rfl, rfl, rfl, rfl, rfl, rfl, rfl, rfl⟩
    rw [acceptCmd_listed he hn ho, queueOf_modQueue_same, hq]
    rfl
  case refused =>
    intro qn s q seq d st hq halts
    exact ⟨recorded qn q seq d st 0 0 0 s, queueOf_finishCmd hq, rfl, tget_tset_same _ _ _, fun i hi => tget_tset_ne _ _ hi,
      rfl, rfl⟩

end Sys2Proof.Machine

namespace Sys2Proof.Machine

/-! ## Messages that a supervisor may send too (R384) -/

/-- The row of a message of R384 that supervisors have answers as its own rule does: `Requests` meets every check before it. -/
theorem answers_of_maySend {c : Instr} {h : Mgmt} {kind : SessKind} {code : Nat} {hyp : State → Prop} {st : St}
    {body : State → List Nat} {change : Bool} {eff : State → State} {own : Bool} {go : SessKind → State → MRes}
    (row : State → Out) (hm : MaySend h kind) (hrow : ∀ s, row s = request code own h go s)
    (hrule : ∀ s, h.lenOk = true → hyp s → go kind s = .done st (body s) change (eff s))
    (hexec : ∀ s, exec c s = row s := by exact fun _ => rfl)
    (hd : codeDefined code = true := by decide) (hv : svCode code = true := by decide) :
    Answers c h kind code hyp st body change eff :=
  fun s hs hh => ((hexec s).trans (hrow s)).trans (request_done hs (refusal_maySend hm hs.serves hs.ready hd hv) (hrule s hs.length hh))

/-! ## QUEUE_CREATE and QUEUE_DESTROY (R150) -/

/-- The queue is the partition's, and its submitter is no host of another partition (R150). -/
def MayCreate (h : Mgmt) (q : Nat) (sub : Node) (s : State) : Prop :=
  queueAssigned s h.part q = true ∧ foreignHost s h.part sub = false

/-- The rules that a new queue keeps (R150, R374). -/
def QueueFits (h : Mgmt) (q engine depth prio : Nat) (s : State) : Prop :=
  queueOf s q = none ∧ (1 ≤ engine ∧ engine ≤ 5) ∧ depthOk depth = true ∧ prio ≤ 3 ∧ hasFw s h.part engine = true

/-- The test by which QUEUE_CREATE is refused before its own rules are looked at. -/
theorem createBarred_iff {h : Mgmt} {q : Nat} {sub : Node} {s : State} :
    (!queueAssigned s h.part q || foreignHost s h.part sub) = true ↔ ¬ MayCreate h q sub s := by
  rw [← Bool.not_eq_false]
  refine not_congr ?_
  simp only [MayCreate, Bool.or_eq_false_iff, Bool.not_eq_eq_eq_not, Bool.not_false]

/-- The test by which QUEUE_CREATE finds that a new queue breaks its rules. -/
theorem createUnfit_iff {h : Mgmt} {q engine depth prio : Nat} {s : State} :
    ((queueOf s q).isSome || !(decide (1 ≤ engine) && decide (engine ≤ 5)) || !depthOk depth || decide (3 < prio) ||
      !hasFw s h.part engine) = true ↔ ¬ QueueFits h q engine depth prio s := by
  rw [← Bool.not_eq_false]
  refine not_congr ?_
  simp only [QueueFits, Bool.not_and, Bool.or_eq_false_iff, Option.isSome_eq_false_iff, Option.isNone_iff_eq_none,
    Bool.not_eq_eq_eq_not, Bool.not_false, decide_eq_true_eq, decide_eq_false_iff_not, Nat.not_lt, and_assoc]

section
variable {h : Mgmt} {kind : SessKind} (hm : MaySend h kind)
include hm

section
variable (q engine depth : Nat) (sub : Node) (prio : Nat)

theorem queueCreate_creates : Answers (.queueCreate h q engine depth sub prio) h kind 0x50
    (fun s => MayCreate h q sub s ∧ QueueFits h q engine depth prio s) .ok (fun _ => []) true
    (fun s => { s with queues := { s.queues with queues := tset s.queues.queues q (newQueue h.part engine depth sub prio) } }) :=
  answers_of_maySend (execQueueCreate h q engine depth sub prio) hm (fun _ => rfl) fun _ _ ⟨hmay, hfits⟩ =>
    (if_neg fun hb => createBarred_iff.1 hb hmay).trans (if_neg fun hb => createUnfit_iff.1 hb hfits)

theorem queueCreate_barred :
    Refuses (.queueCreate h q engine depth sub prio) h kind 0x50 (fun s => ¬ MayCreate h q sub s) .noAccess :=
  answers_of_maySend (execQueueCreate h q engine depth sub prio) hm (fun _ => rfl) fun _ _ hmay =>
    if_pos (createBarred_iff.2 hmay)

theorem queueCreate_unfit : Refuses (.queueCreate h q engine depth sub prio) h kind 0x50
    (fun s => MayCreate h q sub s ∧ ¬ QueueFits h q engine depth prio s) .state :=
  answers_of_maySend (execQueueCreate h q engine depth sub prio) hm (fun _ => rfl) fun _ _ ⟨hmay, hfits⟩ =>
    (if_neg fun hb => createBarred_iff.1 hb hmay).trans (if_pos (createUnfit_iff.2 hfits))
end

section
variable (qn : Nat) (q : Queue)

/-- A queue of which every command read has its record is given up. -/
theorem queueDestroy_destroys : Answers (.queueDestroy h qn) h kind 0x51
    (fun s => queueOf s qn = some q ∧ q.part = h.part ∧ q.written = q.head ∧ q.cmds = []) .ok (fun _ => []) true
    (fun s => { s with queues := { s.queues with queues := tdel s.queues.queues qn } }) :=
  answers_of_maySend (execQueueDestroy h qn) hm (fun _ => rfl) fun _ _ ⟨hq, hp, hw, hc⟩ => by simp [hq, hp, hw, hc, yes]

theorem queueDestroy_foreign : Refuses (.queueDestroy h qn) h kind 0x51
    (fun s => queueOf s qn = some q ∧ q.part ≠ h.part) .noAccess :=
  answers_of_maySend (execQueueDestroy h qn) hm (fun _ => rfl) fun _ _ ⟨hq, hp⟩ => by simp [hq, hp, no]

theorem queueDestroy_busy : Refuses (.queueDestroy h qn) h kind 0x51
    (fun s => queueOf s qn = some q ∧ q.part = h.part ∧ (q.written ≠ q.head ∨ q.cmds ≠ [])) .state :=
  answers_of_maySend (execQueueDestroy h qn) hm (fun _ => rfl) fun _ _ ⟨hq, hp, hb⟩ => by
    have hbusy : (decide (q.written ≠ q.head) || !q.cmds.isEmpty) = true := by simpa using hb
    simp only [hq, hp, hbusy, no, ne_eq, not_true_eq_false, if_false, if_true]

theorem queueDestroy_absent :
    Refuses (.queueDestroy h qn) h kind 0x51 (fun s => queueOf s qn = none ∧ queueAssigned s h.part qn = true) .state ∧
    Refuses (.queueDestroy h qn) h kind 0x51 (fun s => queueOf s qn = none ∧ queueAssigned s h.part qn = false) .noAccess := by
  constructor
  · exact answers_of_maySend (execQueueDestroy h qn) hm (fun _ => rfl) fun _ _ ⟨hq, ha⟩ => by simp [hq, ha, no]
  · exact answers_of_maySend (execQueueDestroy h qn) hm (fun _ => rfl) fun _ _ ⟨hq, ha⟩ => by simp [hq, ha, no]
end
end

/-! ## KERNEL_LOAD, KERNEL_UNLOAD and KERNEL_LIST (R235, R486) -/

/-- A partition's kernel area has room for an image, once the retired images that nothing uses are freed (R235). -/
def KernelRoom (h : Mgmt) (i : KernelImage) (s : State) : Prop :=
  kernelUse (freeImages h.part s) h.part + i.length ≤ kernelArea s h.part

/-- The state once a handle has an image, and the one before it retires (R235). -/
def kernelLoaded (h : Mgmt) (handle : Nat) (i : KernelImage) (s : State) : State :=
  let u := freeImages h.part s
  freeImages h.part (setKernel h.part handle (retireCurrent (kernelOf u h.part handle) (some i)) u)

section
variable {h : Mgmt} {kind : SessKind} (hm : MaySend h kind) {handle : Nat}
include hm

theorem kernelLoad_noHandle (i : KernelImage) (hh : 63 < handle) :
    Refuses (.kernelLoad h handle i) h kind 0x52 (fun _ => True) .state :=
  answers_of_maySend (execKernelLoad h handle i) hm (fun _ => rfl) fun _ _ _ => if_pos hh

section
variable {i : KernelImage} (hh : handle ≤ 63)
include hh

theorem kernelLoad_illFormed (hf : ¬ imageForm i = true) :
    Refuses (.kernelLoad h handle i) h kind 0x52 (fun _ => True) .opcode :=
  answers_of_maySend (execKernelLoad h handle i) hm (fun _ => rfl) fun _ _ _ =>
    (if_neg (Nat.not_lt.2 hh)).trans (if_pos (by simp [hf]))

variable (hf : imageForm i = true)
include hf

theorem kernelLoad_spoiled (hw : ¬ i.digest = sha256 (imageBytes i)) :
    Refuses (.kernelLoad h handle i) h kind 0x52 (fun _ => True) .checksum :=
  answers_of_maySend (execKernelLoad h handle i) hm (fun _ => rfl) fun _ hl _ =>
    (if_neg (Nat.not_lt.2 hh)).trans ((if_neg (by simp [hl, hf])).trans (if_pos hw))

variable (hw : i.digest = sha256 (imageBytes i))
include hw

/-- An image that passes tests 2 to 4 of R486 meets test 5, its trust, and then test 6, the room of its area. -/
theorem kernelLoad_whole {hyp : State → Prop} {st : St} {change : Bool} {eff : State → State}
    (hrest : ∀ s, hyp s → (if !imageTrusted s i then no .noAccess s
      else if kernelArea s h.part < kernelUse (freeImages h.part s) h.part + i.length then no .state s
      else yes (kernelLoaded h handle i s)) = .done st [] change (eff s)) :
    Answers (.kernelLoad h handle i) h kind 0x52 hyp st (fun _ => []) change eff :=
  answers_of_maySend (execKernelLoad h handle i) hm (fun _ => rfl) fun s hl hs =>
    (if_neg (Nat.not_lt.2 hh)).trans ((if_neg (by simp [hl, hf])).trans ((if_neg (not_not_intro hw)).trans (hrest s hs)))

theorem kernelLoad_untrusted :
    Refuses (.kernelLoad h handle i) h kind 0x52 (fun s => imageTrusted s i = false) .noAccess :=
  kernelLoad_whole hm hh hf hw fun _ ht => if_pos (by simp [ht])

theorem kernelLoad_noRoom :
    Refuses (.kernelLoad h handle i) h kind 0x52 (fun s => imageTrusted s i = true ∧ ¬ KernelRoom h i s) .state :=
  kernelLoad_whole hm hh hf hw fun _ ⟨ht, hr⟩ => (if_neg (by simp [ht])).trans (if_pos (Nat.not_le.1 hr))

theorem kernelLoad_loads : Answers (.kernelLoad h handle i) h kind 0x52 (fun s => imageTrusted s i = true ∧ KernelRoom h i s)
    .ok (fun _ => []) true (kernelLoaded h handle i) :=
  kernelLoad_whole hm hh hf hw fun _ ⟨ht, hr⟩ => (if_neg (by simp [ht])).trans (if_neg (Nat.not_lt.2 hr))
end

theorem kernelUnload_unloads (hh : handle ≤ 63) : Answers (.kernelUnload h handle) h kind 0x53
    (fun s => (kernelOf s h.part handle).current.isSome = true) .ok (fun _ => []) true
    (fun s => freeImages h.part (setKernel h.part handle (retireCurrent (kernelOf s h.part handle) none) s)) :=
  answers_of_maySend (execKernelUnload h handle) hm (fun _ => rfl) fun _ _ hc =>
    if_neg (by simp [Nat.not_lt.2 hh, Option.isSome_iff_ne_none.1 hc])

theorem kernelUnload_refused : Refuses (.kernelUnload h handle) h kind 0x53
    (fun s => 63 < handle ∨ ¬ (kernelOf s h.part handle).current.isSome = true) .state :=
  answers_of_maySend (execKernelUnload h handle) hm (fun _ => rfl) fun _ _ hc => if_pos (by simpa using hc)

theorem kernelList_lists : Answers (.kernelList h) h kind 0x54 (fun _ => True) .ok
    (fun s => ((List.range 64).map (kernelVals s h.part)).flatten) false (fun s => s) :=
  answers_of_maySend (execKernelList h) hm (fun _ => rfl) fun _ _ _ => rfl
end

/-- Settles O50: each message by its own rule, whichever kind of session sends it. -/
theorem queueAndKernelRequests : Obligations.QueueAndKernelRequests := by
  unfold Obligations.QueueAndKernelRequests
  intro h kind hm
  refine ⟨fun q engine depth sub prio => ⟨?creates, ?barred, ?unfit⟩, fun qn q => ⟨?destroys, ?foreign, ?busy⟩,
    fun qn => queueDestroy_absent hm qn, fun handle i => ⟨?loads, ?noHandle, ?illFormed, ?spoiled, ?whole⟩,
    fun handle => ⟨?unloads, kernelUnload_refused hm⟩, kernelList_lists hm⟩
  case creates => exact queueCreate_creates hm q engine depth sub prio
  case barred => exact queueCreate_barred hm q engine depth sub prio
  case unfit => exact queueCreate_unfit hm q engine depth sub prio
  case destroys => exact queueDestroy_destroys hm qn q
  case foreign => exact queueDestroy_foreign hm qn q
  case busy => exact queueDestroy_busy hm qn q
  case loads => exact fun hh hf hw => kernelLoad_loads hm hh hf hw
  case noHandle => exact kernelLoad_noHandle hm i
  case illFormed => exact fun hh hf => kernelLoad_illFormed hm hh hf
  case spoiled => exact fun hh hf hw => kernelLoad_spoiled hm hh hf hw
  case whole => exact fun hh hf hw => ⟨kernelLoad_untrusted hm hh hf hw, kernelLoad_noRoom hm hh hf hw⟩
  case unloads => exact fun hh => kernelUnload_unloads hm hh

end Sys2Proof.Machine

namespace Sys2Proof.Machine

/-! ## Writes of a run of keys, one after another -/

section
variable {α : Type} {at_ : Nat → Nat} {f : Table α → Nat → Table α} (hf : ∀ t i k, k ≠ at_ i → tget (f t i) k = tget t k)
include hf

/-- Steps that each write one key leave every other key. -/
theorem tget_foldl_range_ne {n k : Nat} (t : Table α) (hk : ∀ i < n, k ≠ at_ i) : tget ((List.range n).foldl f t) k = tget t k := by
  induction n with
  | zero => rfl
  | succ n ih =>
    rw [List.range_succ, List.foldl_append]
    exact (hf _ n k (hk n (Nat.lt_succ_self n))).trans (ih fun i hi => hk i (Nat.lt_succ_of_lt hi))

/-- A key that one step writes, and no later one, has what that step gave it. -/
theorem tget_foldl_range_at {n i : Nat} {v : Option α} (t : Table α) (hi : i < n) (hv : ∀ t, tget (f t i) (at_ i) = v)
    (hlast : ∀ j < n, i < j → at_ i ≠ at_ j) : tget ((List.range n).foldl f t) (at_ i) = v := by
  induction n with
  | zero => exact absurd hi (Nat.not_lt_zero i)
  | succ n ih =>
    rw [List.range_succ, List.foldl_append]
    rcases Nat.lt_succ_iff_lt_or_eq.1 hi with hlt | rfl
    · exact (hf _ n _ (hlast n (Nat.lt_succ_self n) hlt)).trans (ih hlt fun j hj => hlast j (Nat.lt_succ_of_lt hj))
    · exact hv _
end

/-! ## CMD_PUSH (R153, R154) -/

/-- A descriptor stored in a slot of a ring; a slot of zeros is not listed. -/
def storeDesc (r : Table (BitVec 512)) (k : Nat) (v : BitVec 512) : Table (BitVec 512) := if v = 0 then tdel r k else tset r k v

theorem tget_storeDesc_same (r : Table (BitVec 512)) (k : Nat) (v : BitVec 512) :
    tget (storeDesc r k v) k = if v = 0 then none else some v := by
  unfold storeDesc
  split
  · exact tget_tdel_same r k
  · exact tget_tset_same r k v

theorem tget_storeDesc_ne (r : Table (BitVec 512)) {k m : Nat} (v : BitVec 512) (h : m ≠ k) : tget (storeDesc r k v) m = tget r m := by
  unfold storeDesc
  split
  · exact tget_tdel_ne r h
  · exact tget_tset_ne r v h

/-- The slot of descriptor `i` of a push: from WTILE and BYTE on, wrapping at D. -/
def pushSlot (q : Queue) (o : BitVec 48) (i : Nat) : Nat := (wTile o * 4 + wByte o / 64 + i) % depthOf q

/-- Up to D descriptors lie in slots of their own. -/
theorem pushSlot_ne {q : Queue} (o : BitVec 48) {n i j : Nat} (hn : n ≤ depthOf q) (hj : j < n) (hij : i < j) :
    pushSlot q o i ≠ pushSlot q o j := by
  intro h
  have hdiff := Nat.sub_mod_eq_zero_of_mod_eq h.symm
  rw [Nat.add_sub_add_left, Nat.mod_eq_of_lt (by omega)] at hdiff
  omega

/-- Descriptor `i` of a push as the ring stores it (log entry 13). -/
def pushDesc (q : Queue) (tx : Tx) (s : State) (i : Nat) : BitVec 512 :=
  if wByte tx.offset % 64 ≠ 0 ∨ thas q.unread (pushSlot q tx.offset i) then BitVec.ofNat 512 (Config.freeBlock (s.free + i)).toNat
  else BitVec.ofNat 512 (tx.trailer.val >>> (512 * i))

/-- The ring of a queue with the first `n` descriptors of a push. -/
def pushRing (q : Queue) (tx : Tx) (s : State) (n : Nat) : Table (BitVec 512) :=
  (List.range n).foldl (fun r i => storeDesc r (pushSlot q tx.offset i) (pushDesc q tx s i)) q.ring

/-- The slots of a queue that have not been read, with the first `n` of a push. -/
def pushUnread (q : Queue) (tx : Tx) (n : Nat) : Table Unit :=
  (List.range n).foldl (fun t i => tset t (pushSlot q tx.offset i) ()) q.unread

section
variable {q : Queue} {tx : Tx} {s : State} {n : Nat}

theorem tgetD_pushRing_slot {i : Nat} (hn : n ≤ depthOf q) (hi : i < n) :
    tgetD (pushRing q tx s n) (pushSlot q tx.offset i) 0 = pushDesc q tx s i := by
  have hslot : tget (pushRing q tx s n) (pushSlot q tx.offset i) = if pushDesc q tx s i = 0 then none else some (pushDesc q tx s i) :=
    tget_foldl_range_at (at_ := pushSlot q tx.offset) (fun r _ _ h => tget_storeDesc_ne r _ h) q.ring hi
      (fun r => tget_storeDesc_same r _ _) fun _ hj hij => pushSlot_ne tx.offset hn hj hij
  rw [tgetD, hslot]
  split
  case isTrue h => exact h.symm
  case isFalse => rfl

theorem tget_pushRing_ne {k : Nat} (hk : ∀ i < n, k ≠ pushSlot q tx.offset i) : tget (pushRing q tx s n) k = tget q.ring k :=
  tget_foldl_range_ne (fun r _ _ h => tget_storeDesc_ne r _ h) q.ring hk

theorem thas_pushUnread_slot {i : Nat} (hn : n ≤ depthOf q) (hi : i < n) :
    thas (pushUnread q tx n) (pushSlot q tx.offset i) = true :=
  congrArg Option.isSome (tget_foldl_range_at (at_ := pushSlot q tx.offset) (v := some ()) (fun t _ _ h => tget_tset_ne t _ h) q.unread hi
    (fun t => tget_tset_same t _ _) fun _ hj hij => pushSlot_ne tx.offset hn hj hij)

theorem tget_pushUnread_ne {k : Nat} (hk : ∀ i < n, k ≠ pushSlot q tx.offset i) : tget (pushUnread q tx n) k = tget q.unread k :=
  tget_foldl_range_ne (fun t _ _ h => tget_tset_ne t _ h) q.unread hk

theorem pushDesc_sent {i : Nat} (hb : wByte tx.offset % 64 = 0) (hu : thas q.unread (pushSlot q tx.offset i) = false) :
    pushDesc q tx s i = BitVec.ofNat 512 (tx.trailer.val >>> (512 * i)) := if_neg (by simp [hb, hu])
end

/-! ## The doorbell (R155, R171) -/

/-- TAIL of a doorbell tile. -/
def bellTail (tx : Tx) : Word32 := BitVec.ofNat 32 (fld (tx.tiles.headD zeroTile).data 127 96)

/-- CQ_HEAD of a doorbell tile. -/
def bellCq (tx : Tx) : Word32 := BitVec.ofNat 32 (fld (tx.tiles.headD zeroTile).data 95 64)

/-- Whether a doorbell resumes its queue: RESUME, at HALTED, or at RESET once the partition is ACTIVE. -/
def bellResumes (q : Queue) (tx : Tx) (s : State) : Bool :=
  (tx.tiles.headD zeroTile).data.getLsbD 63 && (q.state == .halted || (q.state == .reset && partState s q.part == .active))

theorem bellResumes_iff {q : Queue} {tx : Tx} {s : State} : bellResumes q tx s = true ↔
    (tx.tiles.headD zeroTile).data.getLsbD 63 = true ∧ (q.state = .halted ∨ (q.state = .reset ∧ partState s q.part = .active)) := by
  simp only [bellResumes, Bool.and_eq_true, Bool.or_eq_true, beq_iff_eq]

/-! ## The window, from its submitter and from others (R151 to R157) -/

section
variable {port : Nat} {tx : Tx} {s : State} (h1 : check1 tx s = none)
include h1

theorem servePush_away (hw : windowQueue port tx s = none) : servePush port tx s = answer tx .noAccess s := by
  simp only [servePush, h1, hw]

theorem serveDoorbell_away (hw : windowQueue port tx s = none) : serveDoorbell port tx s = answer tx .noAccess s := by
  simp only [serveDoorbell, h1, hw]

theorem serveWindow_away (hw : windowQueue port tx s = none) : serveWindow port tx s = answer tx .noAccess s := by
  simp only [serveWindow, h1, hw]

variable {q : Queue} (hw : windowQueue port tx s = some q)
include hw

theorem servePush_placed (hr : wRegion tx.offset = 0) (ht : wTile tx.offset < depthOf q / 4) :
    servePush port tx s = answer tx .ok (modQueue (wQueue tx.offset)
      (fun x => { x with ring := pushRing q tx s (tx.version.toNat % 128), unread := pushUnread q tx (tx.version.toNat % 128) })
      { s with free := s.free + tx.version.toNat % 128 }) := by
  have hin : ¬ (wRegion tx.offset ≠ 0 ∨ depthOf q / 4 ≤ wTile tx.offset) := by omega
  simp only [servePush, h1, hw, if_neg hin]
  rfl

theorem servePush_outside (h : wRegion tx.offset ≠ 0 ∨ depthOf q / 4 ≤ wTile tx.offset) :
    servePush port tx s = answer tx .noAccess s := by
  simp only [servePush, h1, hw, if_pos h]

section
variable (hr : wRegion tx.offset = 2) (ht : wTile tx.offset = 0)
include hr ht

/-- Counters that R156 refuses change nothing. -/
theorem serveDoorbell_refused (hb : doorbellBad q (bellTail tx) (bellCq tx) = true) :
    serveDoorbell port tx s = answer tx .state s := by
  unfold bellTail bellCq at hb
  simp only [serveDoorbell, h1, hw, hr, ht, hb, ne_eq, not_true_eq_false, or_self, if_false, if_true]

theorem serveDoorbell_rung (hb : doorbellBad q (bellTail tx) (bellCq tx) = false) :
    serveDoorbell port tx s = answer tx .ok (modQueue (wQueue tx.offset) (fun x => { x with
      tail := bellTail tx, cqHead := bellCq tx, state := if bellResumes q tx s then .active else x.state }) s) := by
  unfold bellTail bellCq at hb ⊢
  simp only [serveDoorbell, h1, hw, hr, ht, hb, ne_eq, not_true_eq_false, or_self, if_false, Bool.false_eq_true]
  rfl
end

/-- RD_WINDOW of a descriptor ring. -/
theorem serveWindow_ring (hr : wRegion tx.offset = 0) (ht : wTile tx.offset < depthOf q / 4) (hl : tx.length ≤ depthOf q / 4) :
    serveWindow port tx s = answerTiles tx
      ((List.range tx.length).map (fun i => mkTile (ringTile q ((wTile tx.offset + i) % (depthOf q / 4))))) s := by
  have hin : ¬ (depthOf q / 4 ≤ wTile tx.offset ∨ depthOf q / 4 < tx.length) := by omega
  simp only [serveWindow, h1, hw, hr, if_neg hin]

/-- RD_WINDOW of a completion ring. -/
theorem serveWindow_cq (hr : wRegion tx.offset = 1) (ht : wTile tx.offset < depthOf q / 8) (hl : tx.length ≤ depthOf q / 8) :
    serveWindow port tx s = answerTiles tx
      ((List.range tx.length).map (fun i => mkTile (cqTile q ((wTile tx.offset + i) % (depthOf q / 8))))) s := by
  have hin : ¬ (depthOf q / 8 ≤ wTile tx.offset ∨ depthOf q / 8 < tx.length) := by omega
  simp only [serveWindow, h1, hw, hr, if_neg hin]

/-- RD_WINDOW of the status tile. -/
theorem serveWindow_status (hr : wRegion tx.offset = 2) (ht : wTile tx.offset = 0) (hl : tx.length = 1) :
    serveWindow port tx s = answerTiles tx [mkTile (statusTile q)] s := by
  simp [serveWindow, h1, hw, hr, ht, hl]
end

/-! ## The rows of window transactions -/

section
variable {port : Nat} {tx0 : Tx} {hyp : State → Tx → State → Prop} {eff : Tx → State → State}

/-- A row of a request that is served apart from extents has the effect that its own rule gives at the state that serves it. -/
theorem window_serves {c : Instr} {op : Byte} {serve : Nat → Tx → State → State}
    (hserve : ∀ {rid p : Nat} {tx : Tx} {s : State}, tx.op = op → fenceHeld s tx.src rid = false →
      serveOp true rid p tx s = serve p tx s)
    (hrow : ∀ s, exec c s = recvOp op false port tx0 s) (hans : opAnswered op = true) (hop : op ≠ 0x06)
    (hrule : ∀ s tx a, hyp s tx a → serve (canonPort a port) tx a = eff tx a) :
    Serves c op false port tx0 hyp eff := by
  intro s tx harr hfence hh
  have hreq : isRequest tx = true := by
    show (!false && (opAnswered op || !opDefined op)) = true
    rw [hans]
    rfl
  have hown := hrule s tx (taken port tx s) hh
  rw [canonPort_taken] at hown
  exact (hrow s).trans (congrArg Host.Outcome.next ((recv_request harr).trans
    (congrArg settle ((hserve rfl (hfence hreq hop)).trans hown))))

theorem cmdPush_serves (h : ∀ s tx a, hyp s tx a → servePush (canonPort a port) tx a = eff tx a) :
    Serves (.cmdPush port tx0) 0x30 false port tx0 hyp eff :=
  window_serves (fun hop hf => by simp [serveOp, hop, hf]) (fun _ => rfl) (by decide) (by decide) h

theorem doorbell_serves (h : ∀ s tx a, hyp s tx a → serveDoorbell (canonPort a port) tx a = eff tx a) :
    Serves (.doorbell port tx0) 0x31 false port tx0 hyp eff :=
  window_serves (fun hop hf => by simp [serveOp, hop, hf]) (fun _ => rfl) (by decide) (by decide) h

theorem rdWindow_serves (h : ∀ s tx a, hyp s tx a → serveWindow (canonPort a port) tx a = eff tx a) :
    Serves (.rdWindow port tx0) 0x32 false port tx0 hyp eff :=
  window_serves (fun hop hf => by simp [serveOp, hop, hf]) (fun _ => rfl) (by decide) (by decide) h
end

/-- Settles O25: each window transaction by its own rule, at the queue that its window names or at none. -/
theorem queueWindows : Obligations.QueueWindows := by
  unfold Obligations.QueueWindows
  intro port tx0 q push bell read ok away no tail cq bellOk resumes rung
  refine ⟨?placed, ?outside, ?pushAway, ?resumed, ?rung, ?refused, ?bellAway, ?ring, ?completions, ?status, ?readAway⟩
  case placed =>
    intro s tx a n slotOf harr hfence hok hr ht hn
    refine ⟨pushRing q tx a n, pushUnread q tx n, ?_, fun i hi hb hu => ?_, fun i hi => thas_pushUnread_slot hn hi, fun k hk => ?_⟩
    · exact cmdPush_serves (hyp := fun _ tx a => ok tx a ∧ wRegion tx.offset = 0 ∧ wTile tx.offset < depthOf q / 4)
        (fun _ _ _ ⟨⟨h1, hw⟩, hr, ht⟩ => servePush_placed h1 hw hr ht) s harr (fun _ _ => hfence) ⟨hok, hr, ht⟩
    · exact (tgetD_pushRing_slot hn hi).trans (pushDesc_sent hb hu)
    · exact ⟨congrArg (Option.getD · 0) (tget_pushRing_ne hk), tget_pushUnread_ne hk⟩
  case outside => exact cmdPush_serves fun _ _ _ ⟨⟨h1, hw⟩, h⟩ => servePush_outside h1 hw h
  case pushAway => exact cmdPush_serves fun _ _ _ ⟨h1, hw⟩ => servePush_away h1 hw
  case resumed =>
    refine doorbell_serves fun _ tx a ⟨⟨⟨h1, hw⟩, hr, ht⟩, hb, hres⟩ => ?_
    rw [serveDoorbell_rung h1 hw hr ht hb, bellResumes_iff.2 hres]
    rfl
  case rung =>
    refine doorbell_serves fun _ tx a ⟨⟨⟨h1, hw⟩, hr, ht⟩, hb, hres⟩ => ?_
    rw [serveDoorbell_rung h1 hw hr ht hb, Bool.eq_false_iff.2 fun h => hres (bellResumes_iff.1 h)]
    rfl
  case refused => exact doorbell_serves fun _ _ _ ⟨⟨⟨h1, hw⟩, hr, ht⟩, hb⟩ => serveDoorbell_refused h1 hw hr ht hb
  case bellAway => exact doorbell_serves fun _ _ _ ⟨h1, hw⟩ => serveDoorbell_away h1 hw
  case ring => exact rdWindow_serves fun _ _ _ ⟨⟨h1, hw⟩, hr, ht, hl⟩ => serveWindow_ring h1 hw hr ht hl
  case completions => exact rdWindow_serves fun _ _ _ ⟨⟨h1, hw⟩, hr, ht, hl⟩ => serveWindow_cq h1 hw hr ht hl
  case status => exact rdWindow_serves fun _ _ _ ⟨⟨h1, hw⟩, hr, ht, hl⟩ => serveWindow_status h1 hw hr ht hl
  case readAway => exact rdWindow_serves fun _ _ _ ⟨h1, hw⟩ => serveWindow_away h1 hw

end Sys2Proof.Machine

namespace Sys2Proof.Machine

/-! ## The dispatcher (R162, R164, R241, R290) -/

section
variable {p : Nat} {s : State}

theorem dispatchOne_held (h : partState s p ≠ .active ∨ s.phys.hold = true) : dispatchOne p s = s := if_pos h

variable (ha : partState s p = .active) (hh : s.phys.hold = false) (hf : foldWaiting s p = none)
include ha hh hf

theorem dispatchOne_idle (hp : pickItem s p = none) : dispatchOne p s = s := by
  simp [dispatchOne, ha, hh, hf, hp]

variable {qn i core : Nat} {q : Queue} {c : Cmd} {k : Core} (hp : pickItem s p = some (qn, q, c, i, core, k))
include hp

/-- The item that is picked meets the checks of R164. -/
theorem dispatchOne_serves (hl : rebuildLost s c = false) (hc : recheck s q c = none) :
    dispatchOne p s = dispatchItem qn q c i core k s := by
  simp [dispatchOne, ha, hh, hf, hp, hl, hc]

theorem dispatchOne_fails {st : St} (hl : rebuildLost s c = false) (hc : recheck s q c = some st) :
    dispatchOne p s = failAtDispatch qn q c i st s := by
  simp [dispatchOne, ha, hh, hf, hp, hl, hc]

/-- An item of a REBUILD whose group has left REBUILDING through another loss fails with ST_STATE (R289). -/
theorem dispatchOne_lost (hl : rebuildLost s c = true) : dispatchOne p s = failAtDispatch qn q c i .state s := by
  simp [dispatchOne, ha, hh, hf, hp, hl]
end

/-! ## The context of a dispatched item (R162, R211) -/

@[simp] theorem ctxOf_tagStage (part engine queue : Nat) (cmdSeq : Word32) (item stage phys core ctx status replay : Nat) (s : State)
    (x : CtxId) : ctxOf (tagStage part engine queue cmdSeq item stage phys core ctx status replay s) x = ctxOf s x := by
  unfold tagStage
  split <;> rfl

@[simp] theorem ctxOf_countDispatched (part engine core phys : Nat) (s : State) (x : CtxId) :
    ctxOf (countDispatched part engine core phys s) x = ctxOf s x := rfl

theorem loadFirmware_present (core : Nat) (code : Nat × Nat) {s : State} {k : Core} (h : coreOf s core = some k) :
    (coreOf (loadFirmware core code s) core).isSome = true := by
  simp [loadFirmware, h]

/-- An item without an image of its own starts at PC 0 of its engine's firmware, on the lowest free context of its core. -/
theorem ctxOf_dispatchItem {qn i core : Nat} {q : Queue} {c : Cmd} {k : Core} {s : State} (hk : coreOf s core = some k)
    (hi : c.image = none) :
    ctxOf (dispatchItem qn q c i core k s) { core := core, ctx := freeCtxOf k } =
      some (freshCtx { part := q.part, coll := none, queue := qn, cmdSeq := c.seq, index := i, engine := q.engine } 0 0 []
        (Config.fwSlots q.engine % 2049) (tgetD c.faults i 0) s.ext.mapEpoch) := by
  simp only [dispatchItem, hi, ctxOf_tagStage, ctxOf_countDispatched, Option.isNone_none, if_true]
  exact ctxOf_putCtx_same _ _ _ (loadFirmware_present core _ hk)

/-! ## The end of a vendor item (R165, R167, R269) -/

section
variable {x : CtxId} {ans : List RemoteAnswer} {s : State} {k : Ctx} {q : Queue} {c : Cmd}

/-- What the work of a vendor item comes to at its end: a value, a failure, or a wait, and the state that it leaves. -/
def workOf (x : CtxId) (k : Ctx) (q : Queue) (c : Cmd) (ans : List RemoteAnswer) (s : State) : Except Halt Nat × State :=
  runIo (itemWork (actorOf s x k.item q c) c k.item.index) ans s

theorem completeItem_done {n : Nat} {u : State} (h : workOf x k q c ans s = (.ok n, u)) :
    completeItem x k q c ans s = settle (endItemAt x k.item .ok 0 (modCmd k.item.queue k.item.cmdSeq
      (fun y => { y with packed := y.packed + n, selected := y.selected + n }) u)) := by
  unfold workOf at h
  simp only [completeItem, h]

theorem completeItem_fails {st : St} {d : Word32} {u : State} (h : workOf x k q c ans s = (.error (.fail st d), u)) :
    completeItem x k q c ans s = settle (if (ctxOf u x).isSome then endItemAt x k.item st d u else u) := by
  unfold workOf at h
  simp only [completeItem, h]

theorem completeItem_waits {u : State} (h : workOf x k q c ans s = (.error .wait, u)) : completeItem x k q c ans s = u := by
  unfold workOf at h
  simp only [completeItem, h]

variable (hx : ctxOf s x = some k)
include hx

/-- An APPLY item ends by its own program (R242). -/
theorem exec_itemComplete_apply (he : k.item.engine = 5) : exec (.itemComplete x ans) s = .next s := by
  show execItemComplete x ans s = _
  simp only [execItemComplete, hx, he, or_true, if_true]

variable (hn : k.item.coll = none) (hc : cmdOfItem s k.item = some (q, c))
include hn hc

theorem exec_itemComplete_reduce (he : k.item.engine = 1) :
    exec (.itemComplete x ans) s = .next (settle (fromItem x k.item q c ans s)) := by
  show execItemComplete x ans s = _
  simp [execItemComplete, hx, hn, hc, he]

theorem exec_itemComplete_vendor (h2 : 2 ≤ k.item.engine) (h4 : k.item.engine ≤ 4) :
    exec (.itemComplete x ans) s = .next (completeItem x k q c ans s) := by
  have h1 : k.item.engine ≠ 1 := by omega
  have h5 : k.item.engine ≠ 5 := by omega
  show execItemComplete x ans s = _
  simp [execItemComplete, hx, hn, hc, h1, h5]
end

/-! ## The seal item (R108, R287) -/

/-- The submitter of a command may publish an extent's open layer by a seal item at a version. -/
def MaySeal (q : Queue) (e : Extent) (v : Nat) : Prop :=
  (holderOf e q.submitter).isSome ∧ e.mode = .versioned ∧ leaseHolder e q.part = true ∧ v ≠ 0 ∧ v = e.openV ∧
    layerOpen e = true ∧ e.publishing = none

section
variable {qn : Nat} {q : Queue} {c : Cmd} {s : State}

theorem sealTest_iff {e : Extent} {v : Nat} : ((holderOf e q.submitter).isSome && e.mode == .versioned && leaseHolder e q.part && v ≠ 0 &&
    v == e.openV && layerOpen e && e.publishing.isNone) = true ↔ MaySeal q e v := by
  simp [MaySeal, and_assoc]

theorem sealHere_waits {slot : Nat} {e : Extent} (h : MaySeal q e (dWriteV c.desc)) :
    sealHere qn q c slot e s = setExt slot { e with publishing := some (.sealItem qn c.seq) }
      (modCmd qn c.seq (fun y => { y with sealing := true, next := c.n }) s) := if_pos (sealTest_iff.2 h)

theorem sealHere_fails {slot : Nat} {e : Extent} (h : ¬ MaySeal q e (dWriteV c.desc)) :
    sealHere qn q c slot e s = endSeal qn c q .state 1 s := if_neg fun ht => h (sealTest_iff.1 ht)

theorem exec_publishCopySeal {seq : Word32} {ans : List RemoteAnswer} (hq : queueOf s qn = some q) (hc : cmdOf q seq = some c) :
    exec (.publishCopySeal qn seq ans) s = .next (settle (runSeal qn q c ans s)) := by
  show execPublishCopySeal qn seq ans s = _
  simp only [execPublishCopySeal, hq, hc]

/-- A copy item of the command is still to end. -/
theorem runSeal_early {ans : List RemoteAnswer} (h : c.done + c.failed + 1 ≠ c.n) : runSeal qn q c ans s = s :=
  if_pos (by simp [h])

variable {ans : List RemoteAnswer} (hs : hasSeal c = true) (hw : c.sealing = false) (hr : c.runs = []) (ha : c.again = [])
  (hn : c.done + c.failed + 1 = c.n)
include hs hw hr ha hn

theorem runSeal_failed (hf : 0 < c.failed) : runSeal qn q c ans s = endSeal qn c q .state 0 s := by
  simp [runSeal, hs, hw, hr, ha, hn, hf]

theorem runSeal_here {slot : Nat} {e : Extent} (hf : c.failed = 0) (hc : recheck s q c = none)
    (hp : placeOf s (pubArgs c.desc).dest = .here slot e) : runSeal qn q c ans s = sealHere qn q c slot e s := by
  have hall : c.done + 1 = c.n := by omega
  simp [runSeal, hs, hw, hr, ha, hall, hf, hc, hp]
end

/-- Settles O35: the dispatcher's choice, then the end of a vendor item by what its work comes to, then the seal item. -/
theorem items : Obligations.Items := by
  unfold Obligations.Items
  refine ⟨fun p s => ⟨?held, fun ha hh hf => ⟨?idle, ?picked, ?lost⟩, ?context⟩, ?complete, ?sealing⟩
  case held => exact fun h => next_settle (dispatchOne_held h)
  case idle => exact fun hp => next_settle (dispatchOne_idle ha hh hf hp)
  case picked =>
    exact fun qn q c i core k hp hl => ⟨fun hc => next_settle (dispatchOne_serves ha hh hf hp hl hc),
      fun st hc => next_settle (dispatchOne_fails ha hh hf hp hl hc)⟩
  case lost => exact fun qn q c i core k hp hl => next_settle (dispatchOne_lost ha hh hf hp hl)
  case context => exact fun qn q c i core k hk hi _ => ⟨_, ctxOf_dispatchItem hk hi, rfl, rfl, rfl⟩
  case complete =>
    intro x ans s k q c hx hn hc
    refine ⟨fun h2 h4 => ?_, exec_itemComplete_reduce hx hn hc, exec_itemComplete_apply hx⟩
    have hexec := exec_itemComplete_vendor (ans := ans) hx hn hc h2 h4
    exact ⟨fun n u hw => hexec.trans (congrArg Host.Outcome.next (completeItem_done hw)),
      fun st d u hw => hexec.trans (congrArg Host.Outcome.next (completeItem_fails hw)),
      fun u hw => hexec.trans (congrArg Host.Outcome.next (completeItem_waits hw))⟩
  case sealing =>
    intro qn seq ans s q c hq hc hs hw hr ha
    have hexec := exec_publishCopySeal (ans := ans) hq hc
    refine ⟨fun hn => hexec.trans (next_settle (runSeal_early hn)), fun hn =>
      ⟨fun hf => hexec.trans (next_settle (runSeal_failed hs hw hr ha hn hf)), fun slot e hf hck hp => ?_⟩⟩
    have hhere := hexec.trans (next_settle (runSeal_here hs hw hr ha hn hf hck hp))
    exact ⟨fun hmay => hhere.trans (next_settle (sealHere_waits hmay)),
      fun hmay => hhere.trans (next_settle (sealHere_fails hmay))⟩

end Sys2Proof.Machine

/-! # Cores and formats (chapter 8): the proofs of their statements -/

namespace Sys2Proof.Machine

/-! ## Instructions that change more of the device than registers and slots (R212, R213, R450) -/

/-- A context is due by its own state, what it has queued, its hold of the lathe and the window of its source. -/
theorem due_eq {s t : State} (y : CtxId) (k : Ctx) (hb : latheBusy t y = latheBusy s y) (hl : holdsLathe t y = holdsLathe s y)
    (hq : t.cores.sources = s.cores.sources) : due t y k = due s y k := by
  have hw : ∀ p h, windowFull t p h = windowFull s p h := fun p h => by rw [windowFull, windowFull, sourceOf, sourceOf, hq]
  unfold holdsLathe at hl
  unfold due quiet
  rw [hb, hl]
  simp only [hw]

theorem codeLen_countCore (x : CtxId) (p e n : Nat) (c l : Option Nat) (s : State) (k : Ctx) :
    codeLen (countCore x p e n c l s) k = codeLen s k := by
  rcases countCore_cases x p e n c l s with ⟨o, h⟩ | h
  · rw [h]
    rfl
  · rw [h]

/-- Counting leaves a calm core calm. -/
theorem Calm.countCore {s : State} {core : Nat} (h : Calm s core) {x : CtxId} {p e n : Nat} {c l : Option Nat} :
    Calm (countCore x p e n c l s) core := by
  intro i hi k hk
  rw [ctxOf_countCore] at hk
  rw [due_congr _ k (congrArg _ (coreOf_countCore ..)) (sources_countCore ..)]
  exact h i hi k hk

/-- An instruction goes on where its effect leaves its core calm: the context has its new state, the device the effect's. -/
theorem insn_goes {i : Instr} {s t : State} {x : CtxId} {o : Ops} {k k1 : Ctx} {body : Ctx → State → IOut}
    (h : Issues i s x o k) (hb : body (issuing k) s = .go k1 t) (hi : k1.item = k.item) (hp : k1.pc = k.pc)
    (hf : k1.failing = k.failing) (hcode : codeLen t k = codeLen s k) (hcore : (coreOf t x.core).isSome) (hcalm : Calm t x.core) :
    insn i x o body s = .next (retire x k1 t) := by
  obtain ⟨_, _, _, _, _, _, _, _, hfail, _⟩ := canIssue_some h.able
  have hlen : k.pc + 1 < codeLen t k1 := ((codeLen_item t hi).trans hcode).symm ▸ h.more
  have hset : conclude x k (issuing k) s (.go k1 t) = retire x k1 t := by
    rw [conclude_go]
    show didIssue x k.item.part (setPc x (k.pc + 1) k1 t) = _
    rw [setPc_inside hlen, retire, hi, hp]
  rw [insn_issue h.toReady, hb, hset, follows_retire hcalm h.four hcore (hf.trans hfail)]

theorem Draws.refl (k : Ctx) (s : State) : Draws k s (k, s) := ⟨rfl, rfl, rfl, rfl, s.free, rfl⟩

/-- An effect that draws free values and counts an event of its core, for the item's partition (R450). -/
def DrawsCounted (x : CtxId) (k : Ctx) (s : State) (r : Ctx × State) : Prop :=
  ∃ ev n t, r.2 = countCore x k.item.part ev n none none t ∧ Draws k s (r.1, t)

theorem Draws.counted {k k' : Ctx} {s t : State} (h : Draws k s (k', t)) (x : CtxId) (ev n : Nat) :
    DrawsCounted x k s (k', countCore x k.item.part ev n none none t) := ⟨ev, n, t, rfl, h⟩

/-- The row of an instruction goes on where its own rule answers such an effect. -/
theorem goesOn_of_counted {c : Instr} {x : CtxId} {o : Ops} {hyp : Ctx → State → Prop} {eff : Ctx → State → Ctx × State}
    (body : Ctx → State → IOut) (hexec : ∀ s, exec c s = insn c x o body s)
    (hbody : ∀ k s, hyp k s → body (issuing k) s = .go (eff (issuing k) s).1 (eff (issuing k) s).2)
    (hcounted : ∀ k s, DrawsCounted x k s (eff k s)) : GoesOn c x o hyp eff := by
  intro s k hi hh
  obtain ⟨core, hc, _⟩ := canIssue_some hi.able
  obtain ⟨ev, n, t, hr, hd⟩ := hcounted (issuing k) s
  obtain ⟨f, rfl⟩ : ∃ f, t = { s with free := f } := hd.state
  have hcalm : Calm { s with free := f } x.core := hi.calm
  rw [hexec]
  refine insn_goes hi (hbody k s hh) hd.item hd.pc hd.failing ?_ ?_ ?_ <;> rw [hr]
  · exact codeLen_countCore ..
  · rw [coreOf_countCore]
    exact Option.isSome_of_eq_some (show coreOf s x.core = some core from hc)
  · exact hcalm.countCore

end Sys2Proof.Machine

namespace Sys2Proof.Machine

/-! ## Vector operands (R215, R220) -/

theorem draws_pairRead (r : Nat) (k : Ctx) (s : State) : Draws k s (pairRead r k s).2 :=
  (draws_vtRead r k s).trans (draws_vtRead (r + 1) _ _)

theorem draws_bLanes (o : Ops) (k : Ctx) (s : State) : Draws k s (bLanes o k s).2 := by
  unfold bLanes
  split
  · exact .refl k s
  · exact draws_pairRead o.b k s

/-- Lanes that are written to a pair, with their flags. -/
theorem Draws.pairWritten {k : Ctx} {s : State} {r : Ctx × State} (h : Draws k s r) (cs : List Conv) (d v : Nat) :
    Draws k s (pairWrite d v (raiseConvs r.1 cs), r.2) := h.keep _

/-- Lanes that are written to one register. -/
theorem Draws.vtWritten {k : Ctx} {s : State} {r : Ctx × State} (h : Draws k s r) (cs : List Conv) (d : Nat) (b : Block) :
    Draws k s (vtWrite d b (raiseConvs r.1 cs), r.2) := h.keep _

/-- A result that is written to a general register. -/
theorem Draws.gsetWritten {k : Ctx} {s : State} {r : Ctx × State} (h : Draws k s r) (cs : List Conv) (d : Nat) (v : Word64) :
    Draws k s (gset (raiseConvs r.1 cs) d v, r.2) :=
  h.keep _ (gset_item ..) (gset_pc ..) (gset_failing ..) (gset_tokens ..)

theorem length_lanesOf (f v : Nat) : (lanesOf f v).length = 2 * fmtPerTile f := by simp [lanesOf]

/-- Lanes that a third operand of zeros accompanies are the lanes of two operands. -/
theorem map_zip_zeros {α β γ : Type} (f : α → β → Nat → γ) (as : List α) (bs : List β) {n : Nat} (h : as.length ≤ n) :
    ((as.zip bs).zip (List.replicate n 0)).map (fun p => f p.1.1 p.1.2 p.2) = List.zipWith (fun a b => f a b 0) as bs := by
  induction as generalizing bs n with
  | nil => rfl
  | cons a as ih =>
    cases bs with
    | nil => rfl
    | cons b bs =>
      obtain ⟨m, rfl⟩ : ∃ m, n = m + 1 := ⟨n - 1, by simp at h; omega⟩
      rw [List.replicate_succ]
      exact congrArg (f a b 0 :: ·) (ih bs (Nat.le_of_succ_le_succ h))

/-- The operands of vector arithmetic: a format of the vector class and even registers below 8 (R215; log entry 76). -/
def VecOk (o : Ops) : Prop :=
  vecSpecOk o.f = true ∧ vtOk o.d = true ∧ vtOk o.a = true ∧ (o.i.getLsbD 0 = true ∨ vtOk o.b = true)

/-- The check that the row makes of them. -/
theorem vecOk_iff (o : Ops) :
    (!vecSpecOk o.f || !vtOk o.d || !vtOk o.a || !(o.i.getLsbD 0 || vtOk o.b)) = false ↔ VecOk o := by
  simp only [VecOk, Bool.or_eq_false_iff, Bool.not_eq_false', Bool.or_eq_true, and_assoc]

/-! ## Vector arithmetic (R199, R203, R205, R220) -/

section
variable {c : Instr} {x : CtxId} {o : Ops}

/-- Two operands, lane by lane. -/
theorem vecOp_goesOn {lane : Nat → Nat → Nat → Conv} (hexec : ∀ s, exec c s = vecOp c x o false lane s) (hok : VecOk o) :
    GoesOn c x o (fun _ _ => True) (fun k s =>
      let a := pairRead o.a k s
      let b := bLanes o a.2.1 a.2.2
      let cs := List.zipWith (fun a b => lane a b 0) (lanesOf (fsFmt o.f) a.1) b.1
      (pairWrite o.d (packLanes (fsFmt o.f) (cs.map (·.code))) (raiseConvs b.2.1 cs),
        countCore x k.item.part 0x02 1 none none b.2.2)) := by
  refine goesOn_of_counted _ hexec (fun k s _ => ?_) fun k s =>
    (((draws_pairRead o.a k s).trans (draws_bLanes o _ _)).pairWritten _ _ _).counted x 0x02 _
  have hlanes := fun v bs => map_zip_zeros lane (lanesOf (fsFmt o.f) v) bs (Nat.le_of_eq (length_lanesOf _ v))
  simp only [(vecOk_iff o).2 hok, Bool.false_eq_true, if_false, hlanes]
  rfl

/-- Two operands and the destination itself, lane by lane. -/
theorem vecOp_acc_goesOn {lane : Nat → Nat → Nat → Conv} (hexec : ∀ s, exec c s = vecOp c x o true lane s) (hok : VecOk o) :
    GoesOn c x o (fun _ _ => True) (fun k s =>
      let a := pairRead o.a k s
      let b := bLanes o a.2.1 a.2.2
      let d := pairRead o.d b.2.1 b.2.2
      let cs := (((lanesOf (fsFmt o.f) a.1).zip b.1).zip (lanesOf (fsFmt o.f) d.1)).map (fun p => lane p.1.1 p.1.2 p.2)
      (pairWrite o.d (packLanes (fsFmt o.f) (cs.map (·.code))) (raiseConvs d.2.1 cs),
        countCore x k.item.part 0x02 1 none none d.2.2)) := by
  refine goesOn_of_counted _ hexec (fun k s _ => ?_) fun k s =>
    ((((draws_pairRead o.a k s).trans (draws_bLanes o _ _)).trans (draws_pairRead o.d _ _)).pairWritten _ _ _).counted x 0x02 _
  simp only [(vecOk_iff o).2 hok, Bool.false_eq_true, if_false]
  rfl

/-- Operands that are reserved fail the item (R215). -/
theorem vecOp_fails {acc : Bool} {lane : Nat → Nat → Nat → Conv} (hexec : ∀ s, exec c s = vecOp c x o acc lane s)
    (hbad : ¬ VecOk o) : FailsItem c x o .opcode (fun _ _ => True) :=
  failsItem_of_body _ hexec fun _ _ _ => if_pos (Bool.not_eq_false _ ▸ mt (vecOk_iff o).1 hbad)

/-! ## The other vector instructions (R200, R205, R220) -/

theorem vsfu_goesOn (hf : fsFmt o.f = 0) (hs : vecSpecOk o.f = true) (hfn : o.i.toNat / 16 % 16 ≤ 7) (hd : vtOk o.d = true)
    (ha : vtOk o.a = true) :
    GoesOn (.vsfu x o) x o (fun _ _ => True) (fun k s =>
      let a := pairRead o.a k s
      let cs := (lanesOf 0 a.1).map (fun c => sfuLane (o.i.toNat / 16 % 16) (BitVec.ofNat 32 c))
      (pairWrite o.d (packLanes 0 (cs.map (·.code))) (raiseConvs a.2.1 cs),
        countCore x k.item.part 0x03 (if 5 ≤ o.i.toNat / 16 % 16 then 8 else 4) none none a.2.2)) := by
  refine goesOn_of_counted _ (fun _ => rfl) (fun k s _ => ?_) fun k s =>
    ((draws_pairRead o.a k s).pairWritten _ _ _).counted x 0x03 _
  have himm : immF o 7 4 = o.i.toNat / 16 % 16 := by simp [immF, fld, Nat.shiftRight_eq_div_pow]
  simp only [himm, hf, hs, hd, ha, Nat.not_lt.2 hfn]
  rfl

/-- The specifier that VCVT converts into. -/
theorem immF_specifier (o : Ops) : immF o 19 12 = o.i.toNat / 4096 := by
  have hlt := o.i.isLt
  simp only [immF, fld, Nat.shiftRight_eq_div_pow]
  omega

/-- VCVT's operand: the register A alone where it widens, else the pair. -/
def vcvtRead (o : Ops) (wf wg : Nat) (k : Ctx) (s : State) : Nat × Ctx × State :=
  if wf < wg then (let r := vtRead o.a k s; (r.1.toNat, r.2.1, r.2.2)) else pairRead o.a k s

theorem draws_vcvtRead (o : Ops) (wf wg : Nat) (k : Ctx) (s : State) : Draws k s (vcvtRead o wf wg k s).2 := by
  unfold vcvtRead
  split
  · exact draws_vtRead o.a k s
  · exact draws_pairRead o.a k s

/-- VCVT's result: the register D alone where it narrows, else the pair. -/
def vcvtWrite (o : Ops) (wf wg r : Nat) (k : Ctx) : Ctx :=
  if wg < wf then vtWrite o.d (BitVec.ofNat 2048 r) k else pairWrite o.d r k

theorem Draws.vcvtWritten {k : Ctx} {s : State} {r : Ctx × State} (h : Draws k s r) (o : Ops) (wf wg v : Nat) (cs : List Conv) :
    Draws k s (vcvtWrite o wf wg v (raiseConvs r.1 cs), r.2) := by
  unfold vcvtWrite
  split
  · exact h.vtWritten cs _ _
  · exact h.pairWritten cs _ _

theorem vcvt_goesOn {g : Byte} (hg : BitVec.ofNat 8 (o.i.toNat / 4096) = g) (hs : vecSpecOk o.f = true) (hsg : vecSpecOk g = true)
    (hd : vtOk o.d = true) (ha : vtOk o.a = true) :
    let wf := fmtBits (fsFmt o.f)
    let wg := fmtBits (fsFmt g)
    GoesOn (.vcvt x o) x o (fun _ _ => True) (fun k s =>
      let n := if wf = 16 ∧ wg = 16 then 256 else 128
      let a := vcvtRead o wf wg k s
      let cs := (numberFrom 0 ((List.range n).map (fun i => decodeFmt (fsFmt o.f) (a.1 / 2 ^ (wf * i) % 2 ^ wf)))).map (fun p =>
        convert g p.2 (drawFor g k.seed p.1))
      (vcvtWrite o wf wg (packLanes (fsFmt g) (cs.map (·.code))) (raiseConvs a.2.1 cs),
        countCore x k.item.part 0x02 1 none none a.2.2)) := by
  intro wf wg
  refine goesOn_of_counted _ (fun _ => rfl) (fun k s _ => ?_) fun k s =>
    ((draws_vcvtRead o wf wg k s).vcvtWritten o wf wg _ _).counted x 0x02 _
  simp only [immF_specifier, hg, hs, hsg, hd, ha, Nat.shiftRight_eq_div_pow]
  rfl

/-- A tree over the 128 lanes, into a general register. -/
theorem vecReduce_goesOn {f : Word32 → Word32 → Conv} (hexec : ∀ s, exec c s = vecReduce c x o f s) (ha : vtOk o.a = true) :
    GoesOn c x o (fun _ _ => True) (fun k s =>
      let a := pairRead o.a k s
      let r := treeFold f 7 ((lanesOf 0 a.1).map (BitVec.ofNat 32)) []
      (gset (raiseConvs a.2.1 r.2) o.d (r.1.zeroExtend 64), countCore x k.item.part 0x02 1 none none a.2.2)) := by
  refine goesOn_of_counted _ hexec (fun k s _ => ?_) fun k s =>
    ((draws_pairRead o.a k s).gsetWritten _ _ _).counted x 0x02 _
  simp only [ha]
  rfl

theorem vbcast_goesOn (hs : vecSpecOk o.f = true) (hd : vtOk o.d = true) :
    GoesOn (.vbcast x o) x o (fun _ _ => True) (fun k s =>
      (pairWrite o.d (packLanes (fsFmt o.f) (List.replicate (2 * fmtPerTile (fsFmt o.f))
          ((gget k o.c).toNat % 2 ^ fmtBits (fsFmt o.f)))) k,
        countCore x k.item.part 0x02 1 none none s)) := by
  refine goesOn_of_counted _ (fun _ => rfl) (fun k s _ => ?_) fun k s => ((Draws.refl k s).keep _).counted x 0x02 _
  simp only [hs, hd]
  rfl
end

/-! ## The rows of vector instructions -/

section
variable (x : CtxId) (o : Ops) (s : State)

theorem exec_vadd : exec (.vadd x o) s = vecOp (.vadd x o) x o false (laneOp o.f fun a b _ => fadd a b) s := rfl
theorem exec_vsub : exec (.vsub x o) s = vecOp (.vsub x o) x o false (laneOp o.f fun a b _ => fadd a (fneg b)) s := rfl
theorem exec_vmul : exec (.vmul x o) s = vecOp (.vmul x o) x o false (laneOp o.f fun a b _ => fmul a b) s := rfl
theorem exec_vmin : exec (.vmin x o) s = vecOp (.vmin x o) x o false (fun a b _ => laneMinMax o.f false a b) s := rfl
theorem exec_vmax : exec (.vmax x o) s = vecOp (.vmax x o) x o false (fun a b _ => laneMinMax o.f true a b) s := rfl
theorem exec_vfma : exec (.vfma x o) s = vecOp (.vfma x o) x o true (laneOp o.f fun a b c => fadd (fmul a b) c) s := rfl
theorem exec_vrsum :
    exec (.vrsum x o) s = vecReduce (.vrsum x o) x o (fun u w => laneOp 0 (fun p q _ => fadd p q) u.toNat w.toNat 0) s := rfl
theorem exec_vrmax :
    exec (.vrmax x o) s = vecReduce (.vrmax x o) x o (fun u w => laneMinMax 0 true u.toNat w.toNat) s := rfl
end

/-- Settles O13: vector arithmetic is `vecOp`, lane by lane; each other instruction by its own rule. -/
theorem vectorResults : Obligations.VectorResults := by
  unfold Obligations.VectorResults
  refine ⟨fun x o => ⟨fun hok => ?arithmetic, fun hbad => ?reserved⟩, fun x o => ⟨?vsfu, ?vcvt, fun ha => ?tree, ?vbcast⟩⟩
  case arithmetic =>
    have hadd := vecOp_goesOn (exec_vadd x o) hok
    have hsub := vecOp_goesOn (exec_vsub x o) hok
    have hmul := vecOp_goesOn (exec_vmul x o) hok
    have hmin := vecOp_goesOn (exec_vmin x o) hok
    have hmax := vecOp_goesOn (exec_vmax x o) hok
    have hfma := vecOp_acc_goesOn (exec_vfma x o) hok
    exact ⟨hadd, hsub, hmul, hmin, hmax, hfma⟩
  case reserved =>
    exact ⟨vecOp_fails (exec_vadd x o) hbad, vecOp_fails (exec_vsub x o) hbad, vecOp_fails (exec_vmul x o) hbad,
      vecOp_fails (exec_vfma x o) hbad, vecOp_fails (exec_vmin x o) hbad, vecOp_fails (exec_vmax x o) hbad⟩
  case vsfu => exact vsfu_goesOn
  case vcvt => exact vcvt_goesOn rfl
  case tree => exact ⟨vecReduce_goesOn (exec_vrsum x o) ha, vecReduce_goesOn (exec_vrmax x o) ha⟩
  case vbcast => exact vbcast_goesOn

end Sys2Proof.Machine

namespace Sys2Proof.Machine

/-! ## Instructions that wait (R212, R221) -/

/-- After a change of a context's own state that leaves it waiting, nothing follows. -/
theorem follows_waits {s t : State} {x : CtxId} {k : Ctx} (hs : Calm s x.core) (h4 : x.ctx < 4)
    (hx : ctxOf t x = some k) (hd : due s x k = false) (hy : ∀ y, y ≠ x → ctxOf t y = ctxOf s y)
    (hc : (coreOf t x.core).map latheView = (coreOf s x.core).map latheView)
    (hq : t.cores.sources = s.cores.sources) : follows x t = t := by
  have hcalm : Calm t x.core := by
    intro i hi k' hk'
    rw [due_congr { core := x.core, ctx := i } k' hc hq]
    by_cases h : ({ core := x.core, ctx := i } : CtxId) = x
    · rw [h, hx] at hk'
      rw [h, ← Option.some.inj hk']
      exact hd
    · rw [hy _ h] at hk'
      exact hs i hi k' hk'
  rw [follows, wakeCtx_idle (hcalm x.ctx h4), wakeCore_calm hcalm]

section
variable {i : Instr} {s : State} {x : CtxId} {o : Ops} {k : Ctx} {body : Ctx → State → IOut} {w : CtxWait}

/-- An instruction that is issued and waits for what has not happened. -/
theorem insn_waits (h : Ready i s x o k) (hb : body (issuing k) s = .stay w (issuing k) s)
    (hd : due s x { issuing k with wait := some w } = false) : insn i x o body s = .next (waiting x w (issuing k) s) := by
  obtain ⟨c, hc, _⟩ := canIssue_some h.able
  have hcore : (coreOf s x.core).isSome := Option.isSome_of_eq_some hc
  rw [insn_issue h, hb, conclude_stay]
  refine congrArg Host.Outcome.next (follows_waits h.calm h.four ?_ hd (fun y hy => ?_) ?_ ?_)
  · rw [ctxOf_didIssue, ctxOf_putCtx_same _ _ _ hcore]
  · rw [ctxOf_didIssue, ctxOf_putCtx_ne _ _ _ _ hy]
  · rw [latheView_didIssue, latheView_putCtx]
  · rw [sources_didIssue, sources_putCtx]

/-- An instruction that is not issued for want of room. -/
theorem insn_held (h : Ready i s x o k) (hb : body (issuing k) s = .hold w)
    (hd : due s x { k with wait := some w } = false) : insn i x o body s = .next (putCtx x { k with wait := some w } s) := by
  obtain ⟨c, hc, _⟩ := canIssue_some h.able
  rw [insn_issue h, hb]
  exact congrArg Host.Outcome.next (follows_waits h.calm h.four (ctxOf_putCtx_same _ _ _ (Option.isSome_of_eq_some hc)) hd
    (fun y hy => ctxOf_putCtx_ne _ _ _ _ hy) (latheView_putCtx ..) (sources_putCtx ..))

/-- An instruction of the context that holds the lathe has its effect (R229). -/
theorem latheInsn_of_holds (h : Ready i s x o k) (hl : holdsLathe s x = true) :
    latheInsn i x o body s = insn i x o body s := by
  rw [latheInsn, insn_issue h, insn_issue h, if_pos hl]
end

end Sys2Proof.Machine

namespace Sys2Proof.Machine

/-! ## The queue of the lathe (R228, R229) -/

theorem conflicts_of_writes {rs ws : List Span} {p : List Span × List Span} (h : conflicts rs ws p = false) :
    conflicts [] ws p = false := by
  simp only [conflicts, Bool.or_eq_false_iff, List.any_eq_false, List.nil_append] at h ⊢
  obtain ⟨hw, hr⟩ := h
  refine ⟨fun a ha => ?_, hr⟩
  have hall := hw a ha
  simp only [List.any_eq_true, List.mem_append, not_exists, not_and] at hall ⊢
  exact fun b hb => hall b (.inr hb)

/-- A change of a core that keeps it as it is. -/
theorem modCore_eq_self {n : Nat} {f : Core → Core} {s : State} (h : ∀ c ∈ s.cores.cores, c.1 = n → f c.2 = c.2) :
    modCore n f s = s := by
  have hcores : tmod s.cores.cores n f = s.cores.cores := by
    refine (List.map_congr_left fun c hc => ?_).trans (List.map_id _)
    by_cases hn : c.1 = n
    · rw [if_pos hn, h c hc hn]
      rfl
    · rw [if_neg hn]
      rfl
  rw [modCore, hcores]

/-- Where nothing outstanding touches the slots that an operation writes, none becomes wild. -/
theorem markWild_clear {rs ws : List Span} {x : CtxId} {k : Ctx} {s : State} (h : Clear rs ws x k s) :
    markWild ws x k s = (k, s) := by
  obtain ⟨htok, hlathe⟩ := h
  have htokens : k.tokens.map (fun t => (t.1, if conflicts [] ws (opSpans t.2.op) then { t.2 with wild := true } else t.2)) =
      k.tokens := by
    refine (List.map_congr_left fun t ht => ?_).trans (List.map_id _)
    rw [conflicts_of_writes (htok t ht)]
    rfl
  refine Prod.ext (by rw [markWild, htokens]) (modCore_eq_self fun c hc hn => ?_)
  have hqueue : c.2.latheQ.map (fun e =>
      if c.2.holder = some x.ctx ∧ !e.dead ∧ conflicts [] ws (latheSpans e.op) then { e with wild := true } else e) =
      c.2.latheQ := by
    refine (List.map_congr_left fun e he => if_neg ?_).trans (List.map_id _)
    rintro ⟨hhold, hdead, hconf⟩
    rw [conflicts_of_writes (hlathe c hc hn hhold e he (by simpa using hdead))] at hconf
    cases hconf
  rw [hqueue]

/-- A core with one more operation queued. -/
def latheQueued (op : LatheOp) (y : Core) : Core := { y with latheQ := y.latheQ ++ [{ op := op, wild := false }] }

/-- The steps of an operation counted (R190, R450). -/
def stepsCounted (x : CtxId) (k : Ctx) (op : LatheOp) (c : Core) (s : State) : State :=
  if latheSteps op c = 0 then s else countCore x k.item.part 0x01 (latheSteps op c) none none s

theorem stepsCounted_cases (x : CtxId) (k : Ctx) (op : LatheOp) (c : Core) (s : State) :
    stepsCounted x k op c s = s ∨ ∃ p n, stepsCounted x k op c s = countCore x p 0x01 n none none s := by
  unfold stepsCounted
  split
  · exact .inl rfl
  · exact .inr ⟨_, _, rfl⟩

section
variable {s : State} {x : CtxId} {k : Ctx} {c : Core} {op : LatheOp}

/-- An operation of which nothing outstanding touches the slots is queued, and nothing else changes (R228). -/
theorem enqueue_clear (hc : coreOf s x.core = some c) (h : Clear (latheSpans op).1 (latheSpans op).2 x k s) :
    enqueue x op k s = (k, modCore x.core (latheQueued op) (stepsCounted x k op c s)) := by
  simp only [enqueue, hazard_of_clear h rfl rfl, markWild_clear h, hc]
  rfl

theorem queueLathe_clear (hc : coreOf s x.core = some c) (hb : latheBusy s x < 8)
    (h : Clear (latheSpans op).1 (latheSpans op).2 x k s) :
    queueLathe x op k s = .go k (modCore x.core (latheQueued op) (stepsCounted x k op c s)) := by
  rw [queueLathe, if_neg (Nat.not_le.2 hb), enqueue_clear hc h]

theorem holdsLathe_of_holder (hc : coreOf s x.core = some c) (hh : c.holder = some x.ctx) (hr : c.releasing = false) :
    holdsLathe s x = true := by
  simp [holdsLathe, hc, hh, hr]

/-- What the holder queues lets no context go on: the others have nothing queued, and it waits for nothing. -/
theorem calm_latheQueued (hs : Calm s x.core) (hk : ctxOf s x = some k) (hw : k.wait = none) (hf : k.failing = none)
    (hc : coreOf s x.core = some c) (hh : c.holder = some x.ctx) : Calm (modCore x.core (latheQueued op) s) x.core := by
  intro i hi k' hk'
  have hctx : ctxOf s { core := x.core, ctx := i } = some k' := by
    simpa only [ctxOf, coreOf_modCore_same, hc, Option.map_some, latheQueued] using hk'
  by_cases hx : i = x.ctx
  · subst hx
    rw [Option.some.inj (hctx.symm.trans hk)]
    exact due_idle _ _ _ hw hf
  · have hne : c.holder ≠ some i := fun h => hx (Option.some.inj (h.symm.trans hh))
    refine (due_eq (s := s) (t := modCore x.core (latheQueued op) s) _ k' ?_ ?_ rfl).trans (hs i hi k' hctx)
    · simp [latheBusy, hc, latheQueued, hne]
    · simp [holdsLathe, hc, latheQueued]

/-- The row of an instruction of the holder that queues an operation. -/
theorem latheInsn_queues {i : Instr} {o : Ops} {k1 : Ctx} {body : Ctx → State → IOut} (h : Issues i s x o k)
    (hc : coreOf s x.core = some c) (hh : c.holder = some x.ctx) (hr : c.releasing = false)
    {u : State} (hu : stepsCounted x (issuing k) op c s = u)
    (hb : body (issuing k) s = .go k1 (modCore x.core (latheQueued op) u))
    (hi : k1.item = k.item) (hp : k1.pc = k.pc) (hf : k1.failing = k.failing) :
    latheInsn i x o body s = .next (retire x k1 (modCore x.core (latheQueued op) u)) := by
  have hcases := hu ▸ stepsCounted_cases x (issuing k) op c s
  obtain ⟨_, _, hctx, _, _, _, _, hwait, hfail, _⟩ := canIssue_some h.able
  rw [latheInsn_of_holds h.toReady (holdsLathe_of_holder hc hh hr)]
  have hcore : coreOf u x.core = some c := by rcases hcases with rfl | ⟨p, n, rfl⟩ <;> simpa using hc
  have hctxu : ctxOf u x = some k := by rcases hcases with rfl | ⟨p, n, rfl⟩ <;> simpa using hctx
  have hcalm : Calm u x.core := by
    rcases hcases with rfl | ⟨p, n, rfl⟩
    · exact h.calm
    · exact h.calm.countCore
  have hcode : codeLen u k = codeLen s k := by
    rcases hcases with rfl | ⟨p, n, rfl⟩
    · rfl
    · exact codeLen_countCore ..
  refine insn_goes h hb hi hp hf hcode ?_ (calm_latheQueued hcalm hctxu hwait hfail hcore hh)
  rw [coreOf_modCore_same, hcore]
  rfl
end

end Sys2Proof.Machine

namespace Sys2Proof.Machine

/-! ## What a lathe instruction of the holder queues (R189, R190, R219, R226, R229) -/

theorem spansOk_iff (k : Ctx) (l : List Span) : spansOk k l = true ↔ ∀ p ∈ l, p.2 = 0 ∨ p.1 + p.2 ≤ k.slotCount := by
  simp [spansOk]

theorem kOk_iff (v : Word64) : kOk v = true ↔ v.toNat % 32 = 0 ∧ 32 ≤ v.toNat ∧ v.toNat ≤ 32768 := by
  simp [kOk, and_assoc]

/-- A pass takes steps (R190). -/
theorem latheSteps_pass_ne_zero {kk m : Nat} (a b sa sb : Nat) (fa fb : Byte) (c : Core) (hk : 0 < kk) (hm : 0 < m) :
    latheSteps (.pass kk a b sa sb m fa fb) c ≠ 0 := by
  have hsteps : 0 < passSteps kk m fa fb := by
    have hdiv : ∀ n, 0 < n → 0 < cdiv m n * kk := fun n hn =>
      Nat.mul_pos (by unfold cdiv; exact Nat.div_pos (by omega) hn) hk
    simp only [passSteps]
    split
    · exact hk
    · split <;> exact hdiv _ (by decide)
  simp only [latheSteps]
  omega

section
variable {s : State} {x : CtxId} {o : Ops} {k : Ctx} {c : Core} (hc : coreOf s x.core = some c)
  (hh : c.holder = some x.ctx) (hr : c.releasing = false)
include hc hh hr

theorem exec_lzero (hb : latheBusy s x < 8) (h : Issues (.lzero x o) s x o k) :
    exec (.lzero x o) s = .next (retire x (issuing k) (modCore x.core (latheQueued .zero) s)) := by
  have hclear : Clear [] [] x (issuing k) s := ⟨fun _ _ => by simp [conflicts], fun _ _ _ _ _ _ _ => by simp [conflicts]⟩
  exact latheInsn_queues h hc hh hr rfl (queueLathe_clear hc hb hclear) rfl rfl rfl

/-- A ninth operation waits for room. -/
theorem exec_lzero_full (hb : latheBusy s x = 8) (h : Issues (.lzero x o) s x o k) :
    exec (.lzero x o) s = .next (putCtx x { k with wait := some .room } s) := by
  obtain ⟨_, _, _, _, _, _, _, _, hfail, _⟩ := canIssue_some h.able
  refine (latheInsn_of_holds h.toReady (holdsLathe_of_holder hc hh hr)).trans
    (insn_held h.toReady (if_pos (Nat.le_of_eq hb.symm)) ?_)
  simp [due, hfail, hb]

theorem exec_lld (hb : latheBusy s x < 8) (h : Issues (.lld x o) s x o k) {op : LatheOp}
    (hop : op = .load (o.i.toNat % 128 + 1) (gget k o.b).toNat)
    (hclear : Clear (latheSpans op).1 [] x k s) (hin : ∀ p ∈ (latheSpans op).1, p.2 = 0 ∨ p.1 + p.2 ≤ k.slotCount) :
    exec (.lld x o) s = .next (retire x (issuing k) (modCore x.core (latheQueued op) s)) := by
  subst hop
  refine latheInsn_queues h hc hh hr rfl ?_ rfl rfl rfl
  have himm : immF o 6 0 = o.i.toNat % 128 := by simp [immF, fld]
  have hspans := (spansOk_iff (issuing k) _).2 hin
  simp only [himm, gget_issuing, hspans, Bool.not_true, Bool.false_eq_true, if_false]
  exact queueLathe_clear (k := issuing k) hc hb hclear

theorem exec_lpass (hb : latheBusy s x < 8) (h : Issues (.lpass x o) s x o k) {op : LatheOp} {fb : Byte}
    (hfb : fb = BitVec.ofNat 8 (o.i.toNat / 4096))
    (hop : op = .pass (gget k o.d).toNat (gget k o.a).toNat (gget k o.b).toNat ((gget k o.c).toNat % 65536)
      ((gget k o.c).toNat / 65536 % 65536) (o.i.toNat / 32 % 128 + 1) o.f fb)
    (hk : kOk (gget k o.d) = true) (hpair : pairOk o.f fb = true)
    (hin : ∀ p ∈ (latheSpans op).1, p.2 = 0 ∨ p.1 + p.2 ≤ k.slotCount) (hclear : Clear (latheSpans op).1 [] x k s) :
    exec (.lpass x o) s = .next (retire x (issuing k) (modCore x.core (latheQueued op)
      (countCore x k.item.part 0x01 (latheSteps op c) none none s))) := by
  have hsteps : latheSteps op c ≠ 0 :=
    hop ▸ latheSteps_pass_ne_zero _ _ _ _ _ _ _ (Nat.lt_of_lt_of_le (by decide) ((kOk_iff _).1 hk).2.1) (Nat.succ_pos _)
  have hcount : stepsCounted x (issuing k) op c s = countCore x k.item.part 0x01 (latheSteps op c) none none s :=
    if_neg hsteps
  have hclear' : Clear (latheSpans op).1 (latheSpans op).2 x (issuing k) s := by
    subst hop
    exact hclear
  refine latheInsn_queues h hc hh hr hcount ?_ rfl rfl rfl
  have hrows : immF o 11 5 = o.i.toNat / 32 % 128 := by simp [immF, fld, Nat.shiftRight_eq_div_pow]
  have hsa : fld (gget k o.c) 15 0 = (gget k o.c).toNat % 65536 := by simp [fld]
  have hsb : fld (gget k o.c) 31 16 = (gget k o.c).toNat / 65536 % 65536 := by simp [fld, Nat.shiftRight_eq_div_pow]
  have hspans := (spansOk_iff (issuing k) _).2 hin
  simp only [immF_specifier, hrows, gget_issuing, hsa, hsb, ← hfb, ← hop, hk, hpair, hspans, Bool.not_true, Bool.or_self,
    Bool.false_eq_true, if_false]
  rw [← hcount]
  exact queueLathe_clear hc hb hclear'

/-- The entry of the token table that LST takes (R226). -/
def lstToken (k : Ctx) : Token :=
  { serial := k.nextSerial + 1, op := .lathe, pc := k.pc, wild := false, sent := none, done := none }

theorem exec_lst (hb : latheBusy s x < 8) (h : Issues (.lst x o) s x o k) {op : LatheOp} {e : Nat}
    (hop : op = .store (o.i.toNat % 128 + 1) (gget k o.b).toNat (gget k o.c).toNat o.f e k.seed)
    (he : freeEntry k = some e) (hf : fsOk o.f = true)
    (hin : ∀ p ∈ (latheSpans op).2, p.2 = 0 ∨ p.1 + p.2 ≤ k.slotCount) (hclear : Clear [] (latheSpans op).2 x k s) :
    exec (.lst x o) s = .next (retire x
      { tokened o e (issuing k) with tokens := tset k.tokens e (lstToken k) }
      (modCore x.core (latheQueued op) s)) := by
  have hcount : stepsCounted x (issuing k) op c s = s := by
    subst hop
    rfl
  have hclear' : Clear (latheSpans op).1 (latheSpans op).2 x (issuing k) s := by
    subst hop
    exact hclear
  refine latheInsn_queues h hc hh hr hcount ?_ (gset_item ..) (gset_pc ..) (gset_failing ..)
  have himm : immF o 6 0 = o.i.toNat % 128 := by simp [immF, fld]
  have hop' : .store (o.i.toNat % 128 + 1) (gget k o.b).toNat (gget k o.c).toNat o.f e (issuing k).seed = op := hop.symm
  have hspans : spansOk (issuing k)
      (latheSpans (.store (o.i.toNat % 128 + 1) (gget k o.b).toNat (gget k o.c).toNat o.f 0 (issuing k).seed)).2 = true := by
    subst hop
    exact (spansOk_iff (issuing k) _).2 hin
  have hqueue := hcount ▸ enqueue_clear hc hclear'
  have hfree : freeEntry (issuing k) = some e := he
  simp only [himm, gget_issuing, hf, hspans, Nat.not_le.2 hb, hfree, hop', hqueue, gset_tokens, Bool.not_true,
    Bool.false_eq_true, if_false]
  rfl

theorem exec_lsync (h : Issues (.lsync x o) s x o k) (hb : latheBusy s x ≤ o.i.toNat % 16) :
    exec (.lsync x o) s = .next (retire x (issuing k) s) := by
  obtain ⟨_, _, _, _, _, _, _, _, hfail, _⟩ := canIssue_some h.able
  have himm : immF o 3 0 = o.i.toNat % 16 := by simp [immF, fld]
  exact (latheInsn_of_holds h.toReady (holdsLathe_of_holder hc hh hr)).trans
    (insn_go h (if_pos (himm ▸ hb)) rfl rfl hfail)

theorem exec_lsync_waits (h : Issues (.lsync x o) s x o k) (hb : o.i.toNat % 16 < latheBusy s x) :
    exec (.lsync x o) s = .next (waiting x (.lsync (o.i.toNat % 16)) (issuing k) s) := by
  obtain ⟨_, _, _, _, _, _, _, _, hfail, _⟩ := canIssue_some h.able
  have himm : immF o 3 0 = o.i.toNat % 16 := by simp [immF, fld]
  refine (latheInsn_of_holds h.toReady (holdsLathe_of_holder hc hh hr)).trans (insn_waits h.toReady ?_ ?_)
  · rw [himm, if_neg (Nat.not_le.2 hb)]
  · have hidle : (issuing k).failing = none := hfail
    simp [due, hidle, hb]
end

end Sys2Proof.Machine

namespace Sys2Proof.Machine

/-! ## The first queued operation completes (R191, R229, R230) -/

/-- A core whose first queued operation has left it an accumulator: released and with nothing more queued, its lathe is
granted on. -/
def latheEnds (rest : List LatheEntry) (acc : Table Block) (y : Core) : Core :=
  if rest.isEmpty && y.releasing then grantNext { y with acc := acc, latheQ := rest } else { y with acc := acc, latheQ := rest }

/-- What an operation does to the context that queued it, to the accumulator and to the state. -/
def runLathe (e : LatheEntry) (k : Ctx) (c : Core) (s : State) : Ctx × Core × State :=
  match e.op with
  | .zero => (k, { c with acc := [] }, s)
  | .pass kk a b sa sb m fa fb => runPass kk a b sa sb m fa fb e.wild k c s
  | .store rows slot scale f entry seed =>
    let r := runStore rows slot scale f entry seed e.wild k c s
    (r.1, c, r.2)
  | .load rows slot => runLoad rows slot e.wild k c s

theorem tokens_slotWrites (n : Nat) (ts : List Tile) (k : Ctx) : (slotWrites n ts k).tokens = k.tokens := by
  induction ts generalizing n k with
  | nil => rfl
  | cons t ts ih => exact ih ..

/-- LST frees its token (R226). -/
theorem tokens_runStore (rows slot scale : Nat) (f : Byte) (entry : Nat) (seed : Word64) (k : Ctx) (c : Core) (s : State) :
    (runStore rows slot scale f entry seed false k c s).1.tokens = tdel k.tokens entry :=
  (tokens_slotWrites ..).trans (tokens_slotWrites ..)

section
variable {n : Nat} {s : State} {c : Core} (hc : coreOf s n = some c)
include hc

theorem exec_latheOpComplete (hr : c.recovering = false) {u : State} (hu : latheDone n s = u) :
    exec (.latheOpComplete n) s = .next (wakeCore n u) := by
  show execLatheOpComplete n s = _
  rw [execLatheOpComplete, if_neg (by simp [hc, hr]), hu]

variable {h : Nat} {e : LatheEntry} {rest : List LatheEntry} (hh : c.holder = some h) (hq : c.latheQ = e :: rest)
include hh hq

/-- What an ended item has left queued changes nothing. -/
theorem latheDone_dead (hd : e.dead = true) : latheDone n s = modCore n (latheEnds rest c.acc) s := by
  simp only [latheDone, hc, hh, hq, hd, if_true]
  rfl

theorem latheDone_live {k : Ctx} (hd : e.dead = false) (hk : tget c.ctxs h = some k) :
    latheDone n s = putCtx { core := n, ctx := h } (runLathe e k c s).1
      (modCore n (latheEnds rest (runLathe e k c s).2.1.acc) (runLathe e k c s).2.2) := by
  have hx : ctxOf s { core := n, ctx := h } = some k := by simpa only [ctxOf, hc] using hk
  obtain ⟨op, wild, dead⟩ := e
  obtain rfl : dead = false := hd
  simp only [latheDone, hc, hh, hq, hx, Bool.false_eq_true, if_false]
  cases op <;> rfl
end

/-- Settles O12: what the holder queues, instruction by instruction; then what the first queued operation leaves. -/
theorem latheSteps_holds : Obligations.LatheSteps := by
  unfold Obligations.LatheSteps
  refine ⟨fun x o s k c hc hh hr => ⟨fun hb => ⟨?zero, ?load, ?pass, ?store⟩, ?full, fun hi => ⟨?sync, ?syncWaits⟩⟩,
    fun n h s c e rest hc hr hh hq => ⟨?dead, fun k hd hw hk => ?live⟩⟩
  case zero => exact exec_lzero hc hh hr hb
  case load => exact fun hi => exec_lld hc hh hr hb hi rfl
  case pass =>
    intro hi h32 hlow hhigh
    exact exec_lpass hc hh hr hb hi rfl rfl ((kOk_iff _).2 ⟨h32, hlow, hhigh⟩)
  case store => exact fun e hi => exec_lst hc hh hr hb hi rfl
  case full => exact exec_lzero_full hc hh hr
  case sync => exact exec_lsync hc hh hr hi
  case syncWaits => exact exec_lsync_waits hc hh hr hi
  case dead => exact fun hd => exec_latheOpComplete hc hr (latheDone_dead hc hh hq hd)
  case live =>
    have hexec := exec_latheOpComplete hc hr (latheDone_live hc hh hq hd hk)
    obtain ⟨op, wild, dead⟩ := e
    obtain rfl : wild = false := hw
    refine ⟨?_, ?_, ?_, ?_⟩
    · rintro rfl
      exact hexec
    · rintro kk a b sa sb m fa fb rfl
      exact hexec
    · rintro rows slot rfl
      exact hexec
    · rintro rows slot scale f entry seed rfl
      exact ⟨hexec, tokens_runStore ..⟩

end Sys2Proof.Machine

/-! # Core programs (chapter 9): the proofs of their statements -/

namespace Sys2Proof.Machine

/-! ## Words of code (R213, R214) -/

/-- The operation of a CLASS and OP on operand fields (R216 to R221). -/
def operation (cls op : Nat) (x : CtxId) (o : Ops) : Option Instr :=
  match cls with
  | 0 => scalarOf x o op
  | 1 => branchOf x o op
  | 2 => tileOf x o op
  | 3 => latheOf x o op
  | 4 => vectorOf x o op
  | 5 => syncOf x o op
  | 6 => systemOf x o op
  | _ => none

theorem insnOf_eq_operation (w : Word64) (x : CtxId) : insnOf w x = operation (wClass w) (wOp w) x (wOps w) := rfl

/-- The instructions of a core are the operations of the seven classes. -/
theorem coreInstrs_eq (x : CtxId) (o : Ops) : coreInstrs x o =
    (List.range 7).flatMap fun cls => (List.range 43).filterMap fun op => operation cls op x o := rfl

theorem mem_coreInstrs_iff {x : CtxId} {o : Ops} {c : Instr} :
    c ∈ coreInstrs x o ↔ ∃ cls < 7, ∃ op < 43, operation cls op x o = some c := by
  simp only [coreInstrs_eq, List.mem_flatMap, List.mem_filterMap, List.mem_range]

/-- An operation is spelt by its CLASS and OP, which lie in their ranges. -/
theorem encodeInsn_operation {cls op : Nat} {x : CtxId} {o : Ops} {c : Instr} (h : operation cls op x o = some c) :
    encodeInsn c = some (insnWord cls op o) ∧ cls < 7 ∧ op < 43 := by
  unfold operation scalarOf branchOf tileOf latheOf vectorOf syncOf systemOf at h
  split at h
  case h_8 => cases h
  all_goals split at h <;> cases h <;> exact ⟨rfl, by decide, by decide⟩

theorem Ops.wf_iff (o : Ops) : o.wf = true ↔ o.pred < 8 ∧ o.d < 32 ∧ o.a < 32 ∧ o.b < 32 ∧ o.c < 32 := by
  simp only [Ops.wf, Bool.and_eq_true, decide_eq_true_eq, and_assoc]

/-- A field of a number, and what lies above it. -/
theorem shiftRight_eq_field (n lo w : Nat) : n >>> lo = (n >>> (lo + w)) * 2 ^ w + bitsOf n lo w := by
  rw [bitsOf, Nat.shiftRight_add, Nat.shiftRight_eq_div_pow _ w, Nat.div_add_mod']

/-- A number of 64 bits is the sum of its fields. -/
theorem eq_sum_of_fields {n : Nat} (h : n < 2 ^ 64) :
    n = bitsOf n 60 4 * 2 ^ 60 + bitsOf n 59 1 * 2 ^ 59 + bitsOf n 56 3 * 2 ^ 56 + bitsOf n 48 8 * 2 ^ 48 + bitsOf n 43 5 * 2 ^ 43 +
      bitsOf n 38 5 * 2 ^ 38 + bitsOf n 33 5 * 2 ^ 33 + bitsOf n 28 5 * 2 ^ 28 + bitsOf n 20 8 * 2 ^ 20 + bitsOf n 0 20 := by
  have htop : n >>> 64 = 0 := by rw [Nat.shiftRight_eq_div_pow]; exact Nat.div_eq_of_lt h
  calc n = (n >>> 20) * 2 ^ 20 + bitsOf n 0 20 := shiftRight_eq_field n 0 20
    _ = _ := by
      rw [shiftRight_eq_field n 20 8, shiftRight_eq_field n 28 5, shiftRight_eq_field n 33 5, shiftRight_eq_field n 38 5,
        shiftRight_eq_field n 43 5, shiftRight_eq_field n 48 8, shiftRight_eq_field n 56 3, shiftRight_eq_field n 59 1,
        shiftRight_eq_field n 60 4, htop]
      omega

/-- The negation of the guard is bit 59. -/
theorem pneg_eq_field (n : Nat) : (if bitOf n 59 then 2 ^ 59 else 0) = bitsOf n 59 1 * 2 ^ 59 := by
  have hbit : bitsOf n 59 1 = (bitOf n 59).toNat := by
    rw [bitOf, Nat.toNat_testBit, bitsOf, Nat.shiftRight_eq_div_pow, Nat.pow_one]
  rw [hbit]
  cases bitOf n 59 <;> rfl

/-- The fields of a word make it up. -/
theorem insnWord_fields (w : Word64) : insnWord (wClass w) (wOp w) (wOps w) = w := by
  have hf : bitsOf w.toNat 20 8 % 2 ^ 8 = bitsOf w.toNat 20 8 := Nat.mod_mod _ _
  have hi : bitsOf w.toNat 0 20 % 2 ^ 20 = bitsOf w.toNat 0 20 := Nat.mod_mod _ _
  apply BitVec.eq_of_toNat_eq
  unfold insnWord wClass wOp wOps
  rw [BitVec.toNat_ofNat, BitVec.toNat_ofNat, BitVec.toNat_ofNat, pneg_eq_field, hf, hi, ← eq_sum_of_fields w.isLt,
    Nat.mod_eq_of_lt w.isLt]

theorem wOps_wf (w : Word64) : (wOps w).wf = true := by
  simp only [Ops.wf_iff, wOps, bitsOf]
  omega

/-- A word is read as the CLASS, the OP and the operands that it spells. -/
theorem fields_insnWord {cls op : Nat} {o : Ops} (hc : cls < 7) (ho : op < 43) (hw : o.wf = true) :
    wClass (insnWord cls op o) = cls ∧ wOp (insnWord cls op o) = op ∧ wOps (insnWord cls op o) = o := by
  obtain ⟨hp, hd, ha, hb, hcc⟩ := (Ops.wf_iff o).1 hw
  obtain ⟨pneg, pred, d, a, b, c, f, i⟩ := o
  simp only at hp hd ha hb hcc
  have hf := f.isLt
  have hi := i.isLt
  have hn : (insnWord cls op ⟨pneg, pred, d, a, b, c, f, i⟩).toNat = cls * 2 ^ 60 + pneg.toNat * 2 ^ 59 + pred * 2 ^ 56 +
      op * 2 ^ 48 + d * 2 ^ 43 + a * 2 ^ 38 + b * 2 ^ 33 + c * 2 ^ 28 + f.toNat * 2 ^ 20 + i.toNat := by
    rw [insnWord, BitVec.toNat_ofNat]
    cases pneg <;> simp only [Bool.false_eq_true, if_false, if_true, Bool.toNat_false, Bool.toNat_true] <;> omega
  have hneg := pneg.toNat_lt
  have hbit : bitOf (insnWord cls op ⟨pneg, pred, d, a, b, c, f, i⟩).toNat 59 = pneg := by
    rw [bitOf, Nat.testBit_eq_decide_div_mod_eq, hn]
    cases pneg <;> simp only [Bool.toNat_false, Bool.toNat_true, decide_eq_true_eq, decide_eq_false_iff_not] <;> omega
  refine ⟨?_, ?_, ?_⟩
  · rw [wClass, hn, bitsOf, Nat.shiftRight_eq_div_pow]
    omega
  · rw [wOp, hn, bitsOf, Nat.shiftRight_eq_div_pow]
    omega
  · rw [wOps, hbit]
    simp only [hn, bitsOf, Nat.shiftRight_eq_div_pow, Ops.mk.injEq, true_and, ← BitVec.toNat_inj, BitVec.toNat_ofNat]
    omega

/-! ## Issue: an instruction that does not execute, and the end of the code (R212, R213, R215) -/

/-- The row of a core instruction is its issue, with an effect of its own. -/
def IsInsn (x : CtxId) (o : Ops) (c : Instr) : Prop := ∃ body, ∀ s, exec c s = insn c x o body s

theorem isInsn_of_mem {x : CtxId} {o : Ops} : ∀ c ∈ coreInstrs x o, IsInsn x o c := by
  simp only [coreInstrs, List.cons_append, List.nil_append, List.forall_mem_cons, List.not_mem_nil, false_implies, implies_true,
    and_true]
  and_intros
  all_goals exact ⟨_, fun _ => rfl⟩

/-- A guard that fails holds when it is negated. -/
theorem guardOk_negated {k : Ctx} {o : Ops} (h : guardOk k o = false) : guardOk k { o with pneg := !o.pneg } = true := by
  have hnot : guardOk k { o with pneg := !o.pneg } = !guardOk k o := Bool.bne_not ..
  rw [hnot, h]
  rfl

theorem setPc_outside {x : CtxId} {n : Nat} {k : Ctx} {s : State} (h : ¬ n < codeLen s k) :
    setPc x n k s = failCtx x .opcode (BitVec.ofNat 32 n) (putCtx x k s) := if_neg h

section
variable {c : Instr} {s : State} {x : CtxId} {o : Ops} {k : Ctx} {body : Ctx → State → IOut}

/-- An instruction whose guard fails has the effect of one that does nothing under the opposite guard (R213). -/
theorem insn_unguarded (hk : canIssue s x = some k) (hg : guardOk k o = false) (hcalm : Calm s x.core) :
    insn c x o body s = insn c x { o with pneg := !o.pneg } (fun k t => .go k t) s := by
  have hfails : guardOk (issuing k) o = false := hg
  have hopp : guardOk (issuing k) { o with pneg := !o.pneg } = true := guardOk_negated hg
  have hi : ({ k with issued := k.issued + 1 } : Ctx) = issuing k := rfl
  simp only [insn, wakeCore_calm hcalm, issueOne, hk, hi, hfails, hopp, Bool.false_eq_true, if_false, if_true]

/-- An instruction that is not the context's next, or whose turn has not come, does not issue (R212). -/
theorem insn_not_issued (hcalm : Calm s x.core) (h4 : x.ctx < 4)
    (h : hisTurn s x = false ∨ ∀ k, canIssue s x = some k → insnAt s x k ≠ some c) : insn c x o body s = .next s := by
  have hstays : issueOne c x o body s = s := by
    unfold issueOne
    cases hk : canIssue s x with
    | none => rfl
    | some k =>
      refine if_pos ?_
      rcases h with h | h
      · rw [h]
        rfl
      · simp [h k hk]
  rw [insn, wakeCore_calm hcalm, hstays, wakeCtx_idle (hcalm x.ctx h4), wakeCore_calm hcalm]

/-- The last instruction of the code leaves the PC at CODE_INSTRS, which fails the item (R215). -/
theorem insn_ends_code {k1 : Ctx} (h : Ready c s x o k) (hlen : codeLen s k = k.pc + 1) (hb : body (issuing k) s = .go k1 s)
    (hi : k1.item = k.item) :
    insn c x o body s = .next (follows x (failed x .opcode (BitVec.ofNat 32 (codeLen s k)) k1 s)) := by
  have hout : ¬ (issuing k).pc + 1 < codeLen s k1 := by
    rw [codeLen_item s hi, hlen]
    exact Nat.lt_irrefl _
  rw [insn_issue h, hb, conclude_go, setPc_outside hout, hlen, failed, hi]
  rfl
end

/-- Settles O4: a guard that fails is `insn_unguarded`, the end of the code `insn_ends_code`, the turn `insn_not_issued`; a word is
its fields, and its CLASS and OP name the operation. -/
theorem guardAndCodeEnd : Obligations.GuardAndCodeEnd := by
  unfold Obligations.GuardAndCodeEnd
  refine ⟨?guard, ?ends, ?turn, ?encode, ?decode⟩
  case guard =>
    intro x o s k hk hspent hg hturn hcalm h4 hlen c hc hcode
    obtain ⟨body, hbody⟩ := isInsn_of_mem c hc
    obtain ⟨_, _, _, _, _, _, _, _, hfail, _⟩ := canIssue_some hk
    have hissues : Issues c s x { o with pneg := !o.pneg } k :=
      { able := hk, turn := hturn, code := hcode, budget := hspent, guard := guardOk_negated hg, calm := hcalm, four := h4,
        more := hlen }
    rw [hbody, insn_unguarded hk hg hcalm, insn_go hissues rfl rfl rfl hfail]
  case ends =>
    intro x o s k hlen
    refine ⟨fun h => insn_ends_code h hlen rfl rfl, fun h => ?_⟩
    exact insn_ends_code h hlen rfl (gset_item ..)
  case turn =>
    intro x o s hcalm h4 c hc h
    obtain ⟨body, hbody⟩ := isInsn_of_mem c hc
    rw [hbody, insn_not_issued hcalm h4 h]
  case encode =>
    intro x o hw c hc
    obtain ⟨cls, hcls, op, hop, h⟩ := mem_coreInstrs_iff.1 hc
    obtain ⟨hclass, hopw, hops⟩ := fields_insnWord hcls hop hw
    refine ⟨insnWord cls op o, (encodeInsn_operation h).1, ?_⟩
    rw [insnOf_eq_operation, hclass, hopw, hops, h]
  case decode =>
    intro w x c h
    rw [insnOf_eq_operation] at h
    obtain ⟨hword, hcls, hop⟩ := encodeInsn_operation h
    exact ⟨hword.trans (congrArg some (insnWord_fields w)), mem_coreInstrs_iff.2 ⟨_, hcls, _, hop, h⟩, wOps_wf w⟩

end Sys2Proof.Machine

namespace Sys2Proof.Machine

/-! ## Instructions on general registers and predicates (R215, R216) -/

section
variable {c : Instr} {x : CtxId} {o : Ops} {v : Ctx → Word64}

/-- The row of an instruction whose own rule answers a value for gD. -/
theorem setsReg_of_body (body : Ctx → State → IOut) (hexec : ∀ s, exec c s = insn c x o body s)
    (hbody : ∀ k s, body (issuing k) s = .go (gset (issuing k) o.d (v k)) s) : SetsReg c x o v := by
  intro s k h
  obtain ⟨_, _, _, _, _, _, _, _, hfail, _⟩ := canIssue_some h.able
  rw [hexec, insn_go h (hbody k s) (gset_item ..) (gset_pc ..) ((gset_failing ..).trans hfail)]

theorem regOp_sets {f : Word64 → Word64 → Word64} (hexec : ∀ s, exec c s = regOp c x o f s)
    (hv : ∀ k, f (gget k o.a) (gget k o.b) = v k) : SetsReg c x o v :=
  setsReg_of_body _ hexec fun k _ => congrArg (fun w => IOut.go (gset (issuing k) o.d w) _) (hv k)

theorem immOp_sets {f : Word64 → Word64} (hexec : ∀ s, exec c s = immOp c x o f s) (hv : ∀ k, f (gget k o.a) = v k) :
    SetsReg c x o v :=
  setsReg_of_body _ hexec fun k _ => congrArg (fun w => IOut.go (gset (issuing k) o.d w) _) (hv k)
end

/-! The values of R216 as arithmetic on numbers. -/

theorem sub_eq_ofInt (a b : Word64) : a - b = BitVec.ofInt 64 ((a.toNat : Int) - (b.toNat : Int)) := by
  rw [Int.sub_eq_add_neg, BitVec.ofInt_add, BitVec.ofInt_neg, BitVec.ofInt_natCast, BitVec.ofInt_natCast, BitVec.ofNat_toNat,
    BitVec.ofNat_toNat, BitVec.setWidth_eq, BitVec.setWidth_eq, BitVec.sub_eq_add_neg]

theorem divOf_eq (a b : Word64) :
    divOf a b = if b = 0 then BitVec.ofNat 64 (2 ^ 64 - 1) else BitVec.ofNat 64 (a.toNat / b.toNat) := by
  unfold divOf
  split
  · rfl
  · rw [← BitVec.toNat_udiv, BitVec.ofNat_toNat, BitVec.setWidth_eq]

theorem remOf_eq (a b : Word64) : remOf a b = BitVec.ofNat 64 (a.toNat % b.toNat) := by
  unfold remOf
  split
  case isTrue h => simp [h]
  case isFalse => rw [← BitVec.toNat_umod, BitVec.ofNat_toNat, BitVec.setWidth_eq]

theorem shiftLeft_eq_ofNat (a : Word64) (n : Nat) : a <<< n = BitVec.ofNat 64 (a.toNat * 2 ^ n) := by
  rw [← Nat.shiftLeft_eq]
  apply BitVec.eq_of_toNat_eq
  simp

theorem ushiftRight_eq_ofNat (a : Word64) (n : Nat) : a >>> n = BitVec.ofNat 64 (a.toNat / 2 ^ n) := by
  rw [← Nat.shiftRight_eq_div_pow, ← BitVec.toNat_ushiftRight, BitVec.ofNat_toNat, BitVec.setWidth_eq]

theorem sshiftRight_eq_ofInt (a : Word64) (n : Nat) : a.sshiftRight n = BitVec.ofInt 64 (a.toInt / (2 ^ n : Nat)) := by
  rw [← Int.shiftRight_eq_div_pow, ← BitVec.toInt_sshiftRight, BitVec.ofInt_toInt]

theorem minS_eq_ofInt (a b : Word64) : (if a.toInt ≤ b.toInt then a else b) = BitVec.ofInt 64 (min a.toInt b.toInt) := by
  split
  case isTrue h => rw [Int.min_eq_left h, BitVec.ofInt_toInt]
  case isFalse h => rw [Int.min_eq_right (Int.le_of_not_le h), BitVec.ofInt_toInt]

theorem maxS_eq_ofInt (a b : Word64) : (if a.toInt ≤ b.toInt then b else a) = BitVec.ofInt 64 (max a.toInt b.toInt) := by
  split
  case isTrue h => rw [Int.max_eq_right h, BitVec.ofInt_toInt]
  case isFalse h => rw [Int.max_eq_left (Int.le_of_not_le h), BitVec.ofInt_toInt]

theorem mulHigh_eq (a b : Word64) : mulHigh a b = BitVec.ofNat 64 (a.toNat * b.toNat / 2 ^ 64) := by
  rw [mulHigh, Nat.shiftRight_eq_div_pow]

theorem immS_eq (o : Ops) : immS o = BitVec.ofInt 64 o.i.toInt := rfl

theorem immZ_eq (o : Ops) : immZ o = BitVec.ofNat 64 o.i.toNat := (BitVec.ofNat_toNat 64 o.i).symm

theorem immF_shift (o : Ops) : immF o 5 0 = o.i.toNat % 64 := by simp [immF, fld]

theorem add_immS (a : Word64) (o : Ops) : a + immS o = BitVec.ofInt 64 ((a.toNat : Int) + o.i.toInt) := by
  rw [immS_eq, BitVec.ofInt_add, BitVec.ofInt_natCast, BitVec.ofNat_toNat, BitVec.setWidth_eq]

/-! ### The rows of the scalar instructions -/

section
variable (x : CtxId) (o : Ops) (s : State)

theorem exec_add : exec (.add x o) s = regOp (.add x o) x o (fun a b => a + b) s := rfl
theorem exec_sub : exec (.sub x o) s = regOp (.sub x o) x o (fun a b => a - b) s := rfl
theorem exec_mul : exec (.mul x o) s = regOp (.mul x o) x o (fun a b => a * b) s := rfl
theorem exec_mulhu : exec (.mulhu x o) s = regOp (.mulhu x o) x o mulHigh s := rfl
theorem exec_divu : exec (.divu x o) s = regOp (.divu x o) x o divOf s := rfl
theorem exec_remu : exec (.remu x o) s = regOp (.remu x o) x o remOf s := rfl
theorem exec_andR : exec (.andR x o) s = regOp (.andR x o) x o (fun a b => a &&& b) s := rfl
theorem exec_orR : exec (.orR x o) s = regOp (.orR x o) x o (fun a b => a ||| b) s := rfl
theorem exec_xor : exec (.xor x o) s = regOp (.xor x o) x o (fun a b => a ^^^ b) s := rfl
theorem exec_shl : exec (.shl x o) s = regOp (.shl x o) x o (fun a b => a <<< shiftOf b) s := rfl
theorem exec_shr : exec (.shr x o) s = regOp (.shr x o) x o (fun a b => a >>> shiftOf b) s := rfl
theorem exec_sar : exec (.sar x o) s = regOp (.sar x o) x o (fun a b => a.sshiftRight (shiftOf b)) s := rfl
theorem exec_minS : exec (.minS x o) s = regOp (.minS x o) x o (fun a b => if a.toInt ≤ b.toInt then a else b) s := rfl
theorem exec_maxS : exec (.maxS x o) s = regOp (.maxS x o) x o (fun a b => if a.toInt ≤ b.toInt then b else a) s := rfl
theorem exec_addi : exec (.addi x o) s = immOp (.addi x o) x o (fun a => a + immS o) s := rfl
theorem exec_andi : exec (.andi x o) s = immOp (.andi x o) x o (fun a => a &&& immZ o) s := rfl
theorem exec_ori : exec (.ori x o) s = immOp (.ori x o) x o (fun a => a ||| immZ o) s := rfl
theorem exec_xori : exec (.xori x o) s = immOp (.xori x o) x o (fun a => a ^^^ immZ o) s := rfl
theorem exec_shli : exec (.shli x o) s = immOp (.shli x o) x o (fun a => a <<< immF o 5 0) s := rfl
theorem exec_shri : exec (.shri x o) s = immOp (.shri x o) x o (fun a => a >>> immF o 5 0) s := rfl
theorem exec_movi : exec (.movi x o) s = immOp (.movi x o) x o (fun _ => immS o) s := rfl
end

/-- Settles O1: each row is `regOp` or `immOp`, with its value as arithmetic on numbers. -/
theorem scalarResults : Obligations.ScalarResults := by
  unfold Obligations.ScalarResults
  refine ⟨fun x o => ⟨?add, ?sub, ?mul, ?mulhu, ?divu, ?remu, ?and, ?or, ?xor, ?shl, ?shr, ?sar, ?min, ?max⟩,
    fun x o => ⟨?addi, ?andi, ?ori, ?xori, ?shli, ?shri, ?movi⟩⟩
  case add => exact regOp_sets (exec_add x o) fun k => BitVec.add_def _ _
  case sub => exact regOp_sets (exec_sub x o) fun k => sub_eq_ofInt _ _
  case mul => exact regOp_sets (exec_mul x o) fun k => BitVec.mul_def
  case mulhu => exact regOp_sets (exec_mulhu x o) fun k => mulHigh_eq _ _
  case divu => exact regOp_sets (exec_divu x o) fun k => divOf_eq _ _
  case remu => exact regOp_sets (exec_remu x o) fun k => remOf_eq _ _
  case and => exact regOp_sets (exec_andR x o) fun k => rfl
  case or => exact regOp_sets (exec_orR x o) fun k => rfl
  case xor => exact regOp_sets (exec_xor x o) fun k => rfl
  case shl => exact regOp_sets (exec_shl x o) fun k => shiftLeft_eq_ofNat _ _
  case shr => exact regOp_sets (exec_shr x o) fun k => ushiftRight_eq_ofNat _ _
  case sar => exact regOp_sets (exec_sar x o) fun k => sshiftRight_eq_ofInt _ _
  case min => exact regOp_sets (exec_minS x o) fun k => minS_eq_ofInt _ _
  case max => exact regOp_sets (exec_maxS x o) fun k => maxS_eq_ofInt _ _
  case addi => exact immOp_sets (exec_addi x o) fun k => add_immS _ o
  case andi => exact immOp_sets (exec_andi x o) fun k => congrArg (_ &&& ·) (immZ_eq o)
  case ori => exact immOp_sets (exec_ori x o) fun k => congrArg (_ ||| ·) (immZ_eq o)
  case xori => exact immOp_sets (exec_xori x o) fun k => congrArg (_ ^^^ ·) (immZ_eq o)
  case shli => exact immOp_sets (exec_shli x o) fun k => (congrArg (_ <<< ·) (immF_shift o)).trans (shiftLeft_eq_ofNat _ _)
  case shri => exact immOp_sets (exec_shri x o) fun k => (congrArg (_ >>> ·) (immF_shift o)).trans (ushiftRight_eq_ofNat _ _)
  case movi => exact immOp_sets (exec_movi x o) fun k => rfl

section
variable {c : Instr} {x : CtxId} {o : Ops} {v : Ctx → Bool}

theorem predOk_iff (r : Nat) : predOk r = true ↔ r < 8 := decide_eq_true_iff

theorem predOk_above {r : Nat} (h : 8 ≤ r) : predOk r = false := decide_eq_false (Nat.not_lt.2 h)

/-- The row of an instruction whose own rule answers a value for pD. -/
theorem setsPred_of_body (body : Ctx → State → IOut) (hexec : ∀ s, exec c s = insn c x o body s)
    (hbody : ∀ k s, body (issuing k) s = .go (pset (issuing k) o.d (v k)) s) : SetsPred c x o v := by
  intro s k h
  obtain ⟨_, _, _, _, _, _, _, _, hfail, _⟩ := canIssue_some h.able
  have hkeep : ∀ b, (pset (issuing k) o.d b).item = k.item ∧ (pset (issuing k) o.d b).pc = k.pc ∧
      (pset (issuing k) o.d b).failing = k.failing := fun b => by unfold pset; split <;> exact ⟨rfl, rfl, rfl⟩
  obtain ⟨hi, hp, hf⟩ := hkeep (v k)
  rw [hexec, insn_go h (hbody k s) hi hp (hf.trans hfail)]

theorem cmpOp_sets {f : Word64 → Word64 → Bool} (hexec : ∀ s, exec c s = cmpOp c x o f s) (hd : o.d < 8)
    (hv : ∀ k, f (gget k o.a) (gget k o.b) = v k) : SetsPred c x o v :=
  setsPred_of_body _ hexec fun k _ => by
    rw [if_pos ((predOk_iff _).2 hd), ← hv]
    rfl

theorem cmpImm_sets {f : Word64 → Bool} (hexec : ∀ s, exec c s = cmpImm c x o f s) (hd : o.d < 8)
    (hv : ∀ k, f (gget k o.a) = v k) : SetsPred c x o v :=
  setsPred_of_body _ hexec fun k _ => by
    rw [if_pos ((predOk_iff _).2 hd), ← hv]
    rfl

theorem cmpOp_fails {f : Word64 → Word64 → Bool} (hexec : ∀ s, exec c s = cmpOp c x o f s) (hd : 8 ≤ o.d) :
    FailsItem c x o .opcode (fun _ _ => True) :=
  failsItem_of_body _ hexec fun _ _ _ => if_neg (by simp [predOk_above hd])

theorem cmpImm_fails {f : Word64 → Bool} (hexec : ∀ s, exec c s = cmpImm c x o f s) (hd : 8 ≤ o.d) :
    FailsItem c x o .opcode (fun _ _ => True) :=
  failsItem_of_body _ hexec fun _ _ _ => if_neg (by simp [predOk_above hd])

/-- The predicate fields that an instruction on predicates reads and writes. -/
def PredFields (o : Ops) (two : Bool) : Prop := o.d < 8 ∧ o.a < 8 ∧ (two = true → o.b < 8)

theorem predFields_iff (o : Ops) (two : Bool) : (predOk o.d && predOk o.a && (!two || predOk o.b)) = true ↔ PredFields o two := by
  cases two <;> simp [PredFields, predOk, and_assoc]

theorem predOp_sets {two : Bool} {f : Bool → Bool → Bool} (hexec : ∀ s, exec c s = predOp c x o two f s) (hok : PredFields o two)
    (hv : ∀ k, f (pget k o.a) (pget k (if two then o.b else 0)) = v k) : SetsPred c x o v :=
  setsPred_of_body _ hexec fun k _ => by
    rw [if_pos ((predFields_iff o two).2 hok), ← hv]
    rfl

theorem predOp_fails {two : Bool} {f : Bool → Bool → Bool} (hexec : ∀ s, exec c s = predOp c x o two f s)
    (hbad : ¬ PredFields o two) : FailsItem c x o .opcode (fun _ _ => True) :=
  failsItem_of_body _ hexec fun _ _ _ => if_neg (mt (predFields_iff o two).1 hbad)
end

theorem beq_word (a b : Word64) : (a == b) = decide (a = b) := rfl

theorem bne_word (a b : Word64) : (a != b) = decide (a ≠ b) := by
  rw [decide_not, ← beq_word, bne]

theorem toInt_immS (o : Ops) : (immS o).toInt = o.i.toInt := BitVec.toInt_signExtend_of_le (by decide)

/-! ### The rows of the instructions that write a predicate -/

section
variable (x : CtxId) (o : Ops) (s : State)

theorem exec_setpEq : exec (.setpEq x o) s = cmpOp (.setpEq x o) x o (fun a b => a == b) s := rfl
theorem exec_setpNe : exec (.setpNe x o) s = cmpOp (.setpNe x o) x o (fun a b => a != b) s := rfl
theorem exec_setpLtS : exec (.setpLtS x o) s = cmpOp (.setpLtS x o) x o (fun a b => decide (a.toInt < b.toInt)) s := rfl
theorem exec_setpLtU : exec (.setpLtU x o) s = cmpOp (.setpLtU x o) x o (fun a b => decide (a.toNat < b.toNat)) s := rfl
theorem exec_setpGeS : exec (.setpGeS x o) s = cmpOp (.setpGeS x o) x o (fun a b => decide (b.toInt ≤ a.toInt)) s := rfl
theorem exec_setpGeU : exec (.setpGeU x o) s = cmpOp (.setpGeU x o) x o (fun a b => decide (b.toNat ≤ a.toNat)) s := rfl
theorem exec_setpiEq : exec (.setpiEq x o) s = cmpImm (.setpiEq x o) x o (fun a => a == immS o) s := rfl
theorem exec_setpiLtS : exec (.setpiLtS x o) s = cmpImm (.setpiLtS x o) x o (fun a => decide (a.toInt < (immS o).toInt)) s := rfl
theorem exec_pand : exec (.pand x o) s = predOp (.pand x o) x o true (fun a b => a && b) s := rfl
theorem exec_por : exec (.por x o) s = predOp (.por x o) x o true (fun a b => a || b) s := rfl
theorem exec_pnot : exec (.pnot x o) s = predOp (.pnot x o) x o false (fun a _ => !a) s := rfl
end

/-- Settles O2: each row is `cmpOp`, `cmpImm` or `predOp`, which look at their predicate fields first. -/
theorem predicateResults : Obligations.PredicateResults := by
  unfold Obligations.PredicateResults
  refine fun x o => ⟨fun hd => ⟨?eq, ?ne, ?ltS, ?ltU, ?geS, ?geU, ?eqI, ?ltI, fun ha => ?not, fun ha hb => ?two⟩, fun hd => ?fails,
    fun h => ?notFails, fun h => ?twoFail⟩
  case eq => exact cmpOp_sets (exec_setpEq x o) hd fun k => beq_word _ _
  case ne => exact cmpOp_sets (exec_setpNe x o) hd fun k => bne_word _ _
  case ltS => exact cmpOp_sets (exec_setpLtS x o) hd fun k => rfl
  case ltU => exact cmpOp_sets (exec_setpLtU x o) hd fun k => rfl
  case geS => exact cmpOp_sets (exec_setpGeS x o) hd fun k => rfl
  case geU => exact cmpOp_sets (exec_setpGeU x o) hd fun k => rfl
  case eqI => exact cmpImm_sets (exec_setpiEq x o) hd fun k => beq_word _ _
  case ltI => exact cmpImm_sets (exec_setpiLtS x o) hd fun k => by rw [toInt_immS]
  case not => exact predOp_sets (exec_pnot x o) ⟨hd, ha, nofun⟩ fun k => rfl
  case two =>
    exact ⟨predOp_sets (exec_pand x o) ⟨hd, ha, fun _ => hb⟩ fun k => rfl,
      predOp_sets (exec_por x o) ⟨hd, ha, fun _ => hb⟩ fun k => rfl⟩
  case fails =>
    exact ⟨cmpOp_fails (exec_setpEq x o) hd, cmpOp_fails (exec_setpNe x o) hd, cmpOp_fails (exec_setpLtS x o) hd,
      cmpOp_fails (exec_setpLtU x o) hd, cmpOp_fails (exec_setpGeS x o) hd, cmpOp_fails (exec_setpGeU x o) hd,
      cmpImm_fails (exec_setpiEq x o) hd, cmpImm_fails (exec_setpiLtS x o) hd⟩
  case notFails => exact predOp_fails (exec_pnot x o) fun ⟨hd, ha, _⟩ => by omega
  case twoFail =>
    have hbad : ¬ PredFields o true := fun ⟨hd, ha, hb⟩ => by have := hb rfl; omega
    exact ⟨predOp_fails (exec_pand x o) hbad, predOp_fails (exec_por x o) hbad⟩

end Sys2Proof.Machine

namespace Sys2Proof.Machine

/-! ## Branches (R215, R217) -/

theorem targetOf_inside {s : State} {k : Ctx} {o : Ops} (h : 0 ≤ (k.pc : Int) + o.i.toInt ∧ (k.pc : Int) + o.i.toInt < codeLen s k) :
    targetOf s k o = some ((k.pc : Int) + o.i.toInt).toNat := if_pos h

theorem targetOf_outside {s : State} {k : Ctx} {o : Ops}
    (h : ¬ (0 ≤ (k.pc : Int) + o.i.toInt ∧ (k.pc : Int) + o.i.toInt < codeLen s k)) : targetOf s k o = none := if_neg h

section
variable {c : Instr} {s : State} {x : CtxId} {o : Ops} {k : Ctx} {body : Ctx → State → IOut} (h : Ready c s x o k)
include h

/-- A branch that is taken: the context goes on at the target, and nothing else changes. -/
theorem insn_jump {n : Nat} {k1 : Ctx} (hb : body (issuing k) s = .jump n k1 s) (hn : n < codeLen s k) (hi : k1.item = k.item)
    (hf : k1.failing = k.failing) : insn c x o body s = .next (jumped x n k1 s) := by
  obtain ⟨_, hc, _, _, _, _, _, _, hfail, _⟩ := canIssue_some h.able
  have hset : conclude x k (issuing k) s (.jump n k1 s) = jumped x n k1 s := by
    rw [conclude_jump, setPc_inside (by rwa [codeLen_item s hi]), jumped, hi]
    rfl
  rw [insn_issue h, hb, hset]
  refine congrArg Host.Outcome.next (follows_calm h.calm h.four (k := { k1 with pc := n, wait := none }) ?_ rfl (hf.trans hfail)
    (fun y _ hne => ?_) ?_ ?_)
  · rw [jumped, ctxOf_didIssue, ctxOf_putCtx_same _ _ _ (Option.isSome_of_eq_some hc)]
  · rw [jumped, ctxOf_didIssue, ctxOf_putCtx_ne _ _ _ _ hne]
  · rw [jumped, latheView_didIssue, latheView_putCtx]
  · rw [jumped, sources_didIssue, sources_putCtx]

/-- An instruction that fails its item: nothing of its effect is left. -/
theorem insn_fails {st : St} {d : Word32} (hb : body (issuing k) s = .fail st d) :
    insn c x o body s = .next (follows x (failed x st d (issuing k) s)) := by
  rw [insn_issue h, hb, conclude_fail]
  rfl

/-- A branch to an offset from itself. -/
theorem insn_branchTo {k1 : Ctx} (hb : body (issuing k) s = branchTo (issuing k) k1 o s) (hi : k1.item = k.item)
    (hf : k1.failing = k.failing) :
    let t : Int := (k.pc : Int) + o.i.toInt
    (0 ≤ t ∧ t < codeLen s k → insn c x o body s = .next (jumped x t.toNat k1 s)) ∧
    (¬ (0 ≤ t ∧ t < codeLen s k) →
      insn c x o body s = .next (follows x (failed x .opcode (BitVec.ofNat 32 k.pc) (issuing k) s))) := by
  refine ⟨fun ht => insn_jump h ?_ (by omega) hi hf, fun ht => insn_fails h ?_⟩
  · have htarget : targetOf s (issuing k) o = _ := targetOf_inside ht
    rw [hb, branchTo, htarget]
    rfl
  · have htarget : targetOf s (issuing k) o = none := targetOf_outside ht
    rw [hb, branchTo, htarget]
    rfl

/-- A jump to the instruction that a register names. -/
theorem insn_jumpTo {v : Word64} (hb : body (issuing k) s = jumpTo (issuing k) v s) :
    (v.toNat < codeLen s k → insn c x o body s = .next (jumped x v.toNat (issuing k) s)) ∧
    (codeLen s k ≤ v.toNat → insn c x o body s = .next (follows x (failed x .opcode (BitVec.ofNat 32 k.pc) (issuing k) s))) :=
  ⟨fun hv => insn_jump h (hb.trans (if_pos hv)) hv rfl rfl, fun hv => insn_fails h (hb.trans (if_neg (Nat.not_lt.2 hv)))⟩
end

/-- What LOOP does: it counts its register down, and branches unless that reaches zero (R217). -/
def loopEffect (o : Ops) (k : Ctx) (t : State) : IOut :=
  if gget (gset k o.a (gget k o.a - 1)) o.a = 0 then .go (gset k o.a (gget k o.a - 1)) t
  else branchTo k (gset k o.a (gget k o.a - 1)) o t

theorem exec_loop (x : CtxId) (o : Ops) (s : State) : exec (.loop x o) s = insn (.loop x o) x o (loopEffect o) s := rfl

/-- Settles O3: each row goes to an offset from itself or to what a register names; LOOP may go on at the next instruction. -/
theorem branchResults : Obligations.BranchResults := by
  unfold Obligations.BranchResults
  refine fun x o s k => ⟨fun h => ?branch, fun h => ?loop, fun h => ?call, fun h => insn_jumpTo h rfl, fun h => insn_jumpTo h rfl⟩
  case branch => exact insn_branchTo h rfl rfl rfl
  case call => exact insn_branchTo h rfl (gset_item ..) (gset_failing ..)
  case loop =>
    obtain ⟨_, _, _, _, _, _, _, _, hfail, _⟩ := canIssue_some h.able
    have hbranch := fun hnz => insn_branchTo (body := loopEffect o) h (if_neg hnz) (gset_item ..) (gset_failing ..)
    rw [exec_loop]
    refine ⟨fun hz hmore => ?_, fun hnz => (hbranch hnz).1, fun hnz => (hbranch hnz).2⟩
    exact insn_go (body := loopEffect o) { h with more := hmore } (if_pos hz) (gset_item ..) (gset_pc ..)
      ((gset_failing ..).trans hfail)

/-! ## What an instruction leaves unchanged (R211 to R213) -/

/-- Issue changes the counters of events and its core's note of the last context. -/
theorem didIssue_frame (x : CtxId) (p : Nat) (s : State) :
    ∃ cs, didIssue x p s = { modCore x.core (fun c => { c with last := x.ctx }) s with obs := { s.obs with counters := cs } } := by
  rw [didIssue_eq]
  rcases countCore_cases x p 0x04 1 none none (modCore x.core (fun c => { c with last := x.ctx }) s) with ⟨o, h⟩ | h
  · exact ⟨_, h⟩
  · exact ⟨s.obs.counters, h⟩

theorem coreOf_didIssue_same (x : CtxId) (p : Nat) (s : State) :
    coreOf (didIssue x p s) x.core = (coreOf s x.core).map (fun c => { c with last := x.ctx }) := by
  rw [didIssue_eq, coreOf_countCore, coreOf_modCore_same]

theorem coreOf_didIssue_ne {x : CtxId} {d : Nat} (p : Nat) (s : State) (h : d ≠ x.core) : coreOf (didIssue x p s) d = coreOf s d := by
  rw [didIssue_eq, coreOf_countCore, coreOf_modCore_ne _ _ h]

theorem gget_gset {k : Ctx} {r : Nat} {v : Word64} (h : r < 32) (q : Nat) :
    gget (gset k r v) q = if q = r ∧ r ≠ 0 then v else gget k q := by
  by_cases hr : r = 0
  · rw [gset, if_pos hr, if_neg (fun hq => hq.2 hr)]
  · rw [gset, if_neg hr]
    by_cases hq : q = r
    · subst hq
      simp [gget, hr, h]
    · have hne : r ≠ q := fun e => hq e.symm
      simp [gget, hq, hne]

/-- The mask of one predicate. -/
theorem getLsbD_one_shiftLeft {r : Nat} (h : r < 8) (q : Nat) : (1 <<< r : Byte).getLsbD q = decide (q = r) := by
  rw [BitVec.natCast_eq_ofNat, BitVec.getLsbD_ofNat, Nat.one_shiftLeft, Nat.testBit_two_pow]
  simp only [← Bool.decide_and, decide_eq_decide]
  omega

/-- Setting or clearing one bit leaves every other. -/
theorem getLsbD_write {r : Nat} (h : r < 8) (p : Byte) (v : Bool) (q : Nat) :
    (if v then p ||| (1 <<< r : Byte) else p &&& ~~~(1 <<< r : Byte)).getLsbD q = if q = r then v else p.getLsbD q := by
  cases v
  case true =>
    rw [if_pos rfl, BitVec.getLsbD_or, getLsbD_one_shiftLeft h]
    by_cases hqr : q = r <;> simp only [hqr, decide_true, decide_false, Bool.or_true, Bool.or_false, if_true, if_false]
  case false =>
    rw [if_neg (by decide), BitVec.getLsbD_and, BitVec.getLsbD_not, getLsbD_one_shiftLeft h]
    by_cases hqr : q = r
    · simp [hqr]
    · by_cases hq : q < 8
      · simp [hqr, hq]
      · simp [hqr, hq, BitVec.getLsbD_of_ge p q (Nat.le_of_not_lt hq)]

theorem pget_pset {k : Ctx} {r : Nat} {v : Bool} (h : r < 8) (q : Nat) :
    pget (pset k r v) q = if q = r ∧ r ≠ 0 then v else pget k q := by
  by_cases hr : r = 0
  · rw [pset, if_pos hr, if_neg (fun hq => hq.2 hr)]
  · rw [pset, if_neg hr, pget, getLsbD_write h]
    by_cases hq : q = r
    · simp [hq, hr]
    · simp [hq, pget]

/-- Settles O5: `retire` puts the context, notes the last to issue and counts; a write changes one register. -/
theorem registerFrame : Obligations.RegisterFrame := by
  unfold Obligations.RegisterFrame
  refine ⟨fun x k s c hc => ⟨?same, fun y hy => ?other, ?core, fun d hd => ?cores, ?device⟩, fun k r v hr => ⟨gget_gset hr, ?g⟩,
    fun k r v hr => ⟨pget_pset hr, ?p⟩⟩
  case same => rw [retire, ctxOf_didIssue, ctxOf_putCtx_same _ _ _ (Option.isSome_of_eq_some hc)]
  case other => rw [retire, ctxOf_didIssue, ctxOf_putCtx_ne _ _ _ _ hy]
  case core =>
    rw [retire, coreOf_didIssue_same, putCtx, coreOf_modCore_same, hc]
    rfl
  case cores => rw [retire, coreOf_didIssue_ne _ _ hd, putCtx, coreOf_modCore_ne _ _ hd]
  case device =>
    obtain ⟨cs, h⟩ := didIssue_frame x k.item.part (putCtx x { k with pc := k.pc + 1, wait := none } s)
    rw [retire, h]
    rfl
  case g => unfold gset; split <;> rfl
  case p => unfold pset; split <;> rfl

end Sys2Proof.Machine

namespace Sys2Proof.Machine

/-! ## Sync and system (R203, R221, R222, R226, R242) -/

section
variable {k : Ctx} {o : Ops} {e : Token}

theorem waitOver_unmatched (h : tokenMatch k (gget k o.a) = none) : waitOver k o = true := by rw [waitOver, h]

theorem waitOver_matched (h : tokenMatch k (gget k o.a) = some e) : waitOver k o = e.done.isSome := by rw [waitOver, h]

theorem waitEnd_unmatched (h : tokenMatch k (gget k o.a) = none) : waitEnd k o = gset k o.d 0 := by rw [waitEnd, h]

theorem waitEnd_matched {r : BitVec 128} (h : tokenMatch k (gget k o.a) = some e) (hr : e.done = some r) :
    waitEnd k o = gset { k with tokens := tdel k.tokens ((gget k o.a).toNat % 32) } o.d (r.truncate 64) := by
  simp only [waitEnd, h, hr]
  rfl
end

/-! What the waits of the sync class and of END wait for. -/

section
variable {s : State} {x : CtxId} {o : Ops} {k : Ctx} (hf : k.failing = none)
include hf

theorem due_wait : due s x { k with wait := some (.wait o) } = waitOver k o := by
  rw [due, hf]
  rfl

theorem due_waitall : due s x { k with wait := some .waitall } = (openTokens k).isEmpty := by
  rw [due, hf]
  rfl

theorem due_fence (n : Node) : due s x { k with wait := some (.fence n) } = !fencePending k n := by
  rw [due, hf]
  rfl

theorem due_ending : due s x { k with wait := some .ending } = quiet s x k := by
  rw [due, hf]
  rfl
end

section
variable {s : State} {x : CtxId} {o : Ops} {k : Ctx}

theorem waitall_results (h : Issues (.waitall x o) s x o k) :
    (openTokens k = [] → exec (.waitall x o) s = .next (retire x { issuing k with tokens := [] } s)) ∧
    (openTokens k ≠ [] → exec (.waitall x o) s = .next (waiting x .waitall (issuing k) s)) := by
  obtain ⟨_, _, _, _, _, _, _, _, hfail, _⟩ := canIssue_some h.able
  have hiff : (openTokens (issuing k)).isEmpty = true ↔ openTokens k = [] := List.isEmpty_iff
  exact ⟨fun he => insn_go h (if_pos (hiff.2 he)) rfl rfl hfail, fun he => insn_waits h.toReady (if_neg (mt hiff.1 he))
    ((due_waitall (k := issuing k) hfail).trans (Bool.eq_false_iff.2 (mt hiff.1 he)))⟩

/-- What WAIT does. -/
def waitEffect (o : Ops) (k : Ctx) (t : State) : IOut := if waitOver k o then .go (waitEnd k o) t else .stay (.wait o) k t

theorem wait_results (h : Issues (.wait x o) s x o k) :
    (tokenMatch k (gget k o.a) = none → exec (.wait x o) s = .next (retire x (gset (issuing k) o.d 0) s)) ∧
    (∀ e r, tokenMatch k (gget k o.a) = some e → e.done = some r → exec (.wait x o) s = .next (retire x
      (gset { issuing k with tokens := tdel k.tokens ((gget k o.a).toNat % 32) } o.d (r.truncate 64)) s)) ∧
    (∀ e, tokenMatch k (gget k o.a) = some e → e.done = none →
      exec (.wait x o) s = .next (waiting x (.wait o) (issuing k) s)) := by
  rw [show exec (.wait x o) s = insn (.wait x o) x o (waitEffect o) s from rfl]
  obtain ⟨_, _, _, _, _, _, _, _, hfail, _⟩ := canIssue_some h.able
  refine ⟨fun hn => ?_, fun e r he hr => ?_, fun e he hd => ?_⟩
  · have hbody : waitEffect o (issuing k) s = .go (gset (issuing k) o.d 0) s := by
      rw [waitEffect, waitOver_unmatched (k := issuing k) hn, waitEnd_unmatched (k := issuing k) hn]
      rfl
    exact insn_go h hbody (gset_item ..) (gset_pc ..) ((gset_failing ..).trans hfail)
  · have hbody : waitEffect o (issuing k) s =
        .go (gset { issuing k with tokens := tdel k.tokens ((gget k o.a).toNat % 32) } o.d (r.truncate 64)) s := by
      rw [waitEffect, waitOver_matched (k := issuing k) he, waitEnd_matched (k := issuing k) he hr, hr]
      rfl
    exact insn_go h hbody (gset_item ..) (gset_pc ..) ((gset_failing ..).trans hfail)
  · have hover : waitOver (issuing k) o = false := (waitOver_matched (k := issuing k) he).trans (by rw [hd]; rfl)
    exact insn_waits (body := waitEffect o) h.toReady (if_neg (Bool.eq_false_iff.1 hover))
      ((due_wait (k := issuing k) hfail).trans hover)

theorem syncFence_results (h : Issues (.syncFence x o) s x o k) :
    (fencePending k (aNode (gget k o.a)) = false → exec (.syncFence x o) s = .next (retire x (issuing k) s)) ∧
    (fencePending k (aNode (gget k o.a)) = true →
      exec (.syncFence x o) s = .next (waiting x (.fence (aNode (gget k o.a))) (issuing k) s)) := by
  obtain ⟨_, _, _, _, _, _, _, _, hfail, _⟩ := canIssue_some h.able
  refine ⟨fun hp => insn_go h (if_neg (Bool.eq_false_iff.1 hp)) rfl rfl hfail, fun hp => insn_waits h.toReady (if_pos hp) ?_⟩
  exact (due_fence (k := issuing k) hfail _).trans (Bool.not_eq_false' .. ▸ hp)

/-- SYS gives the system register that F names, if there is one. -/
theorem sys_reads {v : Word64} (h : Issues (.sys x o) s x o k) (hv : sysReg x o.f.toNat (issuing k) s = some v) :
    exec (.sys x o) s = .next (retire x (gset (issuing k) o.d v) s) := by
  obtain ⟨_, _, _, _, _, _, _, _, hfail, _⟩ := canIssue_some h.able
  refine insn_go h ?_ (gset_item ..) (gset_pc ..) ((gset_failing ..).trans hfail)
  rw [hv]

theorem sys_undefined (h : Issues (.sys x o) s x o k) (hv : sysReg x o.f.toNat (issuing k) s = none) :
    exec (.sys x o) s = .next (follows x (failed x .opcode (BitVec.ofNat 32 k.pc) (issuing k) s)) := by
  refine insn_fails h.toReady ?_
  rw [hv]
  rfl

theorem sysReg_undefined {n : Nat} (h : 0x0E ≤ n) : sysReg x n k s = none := by
  obtain ⟨m, rfl⟩ : ∃ m, n = m + 0x0E := ⟨n - 0x0E, by omega⟩
  unfold sysReg
  split <;> rfl
end

/-- Settles O6: each row has its effect or waits for what has not happened; SYS reads what `sysReg` gives. -/
theorem syncAndSystem : Obligations.SyncAndSystem := by
  unfold Obligations.SyncAndSystem
  refine ⟨fun x o s k => ⟨wait_results, waitall_results, syncFence_results, fun h => ?yield, fun h => ?seed, fun h => ?fclr⟩,
    fun x o s k q c h hq => ?sys⟩
  case yield =>
    obtain ⟨_, _, _, _, _, _, _, _, hfail, _⟩ := canIssue_some h.able
    exact insn_go h rfl rfl rfl hfail
  case seed =>
    obtain ⟨_, _, _, _, _, _, _, _, hfail, _⟩ := canIssue_some h.able
    exact insn_go h rfl rfl rfl hfail
  case fclr =>
    obtain ⟨_, _, _, _, _, _, _, _, hfail, _⟩ := canIssue_some h.able
    exact insn_go h rfl rfl rfl hfail
  case sys =>
    have hcmd : cmdOfItem s (issuing k).item = some (q, c) := hq
    refine ⟨?_, ?_, ?_, ?_, ?_, ?_, ?_, ?_, ?_, ?_, ?_, ?_, ?_, ?_, fun hf => sys_undefined h (sysReg_undefined hf)⟩
    all_goals
      intro hf
      refine sys_reads h ?_
      rw [hf, sysReg, hcmd]
      rfl

/-! ## The end of an item (R221, R227, R242) -/

/-- A context that an item's failure has stopped ends it once nothing of it is outstanding (R227). -/
theorem wakeCtx_failing {s : State} {x : CtxId} {k : Ctx} {st : St} {d : Word32} (hk : ctxOf s x = some k)
    (hf : k.failing = some (st, d)) (hq : quiet s x k = true) : wakeCtx s x = settle (endItemAt x k.item st d s) := by
  simp [wakeCtx, hk, due, goOn, endIf, hf, hq]

/-- A context that has come to END ends its item once nothing of it is outstanding. -/
theorem wakeCtx_ending {s : State} {x : CtxId} {k : Ctx} (hk : ctxOf s x = some k) (hw : k.wait = some .ending)
    (hf : k.failing = none) (hq : quiet s x k = true) : wakeCtx s x = settle (endItemAt x k.item .ok 0 s) := by
  simp [wakeCtx, hk, due, goOn, endIf, hw, hf, hq]

theorem latheBusy_congr {s t : State} {y : CtxId} (hc : (coreOf t y.core).map latheView = (coreOf s y.core).map latheView) :
    latheBusy t y = latheBusy s y := by
  unfold latheBusy
  revert hc
  cases coreOf t y.core <;> cases coreOf s y.core <;> simp [latheView]
  intro h1 _ h3
  rw [h1, h3]

section
variable {s : State} {x : CtxId} {o : Ops} {k : Ctx}

theorem endItem_ends (h : Ready (.endItem x o) s x o k) (hq : quiet s x k = true) :
    exec (.endItem x o) s =
      .next (wakeCore x.core (settle (endItemAt x k.item .ok 0 (waiting x .ending (issuing k) s)))) := by
  obtain ⟨_, hc, _, _, _, _, _, _, hfail, _⟩ := canIssue_some h.able
  have hview : (coreOf (waiting x .ending (issuing k) s) x.core).map latheView = (coreOf s x.core).map latheView := by
    rw [waiting, latheView_didIssue, latheView_putCtx]
  have hctx : ctxOf (waiting x .ending (issuing k) s) x = some { issuing k with wait := some .ending } := by
    rw [waiting, ctxOf_didIssue, ctxOf_putCtx_same _ _ _ (Option.isSome_of_eq_some hc)]
  have hquiet : quiet (waiting x .ending (issuing k) s) x { issuing k with wait := some .ending } = true := by
    rw [← hq, quiet, quiet, latheBusy_congr hview]
    rfl
  have hends := wakeCtx_ending hctx rfl hfail hquiet
  exact (insn_issue h _).trans (congrArg (fun t => Host.Outcome.next (wakeCore x.core t)) hends)

theorem endItem_waits (h : Ready (.endItem x o) s x o k) (hq : quiet s x k = false) :
    exec (.endItem x o) s = .next (waiting x .ending (issuing k) s) := by
  obtain ⟨_, _, _, _, _, _, _, _, hfail, _⟩ := canIssue_some h.able
  exact insn_waits h rfl ((due_ending (k := issuing k) hfail).trans hq)
end

/-- Settles O7: the end of an item is what a context that fails or has come to END wakes to. -/
theorem itemEnds : Obligations.ItemEnds := by
  unfold Obligations.ItemEnds
  refine ⟨fun x o s k => ⟨fun h => ⟨endItem_ends h, endItem_waits h⟩, fun h => insn_fails h rfl⟩, fun x s k hk hs _ => ?budget,
    fun x s k st d => wakeCtx_failing⟩
  case budget =>
    show execItemBudgetExceeded x s = _
    simp only [execItemBudgetExceeded, hk, hs, if_true]

end Sys2Proof.Machine

namespace Sys2Proof.Machine

/-! ## The holder of the lathe (R219, R229) -/

theorem holdsLathe_iff {s : State} {x : CtxId} {c : Core} (hc : coreOf s x.core = some c) :
    holdsLathe s x = true ↔ c.holder = some x.ctx ∧ c.releasing = false := by
  simp [holdsLathe, hc]

/-- The row of a lathe instruction of a context that does not hold the lathe. -/
theorem latheInsn_fails {i : Instr} {s : State} {x : CtxId} {o : Ops} {k : Ctx} {body : Ctx → State → IOut} (h : Ready i s x o k)
    (hl : holdsLathe s x = false) :
    latheInsn i x o body s = .next (follows x (failed x .state (BitVec.ofNat 32 k.pc) (issuing k) s)) :=
  insn_fails h (if_neg (Bool.eq_false_iff.1 hl))

/-- What LACQ does: it goes on where the context holds the lathe, and asks for it otherwise. -/
def lacqEffect (x : CtxId) (k : Ctx) (t : State) : IOut :=
  if holdsLathe t x then .go k t else .stay .lacq k (modCore x.core (askLathe x) t)

theorem exec_lacq (x : CtxId) (o : Ops) (s : State) : exec (.lacq x o) s = insn (.lacq x o) x o (lacqEffect x) s := rfl

section
variable {s : State} {x : CtxId} {o : Ops} {k : Ctx}

theorem exec_lacq_holds (h : Issues (.lacq x o) s x o k) (hl : holdsLathe s x = true) :
    exec (.lacq x o) s = .next (retire x (issuing k) s) := by
  obtain ⟨_, _, _, _, _, _, _, _, hfail, _⟩ := canIssue_some h.able
  exact (exec_lacq x o s).trans (insn_go h (if_pos hl) rfl rfl hfail)

/-- LACQ asks for the lathe and waits; what follows lets it go on where it was granted at once. -/
theorem exec_lacq_asks (h : Ready (.lacq x o) s x o k) (hl : holdsLathe s x = false) :
    exec (.lacq x o) s = .next (follows x (waiting x .lacq (issuing k) (modCore x.core (askLathe x) s))) := by
  have hbody : lacqEffect x (issuing k) s = .stay .lacq (issuing k) (modCore x.core (askLathe x) s) :=
    if_neg (Bool.eq_false_iff.1 hl)
  rw [exec_lacq, insn_issue h, hbody, conclude_stay]
  rfl

/-- LREL releases the lathe, and the context goes on; what follows may let another have it. -/
theorem exec_lrel (h : Issues (.lrel x o) s x o k) (hl : holdsLathe s x = true) :
    exec (.lrel x o) s = .next (follows x (retire x (issuing k) (modCore x.core (releaseLathe x.ctx) s))) := by
  have hin : k.pc + 1 < codeLen (modCore x.core (releaseLathe x.ctx) s) (issuing k) := h.more
  refine (latheInsn_of_holds h.toReady hl).trans ((insn_issue h.toReady _).trans ?_)
  rw [conclude_go]
  exact congrArg (fun t => Host.Outcome.next (follows x (didIssue x k.item.part t))) (setPc_inside hin)
end

/-! ### Who has the lathe next -/

section
variable {x : CtxId} {c : Core}

theorem askLathe_free (hh : c.holder = none) (hw : c.waiters = []) :
    askLathe x c = { c with holder := some x.ctx, releasing := false, waiters := [], acc := [] } := by
  simp [askLathe, grantNext, hh, hw]

theorem askLathe_held {h : Nat} (hh : c.holder = some h) : askLathe x c = { c with waiters := c.waiters ++ [x.ctx] } := by
  simp [askLathe, hh]

/-- A context that does not wait for the lathe leaves those that do. -/
theorem filter_waiters {n : Nat} (h : n ∉ c.waiters) : c.waiters.filter (· ≠ n) = c.waiters :=
  List.filter_eq_self.2 fun _ ha => decide_eq_true fun e => h (e ▸ ha)

theorem releaseLathe_grants {w : Nat} {r : List Nat} (hh : c.holder = some x.ctx) (hq : c.latheQ = []) (hw : c.waiters = w :: r)
    (hx : x.ctx ∉ c.waiters) :
    releaseLathe x.ctx c = { c with holder := some w, releasing := false, waiters := r, acc := [] } := by
  have hfilter := filter_waiters hx
  rw [hw] at hfilter
  simp only [releaseLathe, hh, hq, hw, hfilter, grantNext, if_true, List.isEmpty_nil]

theorem releaseLathe_frees (hh : c.holder = some x.ctx) (hq : c.latheQ = []) (hw : c.waiters = []) :
    releaseLathe x.ctx c = { c with holder := none, releasing := false } := by
  simp only [releaseLathe, hh, hq, hw, grantNext, if_true, List.isEmpty_nil, List.filter_nil]

theorem releaseLathe_drains (hh : c.holder = some x.ctx) (hq : c.latheQ ≠ []) (hx : x.ctx ∉ c.waiters) :
    releaseLathe x.ctx c = { c with releasing := true } := by
  have hne : c.latheQ.isEmpty = false := List.isEmpty_eq_false_iff.2 hq
  simp only [releaseLathe, filter_waiters hx, hh, hne, if_true, Bool.false_eq_true, if_false]
end

/-! ### Rows of the accumulator (R219, R229) -/

theorem rowOk_iff (v : Word64) : rowOk v = true ↔ v.toNat % 2 = 0 ∧ v.toNat ≤ 126 := by simp [rowOk]

section
variable {s : State} {x : CtxId} {o : Ops} {k : Ctx} {c : Core} (hc : coreOf s x.core = some c)
  (hh : c.holder = some x.ctx) (hr : c.releasing = false) (hd : vtOk o.d = true) (ha : rowOk (gget k o.a) = true)
include hc hh hr hd ha

theorem exec_lrd (h : Issues (.lrd x o) s x o k) (hb : latheBusy s x = 0) :
    exec (.lrd x o) s = .next (retire x (vtWrite (o.d + 1) (accRow c ((gget k o.a).toNat + 1))
      (vtWrite o.d (accRow c (gget k o.a).toNat) (issuing k))) s) := by
  obtain ⟨_, _, _, _, _, _, _, _, hfail, _⟩ := canIssue_some h.able
  refine (latheInsn_of_holds h.toReady (holdsLathe_of_holder hc hh hr)).trans (insn_go h ?_ rfl rfl hfail)
  simp only [hd, gget_issuing, ha, hb, doLrd, hc]
  rfl

theorem exec_lrd_waits (h : Issues (.lrd x o) s x o k) (hb : latheBusy s x ≠ 0) :
    exec (.lrd x o) s = .next (waiting x (.lrd o) (issuing k) s) := by
  obtain ⟨_, _, _, _, _, _, _, _, hfail, _⟩ := canIssue_some h.able
  refine (latheInsn_of_holds h.toReady (holdsLathe_of_holder hc hh hr)).trans (insn_waits h.toReady ?_ ?_)
  · simp only [hd, gget_issuing, ha, hb]
    rfl
  · have hidle : (issuing k).failing = none := hfail
    simp [due, hidle, hb]

theorem exec_lwr_waits (h : Issues (.lwr x o) s x o k) (hb : latheBusy s x ≠ 0) :
    exec (.lwr x o) s = .next (waiting x (.lwr o) (issuing k) s) := by
  obtain ⟨_, _, _, _, _, _, _, _, hfail, _⟩ := canIssue_some h.able
  refine (latheInsn_of_holds h.toReady (holdsLathe_of_holder hc hh hr)).trans (insn_waits h.toReady ?_ ?_)
  · simp only [hd, gget_issuing, ha, hb]
    rfl
  · have hidle : (issuing k).failing = none := hfail
    simp [due, hidle, hb]
end

/-- Rows of the accumulator let no context go on. -/
theorem Calm.modRows {s : State} {n : Nat} (h : Calm s n) (f : Core → Table Block) :
    Calm (modCore n (fun y => { y with acc := f y }) s) n := by
  intro i hi k hk
  have hview : (coreOf (modCore n (fun y => { y with acc := f y }) s) n).map latheView = (coreOf s n).map latheView := by
    rw [coreOf_modCore_same, Option.map_map]
    rfl
  have hctx : ctxOf s { core := n, ctx := i } = some k := by
    rw [← hk]
    simp only [ctxOf, coreOf_modCore_same]
    cases coreOf s n <;> rfl
  exact (due_congr (s := s) { core := n, ctx := i } k hview rfl).trans (h i hi k hctx)

theorem exec_lwr {s : State} {x : CtxId} {o : Ops} {k : Ctx} {c : Core} (hc : coreOf s x.core = some c)
    (hh : c.holder = some x.ctx) (hr : c.releasing = false) (hd : vtOk o.d = true) (ha : rowOk (gget k o.a) = true)
    (h : Issues (.lwr x o) s x o k) (hb : latheBusy s x = 0) :
    let r := (gget k o.a).toNat
    let a := vtRead o.d (issuing k) s
    let b := vtRead (o.d + 1) a.2.1 a.2.2
    exec (.lwr x o) s = .next (retire x b.2.1 (modCore x.core (fun y => setRow (r + 1) b.1 (setRow r a.1 y)) b.2.2)) := by
  intro r a b
  have hdraws : Draws (issuing k) s b.2 := (draws_vtRead o.d _ _).trans (draws_vtRead (o.d + 1) _ _)
  refine (latheInsn_of_holds h.toReady (holdsLathe_of_holder hc hh hr)).trans
    (insn_goes h ?_ hdraws.item hdraws.pc hdraws.failing ?_ ?_ ?_)
  · simp only [hd, gget_issuing, ha, hb]
    rfl
  all_goals obtain ⟨f, hf⟩ := hdraws.state; rw [hf]
  · rfl
  · rw [coreOf_modCore_same]
    exact Option.isSome_of_eq_some (congrArg _ (show coreOf { s with free := f } x.core = some c from hc))
  · exact Calm.modRows (s := { s with free := f }) h.calm _

/-- Settles O11: what the rows ask of the lathe, who then has it, and the rows that the holder moves. -/
theorem latheHolder : Obligations.LatheHolder := by
  unfold Obligations.LatheHolder
  refine ⟨⟨fun x o s k c hc => ⟨fun hh hr => ?holds, fun hn => ?others⟩, fun x c => ?grants⟩,
    fun x o s k c hc hh hr h2 h8 he hrow => ?rows⟩
  case holds =>
    have hl := holdsLathe_of_holder hc hh hr
    exact ⟨fun h => exec_lacq_holds h hl, fun h => exec_lrel h hl⟩
  case others =>
    have hl : holdsLathe s x = false := by
      rw [Bool.eq_false_iff, Ne, holdsLathe_iff hc]
      rintro ⟨hh, hr⟩
      exact hn.elim (fun h => h hh) (fun h => by rw [hr] at h; cases h)
    exact ⟨fun h => exec_lacq_asks h hl, fun h => latheInsn_fails h hl, fun h => latheInsn_fails h hl, fun h => latheInsn_fails h hl,
      fun h => latheInsn_fails h hl, fun h => latheInsn_fails h hl, fun h => latheInsn_fails h hl, fun h => latheInsn_fails h hl,
      fun h => latheInsn_fails h hl⟩
  case grants => exact ⟨askLathe_free, fun _ => askLathe_held, fun _ _ => releaseLathe_grants, releaseLathe_frees, releaseLathe_drains⟩
  case rows =>
    have hd := (vtOk_iff o.d).2 ⟨h2, h8⟩
    have ha := (rowOk_iff (gget k o.a)).2 ⟨he, hrow⟩
    exact ⟨fun h => ⟨exec_lrd hc hh hr hd ha h, exec_lrd_waits hc hh hr hd ha h⟩,
      fun h => ⟨exec_lwr hc hh hr hd ha h, exec_lwr_waits hc hh hr hd ha h⟩⟩

end Sys2Proof.Machine

namespace Sys2Proof.Machine

/-! ## Instructions that start an asynchronous operation (R218, R223, R225 to R228) -/

/-- Cores and queues are as they were. -/
def KeepsCoresQueues (s t : State) : Prop := t.cores = s.cores ∧ t.queues = s.queues

/-- The request of an operation, if it is sent, changes neither cores nor queues. -/
theorem sendOp_keeps (x : CtxId) (k : Ctx) (op : AsyncOp) (ad : Word64) (ts : List Tile) (s : State) :
    KeepsCoresQueues s (sendOp x k op ad ts s).2 := by
  unfold sendOp
  split
  case h_1 n slot via a _ _ =>
    dsimp only
    split
    · exact ⟨rfl, rfl⟩
    · cases via <;> exact ⟨rfl, rfl⟩
  case h_2 => exact ⟨rfl, rfl⟩

theorem codeLen_queues {s t : State} (k : Ctx) (h : t.queues = s.queues) : codeLen t k = codeLen s k := by
  simp only [codeLen, imageOf, cmdOfItem, queueOf, h]

/-- A core is calm by the cores alone. -/
theorem Calm.of_cores {s t : State} {n : Nat} (hs : Calm s n) (h : t.cores = s.cores) : Calm t n := by
  have hcore : ∀ m, coreOf t m = coreOf s m := fun m => by rw [coreOf, coreOf, h]
  intro i hi k hk
  rw [due_congr (s := s) _ k (by rw [hcore]) (by rw [h])]
  exact hs i hi k (by rwa [ctxOf, ← hcore])

/-- What is clear of a context's operations is clear of another's with the same ones. -/
theorem Clear.congr {rs ws : List Span} {x : CtxId} {k k' : Ctx} {s s' : State} (h : Clear rs ws x k s) (hk : k'.tokens = k.tokens)
    (hs : s'.cores = s.cores) : Clear rs ws x k' s' := by
  unfold Clear
  rw [hk, hs]
  exact h

@[simp] theorem tokened_tokens (o : Ops) (e : Nat) (k : Ctx) : (tokened o e k).tokens = k.tokens := gset_tokens ..
@[simp] theorem tokened_item (o : Ops) (e : Nat) (k : Ctx) : (tokened o e k).item = k.item := gset_item ..
@[simp] theorem tokened_pc (o : Ops) (e : Nat) (k : Ctx) : (tokened o e k).pc = k.pc := gset_pc ..
@[simp] theorem tokened_failing (o : Ops) (e : Nat) (k : Ctx) : (tokened o e k).failing = k.failing := gset_failing ..

/-- An instruction that finds a free entry takes the lowest (R226). -/
theorem takeToken_free {o : Ops} {k : Ctx} {s : State} {e : Nat} {go : Nat → Ctx → State → IOut} (he : freeEntry k = some e) :
    takeToken o k s go = go e (tokened o e k) s := by
  rw [takeToken, he]
  rfl

/-- What an operation of which nothing outstanding touches the slots starts as. -/
theorem startOp_clear {x : CtxId} {o : Ops} {op : AsyncOp} {send : Ctx → State → Option Node × State} {k : Ctx} {s : State} {e : Nat}
    (he : freeEntry k = some e) (h : Clear (opSpans op).1 (opSpans op).2 x k s) :
    startOp x o op send k s = .go (putToken e op false (send (tokened o e k) s).1 (tokened o e k)) (send (tokened o e k) s).2 := by
  have hwild := hazard_of_clear h rfl rfl
  have hmark := markWild_clear (h.congr (k' := tokened o e k) (tokened_tokens ..) rfl)
  simp only [startOp, takeToken_free he, hwild, hmark]

section
variable {i : Instr} {s : State} {x : CtxId} {o : Ops} {k : Ctx} {body : Ctx → State → IOut} {e : Nat}

/-- An instruction that starts an operation, once it has read what it sends: its entry holds the operation, gD the token. -/
theorem insn_starts {op : AsyncOp} {send : Ctx → State → Option Node × State} {r : Ctx × State} (h : Issues i s x o k)
    (he : freeEntry k = some e) (hclear : Clear (opSpans op).1 (opSpans op).2 x k s) (hd : Draws (issuing k) s r)
    (hb : body (issuing k) s = startOp x o op send r.1 r.2) (hsend : ∀ k' s', KeepsCoresQueues s' (send k' s').2) :
    insn i x o body s = .next (retire x (putToken e op false (send (tokened o e r.1) r.2).1 (tokened o e r.1))
      (send (tokened o e r.1) r.2).2) := by
  obtain ⟨c, hc, _⟩ := canIssue_some h.able
  have hfree : freeEntry r.1 = some e := by
    rw [← he, freeEntry, freeEntry, hd.tokens]
    rfl
  obtain ⟨hcores, hqueues⟩ := hsend (tokened o e r.1) r.2
  have hcores' := hcores.trans hd.cores
  have hqueues' : (send (tokened o e r.1) r.2).2.queues = s.queues := by
    obtain ⟨f, hf⟩ := hd.state
    exact hqueues.trans (by rw [hf])
  refine insn_goes h (hb.trans (startOp_clear hfree (hclear.congr hd.tokens hd.cores))) ((tokened_item ..).trans hd.item)
    ((tokened_pc ..).trans hd.pc) ((tokened_failing ..).trans hd.failing) (codeLen_queues k hqueues') ?_ (h.calm.of_cores hcores')
  rw [coreOf, hcores']
  exact Option.isSome_of_eq_some hc

/-- One that sends nothing. -/
theorem insn_puts {op : AsyncOp} (h : Issues i s x o k) (he : freeEntry k = some e)
    (hclear : Clear (opSpans op).1 (opSpans op).2 x k s)
    (hb : body (issuing k) s = startOp x o op (fun _ t => (none, t)) (issuing k) s) :
    insn i x o body s = .next (retire x (putToken e op false none (tokened o e (issuing k))) s) :=
  insn_starts (send := fun _ t => (none, t)) (r := (issuing k, s)) h he hclear (Draws.refl _ _) hb fun _ _ => ⟨rfl, rfl⟩

theorem draws_slotReads (c n : Nat) (k : Ctx) (s : State) : Draws k s (slotReads c n k s).2 := by
  induction c generalizing n k s with
  | zero => exact .refl k s
  | succ c ih => exact (draws_slotRead n k s).trans (ih ..)

/-- The field SPACE (R223). -/
theorem immF_space (o : Ops) : immF o 5 4 = o.i.toNat / 16 % 4 := by simp [immF, fld, Nat.shiftRight_eq_div_pow]

theorem immF_count16 (o : Ops) : immF o 3 0 = o.i.toNat % 16 := by simp [immF, fld]

theorem immF_count2048 (o : Ops) : immF o 10 0 = o.i.toNat % 2048 := by simp [immF, fld]

theorem spaceOf_global (h : o.i.toNat / 16 % 4 = 0) : spaceOf o = some .global := by simp only [spaceOf, immF_space, h]

theorem spaceOf_resident (h : o.i.toNat / 16 % 4 = 1) : spaceOf o = some .resident := by simp only [spaceOf, immF_space, h]

theorem spaceOf_reserved (h : 2 ≤ o.i.toNat / 16 % 4) : spaceOf o = none := by
  obtain ⟨n, hn⟩ : ∃ n, o.i.toNat / 16 % 4 = n + 2 := ⟨_, (Nat.sub_add_cancel h).symm⟩
  rw [spaceOf, immF_space, hn]
  rfl

theorem slotsOk_inside {v : Word64} {n : Nat} (h : v.toNat + n ≤ k.slotCount) : slotsOk k v n = true := decide_eq_true h

theorem slotsOk_outside {v : Word64} {n : Nat} (h : k.slotCount < v.toNat + n) : slotsOk k v n = false :=
  decide_eq_false (Nat.not_le.2 h)
end

section
variable {s : State} {x : CtxId} {o : Ops} {k : Ctx} {e : Nat} (he : freeEntry k = some e)
include he

theorem exec_tld_global (h : Issues (.tld x o) s x o k) (hin : (gget k o.b).toNat + (o.i.toNat % 16 + 1) ≤ k.slotCount)
    (hclear : Clear [] [((gget k o.b).toNat, o.i.toNat % 16 + 1)] x k s) (hs : o.i.toNat / 16 % 4 = 0) :
    let op : AsyncOp := .load .global (gget k o.a) (gget k o.b).toNat (o.i.toNat % 16 + 1)
    let r := sendOp x (tokened o e (issuing k)) op (gget k o.a) [] s
    exec (.tld x o) s = .next (retire x (putToken e op false r.1 (tokened o e (issuing k))) r.2) := by
  intro op r
  refine insn_starts (send := fun k1 t1 => sendOp x k1 op (gget k o.a) [] t1) (r := (issuing k, s)) h he hclear (Draws.refl _ _) ?_
    fun k' s' => sendOp_keeps x k' op _ [] s'
  have hok : slotsOk (issuing k) (gget k o.b) (o.i.toNat % 16 + 1) = true := slotsOk_inside hin
  simp only [spaceOf_global hs, immF_count16, gget_issuing, hok]
  rfl

theorem exec_tld_resident (h : Issues (.tld x o) s x o k) (hin : (gget k o.b).toNat + (o.i.toNat % 16 + 1) ≤ k.slotCount)
    (hclear : Clear [] [((gget k o.b).toNat, o.i.toNat % 16 + 1)] x k s) (hs : o.i.toNat / 16 % 4 = 1) :
    exec (.tld x o) s = .next (retire x (putToken e (.load .resident (gget k o.a) (gget k o.b).toNat (o.i.toNat % 16 + 1)) false none
      (tokened o e (issuing k))) s) := by
  refine insn_puts h he hclear ?_
  have hok : slotsOk (issuing k) (gget k o.b) (o.i.toNat % 16 + 1) = true := slotsOk_inside hin
  simp only [spaceOf_resident hs, immF_count16, gget_issuing, hok]
  rfl

/-- A TST of a tile that does not lie at another home, or of the resident segment. -/
theorem exec_tst_here (h : Issues (.tst x o) s x o k) (hin : (gget k o.b).toNat + (o.i.toNat % 16 + 1) ≤ k.slotCount)
    (hclear : Clear [((gget k o.b).toNat, o.i.toNat % 16 + 1)] [] x k s) {sp : Space} (hs : spaceOf o = some sp)
    (haway : ¬ (sp = .global ∧ (awayHome s (gget k o.a)).isSome = true)) :
    exec (.tst x o) s = .next (retire x (putToken e (.store sp (gget k o.a) (gget k o.b).toNat (o.i.toNat % 16 + 1)) false none
      (tokened o e (issuing k))) s) := by
  refine insn_puts h he hclear ?_
  have hok : slotsOk (issuing k) (gget k o.b) (o.i.toNat % 16 + 1) = true := slotsOk_inside hin
  simp only [hs, immF_count16, gget_issuing, hok, haway]
  rfl

theorem exec_tst_away (h : Issues (.tst x o) s x o k) (hin : (gget k o.b).toNat + (o.i.toNat % 16 + 1) ≤ k.slotCount)
    (hclear : Clear [((gget k o.b).toNat, o.i.toNat % 16 + 1)] [] x k s) (hs : o.i.toNat / 16 % 4 = 0)
    (haway : (awayHome s (gget k o.a)).isSome = true) :
    let op : AsyncOp := .store .global (gget k o.a) (gget k o.b).toNat (o.i.toNat % 16 + 1)
    let d := slotReads (o.i.toNat % 16 + 1) (gget k o.b).toNat (issuing k) s
    let r := sendOp x (tokened o e d.2.1) op (gget k o.a) d.1 d.2.2
    exec (.tst x o) s = .next (retire x (putToken e op false r.1 (tokened o e d.2.1)) r.2) := by
  intro op d r
  refine insn_starts (send := fun k2 t2 => sendOp x k2 op (gget k o.a) d.1 t2) (r := d.2) h he hclear (draws_slotReads _ _ _ _) ?_
    fun k' s' => sendOp_keeps x k' op _ _ s'
  have hok : slotsOk (issuing k) (gget k o.b) (o.i.toNat % 16 + 1) = true := slotsOk_inside hin
  simp only [spaceOf_global hs, immF_count16, gget_issuing, hok, haway, insnReads_clear hclear]
  rfl

theorem exec_tcpy_puts (h : Issues (.tcpy x o) s x o k) (ha : (gget k o.a).toNat + (o.i.toNat % 2048 + 1) ≤ k.slotCount)
    (hb : (gget k o.b).toNat + (o.i.toNat % 2048 + 1) ≤ k.slotCount)
    (hclear : Clear [((gget k o.a).toNat, o.i.toNat % 2048 + 1)] [((gget k o.b).toNat, o.i.toNat % 2048 + 1)] x k s) :
    exec (.tcpy x o) s = .next (retire x (putToken e (.copy (gget k o.a).toNat (gget k o.b).toNat (o.i.toNat % 2048 + 1)) false none
      (tokened o e (issuing k))) s) := by
  refine insn_puts h he hclear ?_
  have hoka : slotsOk (issuing k) (gget k o.a) (o.i.toNat % 2048 + 1) = true := slotsOk_inside ha
  have hokb : slotsOk (issuing k) (gget k o.b) (o.i.toNat % 2048 + 1) = true := slotsOk_inside hb
  simp only [immF_count2048, gget_issuing, hoka, hokb]
  rfl

theorem exec_tzero_puts (h : Issues (.tzero x o) s x o k) (hb : (gget k o.b).toNat + (o.i.toNat % 2048 + 1) ≤ k.slotCount)
    (hclear : Clear [] [((gget k o.b).toNat, o.i.toNat % 2048 + 1)] x k s) :
    exec (.tzero x o) s = .next (retire x (putToken e (.zero (gget k o.b).toNat (o.i.toNat % 2048 + 1)) false none
      (tokened o e (issuing k))) s) := by
  refine insn_puts h he hclear ?_
  have hokb : slotsOk (issuing k) (gget k o.b) (o.i.toNat % 2048 + 1) = true := slotsOk_inside hb
  simp only [immF_count2048, gget_issuing, hokb]
  rfl
end

section
variable {x : CtxId} {o : Ops} {k : Ctx}

/-- A reserved space fails the item (R215, R223). -/
theorem tld_tst_reserved (h : 2 ≤ o.i.toNat / 16 % 4) :
    FailsItem (.tld x o) x o .opcode (fun k' _ => k' = k) ∧ FailsItem (.tst x o) x o .opcode (fun k' _ => k' = k) := by
  refine ⟨failsItem_of_body _ (fun _ => rfl) fun _ _ _ => ?_, failsItem_of_body _ (fun _ => rfl) fun _ _ _ => ?_⟩ <;>
    simp only [spaceOf_reserved h] <;> rfl

/-- Slots outside the context's fail the item (R215). -/
theorem tld_tst_outside (hs : o.i.toNat / 16 % 4 < 2) (hout : k.slotCount < (gget k o.b).toNat + (o.i.toNat % 16 + 1)) :
    FailsItem (.tld x o) x o .noAccess (fun k' _ => k' = k) ∧ FailsItem (.tst x o) x o .noAccess (fun k' _ => k' = k) := by
  obtain ⟨sp, hsp⟩ : ∃ sp, spaceOf o = some sp := by
    rcases Nat.lt_succ_iff_lt_or_eq.1 hs with h | h
    · exact ⟨_, spaceOf_global (Nat.lt_one_iff.1 h)⟩
    · exact ⟨_, spaceOf_resident h⟩
  have hbad : slotsOk (issuing k) (gget k o.b) (o.i.toNat % 16 + 1) = false := slotsOk_outside hout
  refine ⟨failsItem_of_body _ (fun _ => rfl) ?_, failsItem_of_body _ (fun _ => rfl) ?_⟩ <;> rintro _ s rfl <;>
    simp only [hsp, immF_count16, gget_issuing, hbad] <;> rfl

theorem tcpy_tzero_outside (hout : k.slotCount < (gget k o.b).toNat + (o.i.toNat % 2048 + 1)) :
    FailsItem (.tcpy x o) x o .noAccess (fun k' _ => k' = k) ∧ FailsItem (.tzero x o) x o .noAccess (fun k' _ => k' = k) := by
  have hbad : slotsOk (issuing k) (gget k o.b) (o.i.toNat % 2048 + 1) = false := slotsOk_outside hout
  refine ⟨failsItem_of_body _ (fun _ => rfl) ?_, failsItem_of_body _ (fun _ => rfl) ?_⟩ <;> rintro _ s rfl <;>
    simp only [immF_count2048, gget_issuing, hbad, Bool.not_false, Bool.or_true] <;> rfl
end

/-! ## A new TATOM (R90, R218, R226, R231) -/

theorem queueOf_modQueue_ne {q n : Nat} (f : Queue → Queue) (s : State) (h : n ≠ q) : queueOf (modQueue q f s) n = queueOf s n :=
  tget_tmod_ne _ f h

/-- A command of a queue after a change of one that keeps its sequence number. -/
theorem cmdOf_mapCmds {f : Cmd → Cmd} (hf : ∀ y, (f y).seq = y.seq) (q : Queue) (c n : Word32) :
    cmdOf { q with cmds := q.cmds.map (fun y => if y.seq = c then f y else y) } n =
      (cmdOf q n).map (fun y => if y.seq = c then f y else y) := by
  have hseq : ∀ y : Cmd, (if y.seq = c then f y else y).seq = y.seq := fun y => by
    split
    · exact hf y
    · rfl
  simp only [cmdOf, List.find?_map]
  exact congrArg (fun p => (q.cmds.find? p).map _) (funext fun y => congrArg (· == n) (hseq y))

/-- Changing a command without its sequence number and its image leaves every context's image. -/
theorem imageOf_modCmd {f : Cmd → Cmd} (hf : ∀ y, (f y).seq = y.seq) (hi : ∀ y, (f y).image = y.image) (qn : Nat) (c : Word32)
    (s : State) (k : Ctx) : imageOf (modCmd qn c f s) k = imageOf s k := by
  unfold imageOf cmdOfItem modCmd
  by_cases hq : k.item.queue = qn
  · rw [hq, queueOf_modQueue_same]
    cases queueOf s qn with
    | none => rfl
    | some q =>
      simp only [Option.map_some, cmdOf_mapCmds hf]
      cases cmdOf q k.item.cmdSeq with
      | none => rfl
      | some y =>
        simp only [Option.map_some]
        split
        · exact hi y
        · rfl
  · rw [queueOf_modQueue_ne _ _ hq]

/-- A new record leaves the code that a context runs. -/
theorem codeLen_addRec (it : Item) (r : TatomRec) (s : State) (k : Ctx) : codeLen (addRec it r s) k = codeLen s k := by
  rw [codeLen, addRec, imageOf_modCmd, codeLen]
  · intro y
    split <;> rfl
  · intro y
    split <;> rfl

/-- A context that is not due stays so while windows only fill (R231). -/
theorem due_of_windows {s t : State} (y : CtxId) (k : Ctx) (hc : t.cores.cores = s.cores.cores)
    (hw : ∀ p h, windowFull s p h = true → windowFull t p h = true) (hd : due s y k = false) : due t y k = false := by
  have hcore : ∀ n, coreOf t n = coreOf s n := fun n => by rw [coreOf, coreOf, hc]
  have hbusy : latheBusy t y = latheBusy s y := by rw [latheBusy, latheBusy, hcore]
  have hquiet : quiet t y k = quiet s y k := by rw [quiet, quiet, hbusy]
  unfold due at hd ⊢
  rw [hquiet, hbusy, hcore]
  cases hf : k.failing.isSome with
  | true =>
    rw [hf] at hd
    exact hd
  | false =>
    simp only [hf, Bool.false_eq_true, if_false] at hd ⊢
    cases hwait : k.wait with
    | none => rfl
    | some w =>
      rw [hwait] at hd
      cases w with
      | window h => simpa using hw _ h (by simpa using hd)
      | _ => exact hd


/-- A new TATOM's source keeps what it had outstanding, so no window empties. -/
theorem windowFull_takeAtomic {a : Actor} {home : Node} {it : Item} {idx : Nat} {op : BitVec 16 → Word32 → AsyncOp} {s : State}
    (p : Nat) (h : Node) (hw : windowFull s p h = true) : windowFull (takeAtomic a home it idx op s).2 p h = true := by
  unfold windowFull at hw ⊢
  by_cases hk : sourceKey p h = sourceKey a.part home
  · have hsrc : sourceOf s a.part home = sourceOf s p h := by rw [sourceOf, sourceOf, hk]
    simp only [takeAtomic, setSource, sourceOf, hk, tgetD, tget_tset_same, Option.getD_some, List.length_append, decide_eq_true_eq] at hw ⊢
    omega
  · simp only [takeAtomic, setSource, sourceOf, tgetD, tget_tset_ne _ _ hk]
    exact hw

section
variable {x : CtxId} {o : Ops} {aop size : Nat} {k : Ctx} {s : State} {e : Nat} {a : Actor}

/-- The operation of a TATOM, once it has its tag and ASEQ. -/
def atomicOp (o : Ops) (aop size : Nat) (k : Ctx) (tag : BitVec 16) (aseq : Word32) : AsyncOp :=
  .atomic (gget k o.a) aop size (gget k o.b) (gget k o.c) tag aseq k.tatomCount

/-- The record of a TATOM that has not been answered (R232). -/
def atomicRec (o : Ops) (aop : Nat) (k : Ctx) : TatomRec := { addr := gget k o.a, aop := aop, status := none, result := 0 }

/-- A new TATOM that finds a free entry and room in the window takes its tag and ASEQ, is recorded and sent. -/
theorem newAtomic_issued (he : freeEntry k = some e) (ha : itemActor s x k false = some a) (hr : recAt s k.item k.tatomCount = none)
    (hw : windowFull s a.part (atomHome s (gget k o.a)) = false) :
    let tk := takeAtomic a (atomHome s (gget k o.a)) k.item k.tatomCount (atomicOp o aop size k) s
    let r := sendOp x k tk.1 (gget k o.a) [] (addRec k.item (atomicRec o aop k) tk.2)
    newAtomic x o aop size k s = .go (putToken e tk.1 false r.1 { tokened o e k with tatomCount := k.tatomCount + 1 }) r.2 := by
  simp only [newAtomic, ha, hw, takeToken_free he, hr]
  rfl
end

/-- The device once a new TATOM has its tag and is recorded: cores are calm, and code and contexts as they were. -/
theorem Calm.newAtomic {n : Nat} {s t : State} {a : Actor} {home : Node} {it : Item} {idx : Nat} {op : BitVec 16 → Word32 → AsyncOp}
    (hs : Calm s n) (ht : t.cores = (takeAtomic a home it idx op s).2.cores) : Calm t n := by
  have hcores : t.cores.cores = s.cores.cores := (congrArg CoreSt.cores ht).trans rfl
  intro i hi k hk
  refine due_of_windows _ k hcores (fun p h hw => ?_) (hs i hi k (by rwa [ctxOf, coreOf, ← hcores]))
  have htaken := windowFull_takeAtomic (a := a) (home := home) (it := it) (idx := idx) (op := op) p h hw
  rw [windowFull, sourceOf, ht]
  exact htaken

theorem exec_tatom_new {x : CtxId} {o : Ops} {s : State} {k : Ctx} {e : Nat} {a : Actor} (h : Issues (.tatom x o) s x o k)
    (he : freeEntry k = some e) (hf : o.f.toNat < 64) (hop : aopOk o.f.toNat (o.i.toNat % 2) = true)
    (hr : recAt s k.item k.tatomCount = none) (ha : itemActor s x k false = some a)
    (hw : windowFull s a.part (atomHome s (gget k o.a)) = false) :
    let k0 := issuing k
    let tk := takeAtomic a (atomHome s (gget k o.a)) k.item k.tatomCount (atomicOp o o.f.toNat (o.i.toNat % 2) k0) s
    let r := sendOp x k0 tk.1 (gget k o.a) [] (addRec k.item (atomicRec o o.f.toNat k0) tk.2)
    exec (.tatom x o) s =
      .next (retire x (putToken e tk.1 false r.1 { tokened o e k0 with tatomCount := k.tatomCount + 1 }) r.2) := by
  intro k0 tk r
  obtain ⟨c, hc, _⟩ := canIssue_some h.able
  obtain ⟨hcores, hqueues⟩ := sendOp_keeps x k0 tk.1 (gget k o.a) [] (addRec k.item (atomicRec o o.f.toNat k0) tk.2)
  have hcode : codeLen r.2 k = codeLen s k := (codeLen_queues k hqueues).trans ((codeLen_addRec ..).trans (codeLen_queues k rfl))
  refine insn_goes h ?_ (tokened_item ..) (tokened_pc ..) (tokened_failing ..) hcode ?_ (h.calm.newAtomic hcores)
  · have himm : immF o 0 0 = o.i.toNat % 2 := by simp [immF, fld]
    have hissued := newAtomic_issued (x := x) (o := o) (aop := o.f.toNat) (size := o.i.toNat % 2) (k := k0) (s := s) he ha hr hw
    have hrec : recAt s (issuing k).item (issuing k).tatomCount = none := hr
    simp only [himm, hop, Nat.not_le.2 hf, hrec]
    exact hissued
  · rw [coreOf, show r.2.cores.cores = s.cores.cores from (congrArg CoreSt.cores hcores).trans rfl]
    exact Option.isSome_of_eq_some hc

/-- Settles O8: each row is `startOp` where nothing outstanding touches its slots, or fails; a new TATOM is `newAtomic_issued`. -/
theorem tileOperations : Obligations.TileOperations := by
  unfold Obligations.TileOperations
  refine ⟨fun x o s k e he => ⟨fun h hin hc => ?tld, fun h hin hc => ?tst, fun h ha hb hc => exec_tcpy_puts he h ha hb hc,
    fun h hb hc => exec_tzero_puts he h hb hc, tld_tst_reserved, tld_tst_outside, tcpy_tzero_outside⟩,
    fun x o s k e a h he hf hop hrec ha hroom => ⟨rfl, ?tatom⟩⟩
  case tld => exact ⟨exec_tld_global he h hin hc, exec_tld_resident he h hin hc⟩
  case tst =>
    refine ⟨fun hs haway => ?_, fun hs haway => ?_, fun hs => ?_⟩
    · exact exec_tst_here he h hin hc (spaceOf_global hs) (by simp [haway])
    · exact exec_tst_away he h hin hc hs (Option.isSome_iff_ne_none.2 haway)
    · exact exec_tst_here he h hin hc (spaceOf_resident hs) (by simp)
  case tatom => exact exec_tatom_new h he hf hop hrec ha (decide_eq_false (Nat.not_le.2 hroom))

end Sys2Proof.Machine

namespace Sys2Proof.Machine

/-! ## Asynchronous operations complete (R226 to R228, R239) -/

/-- The row of a completion. -/
theorem exec_tileOpComplete {x : CtxId} {e : Nat} {ans : Option RemoteAnswer} {s u : State} (h : tileOp x e ans s = u) :
    exec (.tileOpComplete x e ans) s = .next (settle (wakeCore x.core u)) := by
  rw [← h]
  rfl

/-- An operation of a context that is outstanding and that nothing holds back. -/
structure OpTurn (x : CtxId) (e : Nat) (s : State) (c : Core) (k : Ctx) (t : Token) (a : Actor) : Prop where
  core : coreOf s x.core = some c
  ctx : ctxOf s x = some k
  token : tget k.tokens e = some t
  actor : itemActor s x k false = some a
  serves : c.recovering = false
  outstanding : t.done = none
  free : heldBack k e t = false
  active : partState s a.part = .active

section
variable {x : CtxId} {e : Nat} {s : State} {c : Core} {k : Ctx} {t : Token} {a : Actor} {ans : Option RemoteAnswer}
  (h : OpTurn x e s c k t a)
include h

/-- Nothing bars the turn of an operation. -/
theorem OpTurn.goes : (c.recovering || t.done.isSome || heldBack k e t || partState s a.part != .active) = false := by
  simp [h.serves, h.outstanding, h.free, h.active]

theorem tileOp_zero {d n : Nat} (hop : t.op = .zero d n) (hw : t.wild = false) :
    tileOp x e ans s = modCtx x (slotWrites d (List.replicate n zeroTile)) (dropToken x e s) := by
  simp only [tileOp, h.core, h.ctx, h.token, h.actor, h.goes, hop, hw]
  rfl

theorem tileOp_copy {b d n : Nat} (hop : t.op = .copy b d n) (hw : t.wild = false) :
    tileOp x e ans s =
      dropToken x e (putCtx x (slotWrites d (slotReads n b k s).1 (slotReads n b k s).2.1) (slotReads n b k s).2.2) := by
  simp only [tileOp, h.core, h.ctx, h.token, h.actor, h.goes, hop, hw]
  rfl

theorem tileOp_loadResident {ad : Word64} {slot n : Nat} (hop : t.op = .load .resident ad slot n) :
    tileOp x e ans s = loadHere x e t true ad slot n a s := by
  simp only [tileOp, h.core, h.ctx, h.token, h.actor, h.goes, hop]
  rfl

theorem tileOp_global {ad : Word64} {slot n : Nat} (hop : t.op = .load .global ad slot n ∨ t.op = .store .global ad slot n) :
    tileOp x e ans s = globalStep x e t k ad a ans s := by
  rcases hop with hop | hop <;> simp only [tileOp, h.core, h.ctx, h.token, h.actor, h.goes, hop] <;> rfl

theorem tileOp_atomic {ad v cmp : Word64} {aop size idx : Nat} {tag : BitVec 16} {q : Word32}
    (hop : t.op = .atomic ad aop size v cmp tag q idx) :
    tileOp x e ans s = atomStep x e t k ad aop size v cmp tag q idx a ans s := by
  simp only [tileOp, h.core, h.ctx, h.token, h.actor, h.goes, hop]
  rfl
end

section
variable {x : CtxId} {e : Nat} {s : State} {k : Ctx} {t : Token} {a : Actor} {ad : Word64} {h : Node} {r : RemoteAnswer}

/-- What the resident segment gives lies in the slots of a load. -/
theorem loadHere_resident {slot n : Nat} {ts : List Tile} {u : State} (hw : t.wild = false)
    (hio : runIo ((List.range n).mapM (ioGet a true ad)) [] s = (.ok ts, u)) :
    loadHere x e t true ad slot n a s =
      dropBusyWhere x (fun _ => false) (loadEnds x e slot false ts (countCore x a.part 0x06 n (some 1) none u)) := by
  simp only [loadHere, hio, hw]
  rfl

theorem globalStep_answered (hsent : t.sent = some h) : globalStep x e t k ad a (some r) s = answerEnds x e t ad a h r s := by
  simp only [globalStep, hsent]

theorem answerEnds_failed (hst : r.status ≠ 0) :
    answerEnds x e t ad a h r s = failCtx x (stOf r.status) (tileDetail (aTile ad)) (dropToken x e s) := if_pos hst

theorem answerEnds_store {sp : Space} {ad' : Word64} {slot n : Nat} (hop : t.op = .store sp ad' slot n) (hst : r.status = 0) :
    answerEnds x e t ad a h r s = dropToken x e (countCore x a.part 0x07 n (some 1) (some (aSlot ad)) s) := by
  rw [answerEnds, if_neg (not_not_intro hst), hop]

/-- Tiles read by their numbers are the tiles. -/
theorem map_range_getD (ts : List Tile) : (List.range ts.length).map (fun i => ts.getD i zeroTile) = ts := by
  refine List.ext_getElem (by simp) fun i _ hi => ?_
  simp [hi]

/-- Tiles whose sidecars hold lie in the slots of a load. -/
theorem answerEnds_load {sp : Space} {ad' : Word64} {slot n : Nat} (hw : t.wild = false) (hop : t.op = .load sp ad' slot n)
    (hst : r.status = 0) (hlen : r.tiles.length = n) (hok : r.tiles.all tileOk = true) :
    answerEnds x e t ad a h r s = loadEnds x e slot false r.tiles (countCore x a.part 0x06 n (some 1) (some (aSlot ad)) s) := by
  have hfind : (List.range n).find? (fun i => !tileOk (r.tiles.getD i zeroTile)) = none := by
    refine List.find?_eq_none.2 fun i hi => ?_
    have hlt : i < r.tiles.length := hlen ▸ List.mem_range.1 hi
    rw [List.getD_eq_getElem?_getD, List.getElem?_eq_getElem hlt, Option.getD_some, List.all_eq_true.1 hok _ (List.getElem_mem hlt)]
    decide
  subst hlen
  simp only [answerEnds, if_neg (not_not_intro hst), hop, map_range_getD, hfind, hw]

/-- A TATOM that no record answers ends with the answer of its home. -/
theorem atomStep_answered {v cmp : Word64} {aop size idx : Nat} {tag : BitVec 16} {q : Word32} (hsent : t.sent = some h)
    (hrec : ∀ y, recAt s k.item idx = some y → y.status = none) :
    atomStep x e t k ad aop size v cmp tag q idx a (some r) s = atomEnds x e k ad idx (stOf r.status) r.result s := by
  simp only [atomStep, hsent]
  split
  case h_1 st res _ _ hy => cases hrec _ hy
  case h_2 => rfl

theorem atomEnds_ok {idx : Nat} {st : St} {res : BitVec 128} (hst : st = .ok) :
    atomEnds x e k ad idx st res s = modToken x e (fun y => { y with done := some res })
      (countCore x k.item.part 0x08 1 (some 2) (some (aSlot ad))
        (resolveFor k.item idx (noteRec k.item.queue k.item.cmdSeq k.item.index idx .ok res s))) := by
  rw [atomEnds, if_pos hst, hst]
end

/-! ## A TATOM without a response (R89, R231) -/

/-- The field RETRY of a TATOM that is sent again. -/
theorem abRetry_atomBlock (aop size : Nat) (v cmp : Word64) (q : Word32) : abRetry (atomBlock aop size v cmp q 1) = 1 := by
  have hq := q.isLt
  simp only [abRetry, atomBlock, bitsOf, put, Nat.shiftLeft_eq, Nat.shiftRight_eq_div_pow]
  omega

/-- The field ASEQ of a TATOM. -/
theorem abAseq_atomBlock (aop : Nat) {size : Nat} (v cmp : Word64) (q : Word32) (hs : size < 2) :
    abAseq (atomBlock aop size v cmp q 1) = q := by
  have hq := q.isLt
  apply BitVec.eq_of_toNat_eq
  simp only [abAseq, atomBlock, bitsOf, put, Nat.shiftLeft_eq, Nat.shiftRight_eq_div_pow, BitVec.toNat_ofNat]
  omega

/-- A TATOM whose tile lies at another home is sent again there, from where no extent of this one forwards it. -/
theorem resendAtom_away {p : Nat} {home n : Node} {y : SentAtomic} {s : State} {ad v cmp : Word64} {aop size idx slot : Nat}
    {tg : BitVec 16} {q : Word32} (hop : y.op = .atomic ad aop size v cmp tg q idx) (hplace : placeOf s ad = .away n slot none) :
    resendAtom p home y s = sendEngine (opTx (sourceActor p y) y.op n slot [] 1 s) s := by
  simp only [resendAtom, hop, hplace, viaTx]

/-- Settles O10: the turn of an operation, then what its kind and its answer make of it; a TATOM sent again keeps its tag and ASEQ. -/
theorem tileCompletions : Obligations.TileCompletions := by
  unfold Obligations.TileCompletions
  refine ⟨fun x e s c k t a hc hk ht ha hr hd hw hh hp => ?completes, fun home tag s y hy => ⟨?resend, ?again⟩⟩
  case completes =>
    have h : OpTurn x e s c k t a := ⟨hc, hk, ht, ha, hr, hd, hh, hp⟩
    refine ⟨fun d n hop => ?zero, fun b d n hop => ?copy, fun ad slot n ts u hop hio => ?resident,
      fun ad slot n hn r hop hsent hst hlen hok => ?load, fun ad slot n hn r hop hsent hst => ?store,
      fun sp ad slot n hn r hop hsp hsent hst => ?fails, fun ad aop size v cmp tag q idx hn r hop hsent hrec hst => ?atomic⟩
    case zero => exact exec_tileOpComplete (tileOp_zero h hop hw)
    case copy => exact exec_tileOpComplete (tileOp_copy h hop hw)
    case resident => exact exec_tileOpComplete ((tileOp_loadResident h hop).trans (loadHere_resident hw hio))
    case load =>
      exact exec_tileOpComplete ((tileOp_global h (.inl hop)).trans ((globalStep_answered hsent).trans
        (answerEnds_load hw hop hst hlen hok)))
    case store =>
      exact exec_tileOpComplete ((tileOp_global h (.inr hop)).trans ((globalStep_answered hsent).trans (answerEnds_store hop hst)))
    case fails =>
      subst hsp
      exact exec_tileOpComplete ((tileOp_global h hop).trans ((globalStep_answered hsent).trans (answerEnds_failed hst)))
    case atomic =>
      exact exec_tileOpComplete ((tileOp_atomic h hop).trans ((atomStep_answered hsent hrec).trans (atomEnds_ok hst)))
  case resend =>
    show execTatomResend home tag s = _
    simp only [execTatomResend, hy]
  case again =>
    intro ad aop size v cmp tg q idx n slot hop hs hplace
    exact ⟨resendAtom_away hop hplace, by rw [hop]; exact ⟨rfl, abRetry_atomBlock .., abAseq_atomBlock _ _ _ _ hs, rfl, rfl⟩⟩

end Sys2Proof.Machine

namespace Sys2Proof.Machine

/-! ## Code that arrives (R212, R237) -/

theorem addCode_ctxs (used : List Nat) (code : Nat × Nat) (k : Core) : (addCode used code k).ctxs = k.ctxs := by
  unfold addCode
  split <;> rfl

/-- A core's instruction store holds the code that has arrived. -/
theorem addCode_holds (used : List Nat) (code : Nat × Nat) (k : Core) :
    (addCode used code k).istore.any (fun z => z.1 == code.1) = true := by
  unfold addCode
  split
  case isTrue h => exact h
  case isFalse => simp

/-- A context goes on to its arguments once its code is there, or may issue (R239). -/
def hasCode (y : Ctx) : Ctx := { y with wait := if thas y.tokens 32 then some .args else none }

/-- A core whose instruction store takes a code that context `i` has waited for. -/
def codeStored (used : List Nat) (code : Nat × Nat) (i : Nat) (c : Core) : Core :=
  { addCode used code c with ctxs := tmod (addCode used code c).ctxs i hasCode }

section
variable {core part handle : Nat} {s : State} {k : Core} (hc : coreOf s core = some k)
include hc

theorem exec_codeFetch_none (h : ∀ p ∈ k.ctxs, waitsFor s part handle p.2 = false) :
    exec (.codeFetchComplete core part handle) s = .next s := by
  have hmine : k.ctxs.filter (fun p => waitsFor s part handle p.2) = [] :=
    List.filter_eq_nil_iff.2 fun p hp => by simp [h p hp]
  show execCodeFetchComplete core part handle s = _
  simp only [execCodeFetchComplete, codeArrives, hc, hmine, List.foldl_nil]

/-- The one context of a core, which waits for the code. -/
theorem exec_codeFetch_one {i : Nat} {y : Ctx} (hk : k.ctxs = [(i, y)]) (hy : waitsFor s part handle y = true) :
    exec (.codeFetchComplete core part handle) s = .next (modCore core
      (codeStored ((codesOn s k).map (·.1)) (itemCode s y.item) i) s) := by
  have hmine : k.ctxs.filter (fun p => waitsFor s part handle p.2) = [(i, y)] := by
    rw [hk]
    exact List.filter_cons_of_pos hy
  show execCodeFetchComplete core part handle s = _
  simp only [execCodeFetchComplete, codeArrives, hc, hmine, List.foldl_cons, List.foldl_nil]
  rfl
end

/-! ## Cores that recover, are swept and are retired (R206 to R209, R401, R413) -/

section
variable {phys c : Nat} {s : State} {k : Core} (hl : logicalOf s phys = some (c, k))
include hl

theorem exec_coreReturn_passes (hr : k.recovering = true) :
    exec (.coreReturnToService phys true) s = .next (modCore c (fun x => { x with recovering := false }) s) := by
  show execCoreReturnToService phys true s = _
  simp only [execCoreReturnToService, hl, hr]
  rfl

theorem exec_coreReturn_fails (hr : k.recovering = true) :
    exec (.coreReturnToService phys false) s = .next (retireCore phys s) := by
  show execCoreReturnToService phys false s = _
  simp only [execCoreReturnToService, hl, hr]
  rfl

theorem exec_coreReturn_serving (ok : Bool) (hr : k.recovering = false) : exec (.coreReturnToService phys ok) s = .next s := by
  show execCoreReturnToService phys ok s = _
  simp only [execCoreReturnToService, hl, hr]
  rfl

/-- A core with contexts is not swept. -/
theorem exec_patternSweep_busy (hx : k.ctxs ≠ []) : exec (.patternSweep phys false) s = .next s := by
  have hbusy : k.ctxs.isEmpty = false := List.isEmpty_eq_false_iff.2 hx
  show execPatternSweep phys false s = _
  simp only [execPatternSweep, hl, hbusy]
  cases tget s.cores.phys phys <;> rfl

theorem exec_patternSweep_fails {p : Phys} (hp : tget s.cores.phys phys = some p) (hw : p.working = true) (hr : p.retired = false)
    (hx : k.ctxs = []) :
    let a := bump 0 phys 9 1 s
    let band := bandOf s (physStrip phys)
    exec (.patternSweep phys false) s = .next (retireCore phys (markBurl phys band (post .coreFault k.part
      [phys, (Config.freeWord (takeFree a).1).toNat, band] (takeFree a).2))) := by
  show execPatternSweep phys false s = _
  simp only [execPatternSweep, hl, hp, hw, hr, hx]
  rfl

/-- A retired core is marked so, and its logical index goes to the first spare of its strip or is ABSENT: the core starts anew
(R208, R209). -/
theorem retireCore_cores (hc : coreOf s c = some k) :
    let s1 := modPhys phys (fun x => { x with retired := true }) s
    ∃ f, coreOf (retireCore phys s) c = some f ∧ (retireCore phys s).cores.phys = s1.cores.phys ∧
      f.phys = (sparesOf s1 (physStrip phys)).head? ∧ f.part = k.part ∧ f.ctxs = [] ∧ f.scrubbing = k.scrubbing ∧
      f.removing = k.removing := by
  intro s1
  have hcore : ∀ f, coreOf (modCore c (fun _ => f) s1) c = some f := fun f => by
    rw [coreOf_modCore_same, show coreOf s1 c = some k from hc]
    rfl
  cases hs : sparesOf s1 (physStrip phys) with
  | nil =>
    simp only [retireCore, hl, show sparesOf (modPhys phys _ s) (physStrip phys) = [] from hs]
    exact ⟨_, hcore _, rfl, rfl, rfl, rfl, rfl, rfl⟩
  | cons n r =>
    simp only [retireCore, hl, show sparesOf (modPhys phys _ s) (physStrip phys) = n :: r from hs]
    exact ⟨_, hcore _, rfl, rfl, rfl, rfl, rfl, rfl⟩
end

theorem exec_patternSweep_passes (phys : Nat) (s : State) : exec (.patternSweep phys true) s = .next s := by
  show execPatternSweep phys true s = _
  simp only [execPatternSweep, Bool.true_or, if_true]
  split <;> rfl

/-- Settles O37: code goes to the context that waits for it; a core recovers, is swept and is retired, each by its own rule. -/
theorem codeAndCores : Obligations.CodeAndCores := by
  unfold Obligations.CodeAndCores
  refine ⟨fun core part handle s k hc => ⟨fun i y hk hy => ?arrives, exec_codeFetch_none hc⟩,
    fun phys s c k hl => ⟨exec_coreReturn_passes hl, exec_coreReturn_fails hl, exec_coreReturn_serving hl,
      fun p hp hw hr => exec_patternSweep_fails hl hp hw hr, exec_patternSweep_busy hl, exec_patternSweep_passes phys s⟩,
    fun phys s c k p hp hl hc => ⟨fun n r hs => ?spare, fun hs => ?absent, ?retired⟩⟩
  case arrives =>
    refine ⟨_, codeStored ((codesOn s k).map (·.1)) (itemCode s y.item) i k, exec_codeFetch_one hc hk hy, ?_, addCode_holds _ _ k, ?_,
      fun d hd => coreOf_modCore_ne _ _ hd⟩
    · rw [coreOf_modCore_same, hc]
      rfl
    · simp only [ctxOf, coreOf_modCore_same, hc, Option.map_some, codeStored, tget_tmod_same, addCode_ctxs, hk, tget_cons, if_true]
      rfl
  case spare =>
    obtain ⟨f, hf, _, hphys, hpart, hctxs, hscrub, hremove⟩ := retireCore_cores hl hc
    exact ⟨f, hf, hphys.trans (congrArg List.head? hs), hpart, hctxs, hscrub, hremove⟩
  case absent =>
    obtain ⟨f, hf, _, hphys, hpart, hctxs, _⟩ := retireCore_cores hl hc
    exact ⟨f, hf, hphys.trans (congrArg List.head? hs), hpart, hctxs⟩
  case retired =>
    obtain ⟨_, _, hphys, _⟩ := retireCore_cores hl hc
    rw [hphys, modPhys, tget_tmod_same, hp]
    rfl

end Sys2Proof.Machine

namespace Sys2Proof.Machine

/-! ## Collectives: messages (R253, R254, R260, R261, R265) -/

@[simp] theorem taken_groups (port : Nat) (tx : Tx) (s : State) : (taken port tx s).groups = s.groups := by
  obtain ⟨fl, w, h⟩ := taken_home port tx s
  rw [h]

@[simp] theorem cgOf_taken (port : Nat) (tx : Tx) (s : State) (id : BitVec 48) : cgOf (taken port tx s) id = cgOf s id := by
  simp [cgOf]

@[simp] theorem cgOf_setCg_same (id : BitVec 48) (g : CGroup) (s : State) : cgOf (setCg id g s) id = some g :=
  tget_tset_same _ _ _

/-- The first contribution to a chunk begins it, and the group runs. -/
theorem cgOf_hold_first {s : State} {id : BitVec 48} {g : CGroup} {n : Nat} (h : Contribution) (hg : cgOf s id = some g)
    (hn : chunkOf g n = none) : cgOf (hold id n h s) id = some { g with
      running := true, chunks := g.chunks ++ [{ chunk := n, held := [h], x := none, faults := 0 }] } := by
  simp only [hold, hg, hn, cgOf_setCg_same]

/-- The contribution that a CONTRIBUTE brings, once it has passed its checks. -/
def broughtBy (g : CGroup) (c : CollExt) (i port : Nat) (tx : Tx) : Contribution :=
  let n := if c.isPartial then 16 else chunkTiles g.e.inFspec
  let data := tx.tiles.map (·.data)
  let scales := (List.range 32).map (fun j => bytesAt (data.getD n 0) j 1)
  { child := i, elems := contribElems g g.e.inFspec c.isPartial (data.take n) scales, owed := some (port, tx) }

/-- What the counters see of it. -/
def contributedOcc (g : CGroup) (port : Nat) (tx : Tx) : Occ :=
  { Occ.bare 4 (5 * g.e.partition) 0x84 1 with
    cls := some tx.cls, part := some g.e.partition, node := some tx.src, port := some port }

section
variable {tx : Tx} {c : CollExt} {s : State} (hc : tx.coll = some c)
include hc

theorem serveContribute_refused {port : Nat} {st : St} (h : contributeCheck port tx c s = .error st) :
    serveContribute port tx s = answer tx st s := by
  simp only [serveContribute, hc, h]

theorem serveContribute_held {port i : Nat} {g : CGroup} (h : contributeCheck port tx c s = .ok (g, i)) :
    serveContribute port tx s = hold c.collId c.chunk (broughtBy g c i port tx) (occur (contributedOcc g port tx) s) := by
  simp only [serveContribute, hc, h, broughtBy, contributedOcc]

variable {g : CGroup} (hg : cgOf s c.collId = some g)
include hg

/-- The parent refuses a partial of the generation that runs. -/
theorem serveContributeAnswer_refusal (hp : g.e.role = 1 ∧ g.e.parentNode = tx.src ∧ c.generation = g.e.generation)
    (hok : stOf tx.status ≠ .ok) (hab : stOf tx.status ≠ .aborted) :
    serveContributeAnswer tx s = detectAbort c.collId 4 tx.src s := by
  obtain ⟨hrole, hparent, hgen⟩ := hp
  simp only [serveContributeAnswer, hc, hg]
  exact if_pos ⟨hrole, hparent, hgen, hok, hab⟩

theorem serveContributeAnswer_kept (h : stOf tx.status = .ok ∨ stOf tx.status = .aborted) : serveContributeAnswer tx s = s := by
  simp only [serveContributeAnswer, hc, hg]
  exact if_neg fun ⟨_, _, _, hok, hab⟩ => h.elim hok hab

theorem serveResult_parent (hp : g.e.role = 1 ∧ g.e.parentNode = tx.src ∧ c.generation = g.e.generation) :
    serveResult tx s = deliver c.collId c.chunk tx.tiles s := by
  simp only [serveResult, hc, hg, if_pos hp]

theorem serveResult_other (hp : ¬ (g.e.role = 1 ∧ g.e.parentNode = tx.src ∧ c.generation = g.e.generation)) :
    serveResult tx s = s := by
  simp only [serveResult, hc, hg, if_neg hp]

theorem serveStatus_left (hgen : c.generation ≠ g.e.generation) : serveStatus tx s = s := by
  simp only [serveStatus, hc, hg, if_pos hgen]

theorem serveStatus_ended (hp : g.e.role = 1 ∧ g.e.parentNode = tx.src ∧ c.generation = g.e.generation)
    (hst : stOf (BitVec.ofNat 8 (bitsOf tx.trailer.val 168 8)) = .ok) :
    serveStatus tx s = setCg c.collId (nextGen g)
      (statusDown g .ok 0 (BitVec.ofNat 16 (bitsOf tx.trailer.val 144 16)) noNode none (dropFolds g s)) := by
  obtain ⟨hrole, hparent, hgen⟩ := hp
  simp only [serveStatus, hc, hg, if_neg (not_not_intro hgen), if_pos hst, if_pos (And.intro hrole hparent)]

theorem serveStatus_aborted (hgen : c.generation = g.e.generation)
    (hn : (g.e.role = 1 ∧ g.e.parentNode = tx.src) ∨ g.children.any (fun k => k.type == 1 && k.node == tx.src) = true)
    (hst : stOf (BitVec.ofNat 8 (bitsOf tx.trailer.val 168 8)) ≠ .ok) :
    serveStatus tx s = abortGen c.collId (bitsOf tx.trailer.val 160 8) (BitVec.ofNat 16 (bitsOf tx.trailer.val 144 16))
      (BitVec.ofNat 16 (bitsOf tx.trailer.val 128 16)) (some tx.src) s := by
  simp only [serveStatus, hc, hg, if_neg (not_not_intro hgen), if_neg hst, if_pos hn]
end

section
variable {port : Nat} {tx0 : Tx} {hyp : State → Tx → State → Prop} {eff : Tx → State → State}

theorem contribute_serves (h : ∀ s tx a, hyp s tx a → serveContribute (canonPort a port) tx a = eff tx a) :
    Serves (.contribute port tx0) 0x38 false port tx0 hyp eff :=
  window_serves (fun hop hf => by simp [serveOp, hop, hf]) (fun _ => rfl) (by decide) (by decide) h

theorem serveResponse_contribute {tx : Tx} (s : State) (hop : tx.op = 0x38) : serveResponse tx s = serveContributeAnswer tx s := by
  simp [serveResponse, hop]

theorem contributeResponse_serves
    (h : ∀ s tx, hyp s tx (taken port tx s) → serveContributeAnswer tx (taken port tx s) = eff tx (taken port tx s)) :
    Serves (.contributeResponse port tx0) 0x38 true port tx0 hyp eff := by
  intro s tx harr _ hh
  refine congrArg Host.Outcome.next ((recv_response harr).trans (congrArg settle ?_))
  exact (serveResponse_contribute _ rfl).trans (h s tx hh)

/-- A row of a message that is not answered, which no FENCE holds, has the effect that its own rule gives at the state that
serves it. -/
theorem message_serves {c : Instr} {op : Byte} {serve : Tx → State → State}
    (hserve : ∀ {rid p : Nat} {tx : Tx} {s : State}, tx.op = op → serveOp true rid p tx s = serve tx s)
    (hrow : ∀ s, exec c s = recvOp op false port tx0 s)
    (hrule : ∀ s tx, hyp s tx (taken port tx s) → serve tx (taken port tx s) = eff tx (taken port tx s)) :
    Serves c op false port tx0 hyp eff := by
  intro s tx harr _ hh
  exact (hrow s).trans (congrArg Host.Outcome.next ((recv_request harr).trans
    (congrArg settle ((hserve rfl).trans (hrule s tx hh)))))

theorem collResult_serves (h : ∀ s tx, hyp s tx (taken port tx s) → serveResult tx (taken port tx s) = eff tx (taken port tx s)) :
    Serves (.collResult port tx0) 0x39 false port tx0 hyp eff :=
  message_serves (fun hop => by simp [serveOp, isRequest, opAnswered, opDefined, hop]) (fun _ => rfl) h

theorem collStatus_serves (h : ∀ s tx, hyp s tx (taken port tx s) → serveStatus tx (taken port tx s) = eff tx (taken port tx s)) :
    Serves (.collStatus port tx0) 0x3A false port tx0 hyp eff :=
  message_serves (fun hop => by simp [serveOp, isRequest, opAnswered, opDefined, hop]) (fun _ => rfl) h
end

/-- Settles O26: each message by its own rule, at the group that its extension names. -/
theorem collectiveMessages : Obligations.CollectiveMessages := by
  unfold Obligations.CollectiveMessages
  intro port tx0 c g has parent child
  have found : ∀ {s : State} {tx : Tx}, has s tx → tx.coll = some c ∧ cgOf (taken port tx s) c.collId = some g :=
    fun ⟨hc, hg⟩ => ⟨hc, (cgOf_taken _ _ _ _).trans hg⟩
  refine ⟨fun st => ?refused, fun i => ?held, fun s h hg hn => cgOf_hold_first h hg hn, ?refusal, ?kept, ?result, ?stray,
    ?ended, ?aborted, ?left⟩
  case refused => exact contribute_serves fun _ _ _ ⟨hc, h⟩ => serveContribute_refused hc h
  case held => exact contribute_serves fun _ _ _ ⟨hc, h⟩ => serveContribute_held hc h
  case refusal =>
    refine contributeResponse_serves fun _ _ ⟨h, hp, hok, hab⟩ => ?_
    obtain ⟨hc, hg⟩ := found h
    exact serveContributeAnswer_refusal hc hg hp hok hab
  case kept =>
    refine contributeResponse_serves fun _ _ ⟨h, hst⟩ => ?_
    obtain ⟨hc, hg⟩ := found h
    exact serveContributeAnswer_kept hc hg hst
  case result =>
    refine collResult_serves fun _ _ ⟨h, hp⟩ => ?_
    obtain ⟨hc, hg⟩ := found h
    exact serveResult_parent hc hg hp
  case stray =>
    refine collResult_serves fun _ _ ⟨h, hp⟩ => ?_
    obtain ⟨hc, hg⟩ := found h
    exact serveResult_other hc hg hp
  case ended =>
    refine collStatus_serves fun _ _ ⟨h, hp, hst⟩ => ?_
    obtain ⟨hc, hg⟩ := found h
    exact serveStatus_ended hc hg hp hst
  case aborted =>
    refine collStatus_serves fun _ _ ⟨h, ⟨hgen, hn⟩, hst⟩ => ?_
    obtain ⟨hc, hg⟩ := found h
    exact serveStatus_aborted hc hg hgen hn hst
  case left =>
    refine collStatus_serves fun _ _ ⟨h, hgen⟩ => ?_
    obtain ⟨hc, hg⟩ := found h
    exact serveStatus_left hc hg hgen

end Sys2Proof.Machine

namespace Sys2Proof.Machine

/-! ## Collectives: chunks (R256, R259, R264, R337) -/

/-- The partial of a chunk as R259 has it go to the parent: under the COLL_ID and the generation of the group's entry. -/
def partialTx (g : CGroup) (c : Chunk) (s : State) : Tx :=
  let ts := (packTiles 0 ((foldChunk g c.held).map (·.toNat))).map mkTile
  { blankTx s with
    dst := g.e.parentNode, op := 0x38, cls := 3, length := ts.length, ptag := g.e.partition, ext := true,
    coll := some { collId := g.e.collId, generation := g.e.generation, chunk := c.chunk, isPartial := true }, tiles := ts }

section
variable {id : BitVec 48} {n : Nat} {s : State} {g : CGroup} {c : Chunk}

/-- CHUNK_COMMIT of a chunk whose fold item runs: the chunk waits for contributions, or commits by the role of the switch. -/
theorem exec_chunkCommit_folded {x : CtxId} (ans : List RemoteAnswer) (hg : cgOf (meetRun id n s) id = some g)
    (hc : chunkOf g n = some c) (hx : c.x = some x) : exec (.chunkCommit id n (.folded ans)) s =
      .next (settle (if chunkFull g c = false then meetRun id n s
        else if g.e.role = 0 then commitRoot id g c ans (meetRun id n s) else commitInterior id g c (meetRun id n s))) := by
  refine congrArg (fun t => Host.Outcome.next (settle t)) ?_
  show commitChunk id n ans s = _
  simp only [commitChunk, hg, hc, hx, Option.isNone_some, Bool.false_or, Bool.not_eq_true']

/-- A switch that holds the group under the COLL_ID of its entry sends the partial under that COLL_ID. -/
theorem commitInterior_sends (hid : g.e.collId = id) (u : State) :
    commitInterior id g c u = committed id c.chunk c (send (partialTx g c s) u) := by
  simp only [commitInterior, partialTx, send, blankTx, hid]

/-- CHUNK_COMMIT that brings a held contribution which fails its check. -/
theorem exec_chunkCommit_heldFails (child : Nat) (hg : cgOf s id = some g) (hc : chunkOf g n = some c) :
    exec (.chunkCommit id n (.heldFails child)) s =
      .next (settle (if c.x.isSome ∧ ∃ h ∈ c.held, h.child = child ∧ h.owed.isSome then detectAbort id 5 noNode s else s)) := by
  refine congrArg (fun t => Host.Outcome.next (settle t)) ?_
  show failHeld id n child s = _
  simp only [failHeld, hg, Option.bind_some, hc, Bool.and_eq_true, List.any_eq_true, beq_iff_eq]

section
variable (hg : cgOf s id = some g)
include hg

theorem meetRun_noRun (hr : g.run = none) : meetRun id n s = s := by
  simp only [meetRun, hg, hr]

theorem exec_generationTimeout_running (ht : g.e.genTimeout ≠ 0) (hr : g.running = true) :
    exec (.generationTimeout id) s = .next (settle (detectAbort id 6 noNode s)) := by
  show execGenerationTimeout id s = _
  simp only [execGenerationTimeout, hg, if_pos (And.intro ht hr)]

theorem exec_generationTimeout_idle (h : g.e.genTimeout = 0 ∨ g.running = false) : exec (.generationTimeout id) s = .next s := by
  have hno : ¬ (g.e.genTimeout ≠ 0 ∧ g.running = true) := fun ⟨ht, hr⟩ => h.elim ht (by simp [hr])
  show execGenerationTimeout id s = _
  simp only [execGenerationTimeout, hg, if_neg hno]

variable {r : RedCmd} {x : CtxId} {q : Queue} {cmd : Cmd} (hr : g.run = some r) (hx : (chunkOf g n).bind (·.x) = some x)
  (hq : redCmd s r = some (q, cmd)) (hstate : q.state ≠ .disabled) (hruns : cmd.runs.any (fun y => y.item == n) = false)
  (hfails : cmd.fails.any (fun f => f.item == n) = false) (hord : inOrder q cmd = true) (hpub : heldByPublish s q cmd = false)
  (hlim : overLimit q cmd = false)
include hr hx hq hstate hruns hfails hord hpub hlim

/-- The RUN item of a chunk that nothing holds back meets the checks of R164: passing them, it is dispatched with the chunk. -/
theorem meetRun_dispatched (hre : recheck s q cmd = none) : meetRun id n s =
    modCmd r.queue r.cmdSeq (fun y => { y with
      next := max y.next (n + 1), runs := y.runs ++ [{ item := n, x := x, epoch := s.ext.mapEpoch, replay := 0 }] }) s := by
  simp only [meetRun, hg, hr, hx, hq, hruns, hfails, hord, hpub, hlim, hstate, hre, Bool.or_false, Bool.not_true, Bool.false_eq_true,
    if_false]

/-- Failing them, it ends with their status. -/
theorem meetRun_failed {st : St} (hre : recheck s q cmd = some st) : meetRun id n s = failItems r.queue r.cmdSeq [n] st 0 s := by
  simp only [meetRun, hg, hr, hx, hq, hruns, hfails, hord, hpub, hlim, hstate, hre, Bool.or_false, Bool.not_true, Bool.false_eq_true,
    if_false]
end
end

/-- What O36 says holds where the group is kept under the COLL_ID of its entry, as registration keeps it (R249): only the partial
of an interior switch asks for that. -/
theorem chunksCommit_of_ownId (id : BitVec 48) (n : Nat) (ans : List RemoteAnswer) (s : State) (g : CGroup) (hid : g.e.collId = id) :
    let u := meetRun id n s
    (∀ c x, cgOf u id = some g → chunkOf g n = some c → c.x = some x →
      (chunkFull g c = false → exec (.chunkCommit id n (.folded ans)) s = .next (settle u)) ∧
      (chunkFull g c = true → g.e.role = 1 → exec (.chunkCommit id n (.folded ans)) s =
        .next (settle (committed id c.chunk c (send (partialTx g c s) u)))) ∧
      (chunkFull g c = true → g.e.role = 0 → exec (.chunkCommit id n (.folded ans)) s = .next (settle (commitRoot id g c ans u)))) ∧
    (∀ child c, cgOf s id = some g → chunkOf g n = some c →
      exec (.chunkCommit id n (.heldFails child)) s =
        .next (settle (if c.x.isSome ∧ ∃ h ∈ c.held, h.child = child ∧ h.owed.isSome then detectAbort id 5 noNode s else s))) ∧
    (cgOf s id = some g →
      (g.run = none → u = s) ∧
      (∀ r x q c, g.run = some r → (chunkOf g n).bind (·.x) = some x → redCmd s r = some (q, c) → q.state ≠ .disabled →
        c.runs.any (fun y => y.item == n) = false → c.fails.any (fun f => f.item == n) = false → inOrder q c = true →
        heldByPublish s q c = false → overLimit q c = false →
        (recheck s q c = none → u = modCmd r.queue r.cmdSeq (fun y => { y with
          next := max y.next (n + 1), runs := y.runs ++ [{ item := n, x := x, epoch := s.ext.mapEpoch, replay := 0 }] }) s) ∧
        (∀ st, recheck s q c = some st → u = failItems r.queue r.cmdSeq [n] st 0 s)) ∧
      (g.e.genTimeout ≠ 0 → g.running = true → exec (.generationTimeout id) s = .next (settle (detectAbort id 6 noNode s))) ∧
      (g.e.genTimeout = 0 ∨ g.running = false → exec (.generationTimeout id) s = .next s)) := by
  intro u
  refine ⟨fun c x hg hc hx => ⟨fun hf => ?waits, fun hf hr => ?interior, fun hf hr => ?root⟩,
    fun child c hg hc => exec_chunkCommit_heldFails child hg hc,
    fun hg => ⟨meetRun_noRun hg, fun r x q c hr hx hq hst hruns hfails hord hpub hlim =>
      ⟨meetRun_dispatched hg hr hx hq hst hruns hfails hord hpub hlim,
        fun st => meetRun_failed hg hr hx hq hst hruns hfails hord hpub hlim⟩,
      exec_generationTimeout_running hg, exec_generationTimeout_idle hg⟩⟩
  case waits => rw [exec_chunkCommit_folded ans hg hc hx, if_pos hf]
  case interior =>
    have hrole : g.e.role ≠ 0 := by omega
    rw [exec_chunkCommit_folded ans hg hc hx, if_neg (by simp [hf]), if_neg hrole, commitInterior_sends (s := s) hid]
  case root => rw [exec_chunkCommit_folded ans hg hc hx, if_neg (by simp [hf]), if_pos hr]

/-! ### A group kept under another COLL_ID -/

/-- A chunk that has all the contributions of a group without children, and whose fold item runs. -/
def emptyChunk : Chunk := { chunk := 0, held := [], x := some { core := 0, ctx := 0 }, faults := 0 }

/-- The group of an interior switch whose entry gives COLL_ID 2. -/
def groupTwo : CGroup := {
  e := {
    collId := 2, generation := 0, parentNode := 9, parentPort := 0, chunks := 1, members := 1, source := 0, fanIn := 1, window := 1,
    inFspec := 0, outFspec := 0, genTimeout := 0, kind := 0, op := 0, role := 1, partition := 1 }
  children := [], running := true, chunks := [emptyChunk], committed := [], run := none, froms := [], results := [], childListAddr := 0 }

/-- It is kept under COLL_ID 1. -/
def misfiled : State := { State.reset with groups := [(1, groupTwo)] }

/-- The COLL_IDs under which an outcome has sent transactions. -/
def collIdsSent : Out → List (Option (BitVec 48))
  | .next t => t.out.map (fun tx => tx.coll.map (·.collId))
  | .fault _ => []
  | .refused _ => []

theorem misfiled_sends_key : collIdsSent (exec (.chunkCommit 1 0 (.folded [])) misfiled) = [some 1] := by decide +kernel

theorem misfiled_asked_entry : collIdsSent (.next (settle (committed 1 0 emptyChunk (send (partialTx groupTwo emptyChunk misfiled)
    (meetRun 1 0 misfiled))))) = [some 2] := by decide +kernel

/-- Refutes O36: nothing in it says that a group is kept under the COLL_ID of its entry. The partial of a chunk goes to the parent
under the COLL_ID that CHUNK_COMMIT names, and the statement has it go under that of the entry; the two differ at `misfiled`.
Where they agree it holds (`chunksCommit_of_ownId`). -/
theorem not_chunksCommit : ¬ Obligations.ChunksCommit := by
  unfold Obligations.ChunksCommit
  intro h
  have hg : cgOf (meetRun 1 0 misfiled) 1 = some groupTwo := (congrArg (cgOf · 1) (meetRun_noRun rfl rfl)).trans rfl
  obtain ⟨_, interior, _⟩ := (h 1 0 [] misfiled groupTwo).1 emptyChunk _ hg rfl rfl
  have hsent : collIdsSent (exec (.chunkCommit 1 0 (.folded [])) misfiled) = [some 2] :=
    (congrArg collIdsSent (interior rfl rfl)).trans misfiled_asked_entry
  exact absurd (misfiled_sends_key.symm.trans hsent) (by decide)

end Sys2Proof.Machine

namespace Sys2Proof.Machine

/-! # The switch core (chapter 13): the proofs of its statement -/

/-! ## Tables with one entry -/

@[simp] theorem tset_one {α : Type} (k : Nat) (v x : α) : tset [(k, v)] k x = [(k, x)] := by simp [tset]
@[simp] theorem tgetD_nil {α : Type} (k : Nat) (d : α) : tgetD [] k d = d := rfl
@[simp] theorem tgetD_one {α : Type} (k : Nat) (v d : α) : tgetD [(k, v)] k d = v := by simp [tgetD, tget]
@[simp] theorem tset_nil {α : Type} (k : Nat) (x : α) : tset [] k x = [(k, x)] := rfl
@[simp] theorem tupd_nil {α : Type} (k : Nat) (d : α) (f : α → α) : tupd [] k d f = [(k, f d)] := rfl
@[simp] theorem dropEmpty_nil : dropEmpty [] = [] := rfl
@[simp] theorem dropEmpty_emptied (k : Nat) : dropEmpty [(k, [])] = [] := rfl
@[simp] theorem dropEmpty_kept (k : Nat) (c : Cell) (l : List Cell) : dropEmpty [(k, c :: l)] = [(k, c :: l)] := rfl

@[simp] theorem modSp_spindle (f : SpindleSt → SpindleSt) (s : State) : (modSp f s).spindle = f s.spindle := rfl

theorem ite_spindle {P : Prop} [Decidable P] {t u s : State} (ht : t.spindle = s.spindle) (hu : u.spindle = s.spindle) :
    (if P then t else u).spindle = s.spindle := by
  split <;> assumption

@[simp] theorem occurIf_spindle (P : Prop) [Decidable P] (o : Occ) (s : State) : (if P then occur o s else s).spindle = s.spindle :=
  ite_spindle rfl rfl

theorem foldl_spindle {α : Type} {f : State → α → State} (hf : ∀ t x, (f t x).spindle = t.spindle) (l : List α) (s : State) :
    (l.foldl f s).spindle = s.spindle := by
  induction l generalizing s with
  | nil => rfl
  | cons x l ih => rw [List.foldl_cons, ih, hf]

/-! ## What moves no cell: slots, copies, records (R322, R323, R336, R463) -/

@[simp] theorem freeCell_cells (c : Cell) (s : State) :
    (freeCell c s).spindle.turn = s.spindle.turn ∧ (freeCell c s).spindle.inputs = s.spindle.inputs ∧
    (freeCell c s).spindle.mids = s.spindle.mids ∧ (freeCell c s).spindle.egress = s.spindle.egress ∧
    (freeCell c s).spindle.badBanks = s.spindle.badBanks ∧ (freeCell c s).spindle.nextSlot = s.spindle.nextSlot := by
  simp only [freeCell]
  split <;> simp

@[simp] theorem passed_cells (c : Cell) (s : State) :
    (passed c s).spindle.turn = s.spindle.turn ∧ (passed c s).spindle.inputs = s.spindle.inputs ∧
    (passed c s).spindle.mids = s.spindle.mids ∧ (passed c s).spindle.egress = s.spindle.egress := by
  unfold passed
  split
  · simp
  · split <;> simp

@[simp] theorem fumCell_cells (out : Nat) (c : Cell) (s : State) :
    (fumCell out c s).spindle.turn = s.spindle.turn ∧ (fumCell out c s).spindle.inputs = s.spindle.inputs ∧
    (fumCell out c s).spindle.mids = s.spindle.mids ∧ (fumCell out c s).spindle.egress = s.spindle.egress := by
  unfold fumCell
  split <;> simp

/-! ## Stage 1 (R318, R320) -/

theorem nextCell_one {s : State} {c : Cell} (h : mayLeave s c = true) : nextCell s [c] = some (c, []) := by
  by_cases h0 : c.cls = 0 <;> simp [nextCell, takeFirst, h, h0]

theorem stage1_sends {i out : Nat} {c : Cell} {tx : Option Tx} {s : State} (hin : s.spindle.inputs = [(i, [c])])
    (hlinks : c.links = [{ out := out, seq := none, tx := tx }]) (hmay : mayLeave s c = true)
    (hlive : (i + s.spindle.turn) % 384 ∉ s.spindle.dead) (hlane : i ∉ s.spindle.badLanes) :
    let q := tgetD s.spindle.sentSeq (pairKey c.inLane out c.cls) 0
    (stage1 i s).spindle = { s.spindle with
      inputs := [(i, [])], sentSeq := tset s.spindle.sentSeq (pairKey c.inLane out c.cls) ((q + 1) % 65536),
      mids := tupd s.spindle.mids ((i + s.spindle.turn) % 384 * 384 + out) []
        (· ++ [{ c with links := [{ out := out, seq := some q, tx := tx }] }]) } := by
  simp [stage1, hlive, hlane, hin, nextCell_one hmay, hlinks]

/-! ## Stage 2 (R321, R327, R337) -/

/-- The round robin of R327 comes to every class from 1 on, wherever it stands. -/
theorem mem_robinOrder {cls : Nat} (cur : Nat) (h0 : cls ≠ 0) (h8 : cls < 8) : cls ∈ (List.range 7).map (fun i => (cur + i) % 7 + 1) :=
  List.mem_map.2 ⟨(cls + 6 - cur % 7) % 7, List.mem_range.2 (Nat.mod_lt _ (by decide)), by omega⟩

theorem find?_self {α : Type} [BEq α] [LawfulBEq α] {a : α} {l : List α} (h : a ∈ l) : l.find? (a == ·) = some a := by
  cases hf : l.find? (a == ·) with
  | none => exact absurd (beq_self_eq_true a) (List.find?_eq_none.1 hf a h)
  | some b => rw [beq_iff_eq.1 (List.find?_some hf)]

/-- A class that alone has a cell is served, whatever the deficits of the round robin. -/
theorem pickClass_one {c : Cell} (s : State) (k : Nat) (h : c.cls < 8) : ∃ d, pickClass s k [c] = some (c.cls, d) := by
  have hpick : (pickClass s k [c]).map (·.1) = some c.cls := by
    by_cases h0 : c.cls = 0
    · simp [pickClass, h0]
    generalize hcur : tgetD s.spindle.deficit (k * 8) 1 = cur
    by_cases hserved : c.cls = cur ∧ 0 < tgetD s.spindle.deficit (k * 8 + cur) 0
    · obtain ⟨rfl, hd⟩ := hserved
      simp [pickClass, h0, hcur, hd]
    · have hnext := find?_self (mem_robinOrder cur h0 h)
      simp only [pickClass, List.any_cons, List.any_nil, Bool.or_false, beq_iff_eq, h0, hcur, if_neg hserved, if_false, hnext,
        Option.map_some]
  obtain ⟨⟨_, d⟩, hd, rfl⟩ := Option.map_eq_some_iff.1 hpick
  exact ⟨d, hd⟩

theorem hasPlace_empty {s : State} (out : Nat) (c : Cell) (h : s.spindle.egress = []) : hasPlace s out c = true := by
  unfold hasPlace
  split <;> simp [h]

/-- A cell that passes its check: its slot and its copy are released, and it goes to the egress buffer of its output. -/
def toEgress (out : Nat) (c : Cell) (s : State) : State :=
  let b := tgetD s.spindle.egress out [] ++ [c]
  let t := modSp (fun p => { p with
    egress := tset p.egress out b,
    recvSeq := tupd p.recvSeq (pairKey c.inLane out c.cls) 0 (advance b c.inLane out c.cls b.length) }) (passed c (freeCell c s))
  fumCell out c (if 192 ≤ out ∧ out < 320 then occur (stripOcc 0x21 out c) t else t)

theorem stage2_faces {bad : List Nat} {j out : Nat} {c : Cell} {s : State} (hmid : s.spindle.mids = [(j * 384 + out, [c])])
    (he : s.spindle.egress = []) (ho : out < 384) (hface : (j + s.spindle.turn) % 384 = out) (hlive : j ∉ s.spindle.dead)
    (hlane : out ∉ s.spindle.badLanes) (hcls : c.cls < 8) :
    ∃ u d, stage2 bad (j * 384 + out) s = (if out ∈ bad then resendCell c u else toEgress out c u) ∧
      u.spindle = { s.spindle with mids := [(j * 384 + out, [])], deficit := d } := by
  obtain ⟨d, hd⟩ := pickClass_one s (j * 384 + out) hcls
  have hj : (j * 384 + out) / 384 = j := by omega
  have hk : (j * 384 + out) % 384 = out := by omega
  refine ⟨modSp (fun p => { p with mids := tset p.mids (j * 384 + out) [], deficit := d }) s, d, ?_, by simp [hmid]⟩
  simp only [stage2, hj, hk, hface, hlive, hlane, hmid, hd, takeFirst, hasPlace_empty out c he, tgetD_one, ne_eq, not_true_eq_false,
    List.contains_iff_mem, or_self, if_false, beq_self_eq_true, if_true, Bool.not_true, Bool.false_eq_true]
  split <;> rfl

theorem toEgress_cells {out : Nat} {c : Cell} {s : State} (he : s.spindle.egress = []) :
    let p := (toEgress out c s).spindle
    p.turn = s.spindle.turn ∧ p.inputs = s.spindle.inputs ∧ p.mids = s.spindle.mids ∧ p.egress = [(out, [c])] := by
  simp [toEgress, he]

theorem resendCell_cells {c : Cell} {s : State} (hin : s.spindle.inputs = []) :
    ∃ b, let p := (resendCell c s).spindle
      p.mids = s.spindle.mids ∧ p.egress = s.spindle.egress ∧ c.bank ∈ p.badBanks ∧
      p.inputs = [(c.inLane, [{ c with slot := s.spindle.nextSlot, bank := b, mcast := false }])] := by
  by_cases hbank : c.bank ∈ s.spindle.badBanks <;> exact ⟨_, by simp [resendCell, allocSlot, charge, hbank, hin]; rfl⟩

/-! ## A turn (R318, R319) -/

theorem admitOut_idle {s : State} (h : s.out = []) : admitOut s = s := by
  cases s
  cases h
  rfl

/-- The end of a turn: what has been emptied is no longer listed. -/
def turnEnd (p : SpindleSt) : SpindleSt :=
  { p with turn := p.turn + 1, inputs := dropEmpty p.inputs, mids := dropEmpty p.mids, egress := dropEmpty p.egress }

/-- A turn is stage 2 of every queue at a middle, then stage 1 of every input. -/
theorem exec_spindleTurn {bad : List Nat} {s : State} (hup : dataUp s = true) (hrun : s.spindle.stopped = false) (hout : s.out = []) :
    ∃ t, exec (.spindleTurn bad) s = .next t ∧ t.spindle = turnEnd ((s.spindle.inputs.map (fun x => x.1)).foldl (fun t i => stage1 i t)
      ((s.spindle.mids.map (fun x => x.1)).foldl (fun t k => stage2 bad k t) s)).spindle := by
  refine ⟨turn bad s, by show execSpindleTurn bad s = _; simp [execSpindleTurn, hup], ?_⟩
  simp only [turn, hrun, admitOut_idle hout, Bool.false_eq_true, if_false]
  refine (foldl_spindle (fun t x => ?_) _ _).trans rfl
  split <;> rfl

theorem exec_spindleTurn_stopped {s : State} (bad : List Nat) (h : dataUp s = false ∨ s.spindle.stopped = true) :
    exec (.spindleTurn bad) s = .next s := by
  show execSpindleTurn bad s = _
  rcases h with h | h <;> simp [execSpindleTurn, turn, h]

/-! ## Egress (R321, R345, R354, R361) -/

section
variable {lane : Nat} {s : State} {cells : List Cell} {f : Cell} {l : Link} {tx : Tx} (hw : wholePacket s lane = some cells)
  (hf : cells.find? (·.first) = some f) (hl : f.links.head? = some l) (htx : l.tx = some tx)
include hw hf hl htx

theorem exec_egressSend_home (h : 192 ≤ lane) : exec (.egressSend lane) s =
    .next (settle (resequence (canonPort s f.inLane) tx (takePacket lane cells s))) := by
  show execEgressSend lane s = _
  simp only [execEgressSend, hw, if_pos h, sendHome, hf, hl, htx]

variable {p : Port} (h : lane < 192) (hp : portOf s lane = some p)
include h hp

theorem exec_egressSend_port (hup : p.up = true) (hmark : tx.mark = false) (hc : cells.length ≤ creditOf p f.cls) :
    exec (.egressSend lane) s = .next (occur (portOcc lane 0x41 1 tx (some f.part))
      (modPort lane (fun q => { q with used := addAt q.used f.cls cells.length, sendQ := q.sendQ ++ [{ tx with
        ptag := if p.cfg.role = .trunk then f.part else 0, colour := if p.cfg.role = .trunk then f.colour else 0 }] })
        (takePacket lane cells s))) := by
  have hgo : ¬ ((!p.up) = true ∨ creditOf p f.cls < cells.length) := by simp [hup, hc]
  show execEgressSend lane s = _
  simp only [execEgressSend, hw, if_neg (Nat.not_le.2 h), hp, sendPort, hf, hl, htx, if_neg hgo, hmark, Bool.false_eq_true, if_false]

theorem exec_egressSend_waits (hc : creditOf p f.cls < cells.length) : exec (.egressSend lane) s = .next s := by
  show execEgressSend lane s = _
  simp only [execEgressSend, hw, if_neg (Nat.not_le.2 h), hp, sendPort, hf, hl, htx, if_pos (Or.inr hc)]
end

/-! ## Buckets and hold windows (R329, R334) -/

theorem returnHeld_none {s : State} (h : s.spindle.withheld = []) : returnHeld s = s := by simp [returnHeld, h]

theorem exec_meterRefill {s : State} (h : s.spindle.withheld = []) : exec .meterRefill s = .next { s with spindle := { s.spindle with
    meters := s.spindle.meters.map (fun x => (x.1, refillMeter s x.1 x.2)) } } :=
  congrArg Host.Outcome.next (returnHeld_none (s := modSp _ s) h)

theorem refillMeter_gains {s : State} {k : Nat} {m : Meter} {e : MeterEntry} (h : meterCfg s (k / 128) (k / 8 % 16) (k % 8) = some e) :
    (refillMeter s k m).tc = min (e.cbs * 1000) (m.tc + e.cir * 64) ∧
    (refillMeter s k m).tp = min (e.pbs * 1000) (m.tp + e.pir * 64) := by
  simp [refillMeter, h]

/-- The marked packets that let a meter become HELD: the charter's number. -/
def holdNeed (s : State) : Nat := match s.boot.charter with | some c => c.device.holdMarks | none => 64

/-- Whether a meter that is not HELD becomes so: its port is an edge port whose output marked enough in the last window, and its red
bytes did not fall. -/
def entersHold (s : State) (port cls : Nat) (m : Meter) : Bool :=
  (portRole s port == .host || portRole s port == .memory) && !m.held &&
  decide (holdNeed s ≤ (tgetD s.spindle.marks (port * 8 + cls) (0, 0)).1) && decide (m.lastRed ≤ m.red)

theorem entersHold_iff (s : State) (port cls : Nat) (m : Meter) : entersHold s port cls m = true ↔
    (portRole s port = .host ∨ portRole s port = .memory) ∧ m.held = false ∧
    holdNeed s ≤ (tgetD s.spindle.marks (port * 8 + cls) (0, 0)).1 ∧ m.lastRed ≤ m.red := by
  simp [entersHold, and_assoc]

/-- A meter after the end of a hold window: one that is not kept HELD has its shadow buckets set to its own. -/
def windowMeter (s : State) (port cls : Nat) (m : Meter) : Meter :=
  let held := (m.held || entersHold s port cls m) && !(m.held && decide (m.wouldRed = 0))
  { m with held := held, lastRed := m.red, red := 0, wouldRed := 0,
           wtc := if held && m.held then m.wtc else m.tc, wtp := if held && m.held then m.wtp else m.tp }

theorem windowMeter_held (s : State) (port cls : Nat) (m : Meter) : (windowMeter s port cls m).held = true ↔
    (m.held = true ∨ entersHold s port cls m = true) ∧ ¬ (m.held = true ∧ m.wouldRed = 0) := by
  cases hm : m.held <;> simp [windowMeter, hm]

theorem holdStep_meters (k : Nat) (m : Meter) (s : State) :
    (holdStep k m s).spindle = { s.spindle with meters := tset s.spindle.meters k (windowMeter s (k / 128) (k % 8) m) } := by
  unfold holdStep
  extract_lets port part cls role edge need prev enter leave held m1 s1 s2
  calc _ = s2.spindle := ite_spindle (post_spindle ..) (ite_spindle (post_spindle ..) rfl)
    _ = s1.spindle := ite_spindle (bump_spindle ..) rfl

theorem exec_holdWindowEnd_one {k : Nat} {m : Meter} {s : State} (h : s.spindle.meters = [(k, m)]) :
    ∃ t, exec .holdWindowEnd s = .next t ∧ t.spindle.meters = [(k, windowMeter s (k / 128) (k % 8) m)] ∧
      t.spindle.marks = s.spindle.marks.map (fun x => (x.1, (x.2.2, 0))) := by
  refine ⟨holdWindow s, rfl, ?_, ?_⟩ <;> simp [holdWindow, h, holdStep_meters]

/-! ## Samples (R335) -/

theorem sampleAll_one {s : State} {out : Nat} {c : Cell} {l : Link} (hs : s.spindle.samples = []) (hi : s.spindle.inputs = [])
    (hm : s.spindle.mids = []) (he : s.spindle.egress = [(out, [c])]) (hl : c.links = [l]) (ho : l.out = out) :
    sampleAll s = sampleQueue (out * 8 + c.cls) s := by
  simp [sampleAll, hs, hi, hm, he, hl, ho, List.eraseDups_cons]

theorem sampleQueue_first {s : State} {out d : Nat} {c : Cell} (hs : s.spindle.samples = []) (hi : s.spindle.inputs = [])
    (hm : s.spindle.mids = []) (he : s.spindle.egress = [(out, [c])]) (hc : c.cls < 8)
    (hd : (s.timer.toNat % 2 ^ 32 + 2 ^ 32 - c.arrival) % 2 ^ 32 = d) :
    sampleQueue (out * 8 + c.cls) s = { s with spindle := { s.spindle with
      samples := [(out * 8 + c.cls, { lastDepth := 1, maxDepth := 1, lastDelay := d, maxDelay := d })] } } := by
  have hk : (out * 8 + c.cls) / 8 = out ∧ (out * 8 + c.cls) % 8 = c.cls := by omega
  have hcells : cellsFor s out c.cls = [c] := by simp [cellsFor, hi, hm, he]
  unfold sampleQueue
  -- The kernel must not compare the delays by evaluating the modulus.
  generalize 2 ^ 32 = w at hd ⊢
  simp only [modSp, hk, hcells, hs, tgetD_nil, tset_nil, List.foldl_nil, List.length_singleton, Nat.zero_max, hd]

/-! ## Parts that miss their turn (R338, R339) -/

/-- With nothing queued at middles none has a cell to move; the ninth that dies stops the spindle. -/
theorem loseMiddle_empty {s : State} {j : Nat} (hj : j < 384) (hlive : j ∉ s.spindle.dead) (hm : s.spindle.mids = []) :
    let a := modSp (fun p => { p with dead := j :: p.dead }) s
    loseMiddle j s = if 9 ≤ s.spindle.dead.length + 1
      then fenceDevice (post .spindleFailed none [j] (modSp (fun p => { p with stopped := true }) a)) else a := by
  have hopen : ¬ (s.spindle.dead.contains j = true ∨ 384 ≤ j) := by simp [hlive, hj]
  have hmoved : modSp (fun p => { p with dead := j :: s.spindle.dead, mids := [] }) s =
      modSp (fun p => { p with dead := j :: p.dead }) s := by
    simp only [modSp, ← hm]
  simp only [loseMiddle, if_neg hopen, hm, List.filter_nil, List.foldl_nil, List.length_cons]
  cases nextMiddle (j :: s.spindle.dead) j <;> (split <;> rw [← hmoved])

theorem exec_spindleTurnTimeout_one {s : State} (part : LanePart) (hup : dataUp s = true) :
    exec (.spindleTurnTimeout [part]) s = .next (losePart part s) := by
  show execSpindleTurnTimeout [part] s = _
  simp [execSpindleTurnTimeout, hup]

theorem exec_spindleTurnTimeout_lane {s : State} {lane : Nat} (hup : dataUp s = true) (h : lane < 192) :
    exec (.spindleTurnTimeout [.input lane]) s = exec (.portFault lane) s ∧
    exec (.spindleTurnTimeout [.output lane]) s = exec (.portFault lane) s := by
  have hlane : loseLane lane s = faultPort lane s := if_pos h
  exact ⟨(exec_spindleTurnTimeout_one _ hup).trans (congrArg Host.Outcome.next hlane),
    (exec_spindleTurnTimeout_one _ hup).trans (congrArg Host.Outcome.next hlane)⟩

/-- Settles O30: a turn is its two stages, cell by cell; then egress, windows, samples and lost parts, each by its own rule. -/
theorem spindle : Obligations.Spindle := by
  unfold Obligations.Spindle
  refine ⟨⟨fun bad s hup hrun hout => ⟨?first, ?second⟩, fun bad s h => exec_spindleTurn_stopped bad h, ?egress⟩,
    fun s h => exec_meterRefill h, fun s k m e h => refillMeter_gains h, ?window, ?sample,
    ?middle, fun s lane hup h => exec_spindleTurnTimeout_lane hup h⟩
  case first =>
    intro i out c tx hin hmids he hlane hlinks hmay hlive hgood q
    obtain ⟨t, ht, hsp⟩ := exec_spindleTurn (bad := bad) hup hrun hout
    have hsent := stage1_sends hin hlinks hmay hlive hgood
    simp only [hin, hmids, List.map_cons, List.map_nil, List.foldl_cons, List.foldl_nil, hsent] at hsp
    refine ⟨t, ht, ?_⟩
    simp [hsp, turnEnd, he, hlane, q]
  case second =>
    intro j out c hin hmids he ho hface hlive hgood hcls _
    obtain ⟨t, ht, hsp⟩ := exec_spindleTurn (bad := bad) hup hrun hout
    obtain ⟨u, d, hfaces, hu⟩ := stage2_faces (bad := bad) hmids he ho hface hlive hgood hcls
    simp only [hin, hmids, List.map_cons, List.map_nil, List.foldl_cons, List.foldl_nil, hfaces] at hsp
    refine ⟨fun hb => ?passes, fun hb => ?fails⟩
    case passes =>
      rw [if_neg hb] at hsp
      obtain ⟨hturn, hinputs, hm, heg⟩ := toEgress_cells (out := out) (c := c) (s := u) (by simp [hu, he])
      refine ⟨t, ht, ?_⟩
      simp [hsp, turnEnd, hturn, hinputs, hm, heg, hu, hin]
    case fails =>
      rw [if_pos hb] at hsp
      obtain ⟨b, hm, heg, hbank, hinputs⟩ := resendCell_cells (c := c) (s := u) (by simp [hu, hin])
      refine ⟨t, b, ht, ?_⟩
      simp [hsp, turnEnd, hm, heg, hbank, hinputs, hu, he]
  case egress =>
    intro lane s cells f l tx hw hf hl htx
    exact ⟨exec_egressSend_home hw hf hl htx, fun p h hp hup hmark =>
      ⟨exec_egressSend_port hw hf hl htx h hp hup hmark, exec_egressSend_waits hw hf hl htx h hp⟩⟩
  case window =>
    intro s port part cls m hport hpart hcls k hmeters edge need enters
    obtain ⟨t, ht, hm, hmarks⟩ := exec_holdWindowEnd_one hmeters
    have hk : k / 128 = port ∧ k % 8 = cls := by omega
    have henters : entersHold s port cls m = true ↔ enters := entersHold_iff s port cls m
    have hheld := windowMeter_held s port cls m
    rw [henters] at hheld
    rw [hk.1, hk.2] at hm
    refine ⟨t, _, ht, hm, rfl, rfl, rfl, hmarks, ?_, ?_, ?_, ?_⟩
    · exact fun he hw => hheld.2 ⟨Or.inr he, fun h => hw h.2⟩
    · exact fun h hw => Bool.eq_false_iff.2 fun h1 => (hheld.1 h1).2 ⟨h, hw⟩
    · exact fun h hw => hheld.2 ⟨Or.inl h, fun h => hw h.2⟩
    · exact fun he h => Bool.eq_false_iff.2 fun h1 => (hheld.1 h1).1.elim (by simp [h]) he
  case sample =>
    intro s out c l hs hi hm he hl ho hc d
    exact congrArg Host.Outcome.next ((sampleAll_one hs hi hm he hl ho).trans (sampleQueue_first hs hi hm he hc rfl))
  case middle =>
    intro s j hup hj hlive hm a
    have hlost : exec (.spindleTurnTimeout [.middle j]) s = .next (loseMiddle j s) := exec_spindleTurnTimeout_one _ hup
    rw [hlost, loseMiddle_empty hj hlive hm]
    exact ⟨fun h => congrArg Host.Outcome.next (if_neg (by omega)), fun h => congrArg Host.Outcome.next (if_pos (by omega))⟩

end Sys2Proof.Machine

namespace Sys2Proof.Machine

/-! # Fabric links (chapter 14): the proofs of their statements -/

/-! ## Reading a port after a change -/

@[simp] theorem portOf_modPort_same (n : Nat) (f : Port → Port) (s : State) : portOf (modPort n f s) n = (portOf s n).map f := by
  simp [portOf, modPort]

theorem portOf_modPort_ne {n m : Nat} (f : Port → Port) (s : State) (h : m ≠ n) : portOf (modPort n f s) m = portOf s m := by
  simp [portOf, modPort, tget_tmod_ne _ _ h]

theorem linkUp_of_portOf {n : Nat} {p : Port} {s : State} (h : portOf s n = some p) : linkUp s n = p.up := by simp [linkUp, h]

theorem next_of_eq {t u : State} (h : t = u) : (.next t : Out) = .next u := congrArg Host.Outcome.next h

/-! ## The port that a transaction leaves by (R357) -/

/-- The port of slot `k` of an entry, the slots counted cyclically. -/
def slotPort (r : Route) (k : Nat) : Nat := r.ports.getD (k % 4) 255

/-- Whether slot `k` of an entry is VALID with its port UP. -/
def slotUsable (s : State) (r : Route) (k : Nat) : Prop := r.valid.getLsbD (k % 4) = true ∧ portUp s (slotPort r k) = true

section
variable {s : State} {r : Route}

theorem pickSlot_usable {n k : Nat} (h : slotUsable s r k) : pickSlot s r (n + 1) k = some (slotPort r k) :=
  if_pos (Bool.and_eq_true_iff.2 h)

theorem pickSlot_unusable {n k : Nat} (h : ¬ slotUsable s r k) : pickSlot s r (n + 1) k = pickSlot s r n (k + 1) :=
  if_neg fun hu => h (Bool.and_eq_true_iff.1 hu)

/-- A search that looks at one slot more, where the first one is passed over. -/
theorem unusable_from_succ {n k : Nat} (h : ¬ slotUsable s r k) :
    (∀ i < n + 1, ¬ slotUsable s r (k + i)) ↔ ∀ i < n, ¬ slotUsable s r (k + 1 + i) := by
  rw [Nat.forall_lt_succ_left]
  simp only [Nat.add_zero, h, not_false_eq_true, true_and, Nat.add_right_comm k 1, Nat.add_assoc]

theorem pickSlot_eq_none_iff (n k : Nat) : pickSlot s r n k = none ↔ ∀ i < n, ¬ slotUsable s r (k + i) := by
  induction n generalizing k with
  | zero => simp [pickSlot]
  | succ n ih =>
    by_cases h : slotUsable s r k
    · rw [pickSlot_usable h]
      exact iff_of_false (Option.some_ne_none _) fun hn => hn 0 n.succ_pos h
    · rw [pickSlot_unusable h, ih, unusable_from_succ h]

theorem pickSlot_eq_some_iff (n k p : Nat) : pickSlot s r n k = some p ↔
    ∃ i < n, slotUsable s r (k + i) ∧ (∀ j < i, ¬ slotUsable s r (k + j)) ∧ p = slotPort r (k + i) := by
  induction n generalizing k with
  | zero => simp [pickSlot]
  | succ n ih =>
    by_cases h : slotUsable s r k
    · rw [pickSlot_usable h, Option.some_inj]
      constructor
      · exact fun hp => ⟨0, n.succ_pos, h, fun _ hj => absurd hj (Nat.not_lt_zero _), hp.symm⟩
      · rintro ⟨i, -, -, hfirst, rfl⟩
        obtain rfl : i = 0 := Nat.eq_zero_of_not_pos fun hi => hfirst 0 hi h
        rfl
    · rw [pickSlot_unusable h, ih, Nat.exists_lt_succ_left]
      simp only [Nat.add_zero, h, false_and, false_or, unusable_from_succ h]
      simp only [Nat.add_right_comm k 1, Nat.add_assoc]

/-- Only the slot's number modulo 4 counts. -/
theorem pickSlot_modEq {k l : Nat} (n : Nat) (h : k % 4 = l % 4) : pickSlot s r n k = pickSlot s r n l := by
  induction n generalizing k l with
  | zero => rfl
  | succ n ih => simp only [pickSlot, h, ih (show (k + 1) % 4 = (l + 1) % 4 by omega)]

/-- The choice rests on the state of the entry's four ports alone. -/
theorem pickSlot_congr {t : State} (h : ∀ k < 4, portUp s (r.ports.getD k 255) = portUp t (r.ports.getD k 255)) (n k : Nat) :
    pickSlot s r n k = pickSlot t r n k := by
  induction n generalizing k with
  | zero => rfl
  | succ n ih => simp only [pickSlot, h (k % 4) (Nat.mod_lt k (by decide)), ih]

/-- A transaction for a routed node leaves by the first usable slot from that of its hash. -/
theorem routePort_routed {tx : Tx} (hd : tx.dst ≠ noNode) (hr : tget s.ports.routes tx.dst.toNat = some r) (hk : r.kind = 1) :
    routePort s tx = pickSlot s r 4 (routeHash tx) := by
  simp only [routePort, if_neg hd, hr, if_pos hk, pickSlot_modEq 4 (Nat.mod_mod (routeHash tx) 4)]
end

/-- The hash looks at the flow alone: the node a transaction comes from, its destination and its class. -/
theorem routeHash_flow {a b : Tx} (hd : a.dst = b.dst) (hc : a.cls = b.cls)
    (hs : (if a.engine then a.origin else a.src) = (if b.engine then b.origin else b.src)) : routeHash a = routeHash b := by
  simp only [routeHash, hd, hc, hs]

/-- Settles O60: the search for a slot, run from the slot that the hash of the flow names. -/
theorem pathChoice : Obligations.PathChoice := by
  unfold Obligations.PathChoice
  refine ⟨fun s tx r hd hr hk => ?chosen, fun s a b hd hc hs => ?flow, fun s t tx hr hp => ?kept⟩
  case chosen =>
    rw [routePort_routed hd hr hk]
    exact ⟨pickSlot_eq_some_iff 4 (routeHash tx), pickSlot_eq_none_iff 4 (routeHash tx)⟩
  case flow => simp only [routePort, hd, routeHash_flow hd hc hs]
  case kept =>
    unfold routePort
    rw [← hr]
    cases hs : tget s.ports.routes tx.dst.toNat with
    | none => rfl
    | some r => simp only [pickSlot_congr (hp r hs)]

end Sys2Proof.Machine

namespace Sys2Proof.Machine

/-! ## A frame arrives (R342 to R344) -/

theorem frameOk_iff (f : Frame) : frameOk f = true ↔ f.decodes = true ∧ f.fcrc = fcrcOf f ∧ f.sync = 0xC6 := by
  simp [frameOk, and_assoc]

/-- What a port sends passes the tests of the port that receives it. -/
theorem frameOk_mkFrame (p : Port) (n : BitVec 12) (b : FrameBody) : frameOk (mkFrame p n b) = true :=
  (frameOk_iff _).2 ⟨rfl, rfl, rfl⟩

/-- A port that is up or trains is not refused by the test that frames meet first. -/
theorem alive_not_down {p : Port} (h : p.up = true ∨ p.training = true) : ¬ (!p.up && !p.training) = true := by
  rcases h with h | h <;> simp [h]

theorem wholeParts_whole {rcv : Bool} {x : TxPart} (hl : x.last = true) (hb : x.skip = 0 ∨ rcv = true) : wholeParts rcv [x] = [x] := by
  simp [wholeParts, hl, hb.symm]

/-- A part that runs on past its frame ends nothing. -/
theorem wholeParts_runsOn {rcv : Bool} {x : TxPart} (hl : x.last = false) : wholeParts rcv [x] = [] := by
  simp [wholeParts, hl]

/-- The end of a transaction whose beginning was not received is passed over (R343). -/
theorem wholeParts_headless {x : TxPart} (hb : x.skip ≠ 0) : wholeParts false [x] = [] := by
  simp [wholeParts, hb]

section
variable {port : Nat} {f : Frame} {s : State} {p : Port} (hp : portOf s port = some p)
include hp

theorem receiveFrame_down (h : ¬ (p.up = true ∨ p.training = true)) : receiveFrame port f s = s := by
  have hdown : (!p.up && !p.training) = true := by simpa using h
  simp only [receiveFrame, hp, if_pos hdown]

variable (halive : p.up = true ∨ p.training = true)
include halive

theorem receiveFrame_unsound (hok : ¬ frameOk f = true) : receiveFrame port f s = modPort port (fun q => { q with nakOut := true }) s := by
  simp only [receiveFrame, hp, if_neg (alive_not_down halive), hok, Bool.not_false, if_true]

variable (hok : frameOk f = true)
include hok

/-- IDLE with the sequence last accepted shows that nothing is missing (log entry 53). -/
theorem receiveFrame_idle (hb : f.body = .idle) (hseq : f.seq = p.rxLast) :
    receiveFrame port f s = modPort port (fun q => { q with nakOut := false }) (modPort port (linkFields f) s) := by
  simp only [receiveFrame, hp, if_neg (alive_not_down halive), hok, Bool.not_true, Bool.false_eq_true, if_false, hb, if_pos hseq]

/-- A frame that is discarded has its ACK and credit taken all the same (log entry 52). -/
theorem receiveFrame_outOfOrder (hb : f.body ≠ .idle) (hseq : f.seq ≠ p.rxLast + 1) :
    receiveFrame port f s = modPort port (fun q => { q with nakOut := true }) (modPort port (linkFields f) s) := by
  simp only [receiveFrame, hp, if_neg (alive_not_down halive), hok, Bool.not_true, Bool.false_eq_true, if_false, hseq, false_and]
  cases hbody : f.body with
  | idle => exact absurd hbody hb
  | link m => rfl
  | data parts => rfl

theorem receiveFrame_link {m : LinkMsg} (hb : f.body = .link m) (hseq : f.seq = p.rxLast + 1) :
    receiveFrame port f s = linkArrives port m
      (modPort port (fun q => { q with rxLast := f.seq, nakOut := false }) (modPort port (linkFields f) s)) := by
  simp only [receiveFrame, hp, if_neg (alive_not_down halive), hok, Bool.not_true, Bool.false_eq_true, if_false, hb, if_pos hseq]

/-- A DATA frame in order, with one part: it enters the switch core where a transaction ends in it. -/
theorem receiveFrame_part {x : TxPart} (hup : p.up = true) (hb : f.body = .data [x]) (hseq : f.seq = p.rxLast + 1) :
    receiveFrame port f s = (wholeParts p.receiving [x]).foldl (fun t y => ingress port y.tx t)
      (modPort port (fun q => { q with rxLast := f.seq, nakOut := false, receiving := !x.last }) (modPort port (linkFields f) s)) := by
  simp only [receiveFrame, hp, if_neg (alive_not_down halive), hok, Bool.not_true, Bool.false_eq_true, if_false, hb,
    if_pos (And.intro hseq hup), List.getLast?_singleton]
end

/-! ## What a frame's header says of credit and acknowledgement (R344, R345) -/

/-- Where no retained transaction runs on past its frame, ACK frees the frames that it covers. -/
theorem retainFrom_whole (ack : BitVec 12) {l : List Frame} (h : ∀ f ∈ l, runsOn f = false) :
    retainFrom ack l = l.dropWhile (covered ack) := by
  induction l with
  | nil => rfl
  | cons f l ih =>
    obtain ⟨hf, hl⟩ := List.forall_mem_cons.1 h
    simp [retainFrom, List.dropWhile_cons, hf, ih hl]

section
variable {f : Frame} {p : Port} (hnak : f.nak = false)
include hnak

theorem linkFields_granted : (linkFields f p).granted =
    addAt p.granted f.crClass (4 * (f.crTotal - p.grantedLow.getD f.crClass 0).toNat) := by
  simp only [linkFields, hnak, Bool.false_eq_true, if_false]
  split <;> rfl

theorem linkFields_acked (h : (f.ack - p.acked).toNat ≤ 64) :
    (linkFields f p).acked = f.ack ∧ (linkFields f p).retained = retainFrom f.ack p.retained := by
  simp only [linkFields, hnak, Bool.false_eq_true, if_false, if_pos h, and_self]
end

/-! ## A port sends a frame (R343, R344) -/

/-- The state in which a port sends: one that is up has given the grants of a class first. -/
def granting (port : Nat) (p : Port) (s : State) : State :=
  if p.up = true then grantUnits port port p.rotate 255 (dropWithheld s) else s

theorem transmit_down {port : Nat} {s : State} {p : Port} (hp : portOf s port = some p) (hup : p.up = false) (ht : p.training = false) :
    transmit port s = s := by
  simp [transmit, hp, hup, ht]

/-- A transaction that fits fills a body of its own. -/
theorem pack_fits {tx : Tx} (h : txBytes tx ≤ 2560) :
    pack 4 2560 none [tx] = ([{ tx := tx, skip := 0, last := true }], none, []) := by
  simp [pack, h]

section
variable {port : Nat} {s : State} {p p1 : Port} (hp : portOf s port = some p) (halive : p.up = true ∨ p.training = true)
  (hp1 : portOf (granting port p s) port = some p1) (hnak : p1.nakOut = false)
include hp halive hp1 hnak

theorem transmit_replay {f : Frame} {l : List Frame} (hr : p1.replay = f :: l) :
    transmit port s = modPort port (fun q => { q with
      replay := l, lastSent := some (mkFrame p1 f.seq f.body), rotate := (q.rotate + 1) % 8 }) (granting port p s) := by
  unfold granting at *
  simp only [transmit, hp, if_neg (alive_not_down halive), hp1, Option.getD_some, hnak, Bool.false_eq_true, if_false, hr]

variable (hr : p1.replay = []) (hroom : p1.retained.length < 64)
include hr hroom

theorem transmit_link {m : LinkMsg} {l : List LinkMsg} (hl : p1.linkQ = m :: l) :
    transmit port s = modPort port (fun q => { q with
      linkQ := l, txSeq := q.txSeq + 1, retained := q.retained ++ [mkFrame p1 p1.txSeq (.link m)],
      lastSent := some (mkFrame p1 p1.txSeq (.link m)), rotate := (q.rotate + 1) % 8 }) (granting port p s) := by
  unfold granting at *
  simp only [transmit, hp, if_neg (alive_not_down halive), hp1, Option.getD_some, hnak, Bool.false_eq_true, if_false, hr,
    if_neg (Nat.not_le.2 hroom), hl]

variable (hl : p1.linkQ = []) (hs : p1.sending = none)
include hl hs

theorem transmit_idle (hq : p1.sendQ = []) :
    transmit port s = modPort port (fun q => { q with
      lastSent := some (mkFrame p1 (p1.txSeq - 1) .idle), rotate := (q.rotate + 1) % 8 }) (granting port p s) := by
  unfold granting at *
  simp only [transmit, hp, if_neg (alive_not_down halive), hp1, Option.getD_some, hnak, Bool.false_eq_true, if_false, hr,
    if_neg (Nat.not_le.2 hroom), hl, hs, hq, Option.isNone_none, List.isEmpty_nil, Bool.and_self, or_true, if_true]

theorem transmit_fits {tx : Tx} (hup : p1.up = true) (hq : p1.sendQ = [tx]) (hfit : txBytes tx ≤ 2560) :
    transmit port s = countBytes port 1 (txBytes tx) (some tx) (modPort port (fun q => { q with
      sending := none, sendQ := [], txSeq := q.txSeq + 1,
      retained := q.retained ++ [mkFrame p1 p1.txSeq (.data [{ tx := tx, skip := 0, last := true }])],
      lastSent := some (mkFrame p1 p1.txSeq (.data [{ tx := tx, skip := 0, last := true }])),
      rotate := (q.rotate + 1) % 8 }) (granting port p s)) := by
  unfold granting at *
  simp only [transmit, hp, if_neg (alive_not_down halive), hp1, Option.getD_some, hnak, Bool.false_eq_true, if_false, hr,
    if_neg (Nat.not_le.2 hroom), hl, hup, hs, hq, Option.isNone_none, List.isEmpty_cons, Bool.and_false, Bool.not_true, or_self,
    List.length_singleton, pack_fits hfit]
  simp [bytesLeft]
end

/-- Settles O28: each clause is the case of a frame's arrival, of its header or of a frame's sending that it names. -/
theorem linkFrames : Obligations.LinkFrames := by
  unfold Obligations.LinkFrames
  refine ⟨fun port fr s p hp => ?receives, fun p n b => frameOk_mkFrame p n b, fun fr p hn => ⟨linkFields_granted hn, fun ha hw => ?acks⟩,
    fun port s p hp hnak => ?sends, fun port s p hp => ?timeout⟩
  case receives =>
    intro good alive nak a runs
    have hok : frameOk fr = true ↔ good := frameOk_iff fr
    have hpart {x : TxPart} (hup : p.up = true) (hg : good) (hb : fr.body = .data [x]) (hseq : fr.seq = p.rxLast + 1) :=
      receiveFrame_part hp (Or.inl hup) (hok.2 hg) hup hb hseq
    refine ⟨fun ha => next_of_eq (receiveFrame_down hp ha), fun ha hg => next_of_eq (receiveFrame_unsound hp ha (mt hok.1 hg)),
      fun ha hg hb hseq => next_of_eq (receiveFrame_idle hp ha (hok.2 hg) hb hseq),
      fun ha hg hb hseq => next_of_eq (receiveFrame_outOfOrder hp ha (hok.2 hg) hb hseq),
      fun m ha hg hb hseq => next_of_eq (receiveFrame_link hp ha (hok.2 hg) hb hseq), ?whole, ?headless, ?begun⟩
    case whole =>
      intro tx n hup hg hb hn hseq
      have h := hpart hup hg hb hseq
      rw [wholeParts_whole rfl hn] at h
      exact next_of_eq h
    case headless =>
      intro tx n hup hg hb hn hr hseq
      have h := hpart hup hg hb hseq
      rw [hr, wholeParts_headless hn] at h
      exact next_of_eq h
    case begun =>
      intro tx n hup hg hb hseq
      have h := hpart hup hg hb hseq
      rw [wholeParts_runsOn rfl] at h
      exact next_of_eq h
  case acks =>
    rw [← retainFrom_whole fr.ack hw]
    exact linkFields_acked hn ha
  case sends =>
    intro sends
    have htrains (hup : p.up = false) : granting port p s = s := if_neg (by simp [hup])
    refine ⟨fun hup ht => next_of_eq (transmit_down hp hup ht), ?link, ?replay, ?up⟩
    case link =>
      intro m l hup ht hr hroom hl f
      have h := transmit_link hp (Or.inr ht) ((htrains hup).symm ▸ hp) hnak hr hroom hl
      rw [htrains hup] at h
      exact next_of_eq h
    case replay =>
      intro f l hup ht hr
      have h := transmit_replay hp (Or.inr ht) ((htrains hup).symm ▸ hp) hnak hr
      rw [htrains hup] at h
      exact next_of_eq h
    case up =>
      intro p1 hup u hp1 hnak1 hr hl hroom
      have hu : granting port p s = u := if_pos hup
      rw [← hu] at hp1 ⊢
      exact ⟨fun hs hq => next_of_eq (transmit_idle hp (Or.inl hup) hp1 hnak1 hr hroom hl hs hq),
        fun tx hup1 hs hq hfit => next_of_eq (transmit_fits hp (Or.inl hup) hp1 hnak1 hr hroom hl hs hup1 hq hfit)⟩
  case timeout =>
    exact ⟨_, rfl, by simp [hp], fun n hn => portOf_modPort_ne _ s hn⟩

end Sys2Proof.Machine

namespace Sys2Proof.Machine

/-! ## The peer's HELLO (R347) -/

/-- Whether a peer of a node and KIND fits the role that a port is configured for. -/
def fitsRole (c : PortCfg) (node : Node) (kind : Nat) : Prop :=
  kindOf c.role = some kind ∧ (c.role = .trunk → c.neighbour = none ∨ c.neighbour = some node)

/-- The test of HELLO: a trunk alone asks for the node that its configuration names, if it names one. -/
theorem helloTest_iff (c : PortCfg) (node : Node) (kind : Nat) :
    (kindOf c.role = some kind ∧ (c.role != .trunk || c.neighbour.isNone || c.neighbour == some node) = true) ↔ fitsRole c node kind := by
  simp only [fitsRole, Bool.or_eq_true, bne_iff_ne, beq_iff_eq, Option.isNone_iff_eq_none, or_assoc, ne_eq, imp_iff_not_or]

section
variable {port : Nat} {node : Node} {kind peerPort : Nat} {s : State} {p : Port} (hp : portOf s port = some p)
include hp

theorem helloArrives_idle (ht : p.training = false) : helloArrives port node kind peerPort s = s := by
  simp only [helloArrives, hp, ht, Bool.not_false, if_true]

theorem helloArrives_fits (ht : p.training = true) (h : fitsRole p.cfg node kind) :
    helloArrives port node kind peerPort s = post .portUp p.cfg.owner [port]
      (modPort port (fun q => { q with up := true, training := false, peer := some (node, kind, peerPort) }) s) := by
  simp only [helloArrives, hp, ht, Bool.not_true, Bool.false_eq_true, if_false, if_pos ((helloTest_iff p.cfg node kind).2 h)]

theorem helloArrives_mismatch (ht : p.training = true) (h : ¬ fitsRole p.cfg node kind) :
    helloArrives port node kind peerPort s = post .portMismatch p.cfg.owner [port, node.toNat, kind]
      (modPort port (fun q => { q with training := false }) s) := by
  simp only [helloArrives, hp, ht, Bool.not_true, Bool.false_eq_true, if_false, if_neg (mt (helloTest_iff p.cfg node kind).1 h)]
end

/-! ## Lanes (R348) -/

section
variable {port : Nat} {s : State} {p : Port} (hp : portOf s port = some p)
include hp

theorem widthArrives_down (mask : BitVec 4) (q0 : BitVec 12) (hup : p.up = false) : widthArrives port mask q0 s = s := by
  simp only [widthArrives, hp, hup, Bool.not_false, if_true]

theorem widthArrives_sheds {mask : BitVec 4} (q0 : BitVec 12) (hup : p.up = true) (hm : 2 ≤ lanesIn mask) :
    widthArrives port mask q0 s = bump 2 port 8 1 (post .laneShed p.cfg.owner [port, mask.toNat]
      (modPort port (fun q => { q with txLanes := mask, replay := framesFrom q0 q.retained }) s)) := by
  simp only [widthArrives, hp, hup, Bool.not_true, Bool.false_eq_true, if_false, if_neg (Nat.not_lt.2 hm)]

theorem widthArrives_faults {mask : BitVec 4} (q0 : BitVec 12) (hup : p.up = true) (hm : lanesIn mask < 2) :
    widthArrives port mask q0 s = faultPort port s := by
  simp only [widthArrives, hp, hup, Bool.not_true, Bool.false_eq_true, if_false, if_pos hm]

variable {lane : Nat}

theorem shedLane_shed (hl : p.rxLanes.getLsbD lane = false) : shedLane port lane s = s := by
  simp only [shedLane, hp, hl, Bool.not_false, or_true, if_true]

variable (hup : p.up = true) (hl : p.rxLanes.getLsbD lane = true)
include hup hl

theorem shedLane_sheds (hm : 2 ≤ lanesIn (p.rxLanes &&& ~~~ BitVec.ofNat 4 (2 ^ lane))) :
    shedLane port lane s = bump 2 port 8 1 (post .laneShed p.cfg.owner [port, (p.rxLanes &&& ~~~ BitVec.ofNat 4 (2 ^ lane)).toNat]
      (modPort port (fun q => { q with
        rxLanes := p.rxLanes &&& ~~~ BitVec.ofNat 4 (2 ^ lane),
        linkQ := q.linkQ ++ [.setWidth (p.rxLanes &&& ~~~ BitVec.ofNat 4 (2 ^ lane)) (q.rxLast + 1)] }) s)) := by
  simp only [shedLane, hp, hup, hl, Bool.not_true, Bool.false_eq_true, or_self, if_false, if_neg (Nat.not_lt.2 hm)]

theorem shedLane_faults (hm : lanesIn (p.rxLanes &&& ~~~ BitVec.ofNat 4 (2 ^ lane)) < 2) :
    shedLane port lane s = faultPort port s := by
  simp only [shedLane, hp, hup, hl, Bool.not_true, Bool.false_eq_true, or_self, if_false, if_pos hm]
end

/-! ## A port that faults (R349, R360) -/

/-- A port that faults: as one that is down, what it has counted and last sent kept. -/
def cleared (p : Port) : Port := { Port.down p.cfg with
  lastSent := p.lastSent, removed := p.removed, rejects := p.rejects, discards := p.discards, dups := p.dups }

/-- The state without a faulted port's cells, promised slots, withheld credit and frames. -/
def stripped (port : Nat) (p : Port) (s : State) : State :=
  modPort port (fun _ => cleared p) (modSp (fun q => { q with
    accounts := q.accounts.map (fun x => (x.1, if x.1 / 8 = port then { x.2 with promised := 0, promisedShared := 0 } else x.2)),
    withheld := q.withheld.filter (fun w => w.port ≠ canonPort s port) }) (flushOut port s))

/-- The cells that may be queued for an output: those of its egress buffer, of its middles and of the inputs. -/
def cellsToward (out : Nat) (s : State) : List Cell :=
  tgetD s.spindle.egress out [] ++ ((s.spindle.mids.filter (fun x => x.1 % 384 == out)).map (·.2)).flatten ++
    (s.spindle.inputs.map (·.2)).flatten

section
variable {port : Nat} {s : State} {p : Port} (hp : portOf s port = some p)
include hp

theorem faultPort_down (hup : p.up = false) (ht : p.training = false) : faultPort port s = s := by
  simp [faultPort, hp, hup, ht]

/-- A port without frames of its own sends anew what waits for frames, then what waits in the switch core. -/
theorem faultPort_unsent (hup : p.up = true) (hr : p.retained = []) (hs : p.sending = none) :
    faultPort port s = settle (pathLosses s (bump 2 port 9 1 (post .portDown p.cfg.owner [port]
      { stripped port p s with out := p.sendQ ++ queuedFor port (cellsToward port s) ++ (stripped port p s).out }))) := by
  simp only [faultPort, hp, hup, hr, hs, Bool.not_true, Bool.false_eq_true, false_and, if_false, if_true]
  rfl
end

/-! ## A port that retrains (R347, R474) -/

/-- The field clock that PORT_RETRAIN finds present (R474; log entry 25). -/
def clocked (port : Nat) (s : State) : State :=
  { s with phys := { s.phys with refField := s.phys.refField ||| BitVec.ofNat 8 (1 <<< (port / 24)) } }

theorem clocked_refField {port : Nat} (s : State) (h : port < 192) : (clocked port s).phys.refField.getLsbD (port / 24) = true := by
  have hfield : port / 24 < 8 := by omega
  simp only [clocked, BitVec.getLsbD_or, BitVec.getLsbD_ofNat, Nat.testBit_shiftLeft]
  simp [hfield]

theorem portOf_clocked (port n : Nat) (s : State) : portOf (clocked port s) n = portOf s n := rfl

theorem portAlive_clocked {port : Nat} {s : State} (h : port < 192) (hready : s.boot.phase = .ready)
    (hiso : s.phys.isolated.getLsbD (port / 24) = false) : portAlive (clocked port s) port = true := by
  have hphase : (clocked port s).boot.phase = .ready := hready
  have hfield : (clocked port s).phys.isolated.getLsbD (port / 24) = false := hiso
  simp [portAlive, hphase, hfield, clocked_refField s h]

theorem train_alive {port : Nat} {s : State} (h : portAlive s port = true) : train port s = modPort port (fun p => { Port.down p.cfg with
    training := true, removed := p.removed, rejects := p.rejects, discards := p.discards, dups := p.dups,
    linkQ := [.hello (myNode s) 2 port] }) s := by
  simp only [train, h, Bool.not_true, Bool.false_eq_true, if_false]

theorem exec_portRetrain_down {port : Nat} {s : State} {p : Port} (hp : portOf s port = some p) (hup : p.up = false)
    (hready : s.boot.phase = .ready) : exec (.portRetrain port) s = .next (train port (clocked port s)) := by
  have hgo : ¬ (linkUp s port = true ∨ (!dataUp s) = true ∨ (!thas s.ports.ports port) = true) := by
    have hlisted : thas s.ports.ports port = true := Option.isSome_of_eq_some hp
    simp [linkUp_of_portOf hp, hup, dataUp, hready, hlisted]
  exact congrArg Host.Outcome.next (if_neg hgo)

/-- Settles O29: each clause is the case of HELLO, of a lane, of a fault or of retraining that it names. -/
theorem portsUpAndDown : Obligations.PortsUpAndDown := by
  unfold Obligations.PortsUpAndDown
  refine ⟨?hello, ?width, ?lane, ?fault, ?retrain⟩
  case hello =>
    intro port node kind s p hp fits
    exact ⟨fun ht => next_of_eq (helloArrives_idle hp ht), fun ht h => next_of_eq (helloArrives_fits hp ht h),
      fun ht h => next_of_eq (helloArrives_mismatch hp ht h)⟩
  case width =>
    intro port mask q0 s p hp
    exact ⟨fun hup hm => next_of_eq (widthArrives_sheds hp q0 hup hm), fun hup hm => next_of_eq (widthArrives_faults hp q0 hup hm),
      fun hup => next_of_eq (widthArrives_down hp mask q0 hup)⟩
  case lane =>
    intro port lane s p hp mask
    exact ⟨fun hup hl hm => next_of_eq (shedLane_sheds hp hup hl hm), fun hup hl hm => next_of_eq (shedLane_faults hp hup hl hm),
      fun hl => next_of_eq (shedLane_shed hp hl)⟩
  case fault =>
    intro port reason s p hp a cells clean b went
    refine ⟨fun hup ht => ?_, fun hup hr hs => ?_⟩
    · have h := next_of_eq (faultPort_down hp hup ht)
      exact ⟨h, h⟩
    · have h := next_of_eq (faultPort_unsent hp hup hr hs)
      exact ⟨h, h⟩
  case retrain =>
    intro port s p hp hup hready hiso hport
    have htrains := train_alive (portAlive_clocked hport hready hiso)
    exact ⟨_, (exec_portRetrain_down hp hup hready).trans (next_of_eq htrains), clocked_refField s hport,
      (portOf_modPort_same _ _ _).trans (congrArg (Option.map _) ((portOf_clocked port port s).trans hp)),
      fun n hn => portOf_modPort_ne _ _ hn⟩

end Sys2Proof.Machine

/-! # The whole block: what every command keeps -/

namespace Sys2Proof.Machine

-- Elaborated one after another: a thread for each of these many short proofs would exhaust those of the process.
set_option Elab.async false

/-! ## What a command may change of the queue, the timer, the event sequence, power, fuses and a trip -/

/-- The parts of the state that the statements about every command speak of. -/
structure View where
  pending : List Instr
  timer : Word64
  eventSeq : Nat
  pwrgd : Bool
  thermtripN : Bool
  phase : Phase
  fuses : BitVec 4096

def view (s : State) : View :=
  { pending := s.pending, timer := s.timer, eventSeq := s.mgmt.eventSeq, pwrgd := s.phys.pwrgd,
    thermtripN := s.phys.thermtripN, phase := s.boot.phase, fuses := s.boot.fuses }

/-- What lasts from one view to a later one. -/
structure View.Lasts (v w : View) : Prop where
  pending : w.pending = v.pending
  timer : w.timer = v.timer
  eventSeq : v.eventSeq ≤ w.eventSeq
  pwrgd : w.pwrgd = v.pwrgd
  thermtripN : v.thermtripN = true → w.thermtripN = true
  phase : v.phase = .tripped → w.phase = .tripped
  fuses : ∀ i, v.fuses.getLsbD i = true → w.fuses.getLsbD i = true

/-- The queue, the timer and the power of `s` are those of `z`; its events are counted on, its blown fuses stay blown and
its trip lasts. -/
def Keeps (z s : State) : Prop := (view z).Lasts (view s)

variable {z s : State}

theorem keeps_refl (s : State) : Keeps s s := ⟨rfl, rfl, le_rfl, rfl, id, id, fun _ => id⟩

/-- What lasts from one state to the next lasts from an earlier one. -/
theorem Keeps.step {t : State} (hk : Keeps z s) (h : (view s).Lasts (view t)) : Keeps z t :=
  ⟨h.pending.trans hk.pending, h.timer.trans hk.timer, hk.eventSeq.trans h.eventSeq, h.pwrgd.trans hk.pwrgd,
    h.thermtripN ∘ hk.thermtripN, h.phase ∘ hk.phase, fun i => h.fuses i ∘ hk.fuses i⟩

/-- A start that has not tripped moves on to another phase. -/
theorem keeps_phase {t : State} {ph : Phase} (hk : Keeps z s) (hz : z.boot.phase ≠ .tripped)
    (hv : view t = { view s with phase := ph }) : Keeps z t := by
  obtain ⟨hp, ht, he, hw, hn, -, hf⟩ := hk
  unfold Keeps
  rw [hv]
  exact ⟨hp, ht, he, hw, hn, fun h => absurd h hz, hf⟩

/-- An update of the other parts. -/
theorem keeps_mk {free : Nat} {out : List Tx} {replies : List Reply} {boot : BootSt} {phys : PhysSt} {mgmt : MgmtSt} {parts : PartSt}
    {ext : ExtMap} {home : HomeSt} {dir : DirSt} {ledger : LedgerSt} {vers : VersSt} {pool : PoolSt} {queues : QueueSt}
    {cores : CoreSt} {groups : Table CGroup} {spindle : SpindleSt} {ports : PortSt} {obs : ObsSt}
    (hk : Keeps z s)
    (hb : (boot.phase, boot.fuses, phys.pwrgd, phys.thermtripN, mgmt.eventSeq) =
      (s.boot.phase, s.boot.fuses, s.phys.pwrgd, s.phys.thermtripN, s.mgmt.eventSeq) := by rfl) :
    Keeps z ⟨s.pending, s.timer, free, out, replies, boot, phys, mgmt, parts, ext, home, dir, ledger, vers, pool, queues, cores,
      groups, spindle, ports, obs⟩ := by
  simp only [Prod.mk.injEq] at hb
  obtain ⟨h1, h2, h3, h4, h5⟩ := hb
  unfold Keeps view at *
  simpa only [h1, h2, h3, h4, h5] using hk

theorem keeps_ite {c : Prop} [Decidable c] {t u : State} (ht : Keeps z t) (hu : Keeps z u) : Keeps z (if c then t else u) := by
  split
  · exact ht
  · exact hu

theorem keeps_foldl {α : Type} {f : State → α → State} {l : List α} (hk : Keeps z s) (hf : ∀ t x, Keeps z t → Keeps z (f t x)) :
    Keeps z (l.foldl f s) := by
  induction l generalizing s with
  | nil => exact hk
  | cons x xs ih => exact ih (hf s x hk)

theorem keeps_snd {α : Type} {r : α × State} {x : α} {t : State} (hk : Keeps z r.2) (e : r = (x, t)) : Keeps z t := by
  subst e; exact hk

theorem keeps_snd2 {α β : Type} {r : α × β × State} {x : α} {y : β} {t : State} (hk : Keeps z r.2.2) (e : r = (x, y, t)) : Keeps z t := by
  subst e; exact hk

theorem keeps_snd3 {α β γ : Type} {r : α × β × γ × State} {x : α} {y : β} {w : γ} {t : State} (hk : Keeps z r.2.2.2)
    (e : r = (x, y, w, t)) : Keeps z t := by
  subst e; exact hk

theorem keeps_ite_snd {α : Type} {c : Prop} [Decidable c] {t u : α × State} (ht : Keeps z t.2) (hu : Keeps z u.2) :
    Keeps z (if c then t else u).2 := by
  split
  · exact ht
  · exact hu

/-! ## Outcomes that carry a state -/

def KeepsOpt (z : State) : Option State → Prop
  | some t => Keeps z t
  | none => True

theorem KeepsOpt.some {o : Option State} {t : State} (hk : KeepsOpt z o) (e : o = some t) : Keeps z t := by subst e; exact hk

def KeepsOptSnd (z : State) {α : Type} : Option (α × State) → Prop
  | some r => Keeps z r.2
  | none => True

theorem KeepsOptSnd.some {α : Type} {o : Option (α × State)} {x : α} {t : State} (hk : KeepsOptSnd z o) (e : o = some (x, t)) :
    Keeps z t := by subst e; exact hk

def KeepsW (z : State) : WOut → Prop
  | .done t => Keeps z t
  | .wait _ t => Keeps z t
  | .fail _ t => Keeps z t

theorem KeepsW.done {o : WOut} {t : State} (hk : KeepsW z o) (e : o = .done t) : Keeps z t := by subst e; exact hk
theorem KeepsW.wait {o : WOut} {w : Wait} {t : State} (hk : KeepsW z o) (e : o = .wait w t) : Keeps z t := by subst e; exact hk
theorem KeepsW.fail {o : WOut} {st : St} {t : State} (hk : KeepsW z o) (e : o = .fail st t) : Keeps z t := by subst e; exact hk

theorem keepsW_ite {c : Prop} [Decidable c] {t u : WOut} (ht : KeepsW z t) (hu : KeepsW z u) : KeepsW z (if c then t else u) := by
  split
  · exact ht
  · exact hu

theorem KeepsW.of_eq {o p : WOut} (hk : KeepsW z o) (e : o = p) : KeepsW z p := e ▸ hk

def KeepsM (z : State) : MRes → Prop
  | .done _ _ _ t => Keeps z t
  | .wait t => Keeps z t

theorem KeepsM.done {o : MRes} {st : St} {body : List Nat} {change : Bool} {t : State} (hk : KeepsM z o)
    (e : o = .done st body change t) : Keeps z t := by subst e; exact hk
theorem KeepsM.wait {o : MRes} {t : State} (hk : KeepsM z o) (e : o = .wait t) : Keeps z t := by subst e; exact hk

def KeepsE (z : State) : EndOut → Prop
  | .written t => Keeps z t
  | .refused t => Keeps z t
  | .sent _ _ t => Keeps z t
  | .wait t => Keeps z t

theorem KeepsE.written {o : EndOut} {t : State} (hk : KeepsE z o) (e : o = .written t) : Keeps z t := by subst e; exact hk
theorem KeepsE.refused {o : EndOut} {t : State} (hk : KeepsE z o) (e : o = .refused t) : Keeps z t := by subst e; exact hk
theorem KeepsE.sent {o : EndOut} {n : Node} {tag : BitVec 16} {t : State} (hk : KeepsE z o) (e : o = .sent n tag t) :
    Keeps z t := by subst e; exact hk
theorem KeepsE.wait {o : EndOut} {t : State} (hk : KeepsE z o) (e : o = .wait t) : Keeps z t := by subst e; exact hk

def KeepsA (z : State) : AOut → Prop
  | .done _ _ t => Keeps z t
  | .wait t => Keeps z t
  | .space t => Keeps z t

theorem KeepsA.done {o : AOut} {st : St} {r : BitVec 128} {t : State} (hk : KeepsA z o) (e : o = .done st r t) :
    Keeps z t := by subst e; exact hk
theorem KeepsA.wait {o : AOut} {t : State} (hk : KeepsA z o) (e : o = .wait t) : Keeps z t := by subst e; exact hk
theorem KeepsA.space {o : AOut} {t : State} (hk : KeepsA z o) (e : o = .space t) : Keeps z t := by subst e; exact hk

def KeepsI (z : State) : IOut → Prop
  | .go _ t => Keeps z t
  | .jump _ _ t => Keeps z t
  | .stay _ _ t => Keeps z t
  | .hold _ => True
  | .fail _ _ => True

/-- A command answers a next state that keeps them. -/
def Runs (z : State) : Out → Prop
  | .next t => Keeps z t
  | _ => False

/-! ## Work of items -/

def KeepsR (z : State) {α : Type} : EStateM.Result Halt IEnv α → Prop
  | .ok _ v => Keeps z v.s
  | .error _ v => Keeps z v.s

theorem KeepsR.ok {α : Type} {o : EStateM.Result Halt IEnv α} {x : α} {v : IEnv} (hk : KeepsR z o) (e : o = .ok x v) :
    Keeps z v.s := by subst e; exact hk
theorem KeepsR.error {α : Type} {o : EStateM.Result Halt IEnv α} {x : Halt} {v : IEnv} (hk : KeepsR z o) (e : o = .error x v) :
    Keeps z v.s := by subst e; exact hk

def KeepsIo (z : State) {α : Type} (p : Io α) : Prop := ∀ v, Keeps z v.s → KeepsR z (p v)

theorem keepsIo_pure {α : Type} {x : α} : KeepsIo z (pure x : Io α) := fun _ hv => hv

theorem keepsIo_bind {α β : Type} {p : Io α} {q : α → Io β} (hp : KeepsIo z p) (hq : ∀ x, KeepsIo z (q x)) : KeepsIo z (p >>= q) := by
  intro v hv
  have h := hp v hv
  simp only [bind, EStateM.bind]
  cases e : p v with
  | ok x w => exact hq x w (h.ok e)
  | error x w => exact h.error e

theorem keepsIo_get_bind {β : Type} {q : IEnv → Io β} (hq : ∀ v, Keeps z v.s → KeepsIo z (q v)) :
    KeepsIo z ((get : Io IEnv) >>= q) := fun v hv => hq v hv v hv

theorem keepsIo_set {v : IEnv} (hv : Keeps z v.s) : KeepsIo z (set v : Io PUnit) := fun _ _ => hv

theorem keepsIo_ite {α : Type} {c : Prop} [Decidable c] {p q : Io α} (hp : KeepsIo z p) (hq : KeepsIo z q) :
    KeepsIo z (if c then p else q) := by
  split
  · exact hp
  · exact hq

theorem keepsIo_mapM {α β : Type} {f : α → Io β} {l : List α} (hf : ∀ x, KeepsIo z (f x)) : KeepsIo z (l.mapM f) := by
  induction l with
  | nil => exact keepsIo_pure
  | cons x xs ih =>
    rw [List.mapM_cons]
    exact keepsIo_bind (hf x) fun _ => keepsIo_bind ih fun _ => keepsIo_pure

theorem keepsIo_foldlM {α β : Type} {f : β → α → Io β} {l : List α} {b : β} (hf : ∀ y x, KeepsIo z (f y x)) :
    KeepsIo z (l.foldlM f b) := by
  induction l generalizing b with
  | nil => exact keepsIo_pure
  | cons x xs ih =>
    rw [List.foldlM_cons]
    exact keepsIo_bind (hf b x) fun _ => ih

theorem keepsIo_forM {α : Type} {f : α → Io PUnit} {l : List α} (hf : ∀ x, KeepsIo z (f x)) : KeepsIo z (l.forM f) := by
  induction l with
  | nil => exact keepsIo_pure
  | cons x xs ih =>
    exact keepsIo_bind (hf x) fun _ => ih

theorem keepsIo_forIn {α : Type} {l : List α} {f : α → PUnit → Io (ForInStep PUnit)} (hf : ∀ x u, KeepsIo z (f x u)) :
    KeepsIo z (forIn l PUnit.unit f) := by
  induction l with
  | nil => exact keepsIo_pure
  | cons x xs ih =>
    rw [List.forIn_cons]
    refine keepsIo_bind (hf x _) fun r => ?_
    cases r with
    | done b => exact keepsIo_pure
    | yield b => exact ih

/-! ## What each operation of the model keeps

One lemma per function that gives a state, in the order of the model's files: its proof follows the function's branches and
cites the lemmas of the operations that it calls. -/

/-! ### Shared operations -/

theorem keeps_modPart {p : Nat} {f : Part → Part} (hk : Keeps z s) : Keeps z (modPart p f s) := keeps_mk hk

theorem keeps_modPort {n : Nat} {f : Port → Port} (hk : Keeps z s) : Keeps z (modPort n f s) := keeps_mk hk

theorem keeps_occur {o : Occ} (hk : Keeps z s) : Keeps z (occur o s) := keeps_mk hk

theorem keeps_bump {type block idx n : Nat} (hk : Keeps z s) : Keeps z (bump type block idx n s) := keeps_mk hk

theorem keeps_reading {type block idx v : Nat} (hk : Keeps z s) : Keeps z (reading type block idx v s) := keeps_mk hk

theorem keeps_fumarole {type source : Nat} {body : List Nat} (hk : Keeps z s) : Keeps z (fumarole type source body s) :=
  keeps_mk hk

theorem holdEvent_eventSeq (e : Event) (m : MgmtSt) : (holdEvent e m).eventSeq = m.eventSeq := by
  simp only [holdEvent]
  split
  · rfl
  · rfl

theorem keeps_post {n : Ev} {p : Option Nat} {args : List Nat} (hk : Keeps z s) : Keeps z (post n p args s) := by
  have hm : s.mgmt.eventSeq ≤ (holdEvent { seq := s.mgmt.eventSeq, name := n, part := p, args := args }
      { s.mgmt with eventSeq := s.mgmt.eventSeq + 1 }).eventSeq := by
    rw [holdEvent_eventSeq]
    exact Nat.le_succ _
  exact keeps_fumarole (hk.step ⟨rfl, rfl, hm, rfl, id, id, fun _ => id⟩)

theorem keeps_postHost {seq code p slot : Nat} {h : Node} {arg : Word32} (hk : Keeps z s) : Keeps z
    (postHost seq code p slot h arg s) :=
  keeps_ite (keeps_post (keeps_mk hk)) (keeps_mk hk)

theorem keeps_postAll {n : Ev} {p : Nat} {args : List Nat} {code slot : Nat} {hosts : List Node} {arg : Node → Word32}
    (hk : Keeps z s) : Keeps z (postAll n p args code slot hosts arg s) :=
  keeps_foldl (keeps_post hk) (fun _ _ => keeps_postHost)

theorem keeps_postHosts {p code slot : Nat} {hosts : List Node} {arg : Word32} (hk : Keeps z s) : Keeps z
    (postHosts p code slot hosts arg s) :=
  keeps_foldl (hk.step ⟨rfl, rfl, Nat.le_succ _, rfl, id, id, fun _ => id⟩) fun _ _ => keeps_postHost

theorem keeps_send {tx : Tx} (hk : Keeps z s) : Keeps z (send tx s) := keeps_mk hk

theorem keeps_sendEngine {tx : Tx} (hk : Keeps z s) : Keeps z (sendEngine tx s) := keeps_mk hk

theorem keeps_answer {tx : Tx} {st : St} (hk : Keeps z s) : Keeps z (answer tx st s) := keeps_send hk

theorem keeps_answerTiles {tx : Tx} {ts : List Tile} (hk : Keeps z s) : Keeps z (answerTiles tx ts s) := keeps_send hk

theorem keeps_answerVersion {tx : Tx} {st : St} {v : Word32} (hk : Keeps z s) : Keeps z (answerVersion tx st v s) :=
  keeps_send hk

theorem keeps_takeFree (hk : Keeps z s) : Keeps z (takeFree s).2 := keeps_mk hk

theorem keeps_setExt {slot : Nat} {e : Extent} (hk : Keeps z s) : Keeps z (setExt slot e s) := keeps_mk hk

theorem keeps_modExt {slot : Nat} {f : Extent → Extent} (hk : Keeps z s) : Keeps z (modExt slot f s) := keeps_mk hk

/-! ### The pool -/

theorem keeps_modGroup {gi : Nat} {f : Group → Group} (hk : Keeps z s) : Keeps z (modGroup gi f s) := keeps_mk hk

theorem keeps_setUnit {n : Node} {unit : Nat} {t : Tile} (hk : Keeps z s) : Keeps z (setUnit n unit t s) := keeps_mk hk

theorem keeps_askPool {tx : Tx} {unit : Nat} {kind : ModKind} (hk : Keeps z s) : Keeps z (askPool tx unit kind s) :=
  keeps_send (keeps_mk hk)

theorem keeps_askModule {op : Byte} {cls : Nat} {n : Node} {unit : Nat} {ts : List Tile} {kind : ModKind} (hk : Keeps z s) :
    Keeps z (askModule op cls n unit ts kind s) :=
  keeps_askPool hk

theorem keeps_claimModules {gi : Nat} {g : Group} {epoch : Nat} {takeover : Bool} {known : List Node} (hk : Keeps z s) : Keeps z
    (claimModules gi g epoch takeover known s) :=
  keeps_foldl hk (fun _ _ k0 => keeps_ite (keeps_send k0) (keeps_askPool k0))

theorem keeps_askCol {own : Option (Nat × Nat)} {part cls gi : Nat} {g : Group} {row col : Nat} (hk : Keeps z s) : Keeps z
    (askCol own part cls gi g row col s) :=
  keeps_askModule hk

theorem keeps_askHelpers {part cls gi : Nat} {g : Group} {row col : Nat} (hk : Keeps z s) : Keeps z
    (askHelpers part cls gi g row col s) :=
  keeps_foldl hk (fun _ _ => keeps_askCol)

theorem keeps_markRegion {gi row : Nat} (hk : Keeps z s) : Keeps z (markRegion gi row s) := keeps_mk hk

theorem keeps_rewriteUnit {part cls gi : Nat} {n : Node} {row : Nat} {t : Tile} (hk : Keeps z s) : Keeps z
    (rewriteUnit part cls gi n row t s) :=
  keeps_ite hk (keeps_askModule (keeps_setUnit (keeps_markRegion hk)))

theorem keeps_rebuildUnit {part cls gi : Nat} {g : Group} {row pos : Nat} (hk : Keeps z s) : Keeps z
    (rebuildUnit part cls gi g row pos s) := by
  unfold rebuildUnit
  split
  · exact keeps_rewriteUnit hk
  · exact keeps_rewriteUnit (keeps_post hk)

theorem keeps_formRow {gi : Nat} {g : Group} {row : Nat} (hk : Keeps z s) : Keeps z (formRow gi g row s) := by
  unfold formRow
  dsimp only
  split
  · exact keeps_foldl (keeps_foldl (keeps_foldl hk (fun _ _ => keeps_askCol)) (fun _ _ k2 => keeps_rewriteUnit (keeps_mk k2)))
      (fun _ _ => keeps_rewriteUnit)
  · refine keeps_foldl ?_ (fun _ _ => keeps_rewriteUnit)
    split
    · refine keeps_post ?_
      split
      · exact hk
      · exact keeps_askHelpers hk
    · split
      · exact hk
      · exact keeps_askHelpers hk

theorem keeps_dropRepaired {gi : Nat} (hk : Keeps z s) : Keeps z (dropRepaired gi s) := keeps_mk hk

theorem keeps_endPass {gi : Nat} (hk : Keeps z s) : Keeps z (endPass gi s) := by
  unfold endPass
  split
  · exact hk
  · split
    · exact hk
    · exact keeps_ite hk (keeps_post (keeps_dropRepaired (keeps_modGroup hk)))

theorem keeps_endRebuild {gi : Nat} (hk : Keeps z s) : Keeps z (endRebuild gi s) := by
  unfold endRebuild
  split
  · exact hk
  · exact keeps_ite hk (keeps_ite (keeps_modGroup hk) (keeps_post (keeps_dropRepaired (keeps_modGroup hk))))

theorem keeps_markRepaired {gi row : Nat} (hk : Keeps z s) : Keeps z (markRepaired gi row s) := keeps_endRebuild (keeps_mk hk)

theorem keeps_touchRow {part gi row : Nat} {col : Option Nat} (hk : Keeps z s) : Keeps z (touchRow part gi row col s) := by
  unfold touchRow
  split
  · exact hk
  · split
    · exact hk
    · split
      · split
        · exact hk
        · split
          · exact keeps_markRepaired (keeps_rewriteUnit (keeps_askHelpers hk))
          · exact hk
      · split
        · exact hk
        · split
          · exact keeps_markRepaired (keeps_rewriteUnit (keeps_askHelpers hk))
          · exact hk

theorem keeps_spotOcc {event : Nat} {p : Spot} (hk : Keeps z s) : Keeps z (spotOcc event p s) := keeps_ite hk (keeps_occur hk)

theorem keeps_fillLine {key : Nat} {l : Line} (hk : Keeps z s) : Keeps z (fillLine key l s) := keeps_mk hk

theorem keeps_postChecksum {p : Spot} (hk : Keeps z s) : Keeps z (postChecksum p s) := keeps_post hk

theorem keeps_poolRead {p : Spot} (hk : Keeps z s) : Keeps z (poolRead p s).2 := by
  unfold poolRead
  split
  · exact hk
  · dsimp only
    split
    · exact keeps_spotOcc (keeps_touchRow hk)
    · split
      · exact keeps_spotOcc (keeps_touchRow hk)
      · split
        · exact keeps_fillLine (keeps_ite (keeps_spotOcc (keeps_touchRow hk))
            (keeps_askCol (keeps_spotOcc (keeps_touchRow hk))))
        · split
          · exact keeps_fillLine (keeps_ite
              (keeps_askHelpers (keeps_spotOcc (keeps_ite (keeps_spotOcc (keeps_touchRow hk))
              (keeps_askCol (keeps_spotOcc (keeps_touchRow hk))))))
              (keeps_rewriteUnit (keeps_askHelpers (keeps_spotOcc (keeps_ite (keeps_spotOcc (keeps_touchRow hk))
              (keeps_askCol (keeps_spotOcc (keeps_touchRow hk))))))))
          · exact keeps_ite (keeps_postChecksum
              (keeps_askHelpers (keeps_spotOcc (keeps_ite (keeps_spotOcc (keeps_touchRow hk))
              (keeps_askCol (keeps_spotOcc (keeps_touchRow hk)))))))
              (keeps_askHelpers (keeps_spotOcc (keeps_ite (keeps_spotOcc (keeps_touchRow hk))
              (keeps_askCol (keeps_spotOcc (keeps_touchRow hk))))))

theorem keeps_storedAt {p : Spot} (hk : Keeps z s) : Keeps z (storedAt p s).2 := by
  unfold storedAt
  split
  · split
    · exact hk
    · split
      · exact keeps_spotOcc hk
      · split
        · exact keeps_ite_snd (keeps_fillLine hk) (keeps_postChecksum hk)
        · exact keeps_poolRead hk
  · exact keeps_poolRead hk

theorem keeps_storedTile {slot tile : Nat} {e : Extent} (hk : Keeps z s) : Keeps z (storedTile slot tile e s).2 :=
  keeps_ite_snd hk (keeps_ite_snd hk (keeps_storedAt hk))

theorem keeps_backingRead {slot tile : Nat} {e : Extent} (hk : Keeps z s) : Keeps z (backingRead slot tile e s).2 :=
  keeps_storedTile (keeps_spotOcc hk)

theorem keeps_waitJournal {p : Nat} (hk : Keeps z s) : Keeps z (waitJournal p s) := keeps_ite hk (keeps_post (keeps_mk hk))

theorem keeps_touchTile {slot tile : Nat} (hk : Keeps z s) : Keeps z (touchTile slot tile s) := keeps_modExt hk

theorem keeps_oldUnit {p : Spot} {g : Group} (hk : Keeps z s) : Keeps z (oldUnit p g s).2 := by
  unfold oldUnit
  dsimp only
  split
  · exact hk
  · split
    · split
      · exact hk
      · split
        · exact keeps_ite hk (keeps_askCol hk)
        · exact keeps_askHelpers (keeps_ite hk (keeps_askCol hk))
    · split
      · exact keeps_ite hk (keeps_askCol hk)
      · exact keeps_askHelpers (keeps_ite hk (keeps_askCol hk))

theorem keeps_journalWrite {h : WHow} {p : Spot} {g : Group} {t : Tile} (hk : Keeps z s) : Keeps z (journalWrite h p g t s) :=
  keeps_spotOcc (keeps_mk (keeps_ite_snd hk (keeps_oldUnit hk)))

theorem keeps_storeAt {h : WHow} {p : Spot} {t : Tile} (hk : Keeps z s) : KeepsW z (storeAt h p t s) := by
  unfold storeAt
  split
  · exact hk
  · split
    · exact hk
    · dsimp only
      split
      · exact keeps_touchRow hk
      · exact keepsW_ite (keeps_touchRow hk) (keepsW_ite (keeps_postChecksum (keeps_touchRow hk))
          (keepsW_ite (keeps_waitJournal (keeps_touchRow hk)) (keeps_journalWrite (keeps_touchRow hk))))

theorem keeps_backingWrite {h : WHow} {slot tile : Nat} {e : Extent} {t : Tile} (hk : Keeps z s) : KeepsW z
    (backingWrite h slot tile e t s) := by
  unfold backingWrite
  split
  next e0 => exact keeps_spotOcc (keeps_touchTile (keeps_mk ((keeps_storeAt hk).done e0)))
  · exact keeps_storeAt hk

theorem keeps_clearLoss {g : Group} {r : JRec} (hk : Keeps z s) : Keeps z (clearLoss g r s) := keeps_ite hk (keeps_mk hk)

theorem keeps_startRec {r : JRec} (hk : Keeps z s) : Keeps z (startRec r s) := by
  unfold startRec
  split
  · exact hk
  · exact keeps_foldl (keeps_foldl (keeps_foldl (keeps_markRegion (keeps_mk hk)) (fun _ _ => keeps_askCol))
      (fun _ _ => keeps_askModule)) (fun _ _ => keeps_clearLoss)

theorem keeps_startRecs (hk : Keeps z s) : Keeps z (startRecs s) := by
  unfold startRecs
  split
  · exact hk
  · refine keeps_foldl hk fun t x k => ?_
    split
    · exact keeps_ite (keeps_startRec k) k
    · exact k

theorem keeps_applyRecs {r : JRec} {rs : List JRec} (hk : Keeps z s) : Keeps z (applyRecs r rs s) := by
  unfold applyRecs
  split
  · exact hk
  · exact keeps_foldl (keeps_foldl hk (fun _ _ => keeps_setUnit)) (fun _ _ => keeps_clearLoss)

theorem keeps_rearmJournal {p : Nat} (hk : Keeps z s) : Keeps z (rearmJournal p s) := keeps_ite (keeps_mk hk) hk

theorem keeps_commitRec {r : JRec} (hk : Keeps z s) : Keeps z (commitRec r s) :=
  keeps_rearmJournal (keeps_mk (keeps_applyRecs hk))

theorem keeps_commitFree {ids : List Nat} (hk : Keeps z s) : Keeps z (commitFree ids s) := by
  unfold commitFree
  refine keeps_foldl hk fun t x k => ?_
  split
  · exact k
  · exact keeps_ite k (keeps_commitRec k)

theorem keeps_reissue {q : ModReq} (hk : Keeps z s) : Keeps z (reissue q s) := by
  unfold reissue
  split
  · split
    · exact keeps_askHelpers hk
    · exact hk
  · exact hk

theorem keeps_loseModule {n : Node} (hk : Keeps z s) : Keeps z (loseModule n s) :=
  keeps_ite hk (keeps_commitFree (keeps_foldl
    (keeps_post (keeps_mk (keeps_foldl (keeps_mk hk) (fun _ _ => keeps_dropRepaired)))) (fun _ _ => keeps_reissue)))

/-! ### Versioned extents -/

theorem keeps_dropDead {slot : Nat} (hk : Keeps z s) : Keeps z (dropDead slot s) := keeps_modExt hk

theorem keeps_takeSinter {key : Nat} (hk : Keeps z s) : Keeps z (takeSinter key s) := keeps_mk hk

theorem keeps_checkSpace {p : Nat} (hk : Keeps z s) : Keeps z (checkSpace p s) :=
  keeps_ite (keeps_ite hk (keeps_post (keeps_mk hk))) (keeps_ite (keeps_mk hk) hk)

theorem keeps_spaceFull {p : Nat} (hk : Keeps z s) : Keeps z (spaceFull p s) := keeps_ite hk (keeps_post (keeps_mk hk))

theorem keeps_sweepSlot {slot : Nat} (hk : Keeps z s) : Keeps z (sweepSlot slot s) := by
  unfold sweepSlot
  split
  · exact hk
  · exact keeps_checkSpace (keeps_mk hk)

theorem keeps_dropVersions {slot : Nat} (hk : Keeps z s) : Keeps z (dropVersions slot s) := keeps_checkSpace (keeps_mk hk)

theorem keeps_copyRead {slot tile : Nat} {c : Copy} (hk : Keeps z s) : Keeps z (copyRead slot tile c s).2 := by
  unfold copyRead
  split
  · exact hk
  · exact hk
  · exact keeps_storedAt hk

theorem keeps_versRead {slot tile : Nat} {e : Extent} {v : Nat} (hk : Keeps z s) : Keeps z (versRead slot tile e v s).2 := by
  unfold versRead
  split
  · exact keeps_backingRead hk
  · split
    · exact keeps_copyRead hk
    · exact keeps_backingRead hk

theorem keeps_homeRead {slot tile v : Nat} {e : Extent} (hk : Keeps z s) : Keeps z (homeRead slot tile v e s).2 :=
  keeps_ite_snd (keeps_versRead hk) (keeps_backingRead hk)

theorem keeps_putCopy {slot tile : Nat} {e : Extent} {content : CopyContent} (hk : Keeps z s) : Keeps z
    (putCopy slot tile e content s) :=
  keeps_modExt (keeps_mk hk)

theorem keeps_loseSinter {slot tile key : Nat} (hk : Keeps z s) : Keeps z (loseSinter slot tile key s) := keeps_mk hk

theorem keeps_cow {slot tile : Nat} {e : Extent} {whole : Bool} (hk : Keeps z s) : KeepsW z (cow slot tile e whole s) := by
  have space : ∀ {c : Prop} [Decidable c] {t u : State}, Keeps z t → Keeps z u →
      KeepsW z (if c then (if reclaimable t e.owner then .wait (.sinter e.owner) t else .fail .versionSpace
        (spaceFull e.owner t))
        else .done u) := fun ht hu => keepsW_ite (keepsW_ite ht (keeps_spaceFull ht)) hu
  have h1 := keeps_backingRead (slot := slot) (tile := tile) (e := e) hk
  unfold cow
  dsimp only
  refine keepsW_ite hk (keepsW_ite (space hk (keeps_putCopy hk)) (keepsW_ite (space hk (keeps_putCopy hk)) ?_))
  split
  · split
    · next e1 =>
      have h2 := (space h1 h1).done e1
      split
      · next e2 => exact keeps_checkSpace (keeps_putCopy (keeps_takeSinter ((keeps_storeAt h2).done e2)))
      · exact keeps_storeAt h2
    · exact space h1 h1
  · exact keepsW_ite (space h1 (keeps_checkSpace (keeps_putCopy (keeps_takeSinter (keeps_loseSinter h1))))) h1

theorem keeps_undoWrite {t : State} (_ : Keeps z s) (ht : Keeps z t) : Keeps z (undoWrite s t) := keeps_mk ht

theorem keeps_wholeOr {w : WOut} (hk : Keeps z s) (hw : KeepsW z w) : KeepsW z (wholeOr s w) := by
  cases w with
  | done t => exact hw
  | wait w t => exact keeps_undoWrite hk hw
  | fail st t => exact keeps_undoWrite hk hw

theorem keeps_homeWrite {slot tile : Nat} {e : Extent} {whole : Bool} {full : Option Nat} {t : Tile} (hk : Keeps z s) : KeepsW z
    (homeWrite slot tile e whole full t s) := by
  unfold homeWrite
  split
  · refine keeps_wholeOr hk ?_
    split
    next e2 => exact keeps_backingWrite ((keeps_cow hk).done e2)
    · exact keeps_cow hk
  · exact keeps_wholeOr hk (keeps_backingWrite hk)

theorem keeps_startDiscard {slot : Nat} (hk : Keeps z s) : Keeps z (startDiscard slot s) := keeps_modExt hk

theorem keeps_dropContent {slot tile : Nat} {e : Extent} {lost : Bool} (hk : Keeps z s) : Keeps z (dropContent slot tile e lost
    s) :=
  keeps_mk hk

theorem keeps_restoreContent {slot tile : Nat} {e : Extent} {c : CopyContent} (hk : Keeps z s) : KeepsOpt z
    (restoreContent slot tile e c s) := by
  unfold restoreContent
  split
  · exact keeps_modExt (keeps_mk hk)
  · exact keeps_mk hk
  · split
    next e1 => exact keeps_dropContent (keeps_snd (keeps_storedAt hk) e1)
    next e1 =>
      split
      next e2 => exact (keeps_backingWrite (keeps_snd (keeps_storedAt hk) e1)).done e2
      next e2 => exact keeps_dropContent ((keeps_backingWrite (keeps_snd (keeps_storedAt hk) e1)).fail e2)
      next e2 => exact trivial

theorem keeps_restoreTile {slot key : Nat} (hk : Keeps z s) : KeepsOpt z (restoreTile slot key s) := by
  unfold restoreTile
  split
  · split
    · exact hk
    · split
      next e2 => exact trivial
      next e2 => exact keeps_checkSpace (keeps_mk ((keeps_restoreContent hk).some e2))
  · exact hk

theorem keeps_restoreAll {slot : Nat} {l : List Nat} (hk : Keeps z s) : Keeps z (restoreAll slot l s).2 := by
  induction l generalizing s with
  | nil => exact hk
  | cons k t ih =>
    unfold restoreAll
    split
    · exact hk
    · next e => exact ih ((keeps_restoreTile hk).some e)

/-! ### The coherence directory -/

theorem keeps_putDir {slot tile : Nat} {st : DState} {owner : Nat} {sh : Sharers} (hk : Keeps z s) : Keeps z
    (putDir slot tile st owner sh s) :=
  keeps_mk hk

theorem keeps_setDir {slot tile : Nat} {d : DirEntry} (hk : Keeps z s) : Keeps z (setDir slot tile d s) := keeps_mk hk

theorem keeps_delDir {slot tile : Nat} (hk : Keeps z s) : Keeps z (delDir slot tile s) := keeps_mk hk

theorem keeps_delLog {slot tile : Nat} (hk : Keeps z s) : Keeps z (delLog slot tile s) := keeps_mk hk

theorem keeps_setPoison {slot tile : Nat} (hk : Keeps z s) : Keeps z (setPoison slot tile s) := keeps_mk hk

theorem keeps_addLog {slot tile : Nat} {e : Extent} {n : Node} (hk : Keeps z s) : Keeps z (addLog slot tile e n s) :=
  keeps_mk hk

theorem keeps_removeAgent {slot tile a : Nat} (hk : Keeps z s) : Keeps z (removeAgent slot tile a s) := by
  unfold removeAgent
  split
  · exact hk
  · exact keeps_ite (keeps_ite (keeps_delLog (keeps_setDir hk)) (keeps_delLog (keeps_delDir hk))) (keeps_ite (keeps_delDir hk)
      (keeps_setDir hk))

theorem keeps_answerEntry {slot tile a : Nat} {inv withData : Bool} (hk : Keeps z s) : Keeps z (answerEntry slot tile a inv
    withData s) := by
  unfold answerEntry
  split
  · exact keeps_removeAgent hk
  · split
    · exact hk
    · split
      · split
        · exact keeps_setDir hk
        · exact keeps_ite (keeps_setDir hk) (keeps_removeAgent hk)
        · exact keeps_ite hk (keeps_removeAgent hk)
      · exact hk

theorem keeps_timeoutEntry {slot tile a : Nat} (hk : Keeps z s) : Keeps z (timeoutEntry slot tile a s) := by
  unfold timeoutEntry
  split
  · exact hk
  · exact keeps_ite (keeps_removeAgent (keeps_setPoison hk)) (keeps_removeAgent hk)

theorem keeps_countPoison {slot tile : Nat} {r : Recall} (hk : Keeps z s) : Keeps z (countPoison slot tile r s) := by
  unfold countPoison
  split
  · exact hk
  · exact keeps_ite (keeps_mk hk) hk

theorem keeps_modBusy {slot tile : Nat} {f : Busy → Busy} (hk : Keeps z s) : Keeps z (modBusy slot tile f s) := keeps_mk hk

theorem keeps_delBusy {slot tile : Nat} (hk : Keeps z s) : Keeps z (delBusy slot tile s) := keeps_mk hk

theorem keeps_recallAnswered {slot tile : Nat} {r : Recall} {data : Option Tile} (hk : Keeps z s) : Keeps z
    (recallAnswered slot tile r data s) :=
  keeps_modBusy (keeps_answerEntry hk)

theorem keeps_recallExpired {slot tile : Nat} {r : Recall} (hk : Keeps z s) : Keeps z (recallExpired slot tile r s) :=
  keeps_modBusy (keeps_timeoutEntry (keeps_countPoison hk))

theorem keeps_purgeDead {slot tile : Nat} (hk : Keeps z s) : Keeps z (purgeDead slot tile s) := by
  unfold purgeDead
  split
  · exact hk
  · exact keeps_foldl hk (fun _ _ => keeps_removeAgent)

theorem keeps_freeDead (hk : Keeps z s) : Keeps z (freeDead s) := keeps_foldl hk (fun _ _ => keeps_modExt)

theorem keeps_sendRecall {slot tile : Nat} {e : Extent} {a : Nat} {inv : Bool} (hk : Keeps z s) : Keeps z
    (sendRecall slot tile e a inv s) := by
  unfold sendRecall
  split
  · exact keeps_answerEntry hk
  · exact keeps_ite (keeps_answerEntry hk) (keeps_spotOcc (keeps_send (keeps_modBusy (keeps_mk hk))))

theorem keeps_startRecalls {slot tile : Nat} {e : Extent} {why : Purpose} {rs : List (Nat × Bool)} (hk : Keeps z s) : Keeps z
    (startRecalls slot tile e why rs s) :=
  keeps_foldl (keeps_mk hk) (fun _ _ => keeps_sendRecall)

/-! ### Atomic operations and the ledger -/

theorem keeps_processAck {k : Node × Nat} {a : Word32} (hk : Keeps z s) : Keeps z (processAck k a s) := keeps_mk (keeps_mk hk)

theorem keeps_ledgerTake {tx : Tx} {slot area : Nat} (hk : Keeps z s) : Keeps z (ledgerTake tx slot area s) := keeps_mk hk

theorem keeps_ledgerDone {tx : Tx} {st : St} {r : BitVec 128} (hk : Keeps z s) : Keeps z (ledgerDone tx st r s) := keeps_mk hk

theorem keeps_ledgerTrim {tx : Tx} (hk : Keeps z s) : Keeps z (ledgerTrim tx s) := keeps_mk hk

theorem keeps_ledgerDrop {tx : Tx} (hk : Keeps z s) : Keeps z (ledgerDrop tx s) := keeps_mk hk

theorem keeps_answerAtomic {tx : Tx} {st : St} {r : BitVec 128} (hk : Keeps z s) : Keeps z (answerAtomic tx st r s) :=
  keeps_send hk

theorem keeps_refuse {tx : Tx} {st : St} (hk : Keeps z s) : Keeps z (refuse tx st s) :=
  keeps_ite (keeps_answerAtomic hk) (keeps_answer hk)

theorem keeps_resetLedger {n : Node} (hk : Keeps z s) : Keeps z (resetLedger n s) := keeps_mk hk

/-! ### Admission at the home -/

theorem keeps_park {rid port : Nat} {tx : Tx} {why : Wait} (hk : Keeps z s) : Keeps z (park rid port tx why s) := keeps_mk hk

theorem keeps_unpark {rid : Nat} (hk : Keeps z s) : Keeps z (unpark rid s) := keeps_mk hk

theorem keeps_retireOlder (hk : Keeps z s) : Keeps z (retireOlder s) := by
  unfold retireOlder
  split
  · exact hk
  · exact keeps_ite hk (keeps_mk hk)

theorem keeps_forwardTo {n : Node} {slot hop : Nat} {h : Word32} {tx : Tx} (hk : Keeps z s) : Keeps z
    (forwardTo n slot hop h tx s) :=
  keeps_mk hk

theorem keeps_hearMark {port : Nat} {tx : Tx} (hk : Keeps z s) : Keeps z (hearMark port tx s) := keeps_ite hk (keeps_mk hk)

theorem keeps_sendHeld {l : List Tx} (hk : Keeps z s) : Keeps z (sendHeld l s) := by
  induction l generalizing s with
  | nil => exact hk
  | cons tx rest ih => exact ih (keeps_ite hk (keeps_send (keeps_mk hk)))

theorem keeps_askPull {e : Extent} {tile cls : Nat} {qual : BitVec 3} {key : Nat} (hk : Keeps z s) : Keeps z
    (askPull e tile cls qual key s) :=
  keeps_ite (keeps_mk hk) (keeps_send hk)

theorem keeps_askLedger {e : Extent} {k : Node × Nat} (hk : Keeps z s) : Keeps z (askLedger e k s) :=
  keeps_ite hk (keeps_mk (keeps_askPull hk))

theorem keeps_sendPull {e : Extent} {tile cls : Nat} (hk : Keeps z s) : Keeps z (sendPull e tile cls s) := keeps_askPull hk

theorem keeps_askTile {slot : Nat} {e : Extent} {tile cls : Nat} (hk : Keeps z s) : Keeps z (askTile slot e tile cls s) :=
  keeps_ite hk (keeps_mk (keeps_sendPull hk))

theorem keeps_putSinter {slot tile key : Nat} {t : Option Tile} (hk : Keeps z s) : Keeps z (putSinter slot tile key t s) := by
  unfold putSinter
  dsimp only
  split
  · exact keeps_journalWrite (keeps_takeSinter hk)
  · exact keeps_loseSinter (keeps_takeSinter hk)

theorem keeps_takeCopies {p slot tile : Nat} {l : List (Nat × CopyContent × Option Tile)} (hk : Keeps z s) : Keeps z
    (takeCopies p slot tile l s).2 := by
  induction l generalizing s with
  | nil => exact hk
  | cons x r ih =>
    unfold takeCopies
    split
    · exact ih (keeps_putSinter hk)
    · exact ih hk

theorem keeps_takeHead {slot owner : Nat} {p : PullTile} (hk : Keeps z s) : Keeps z (takeHead slot owner p s) := by
  unfold takeHead
  split
  · exact hk
  · split
    next e1 => exact keeps_mk (keeps_snd (keeps_takeCopies hk) e1)

theorem keeps_foreignUnit {slot tile : Nat} {e : Extent} (hk : Keeps z s) : Keeps z (foreignUnit slot tile e s) := by
  unfold foreignUnit
  split
  · exact hk
  · exact keeps_applyRecs (keeps_mk hk)

theorem keeps_adoptTile {slot tile : Nat} {e : Extent} (hk : Keeps z s) : Keeps z (adoptTile slot tile e s) :=
  keeps_ite (keeps_ite (keeps_setPoison (keeps_mk hk)) (keeps_mk hk))
    (keeps_ite (keeps_setPoison (keeps_ite (keeps_ite (keeps_takeHead (keeps_mk hk)) (keeps_mk hk))
    (keeps_foreignUnit (keeps_touchTile (keeps_ite (keeps_takeHead (keeps_mk hk)) (keeps_mk hk))))))
    (keeps_ite (keeps_ite (keeps_takeHead (keeps_mk hk)) (keeps_mk hk))
    (keeps_foreignUnit (keeps_touchTile (keeps_ite (keeps_takeHead (keeps_mk hk)) (keeps_mk hk))))))

theorem keeps_pullFirst {slot : Nat} {e : Extent} {l : List Nat} (hk : Keeps z s) : Keeps z (pullFirst slot e l s).2 := by
  induction l generalizing s with
  | nil => exact hk
  | cons t ts ih =>
    unfold pullFirst
    exact keeps_ite_snd (ih hk) (keeps_ite_snd (ih (keeps_adoptTile hk)) (keeps_askTile hk))

/-! ### Requests whose recalls are answered -/

theorem keeps_dropLine {slot tile : Nat} (hk : Keeps z s) : Keeps z (dropLine slot tile s) := keeps_mk hk

/-- The content that a request takes at a tile: what a recall has brought, else the home's. -/
theorem keeps_recalledOr {slot tile v : Nat} {e : Extent} {d : Recalled} (hk : Keeps z s) :
    Keeps z (match recalledAt d tile with
      | some x => ((Except.ok x : Except St Tile), s)
      | none => homeRead slot tile v e s).2 := by
  split
  · exact hk
  · exact keeps_homeRead hk

theorem keeps_readTiles {slot v : Nat} {e : Extent} {d : Recalled} {l : List Nat} (hk : Keeps z s) : Keeps z
    (readTiles slot v e d l s).2 := by
  induction l generalizing s with
  | nil => exact hk
  | cons t ts ih =>
    unfold readTiles
    split
    · next e => exact keeps_snd (keeps_recalledOr hk) e
    · next e =>
      have h1 := ih (keeps_snd (keeps_recalledOr hk) e)
      split
      · next e => exact keeps_snd h1 e
      · next e => exact keeps_snd h1 e

theorem keeps_doRead {tx : Tx} {e : Extent} {d : Recalled} (hk : Keeps z s) : KeepsW z (doRead tx e d s) := by
  unfold doRead
  split
  next e0 => exact keeps_answerTiles (keeps_snd (keeps_readTiles hk) e0)
  next e0 => exact keeps_snd (keeps_readTiles hk) e0

theorem keeps_writeTiles {slot txn : Nat} {full : List Nat} {l : List (Nat × Tile)} (hk : Keeps z s) : KeepsW z
    (writeTiles slot txn full l s) := by
  induction l generalizing s with
  | nil => exact hk
  | cons x ts ih =>
    unfold writeTiles
    split
    · exact hk
    · split
      · next e =>
        have h1 := (keeps_homeWrite hk).done e
        exact ih (keeps_ite h1 (keeps_delLog (keeps_delDir h1)))
      · exact keeps_homeWrite hk

theorem keeps_doWrite {tx : Tx} (hk : Keeps z s) : KeepsW z (doWrite tx s) := by
  unfold doWrite
  dsimp only
  split
  next e1 => exact keeps_answer ((keeps_wholeOr hk (keeps_writeTiles hk)).done e1)
  · exact keeps_wholeOr hk (keeps_writeTiles hk)

theorem keeps_doChange {slot tile v : Nat} {d : Recalled} {f : Block → Block} (hk : Keeps z s) : KeepsW z
    (doChange slot tile v d f s).2 := by
  unfold doChange
  split
  · exact hk
  · split
    · next e => exact keeps_snd (keeps_recalledOr hk) e
    · next e =>
      have h1 := keeps_snd (keeps_recalledOr hk) e
      split
      · next e =>
        have h2 := (keeps_homeWrite h1).done e
        exact keeps_ite h2 (keeps_delLog (keeps_delDir h2))
      · exact keeps_homeWrite h1

theorem keeps_doPartial {tx : Tx} {d : Recalled} (hk : Keeps z s) : KeepsW z (doPartial tx d s) := by
  unfold doPartial
  dsimp only
  split
  next e1 => exact keeps_answer ((keeps_doChange hk).done e1)
  · exact keeps_doChange hk

theorem keeps_answerHeld {tx : Tx} {st : St} {r : BitVec 128} (hk : Keeps z s) : Keeps z (answerHeld tx st r s) :=
  keeps_ite hk (keeps_foldl hk (fun _ _ k0 => keeps_unpark (keeps_answerAtomic k0)))

theorem keeps_endAtomic {tx : Tx} {st : St} {r : BitVec 128} (hk : Keeps z s) : Keeps z (endAtomic tx st r s) :=
  keeps_ledgerTrim (keeps_answerHeld (keeps_answerAtomic (keeps_ledgerDone hk)))

theorem keeps_doAtomic {tx : Tx} {d : Recalled} (hk : Keeps z s) : KeepsW z (doAtomic tx d s) := by
  unfold doAtomic
  dsimp only
  split
  · next e => exact keeps_endAtomic (KeepsW.done (keeps_doChange hk) (congrArg Prod.snd e))
  · next e => exact KeepsW.done (keeps_doChange hk) (congrArg Prod.snd e)
  · next e => exact KeepsW.of_eq (keeps_doChange hk) (congrArg Prod.snd e)

theorem keeps_grant {tx : Tx} {op : Byte} {t : Option Tile} (hk : Keeps z s) : Keeps z (grant tx op t s) := keeps_send hk

theorem keeps_grantData {slot tile : Nat} {e : Extent} {d : Recalled} (hk : Keeps z s) : Keeps z
    (grantData slot tile e d s).2 := by
  unfold grantData
  split
  · exact hk
  · exact keeps_backingRead hk

theorem keeps_grantMBare {tx : Tx} {slot tile a : Nat} {e : Extent} (hk : Keeps z s) : KeepsW z (grantMBare tx slot tile a e
    s) :=
  keeps_grant (keeps_addLog (keeps_putDir hk))

theorem keeps_doShared {had : Bool} {tx : Tx} {e : Extent} {d : Recalled} (hk : Keeps z s) : KeepsW z (doShared had tx e d s) :=
    by
  unfold doShared
  extract_lets slot tile stored
  split
  · exact hk
  · split
    · split
      · next e => exact keeps_snd (keeps_grantData hk) e
      · next e =>
        have h1 := keeps_snd (keeps_grantData hk) e
        exact keepsW_ite (keeps_grant (keeps_putDir h1)) (keeps_grant (keeps_putDir h1))
    · next x _ =>
      have h1 : KeepsW z stored := by
        unfold stored
        split
        · exact keeps_backingWrite hk
        · exact hk
      clear_value stored
      refine keepsW_ite (keepsW_ite ?_ (keeps_grantMBare hk)) (keepsW_ite ?_ ?_)
      · split
        · next e => exact keeps_snd (keeps_grantData hk) e
        · next e => exact keeps_grant (keeps_snd (keeps_grantData hk) e)
      · split
        · next e => exact keeps_snd (keeps_grantData hk) e
        · next e => exact keeps_grant (keeps_putDir (keeps_snd (keeps_grantData hk) e))
      · split
        · exact h1
        · next s1 =>
          have h2 : Keeps z s1 := h1
          split
          · next e => exact keeps_snd (keeps_grantData h2) e
          · next e => exact keeps_grant (keeps_putDir (keeps_snd (keeps_grantData h2) e))
        · next s1 =>
          have h2 : Keeps z (dropLine slot tile s1) := keeps_dropLine h1
          split
          · next e => exact keeps_snd (keeps_grantData h2) e
          · next e => exact keeps_grant (keeps_putDir (keeps_snd (keeps_grantData h2) e))

theorem keeps_doOwn {up : Bool} {tx : Tx} {e : Extent} {d : Recalled} (hk : Keeps z s) : KeepsW z (doOwn up tx e d s) := by
  unfold doOwn
  dsimp only
  split
  · exact hk
  · split
    · split
      · exact keepsW_ite hk (keeps_grantMBare hk)
      · split
        next e4 => exact keeps_snd (keeps_grantData hk) e4
        next e4 => exact keeps_grant (keeps_addLog (keeps_putDir (keeps_snd (keeps_grantData hk) e4)))
    · split
      · split
        · exact keepsW_ite hk (keeps_grantMBare hk)
        · split
          next e5 => exact keeps_snd (keeps_grantData hk) e5
          next e5 => exact keeps_grant (keeps_addLog (keeps_putDir (keeps_snd (keeps_grantData hk) e5)))
      · split
        · exact keepsW_ite hk (keeps_grantMBare hk)
        · split
          next e5 => exact keeps_snd (keeps_grantData hk) e5
          next e5 => exact keeps_grant (keeps_addLog (keeps_putDir (keeps_snd (keeps_grantData hk) e5)))

theorem keeps_finishRow {had : Bool} {tx : Tx} {d : Recalled} (hk : Keeps z s) : KeepsW z (finishRow had tx d s) := by
  unfold finishRow
  split
  · exact hk
  · split
    · exact keeps_doRead hk
    · exact keeps_doWrite hk
    · exact keeps_doPartial hk
    · exact keeps_doAtomic hk
    · exact keeps_doShared hk
    · exact keeps_doOwn hk
    · exact keeps_doOwn hk
    · exact hk

theorem keeps_failReq {tx : Tx} {st : St} (hk : Keeps z s) : Keeps z (failReq tx st s) :=
  keeps_ite (keeps_ite (keeps_endAtomic hk) (keeps_answerHeld (keeps_answerAtomic (keeps_ledgerDrop hk))))
    (keeps_ite hk (keeps_answer hk))

theorem keeps_failWait {p : Parked} {st : St} (hk : Keeps z s) : Keeps z (failWait p st s) :=
  keeps_ite (keeps_answerAtomic hk) (keeps_failReq hk)

theorem keeps_runReq {rid port : Nat} {tx : Tx} (hk : Keeps z s) : Keeps z (runReq rid port tx s) := by
  unfold runReq
  split
  next e0 => exact (keeps_finishRow hk).done e0
  next e0 => exact keeps_failReq ((keeps_finishRow hk).fail e0)
  next e0 => exact keeps_park ((keeps_finishRow hk).wait e0)

theorem keeps_dropBusyReq {rid : Nat} (hk : Keeps z s) : Keeps z (dropBusyReq rid s) := keeps_mk hk

theorem keeps_writeBack {b : Busy} (hk : Keeps z s) : KeepsOpt z (writeBack b s) := by
  unfold writeBack
  split
  · split
    next e1 => exact (keeps_backingWrite hk).done e1
    next e1 => exact keeps_dropLine ((keeps_backingWrite hk).fail e1)
    next e1 => exact trivial
  · exact hk

theorem keeps_forget {tx : Tx} {bs : List Busy} (hk : Keeps z s) : Keeps z (forget tx bs s) :=
  keeps_ite (keeps_foldl hk (fun _ _ => keeps_dropLine)) hk

theorem keeps_finishBusy {b : Busy} (hk : Keeps z s) : Keeps z (finishBusy b s) := by
  unfold finishBusy
  split
  · dsimp only
    split
    · exact hk
    · split
      next e3 => exact (keeps_finishRow (keeps_dropBusyReq hk)).done e3
      next e3 => exact keeps_failReq (keeps_forget ((keeps_finishRow (keeps_dropBusyReq hk)).fail e3))
      next e3 =>
        exact keeps_ite (keeps_park ((keeps_finishRow (keeps_dropBusyReq hk)).wait e3))
          (keeps_mk ((keeps_finishRow (keeps_dropBusyReq hk)).wait e3))
  · exact hk
  · dsimp only
    split
    · split
      · exact keeps_delBusy hk
      · split
        next e4 => exact keeps_delBusy ((keeps_writeBack hk).some e4)
        next e4 => exact hk
    · split
      · exact keeps_delBusy hk
      · split
        next e4 => exact keeps_delBusy ((keeps_writeBack hk).some e4)
        next e4 => exact hk
  · split
    next e1 => exact keeps_delLog (keeps_delDir (keeps_delBusy ((keeps_writeBack hk).some e1)))
    next e1 => exact hk
  · exact keeps_delDir (keeps_delBusy hk)
  · split
    next e1 => exact keeps_delBusy ((keeps_writeBack hk).some e1)
    next e1 => exact hk

theorem keeps_tryFinish {slot tile : Nat} (hk : Keeps z s) : Keeps z (tryFinish slot tile s) := by
  unfold tryFinish
  split
  · exact keeps_ite (keeps_finishBusy (keeps_ite (keeps_delDir hk) hk)) hk
  · exact hk

theorem keeps_recallFor {rid port : Nat} {tx : Tx} {e : Extent} {need : Nat → List (Nat × Bool)} (hk : Keeps z s) : Keeps z
    (recallFor rid port tx e need s) := by
  unfold recallFor
  dsimp only
  split
  · exact keeps_runReq (keeps_foldl hk (fun _ _ => keeps_startRecalls))
  · exact keeps_tryFinish (keeps_foldl hk (fun _ _ => keeps_startRecalls))

/-! ### Requests as the home serves them -/

theorem keeps_forwardReq {tx : Tx} {e : Extent} (hk : Keeps z s) : KeepsOpt z (forwardReq tx e s) := by
  unfold forwardReq
  dsimp only
  split
  · exact keeps_forwardTo hk
  · split
    · split
      · exact trivial
      · exact keeps_forwardTo (keeps_send (keeps_modExt hk))
    · split
      · split
        · exact keeps_refuse hk
        · exact keeps_forwardTo hk
      · exact keeps_forwardTo hk

theorem keeps_takeBack {tx : Tx} {e : Extent} (hk : Keeps z s) : Keeps z (takeBack tx e s) := keeps_send (keeps_modExt hk)

theorem keeps_meet9 {rid port : Nat} {tx : Tx} {part : Nat} {e : Extent} {chk : Chk} {go : Nat → Extent → State → State}
    (hgo : ∀ x x1 t, Keeps z t → Keeps z (go x x1 t)) (hk : Keeps z s) : Keeps z (meet9 rid port tx part e chk go s) := by
  unfold meet9
  split
  · exact keeps_refuse hk
  · exact keeps_park hk
  · split
    next e1 => exact keeps_park (keeps_snd (keeps_pullFirst hk) e1)
    next e1 => exact hgo _ _ _ (keeps_snd (keeps_pullFirst hk) e1)

theorem keeps_meet {fresh : Bool} {rid port : Nat} {tx : Tx} {chk : Nat → Extent → State → Chk} {go : Nat → Extent → State →
    State} (hgo : ∀ x x1 t, Keeps z t → Keeps z (go x x1 t)) (hk : Keeps z s) : Keeps z (meet fresh rid port tx chk go s) := by
  unfold meet
  split
  · split
    · exact keeps_refuse hk
    · split
      · exact keeps_refuse hk
      · exact keeps_park hk
      · exact keeps_meet9 hgo hk
      · split
        next e3 => exact (keeps_forwardReq hk).some e3
        next e3 =>
          dsimp only
          split
          · exact keeps_meet9 hgo (keeps_takeBack hk)
          · exact keeps_refuse (keeps_takeBack hk)
          · exact keeps_takeBack hk
          · exact keeps_takeBack hk
  · split
    · exact keeps_failReq hk
    · split
      · exact keeps_failReq hk
      · split
        · exact keeps_failReq hk
        · split
          next e4 => exact keeps_park (keeps_snd (keeps_pullFirst hk) e4)
          next e4 => exact hgo _ _ _ (keeps_snd (keeps_pullFirst hk) e4)

theorem keeps_inTurn {rid port : Nat} {tx : Tx} {go : State → State} (hgo : ∀ t, Keeps z t → Keeps z (go t)) (hk : Keeps z s) :
    Keeps z (inTurn rid port tx go s) := by
  unfold inTurn
  dsimp only
  split
  · exact keeps_park hk
  · exact hgo _ (keeps_foldl hk (fun _ _ => keeps_purgeDead))

theorem keeps_atTiles {merges : Bool} {rid port : Nat} {tx : Tx} {e : Extent} {need : State → Nat → List (Nat × Bool)}
    (hk : Keeps z s) : Keeps z (atTiles merges rid port tx e need s) :=
  keeps_inTurn (fun _ k0 => keeps_ite (keeps_failReq k0) (keeps_recallFor k0)) hk

theorem keeps_serveRead {fresh : Bool} {rid port : Nat} {tx : Tx} (hk : Keeps z s) : Keeps z (serveRead fresh rid port tx s) :=
  keeps_meet (fun _ _ _ => keeps_atTiles) hk

theorem keeps_serveWrite {fresh : Bool} {rid port : Nat} {tx : Tx} (hk : Keeps z s) : Keeps z (serveWrite fresh rid port tx
    s) :=
  keeps_meet (fun _ _ _ => keeps_atTiles) hk

theorem keeps_atomicAtTile {rid port : Nat} {tx : Tx} {e : Extent} (hk : Keeps z s) : Keeps z (atomicAtTile rid port tx e s) :=
  keeps_atTiles hk

theorem keeps_atomicNew {rid port : Nat} {tx : Tx} {e : Extent} (hk : Keeps z s) : Keeps z (atomicNew rid port tx e s) :=
  keeps_ite (keeps_answerAtomic hk) (keeps_ite (keeps_park hk) (keeps_atomicAtTile (keeps_ledgerTake hk)))

theorem keeps_atomicAgain {rid port : Nat} {tx : Tx} (hk : Keeps z s) : Keeps z (atomicAgain rid port tx s) := by
  unfold atomicAgain
  dsimp only
  split
  · exact keeps_ite (keeps_answerAtomic hk) (keeps_ite (keeps_park hk) (keeps_meet (fun _ _ _ => keeps_atomicAtTile) hk))
  · exact keeps_meet (fun _ _ _ => keeps_atomicNew) hk

theorem keeps_serveAtomic {fresh : Bool} {rid port : Nat} {tx : Tx} (hk : Keeps z s) : Keeps z (serveAtomic fresh rid port tx
    s) := by
  unfold serveAtomic
  dsimp only
  split
  · exact keeps_atomicAgain hk
  · split
    · exact keeps_answerAtomic hk
    · split
      · exact keeps_answerAtomic (keeps_ite (keeps_processAck hk) hk)
      · split
        · split
          · exact keeps_answerAtomic (keeps_processAck hk)
          · split
            · exact keeps_ite (keeps_answerAtomic (keeps_processAck hk)) (keeps_park (keeps_processAck hk))
            · split
              · exact keeps_park (keeps_askLedger (keeps_processAck hk))
              · exact keeps_ite (keeps_answerAtomic (keeps_processAck hk)) (keeps_meet (fun _ _ _ => keeps_atomicNew)
                  (keeps_processAck hk))
        · split
          · exact keeps_answerAtomic hk
          · split
            · exact keeps_ite (keeps_answerAtomic hk) (keeps_park hk)
            · split
              · exact keeps_park (keeps_askLedger hk)
              · exact keeps_ite (keeps_answerAtomic hk) (keeps_meet (fun _ _ _ => keeps_atomicNew) hk)

theorem keeps_serveAck {tx : Tx} (hk : Keeps z s) : Keeps z (serveAck tx s) := by
  unfold serveAck
  split
  · exact hk
  · exact keeps_processAck hk

theorem keeps_serveFence {fresh : Bool} {rid port : Nat} {tx : Tx} (hk : Keeps z s) : Keeps z (serveFence fresh rid port tx
    s) := by
  unfold serveFence
  split
  · exact keeps_answer hk
  · exact keeps_ite (keeps_answer hk) (keeps_ite (keeps_park hk) (keeps_answer hk))

theorem keeps_ensureAgent {slot : Nat} {n : Node} (hk : Keeps z s) : Keeps z (ensureAgent slot n s) := keeps_modExt hk

theorem keeps_makeRoom {rid port : Nat} {tx : Tx} {e : Extent} {go : State → State} (hk : Keeps z s)
    (hgo : ∀ t, Keeps z t → Keeps z (go t)) : Keeps z (makeRoom rid port tx e s go) := by
  unfold makeRoom
  dsimp only
  split
  · exact hgo _ hk
  · split
    · exact hgo _ hk
    · exact keeps_park hk
    · split
      · exact hgo _ (keeps_delDir hk)
      · exact keeps_park (keeps_tryFinish (keeps_startRecalls hk))

theorem keeps_serveCache {fresh : Bool} {rid port : Nat} {tx : Tx} {writes : Bool} {need : Extent → Option DirEntry → Nat → List
    (Nat × Bool)} (hk : Keeps z s) : Keeps z (serveCache fresh rid port tx writes need s) := by
  unfold serveCache
  refine keeps_meet (fun x0 x01 t0 k0 => ?_) hk
  dsimp only
  split
  · exact keeps_ensureAgent k0
  · split
    · exact keeps_failReq (keeps_ensureAgent k0)
    · exact keeps_ite (keeps_failReq (keeps_ensureAgent k0)) (keeps_makeRoom (keeps_ensureAgent k0) (fun _ => keeps_atTiles))

theorem keeps_markDirty {tx : Tx} (hk : Keeps z s) : Keeps z (markDirty tx s) := by
  unfold markDirty
  dsimp only
  split
  · split
    · exact keeps_ite (keeps_addLog (keeps_setDir hk)) hk
    · exact hk
  · exact hk

theorem keeps_evictClean {tx : Tx} (hk : Keeps z s) : Keeps z (evictClean tx s) := by
  unfold evictClean
  dsimp only
  split
  · split
    · exact keeps_ite (keeps_ite (keeps_removeAgent hk) hk) (keeps_ite (keeps_removeAgent hk) hk)
    · exact hk
  · exact hk

theorem keeps_serveNote {go : Tx → State → State} {rid port : Nat} {tx : Tx} (hgo : ∀ x t, Keeps z t → Keeps z (go x t))
    (hk : Keeps z s) : Keeps z (serveNote go rid port tx s) :=
  keeps_ite hk (keeps_inTurn (fun _ => hgo _ _) hk)

theorem keeps_wbAck {tx : Tx} {st : St} (hk : Keeps z s) : Keeps z (wbAck tx st s) := keeps_send hk

theorem keeps_serveWb {fresh : Bool} {rid port : Nat} {tx : Tx} (hk : Keeps z s) : Keeps z (serveWb fresh rid port tx s) := by
  unfold serveWb
  refine keeps_meet (fun x0 x01 t0 k0 => ?_) hk
  dsimp only
  split
  · split
    · split
      next e4 =>
        refine keeps_wbAck ?_
        split
        · exact keeps_removeAgent ((keeps_backingWrite k0).done e4)
        · exact (keeps_backingWrite k0).done e4
      next e4 => exact keeps_wbAck ((keeps_backingWrite k0).fail e4)
      next e4 => exact keeps_park ((keeps_backingWrite k0).wait e4)
    · exact keeps_inTurn (fun _ => keeps_wbAck) k0
  · split
    · split
      next e4 =>
        refine keeps_wbAck ?_
        split
        · exact keeps_removeAgent ((keeps_backingWrite k0).done e4)
        · exact (keeps_backingWrite k0).done e4
      next e4 => exact keeps_wbAck ((keeps_backingWrite k0).fail e4)
      next e4 => exact keeps_park ((keeps_backingWrite k0).wait e4)
    · exact keeps_inTurn (fun _ => keeps_wbAck) k0

theorem keeps_serveRecallAnswer {tx : Tx} {data : Option Tile} (hk : Keeps z s) : Keeps z (serveRecallAnswer tx data s) := by
  unfold serveRecallAnswer
  dsimp only
  split
  · exact hk
  · split
    · exact hk
    · exact keeps_tryFinish (keeps_recallAnswered hk)

theorem keeps_sendInvals {i : Inval} (hk : Keeps z s) : Keeps z (sendInvals i s) :=
  keeps_foldl (keeps_foldl hk (fun _ _ => keeps_send)) (fun _ _ => keeps_send)

theorem keeps_endInval {i : Inval} (hk : Keeps z s) : Keeps z (endInval i s) := by
  unfold endInval
  dsimp only
  split
  · exact keeps_answerVersion (keeps_mk hk)
  · split
    · exact keeps_answerVersion (keeps_ite (keeps_mk hk) (keeps_post (keeps_mk hk)))
    · exact keeps_ite (keeps_mk hk) (keeps_post (keeps_mk hk))

theorem keeps_startInval {i : Inval} (hk : Keeps z s) : Keeps z (startInval i s) :=
  keeps_ite (keeps_endInval (keeps_sendInvals (keeps_mk hk))) (keeps_sendInvals (keeps_mk hk))

theorem keeps_serveInval {fresh : Bool} {rid port : Nat} {tx : Tx} (hk : Keeps z s) : Keeps z (serveInval fresh rid port tx
    s) :=
  keeps_meet (fun _ _ _ k0 => keeps_ite (keeps_park k0) (keeps_startInval k0)) hk

theorem keeps_serveGeyser {tx : Tx} (hk : Keeps z s) : Keeps z (serveGeyser tx s) := by
  unfold serveGeyser
  split
  · exact keeps_answer hk
  · exact keeps_startInval hk

theorem keeps_invalAnswered {n : Node} {count : Nat} {i : Inval} (hk : Keeps z s) : Keeps z (invalAnswered n count i s).2 := by
  unfold invalAnswered
  split
  · exact keeps_mk hk
  · exact keeps_ite_snd hk hk

theorem keeps_serveInvalAnswer {tx : Tx} (hk : Keeps z s) : Keeps z (serveInvalAnswer tx s) := by
  unfold serveInvalAnswer
  split
  · exact hk
  · split
    next e1 =>
      exact keeps_ite (keeps_endInval (keeps_mk (keeps_snd (keeps_invalAnswered hk) e1)))
        (keeps_mk (keeps_snd (keeps_invalAnswered hk) e1))

theorem keeps_setPin {slot : Nat} {n : Node} {i : Nat} {on : Bool} (hk : Keeps z s) : Keeps z (setPin slot n i on s) :=
  keeps_modExt hk

theorem keeps_serveOpen {fresh : Bool} {rid port : Nat} {tx : Tx} (hk : Keeps z s) : Keeps z (serveOpen fresh rid port tx s) :=
    by
  unfold serveOpen
  refine keeps_meet (fun x0 x01 t0 k0 => ?_) hk
  dsimp only
  split
  · exact keeps_ite (keeps_answer k0) (keeps_ite (keeps_ite (keeps_answerVersion k0) (keeps_answer k0))
      (keeps_ite (keeps_answerVersion (keeps_setExt k0)) (keeps_answer k0)))
  · split
    · exact keeps_answerVersion (keeps_setPin k0)
    · exact keeps_answer k0

theorem keeps_serveClose {fresh : Bool} {rid port : Nat} {tx : Tx} (hk : Keeps z s) : Keeps z (serveClose fresh rid port tx
    s) := by
  unfold serveClose
  refine keeps_meet (fun x0 x01 t0 k0 => ?_) hk
  dsimp only
  split
  · exact keeps_ite (keeps_answerVersion (keeps_startDiscard k0)) (keeps_answer k0)
  · split
    · exact keeps_ite (keeps_answerVersion (keeps_dropDead (keeps_setPin k0))) (keeps_answer k0)
    · exact keeps_answer k0

theorem keeps_sealStep {slot : Nat} {e : Extent} (hk : Keeps z s) : Keeps z (sealStep slot e s) := by
  unfold sealStep
  refine keeps_foldl ?_ (fun _ _ k0 => keeps_unpark (keeps_failWait k0))
  split
  · exact keeps_answer (keeps_postAll (keeps_dropDead (keeps_setExt hk)))
  · exact keeps_postAll (keeps_dropDead (keeps_setExt hk))

theorem keeps_servePublish {fresh : Bool} {rid port : Nat} {tx : Tx} (hk : Keeps z s) : Keeps z (servePublish fresh rid port tx
    s) :=
  keeps_meet (fun _ _ _ => keeps_setExt) hk

theorem keeps_pullTile {slot tile : Nat} {e : Extent} {withData : Bool} (hk : Keeps z s) : Keeps z
    (pullTile slot tile e withData s).2 :=
  keeps_ite_snd (keeps_backingRead hk) hk

theorem keeps_servePull {rid port : Nat} {tx : Tx} (hk : Keeps z s) : Keeps z (servePull rid port tx s) := by
  unfold servePull
  dsimp only
  split
  · exact keeps_answer hk
  · split
    · exact keeps_answer hk
    · split
      · exact keeps_ite (keeps_park hk) (keeps_send hk)
      · split
        · exact keeps_ite (keeps_park hk) (keeps_send hk)
        · split
          · exact keeps_send hk
          · exact keeps_ite (keeps_park hk) (keeps_send (keeps_delLog (keeps_delDir (keeps_mk (keeps_pullTile hk)))))

theorem keeps_takeMarks {slot : Nat} {e : Extent} {p : PullTile} (hk : Keeps z s) : Keeps z (takeMarks slot e p s) := by
  unfold takeMarks
  dsimp only
  split
  · exact keeps_putDir (keeps_ite (keeps_setPoison (keeps_ite (keeps_takeHead (keeps_mk hk))
      (keeps_foreignUnit (keeps_touchTile (keeps_takeHead (keeps_mk hk)))))) (keeps_ite (keeps_takeHead (keeps_mk hk))
      (keeps_foreignUnit (keeps_touchTile (keeps_takeHead (keeps_mk hk))))))
  · exact keeps_putDir (keeps_ite (keeps_setPoison (keeps_ite (keeps_takeHead (keeps_mk hk))
      (keeps_foreignUnit (keeps_touchTile (keeps_takeHead (keeps_mk hk)))))) (keeps_ite (keeps_takeHead (keeps_mk hk))
      (keeps_foreignUnit (keeps_touchTile (keeps_takeHead (keeps_mk hk))))))
  · split
    · exact keeps_addLog (keeps_putDir (keeps_ite (keeps_setPoison (keeps_ite (keeps_takeHead (keeps_mk hk))
        (keeps_foreignUnit (keeps_touchTile (keeps_takeHead (keeps_mk hk)))))) (keeps_ite (keeps_takeHead (keeps_mk hk))
        (keeps_foreignUnit (keeps_touchTile (keeps_takeHead (keeps_mk hk)))))))
    · exact keeps_putDir (keeps_ite (keeps_setPoison (keeps_ite (keeps_takeHead (keeps_mk hk))
        (keeps_foreignUnit (keeps_touchTile (keeps_takeHead (keeps_mk hk)))))) (keeps_ite (keeps_takeHead (keeps_mk hk))
        (keeps_foreignUnit (keeps_touchTile (keeps_takeHead (keeps_mk hk))))))
  · split
    · exact keeps_addLog (keeps_putDir (keeps_ite (keeps_setPoison (keeps_ite (keeps_takeHead (keeps_mk hk))
        (keeps_foreignUnit (keeps_touchTile (keeps_takeHead (keeps_mk hk)))))) (keeps_ite (keeps_takeHead (keeps_mk hk))
        (keeps_foreignUnit (keeps_touchTile (keeps_takeHead (keeps_mk hk)))))))
    · exact keeps_putDir (keeps_ite (keeps_setPoison (keeps_ite (keeps_takeHead (keeps_mk hk))
        (keeps_foreignUnit (keeps_touchTile (keeps_takeHead (keeps_mk hk)))))) (keeps_ite (keeps_takeHead (keeps_mk hk))
        (keeps_foreignUnit (keeps_touchTile (keeps_takeHead (keeps_mk hk))))))
  · exact keeps_ite (keeps_setPoison (keeps_ite (keeps_takeHead (keeps_mk hk))
      (keeps_foreignUnit (keeps_touchTile (keeps_takeHead (keeps_mk hk)))))) (keeps_ite (keeps_takeHead (keeps_mk hk))
      (keeps_foreignUnit (keeps_touchTile (keeps_takeHead (keeps_mk hk)))))

theorem keeps_takeTile {slot : Nat} {p : PullTile} (hk : Keeps z s) : Keeps z (takeTile slot p s) := by
  unfold takeTile
  split
  · exact hk
  · dsimp only
    split
    · exact hk
    · split
      · exact keeps_mk (keeps_waitJournal hk)
      · split
        · exact keeps_takeMarks hk
        · split
          next e5 => exact keeps_takeMarks ((keeps_backingWrite hk).done e5)
          next e5 => exact keeps_takeMarks ((keeps_backingWrite hk).fail e5)
          next e5 => exact keeps_mk ((keeps_backingWrite hk).wait e5)

theorem keeps_takeExt {slot : Nat} {p : PullExt} (hk : Keeps z s) : Keeps z (takeExt slot p s) := keeps_modExt hk

theorem keeps_takeLedger {slot : Nat} {e : Extent} {key : Nat} {ls : List PullEntry} (hk : Keeps z s) : Keeps z
    (takeLedger slot e key ls s) :=
  keeps_ite hk (keeps_mk hk)

theorem keeps_rehomeCheck {slot : Nat} (hk : Keeps z s) : Keeps z (rehomeCheck slot s) := by
  unfold rehomeCheck
  dsimp only
  split
  · exact keeps_ite (keeps_post (keeps_mk (keeps_modExt hk))) hk
  · exact hk

theorem keeps_servePullAnswer {tx : Tx} (hk : Keeps z s) : Keeps z (servePullAnswer tx s).2 := by
  unfold servePullAnswer
  split
  · refine keeps_rehomeCheck ?_
    split
    · split
      · refine keeps_takeLedger (keeps_foldl ?_ (fun _ _ => keeps_takeTile))
        split
        · exact keeps_takeExt hk
        · exact hk
      · refine keeps_foldl ?_ (fun _ _ => keeps_takeTile)
        split
        · exact keeps_takeExt hk
        · exact hk
    · refine keeps_foldl ?_ (fun _ _ => keeps_takeTile)
      split
      · exact keeps_takeExt hk
      · exact hk
  · exact keeps_mk hk
  · exact hk

theorem keeps_serveYield {tx : Tx} (hk : Keeps z s) : Keeps z (serveYield tx s) := by
  unfold serveYield
  dsimp only
  split
  · exact keeps_ite (keeps_setExt hk) (keeps_ite (keeps_setExt hk) hk)
  · exact hk

/-! ### Queues and engine accesses -/

theorem keeps_modQueue {q : Nat} {f : Queue → Queue} (hk : Keeps z s) : Keeps z (modQueue q f s) := keeps_mk hk

theorem keeps_modCmd {q : Nat} {c : Word32} {f : Cmd → Cmd} (hk : Keeps z s) : Keeps z (modCmd q c f s) := keeps_modQueue hk

theorem keeps_servePush {port : Nat} {tx : Tx} (hk : Keeps z s) : Keeps z (servePush port tx s) := by
  unfold servePush
  split
  · exact keeps_answer hk
  · split
    · exact keeps_answer hk
    · exact keeps_ite (keeps_answer hk) (keeps_answer (keeps_modQueue (keeps_mk hk)))

theorem keeps_serveDoorbell {port : Nat} {tx : Tx} (hk : Keeps z s) : Keeps z (serveDoorbell port tx s) := by
  unfold serveDoorbell
  split
  · exact keeps_answer hk
  · split
    · exact keeps_answer hk
    · exact keeps_ite (keeps_answer hk) (keeps_ite (keeps_answer hk) (keeps_answer (keeps_modQueue hk)))

theorem keeps_serveWindow {port : Nat} {tx : Tx} (hk : Keeps z s) : Keeps z (serveWindow port tx s) := by
  unfold serveWindow
  split
  · exact keeps_answer hk
  · split
    · exact keeps_answer hk
    · exact keeps_ite (keeps_answer hk) (keeps_answerTiles hk)

theorem keeps_dropBusyWhere {x : CtxId} {p : Busy → Bool} (hk : Keeps z s) : Keeps z (dropBusyWhere x p s) :=
  keeps_foldl (keeps_mk hk) (fun _ _ => keeps_tryFinish)

theorem keeps_dropItemBusy {x : CtxId} (hk : Keeps z s) : Keeps z (dropItemBusy x s) := keeps_dropBusyWhere hk

theorem keeps_claimEach {x : CtxId} {l : List Acc} (hk : Keeps z s) : Keeps z (claimEach x l s).2 := by
  induction l generalizing s with
  | nil => exact hk
  | cons a l ih =>
    unfold claimEach
    dsimp only
    split
    · exact ih hk
    · exact ih (keeps_foldl hk fun _ _ => keeps_sendRecall)
    · exact keeps_ite_snd (ih hk) (ih (keeps_startRecalls hk))

theorem keeps_claimTiles {x : CtxId} {l : List Acc} (hk : Keeps z s) : Keeps z (claimTiles x l s).2 :=
  keeps_ite_snd hk (keeps_claimEach (keeps_foldl hk (fun _ _ => keeps_purgeDead)))

theorem keeps_engRead {x : CtxId} {slot tile v : Nat} (hk : Keeps z s) : Keeps z (engRead x slot tile v s).2 := by
  unfold engRead
  split
  · exact hk
  · split
    · exact hk
    · split
      · exact hk
      · exact keeps_homeRead hk

theorem keeps_engWrite {slot tile : Nat} {whole : Bool} {t : Tile} (hk : Keeps z s) : KeepsW z (engWrite slot tile whole t s) :=
    by
  unfold engWrite
  split
  · exact hk
  · split
    next e1 =>
      exact keeps_ite (keeps_modBusy ((keeps_homeWrite hk).done e1))
        (keeps_delLog (keeps_delDir (keeps_modBusy ((keeps_homeWrite hk).done e1))))
    · exact keeps_homeWrite hk

theorem keeps_engChange {x : CtxId} {slot tile v : Nat} {f : Block → Block} (hk : Keeps z s) : KeepsW z
    (engChange x slot tile v f s) := by
  unfold engChange
  split
  next e0 => exact keeps_snd (keeps_engRead hk) e0
  next e0 => exact keeps_engWrite (keeps_snd (keeps_engRead hk) e0)

theorem keeps_tagStage {part engine queue : Nat} {cmdSeq : Word32} {item stage phys core ctx status replay : Nat}
    (hk : Keeps z s) : Keeps z (tagStage part engine queue cmdSeq item stage phys core ctx status replay s) :=
  keeps_ite (keeps_fumarole hk) hk

theorem keeps_notify {q : Queue} {r : BitVec 256} (hk : Keeps z s) : Keeps z (notify q r s) := keeps_send hk

theorem keeps_readSlot {qn : Nat} {c : Word32} (hk : Keeps z s) : Keeps z (readSlot qn c s) := keeps_modQueue hk

theorem keeps_finishCmd {qn : Nat} {c : Word32} {d : BitVec 512} {st : St} {done failed unrec : Nat} (hk : Keeps z s) : Keeps z
    (finishCmd qn c d st done failed unrec s) := by
  unfold finishCmd
  split
  · exact hk
  · exact keeps_ite (keeps_occur (keeps_bump (keeps_ite (keeps_notify (keeps_modQueue hk)) (keeps_modQueue hk))))
      (keeps_bump (keeps_ite (keeps_notify (keeps_modQueue hk)) (keeps_modQueue hk)))

theorem keeps_refuseCmd {qn : Nat} {c : Word32} {d : BitVec 512} {st : St} (hk : Keeps z s) : Keeps z (refuseCmd qn c d st s) :=
  keeps_finishCmd hk

theorem keeps_tagRecorded {q : Queue} {qn : Nat} {c : Cmd} {st : St} (hk : Keeps z s) : Keeps z (tagRecorded q qn c st s) :=
  keeps_ite hk (keeps_foldl hk (fun _ _ => keeps_tagStage))

/-! ### Items and the tiles they touch -/

theorem keeps_modCore {c : Nat} {f : Core → Core} (hk : Keeps z s) : Keeps z (modCore c f s) := keeps_mk hk

theorem keeps_modCtx {x : CtxId} {f : Ctx → Ctx} (hk : Keeps z s) : Keeps z (modCtx x f s) := keeps_modCore hk

theorem keeps_freeCtx {x : CtxId} (hk : Keeps z s) : Keeps z (freeCtx x s) := keeps_modCore hk

theorem keeps_ioFail {α : Type} {st : St} {detail : Word32} : KeepsIo z (ioFail st detail : Io α) := fun _ hv0 => hv0

theorem keeps_ioFree : KeepsIo z ioFree := fun v0 hv0 => keeps_mk hv0

theorem keeps_ioTry {α : Type} {p : Io α} (hp : KeepsIo z p) : KeepsIo z (ioTry p : Io (Except (St × Word32) α)) := by
  unfold ioTry
  refine fun v0 hv0 => ?_
  dsimp only
  split
  next e2 => exact (hp _ hv0).ok e2
  next e2 => exact (hp _ hv0).error e2
  next e2 => exact (hp _ hv0).error e2

theorem keeps_ioDetail {α : Type} {d : Word32} {p : Io α} (hp : KeepsIo z p) : KeepsIo z (ioDetail d p : Io α) := by
  unfold ioDetail
  refine fun v0 hv0 => ?_
  dsimp only
  split
  next e2 => exact (hp _ hv0).error e2
  · exact hp _ hv0

theorem keeps_nextAnswer : KeepsIo z nextAnswer := by
  unfold nextAnswer
  refine fun v0 hv0 => ?_
  dsimp only
  split
  · exact hv0
  · exact hv0

theorem keeps_viaTx {via : Option Word32} {tx : Tx} (hk : Keeps z s) : Keeps z (viaTx via tx s).2 := by
  unfold viaTx
  split
  · exact hk
  · exact keeps_mk hk

theorem keeps_ioAsk {via : Option Word32} {tx : Tx} : KeepsIo z (ioAsk via tx) := by
  unfold ioAsk
  refine fun v0 hv0 => ?_
  dsimp only
  exact keeps_viaTx hv0

theorem keeps_ioPull {slot tile : Nat} {e : Extent} : KeepsIo z (ioPull slot tile e) := by
  unfold ioPull
  refine fun v0 hv0 => ?_
  dsimp only
  split
  next e2 => exact keeps_snd (keeps_pullFirst hv0) e2
  next e2 => exact keeps_snd (keeps_pullFirst hv0) e2

theorem keeps_ioClaim {a : Actor} {l : List Acc} : KeepsIo z (ioClaim a l) := by
  unfold ioClaim
  refine fun v0 hv0 => ?_
  dsimp only
  split
  next e2 => exact keeps_snd (keeps_claimTiles hv0) e2
  next e2 => exact keeps_snd (keeps_claimTiles hv0) e2

theorem keeps_ioGate {a : Actor} {base : Word64} {tile n : Nat} : KeepsIo z (ioGate a base tile n) := by
  unfold ioGate
  refine fun v0 hv0 => ?_
  dsimp only
  split
  · exact hv0
  · exact hv0

theorem keeps_ioDoor {a : Actor} {tile : Nat} {e : Extent} {write : Bool} : KeepsIo z (ioDoor a tile e write) := by
  unfold ioDoor
  refine fun v0 hv0 => ?_
  split
  · exact hv0
  · split
    · exact hv0
    · dsimp only
      split
      · exact hv0
      · exact hv0

theorem keeps_seenTile {a : Actor} {base : Word64} {tile : Nat} : KeepsIo z (seenTile a base tile) := by
  unfold seenTile
  refine fun v0 hv0 => ?_
  dsimp only
  split
  · exact hv0
  · exact keeps_mk hv0

theorem keeps_countFirm {a : Actor} {event n : Nat} (hk : Keeps z s) : Keeps z (countFirm a event n s) := by
  unfold countFirm
  split
  · exact hk
  · split
    · exact keeps_occur hk
    · exact hk

theorem keeps_countPath {a : Actor} {channel : Nat} (hk : Keeps z s) : Keeps z (countPath a channel s) := by
  unfold countPath
  split
  · exact hk
  · split
    · exact keeps_ite (keeps_occur hk) (keeps_occur (keeps_occur hk))
    · exact hk

theorem keeps_ioRead {a : Actor} {base : Word64} {i : Nat} : KeepsIo z (ioRead a base i) := by
  unfold ioRead
  dsimp only
  split
  · exact keeps_seenTile
  · refine keepsIo_bind keeps_ioGate fun x2 => keepsIo_get_bind fun v3 hv3 => ?_
    split
    · exact keeps_ioFail
    · split
      · exact keeps_ioFail
      · exact keepsIo_bind (keepsIo_get_bind fun v5 hv5 => keepsIo_bind keeps_ioAsk fun x6 => keepsIo_bind keeps_nextAnswer
          fun x7 => keepsIo_ite keepsIo_pure keeps_ioFail) fun x5 => keepsIo_ite keepsIo_pure
          (keepsIo_bind (keepsIo_get_bind fun v6 hv6 => keepsIo_bind keeps_ioAsk fun x7 => keepsIo_bind keeps_nextAnswer
          fun x8 => keepsIo_ite keepsIo_pure keeps_ioFail) fun x6 => keepsIo_ite keepsIo_pure keeps_ioFail)
      · refine keepsIo_bind keeps_ioDoor fun x5 => keepsIo_bind keeps_ioPull fun x6 => keepsIo_bind keeps_ioClaim fun x7 =>
          fun v8 hv8 => ?_
        split
        next e6 => exact keeps_countPath (keeps_snd (keeps_engRead hv8) e6)
        next e6 => exact keeps_snd (keeps_engRead hv8) e6

theorem keeps_ioReads {a : Actor} {base : Word64} {i n : Nat} : KeepsIo z (ioReads a base i n) :=
  keepsIo_mapM (fun _ => keeps_ioRead)

theorem keeps_ioBytes {a : Actor} {base : Word64} {off n : Nat} : KeepsIo z (ioBytes a base off n) :=
  keepsIo_ite keepsIo_pure (keepsIo_bind keeps_ioReads fun _ => keepsIo_pure)

theorem keeps_setRes {k : Nat} {t : Tile} (hk : Keeps z s) : Keeps z (setRes k t s) := keeps_mk hk

theorem keeps_resRead {a : Actor} {base : Word64} {i : Nat} : KeepsIo z (resRead a base i) := by
  unfold resRead
  refine fun v0 hv0 => ?_
  dsimp only
  split
  · exact hv0
  · split
    · exact keeps_countPath hv0
    · exact hv0

theorem keeps_ioGet {a : Actor} {res : Bool} {base : Word64} {i : Nat} : KeepsIo z (ioGet a res base i) :=
  keepsIo_ite keeps_resRead keeps_ioRead

theorem keeps_ioWrite {a : Actor} {w : IWrite} : KeepsIo z (ioWrite a w) := by
  unfold ioWrite
  refine keepsIo_get_bind fun v0 hv0 => ?_
  split
  · split
    · exact keeps_ioFail
    · exact keepsIo_set (keeps_countPath (keeps_setRes hv0))
  · refine keepsIo_bind keeps_ioGate fun x2 => ?_
    split
    · exact keeps_ioFail
    · split
      · exact keeps_ioFail
      · exact keepsIo_bind keeps_ioAsk fun x5 => keepsIo_bind keeps_nextAnswer fun x6 => keepsIo_ite keepsIo_pure keeps_ioFail
      · split
        next e5 => exact keepsIo_set (keeps_countPath ((keepsW_ite (keeps_engWrite hv0) (keeps_engChange hv0)).done e5))
        next e5 => exact fun v6 hv6 => (keepsW_ite (keeps_engWrite hv0) (keeps_engChange hv0)).fail e5
        next e5 => exact fun v6 hv6 => (keepsW_ite (keeps_engWrite hv0) (keeps_engChange hv0)).wait e5

theorem keeps_ioReady {a : Actor} {ws : List IWrite} : KeepsIo z (ioReady a ws) := by
  unfold ioReady
  refine keepsIo_bind (keepsIo_forIn (fun x0 x01 => keepsIo_get_bind fun v1 hv1 => ?_)) fun x0 => keepsIo_get_bind fun v1 hv1 =>
    keeps_ioClaim
  split
  · split
    · exact keepsIo_bind keeps_ioDoor fun x3 => keepsIo_bind keeps_ioPull fun x4 => keepsIo_pure
    · exact keepsIo_pure
  · exact keepsIo_pure

theorem keeps_keptWrites {a : Actor} {n : Nat} {l : List IWrite} (hk : Keeps z s) : Keeps z (keptWrites a n l s) := by
  induction l generalizing s n with
  | nil => exact hk
  | cons w ws ih =>
    unfold keptWrites
    split
    · split
      · next e => exact ih ((keeps_ioWrite _ hk).ok e)
      · exact ih hk
    · exact ih hk

theorem keeps_ioWild {a : Actor} {ws : List IWrite} : KeepsIo z (ioWild a ws) :=
  keepsIo_ite (keepsIo_mapM (fun _ => keepsIo_bind keeps_ioFree fun _ => keepsIo_pure)) keepsIo_pure

theorem keeps_ioKept {a : Actor} {ws : List IWrite} : KeepsIo z (ioKept a ws) := fun v0 hv0 => keeps_keptWrites (keeps_mk hv0)

theorem keeps_ioPerform {stand : Bool} {a : Actor} {ws0 : List IWrite} : KeepsIo z (ioPerform stand a ws0) := by
  unfold ioPerform
  refine keepsIo_bind keeps_ioWild fun x0 => ?_
  split
  · exact keepsIo_get_bind fun v2 hv2 => keeps_ioKept
  · refine keepsIo_bind keeps_ioReady fun x2 => fun v3 hv3 => ?_
    split
    next e3 => exact ((keepsIo_forM (fun _ => keeps_ioWrite)) _ hv3).ok e3
    next e3 =>
      split
      · exact ((keepsIo_forM (fun _ => keeps_ioWrite)) _ hv3).error e3
      · exact keeps_keptWrites (keeps_mk hv3)
    next e3 => exact ((keepsIo_forM (fun _ => keeps_ioWrite)) _ hv3).error e3

theorem keeps_ioWrites {a : Actor} {ws : List IWrite} : KeepsIo z (ioWrites a ws) := keeps_ioPerform

theorem keeps_ioWritesAll {a : Actor} {ws0 : List IWrite} : KeepsIo z (ioWritesAll a ws0) := by
  unfold ioWritesAll
  refine keepsIo_bind keeps_ioWild fun x0 => ?_
  split
  · exact keepsIo_pure
  · refine keepsIo_bind keeps_ioReady fun x2 => fun v3 hv3 => ?_
    split
    next e3 => exact ((keepsIo_forM (fun _ => keeps_ioWrite)) _ hv3).ok e3
    next e3 => exact hv3
    next e3 => exact ((keepsIo_forM (fun _ => keeps_ioWrite)) _ hv3).error e3

theorem keeps_ioKeep {a : Actor} {ws : List IWrite} : KeepsIo z (ioKeep a ws) :=
  keepsIo_ite (keepsIo_get_bind fun _ _ => keeps_ioKept) (keepsIo_bind keeps_ioReady fun _ => keeps_ioKept)

theorem keeps_gatherUnits {unit : Nat → Io (List IWrite)} {l : List Nat} {ws : List IWrite} (hunit : ∀ x, KeepsIo z (unit x)) :
    KeepsIo z (gatherUnits unit l ws) := by
  induction l generalizing ws with
  | nil => exact keepsIo_pure
  | cons k ks ih =>
    unfold gatherUnits
    refine keepsIo_bind (keeps_ioTry (hunit k)) fun r => ?_
    split
    · exact ih
    · exact keepsIo_pure

theorem keeps_ioUnits {a : Actor} {n : Nat} {unit : Nat → Io (List IWrite)} (hunit : ∀ x, KeepsIo z (unit x)) : KeepsIo z
    (ioUnits a n unit) := by
  unfold ioUnits
  refine keepsIo_bind (keeps_gatherUnits hunit) fun x0 => ?_
  split
  · split
    · exact keeps_ioPerform
    · exact keepsIo_ite (keepsIo_bind keeps_ioPerform fun x3 => keeps_ioFail) (keepsIo_bind keeps_ioKeep fun x3 => keeps_ioFail)

theorem keeps_runIo {α : Type} {p : Io α} {ans : List RemoteAnswer} (hp : KeepsIo z p) (hk : Keeps z s) : Keeps z
    (runIo p ans s).2 := by
  unfold runIo
  dsimp only
  split
  next e1 => exact keeps_ite_snd hk (keeps_foldl ((hp _ hk).ok e1) (fun _ _ => keeps_sendEngine))
  next e1 => exact (hp _ hk).error e1
  next e1 => exact keeps_ite_snd hk (keeps_foldl ((hp _ hk).error e1) (fun _ _ => keeps_sendEngine))

theorem keeps_endWrite {qn : Nat} {q : Queue} {c : Cmd} {base : Word64} {tile off val : Nat} (hk : Keeps z s) : KeepsE z
    (endWrite qn q c base tile off val s) := by
  unfold endWrite
  dsimp only
  split
  · split
    · exact hk
    · exact keeps_sendEngine (keeps_mk (keeps_viaTx hk))
  · split
    next e2 => exact keeps_dropItemBusy (keeps_snd (keeps_runIo keeps_ioWrites hk) e2)
    next e2 => exact keeps_snd (keeps_runIo keeps_ioWrites hk) e2
    next e2 => exact keeps_dropItemBusy (keeps_snd (keeps_runIo keeps_ioWrites hk) e2)

theorem keeps_setEnd {qn : Nat} {c : Word32} {e : EndSt} (hk : Keeps z s) : Keeps z (setEnd qn c e s) := keeps_modCmd hk

theorem keeps_endTurn {qn : Nat} {q : Queue} {c : Cmd} {e : EndSt} {entry : Bool} {base : Word64} {tile off val : Nat}
    (hk : Keeps z s) : Keeps z (endTurn qn q c e entry base tile off val s).2 := by
  unfold endTurn
  split
  next e0 => exact keeps_setEnd ((keeps_endWrite hk).written e0)
  next e0 => exact keeps_setEnd ((keeps_endWrite hk).refused e0)
  next e0 => exact keeps_setEnd ((keeps_endWrite hk).sent e0)
  next e0 => exact keeps_setEnd ((keeps_endWrite hk).wait e0)

theorem keeps_endStep {qn : Nat} {q : Queue} {c : Cmd} (hk : Keeps z s) : KeepsOptSnd z (endStep qn q c s) := by
  unfold endStep
  dsimp only
  split
  · exact hk
  · split
    · split
      · exact keeps_endTurn hk
      · exact keeps_setEnd hk
    · split
      · exact keeps_endTurn hk
      · exact trivial

theorem keeps_endRecord {qn : Nat} {q : Queue} {c : Cmd} (hk : Keeps z s) : Keeps z (endRecord qn q c s) :=
  keeps_tagRecorded (keeps_foldl (keeps_finishCmd hk) (fun _ _ => keeps_dropDead))

theorem keeps_endLoop {qn : Nat} {c : Word32} {n : Nat} (hk : Keeps z s) : Keeps z (endLoop qn c n s) := by
  induction n generalizing s with
  | zero => exact hk
  | succ n ih =>
    unfold endLoop
    split
    · exact hk
    · split
      · exact hk
      · split
        · exact keeps_endRecord hk
        · next e => exact (keeps_endStep hk).some e
        · next e => exact ih ((keeps_endStep hk).some e)

theorem keeps_endCmd {qn : Nat} {c : Word32} (hk : Keeps z s) : Keeps z (endCmd qn c s) := by
  unfold endCmd
  split
  · exact hk
  · split
    · exact hk
    · exact keeps_ite (keeps_endLoop hk) hk

theorem keeps_endAll (hk : Keeps z s) : Keeps z (endAll s) :=
  keeps_foldl hk (fun _ _ k0 => keeps_foldl k0 (fun _ _ => keeps_endCmd))

theorem keeps_endAnswer {tx : Tx} (hk : Keeps z s) : KeepsOpt z (endAnswer tx s) := by
  unfold endAnswer
  cases endOwed s tx.src tx.tag with
  | none => trivial
  | some x => exact keeps_endCmd (keeps_setEnd hk)

theorem keeps_countItem {q : Nat} {c : Word32} {i : Nat} {st : St} {detail : Word32} (hk : Keeps z s) : Keeps z
    (countItem q c i st detail s) :=
  keeps_modCmd hk

theorem keeps_countEnded {part engine : Nat} {ok : Bool} {n : Nat} (hk : Keeps z s) : Keeps z (countEnded part engine ok n s) :=
  keeps_occur (keeps_bump hk)

theorem keeps_endItemAt {x : CtxId} {it : Item} {st : St} {detail : Word32} (hk : Keeps z s) : Keeps z
    (endItemAt x it st detail s) :=
  keeps_endCmd (keeps_dropItemBusy (keeps_countEnded (keeps_countItem (keeps_tagStage (keeps_freeCtx hk)))))

theorem keeps_endSeal {qn : Nat} {c : Cmd} {q : Queue} {st : St} {detail : Word32} (hk : Keeps z s) : Keeps z
    (endSeal qn c q st detail s) :=
  keeps_endCmd (keeps_countEnded (keeps_countItem (keeps_modCmd hk)))

theorem keeps_failItems {q : Nat} {c : Word32} {idx0 : List Nat} {st : St} {detail : Word32} (hk : Keeps z s) : Keeps z
    (failItems q c idx0 st detail s) := by
  unfold failItems
  split
  · exact hk
  · split
    · exact hk
    · exact keeps_endCmd (keeps_countEnded
        (keeps_modCmd (keeps_foldl hk (fun _ _ k2 => keeps_freeCtx (keeps_dropItemBusy k2)))))

theorem keeps_unpredictable {p : Nat} {w : Wild} (hk : Keeps z s) : Keeps z (unpredictable p w s) := by
  unfold unpredictable
  refine keeps_foldl (keeps_foldl (keeps_foldl (keeps_foldl (keeps_foldl (keeps_foldl hk fun t x k => ?_) fun t x k => ?_)
    (fun _ _ => keeps_modQueue)) (fun _ _ => keeps_modQueue)) (fun _ _ => keeps_modQueue)) fun t x k => ?_
  · split
    · split
      next e2 => exact (keeps_engWrite k).done e2
      · exact k
    · exact k
  · split
    · exact keeps_ite (keeps_setRes k) k
    · exact k
  · split
    · exact keeps_ite (keeps_endItemAt k) k
    · exact k

theorem keeps_ioUnpredictable {α : Type} {a : Actor} : KeepsIo z (ioUnpredictable a : Io α) :=
  fun v0 hv0 => keeps_unpredictable (keeps_mk hv0)

/-! ### REDUCE and collectives -/

theorem keeps_setCg {id : BitVec 48} {g : CGroup} (hk : Keeps z s) : Keeps z (setCg id g s) := keeps_mk hk

theorem keeps_sendStatus {g : CGroup} {n : Node} {st : St} {reason : Nat} {detector lost : Node} {results : Nat}
    (hk : Keeps z s) : Keeps z (sendStatus g n st reason detector lost results s) :=
  keeps_send hk

theorem keeps_statusDown {g : CGroup} {st : St} {reason : Nat} {detector lost : Node} {skip : Option Node} (hk : Keeps z s) :
    Keeps z (statusDown g st reason detector lost skip s) :=
  keeps_foldl hk (fun _ _ k0 => keeps_ite (keeps_sendStatus k0) k0)

theorem keeps_dropFolds {g : CGroup} (hk : Keeps z s) : Keeps z (dropFolds g s) := by
  unfold dropFolds
  refine keeps_foldl hk fun t x k => ?_
  split
  · exact keeps_freeCtx (keeps_dropItemBusy k)
  · exact k

theorem keeps_abortHeld {g : CGroup} (hk : Keeps z s) : Keeps z (abortHeld g s) := by
  unfold abortHeld
  refine keeps_foldl hk fun t x k => ?_
  refine keeps_foldl k fun t x k => ?_
  split
  · exact keeps_answer k
  · exact k

theorem keeps_abortItems {g : CGroup} {reason : Nat} (hk : Keeps z s) : Keeps z (abortItems g reason s) := by
  unfold abortItems
  refine keeps_foldl hk fun t x k => ?_
  split
  · exact k
  · split
    · exact k
    · exact keeps_failItems k

theorem keeps_abortGen {id : BitVec 48} {reason : Nat} {detector lost : Node} {src : Option Node} (hk : Keeps z s) : Keeps z
    (abortGen id reason detector lost src s) := by
  unfold abortGen
  split
  · exact hk
  · exact keeps_ite (keeps_post (keeps_occur
      (keeps_statusDown (keeps_ite (keeps_sendStatus (keeps_abortItems (keeps_setCg (keeps_dropFolds (keeps_abortHeld hk)))))
      (keeps_abortItems (keeps_setCg (keeps_dropFolds (keeps_abortHeld hk))))))))
      (keeps_occur (keeps_statusDown (keeps_ite
      (keeps_sendStatus (keeps_abortItems (keeps_setCg (keeps_dropFolds (keeps_abortHeld hk)))))
      (keeps_abortItems (keeps_setCg (keeps_dropFolds (keeps_abortHeld hk)))))))

theorem keeps_detectAbort {id : BitVec 48} {reason : Nat} {lost : Node} (hk : Keeps z s) : Keeps z
    (detectAbort id reason lost s) :=
  keeps_abortGen hk

theorem keeps_abortWhere {reason : Nat} {lost : Node} {p : CGroup → Bool} (hk : Keeps z s) : Keeps z
    (abortWhere reason lost p s) :=
  keeps_foldl hk (fun _ _ => keeps_detectAbort)

theorem keeps_hold {id : BitVec 48} {n : Nat} {h : Contribution} (hk : Keeps z s) : Keeps z (hold id n h s) := by
  unfold hold
  split
  · exact hk
  · exact keeps_setCg hk

theorem keeps_serveContribute {port : Nat} {tx : Tx} (hk : Keeps z s) : Keeps z (serveContribute port tx s) := by
  unfold serveContribute
  split
  · exact keeps_answer hk
  · split
    · exact keeps_answer hk
    · exact keeps_hold (keeps_occur hk)

theorem keeps_serveContributeAnswer {tx : Tx} (hk : Keeps z s) : Keeps z (serveContributeAnswer tx s) := by
  unfold serveContributeAnswer
  split
  · exact hk
  · split
    · exact hk
    · exact keeps_ite (keeps_detectAbort hk) hk

theorem keeps_deliver {id : BitVec 48} {n : Nat} {ts : List Tile} (hk : Keeps z s) : Keeps z (deliver id n ts s) := by
  unfold deliver
  split
  · exact hk
  · exact keeps_setCg (keeps_foldl hk (fun _ _ => keeps_send))

theorem keeps_fromsDone {g : CGroup} {n : Nat} (hk : Keeps z s) : Keeps z (fromsDone g n s) :=
  keeps_foldl hk (fun _ _ k0 => keeps_endCmd (keeps_countEnded (keeps_countItem k0)))

theorem keeps_committed {id : BitVec 48} {n : Nat} {c : Chunk} (hk : Keeps z s) : Keeps z (committed id n c s) := by
  unfold committed
  split
  · exact hk
  · refine keeps_fromsDone (keeps_setCg ?_)
    split
    · refine keeps_freeCtx (keeps_dropItemBusy (keeps_foldl hk fun t x k => ?_))
      split
      · exact keeps_answer k
      · exact k
    · refine keeps_foldl hk fun t x k => ?_
      split
      · exact keeps_answer k
      · exact k

theorem keeps_commitInterior {id : BitVec 48} {g : CGroup} {c : Chunk} (hk : Keeps z s) : Keeps z (commitInterior id g c s) :=
  keeps_committed (keeps_send hk)

theorem keeps_endGen {id : BitVec 48} (hk : Keeps z s) : Keeps z (endGen id s) := by
  unfold endGen
  split
  · exact hk
  · exact keeps_ite (keeps_setCg (keeps_statusDown hk)) hk

theorem keeps_meetRun {id : BitVec 48} {n : Nat} (hk : Keeps z s) : Keeps z (meetRun id n s) := by
  unfold meetRun
  split
  · exact hk
  · split
    · split
      · exact hk
      · split
        · exact hk
        · split
          · exact keeps_failItems hk
          · exact keeps_modCmd hk
    · exact hk

theorem keeps_stopRun {q : Queue} {cmd : Cmd} {w : Run} (hk : Keeps z s) : Keeps z (stopRun q cmd w s) := by
  unfold stopRun
  split
  · exact hk
  · split
    · exact hk
    · exact keeps_ite (keeps_runIo keeps_ioWrites hk) hk

theorem keeps_runItem {g : CGroup} {q : Queue} {cmd : Cmd} {w : Run} {acc : List Word32} {ans : List RemoteAnswer}
    (hk : Keeps z s) : Keeps z (runItem g q cmd w acc ans s).2 := by
  unfold runItem
  split
  · exact hk
  · split
    next e1 => exact keeps_snd (keeps_runIo keeps_ioWrites hk) e1
    next e1 => exact keeps_snd (keeps_runIo keeps_ioWrites hk) e1
    next e1 => exact keeps_snd (keeps_runIo keeps_ioWrites hk) e1

theorem keeps_commitResult {id : BitVec 48} {g : CGroup} {r : RedCmd} {c : Chunk} (hk : Keeps z s) : Keeps z
    (commitResult id g r c s) := by
  unfold commitResult
  split
  · exact keeps_committed (keeps_deliver hk)

theorem keeps_commitRoot {id : BitVec 48} {g : CGroup} {c : Chunk} {ans : List RemoteAnswer} (hk : Keeps z s) : Keeps z
    (commitRoot id g c ans s) := by
  unfold commitRoot
  split
  · exact hk
  · split
    · exact keeps_endGen (keeps_commitResult hk)
    · split
      · exact keeps_endGen (keeps_commitResult hk)
      · split
        · exact hk
        · split
          next e4 => exact keeps_snd (keeps_runItem hk) e4
          next e4 =>
            exact keeps_endGen (keeps_endCmd
              (keeps_countEnded (keeps_countItem (keeps_commitResult (keeps_snd (keeps_runItem hk) e4)))))

theorem keeps_commitChunk {id : BitVec 48} {n : Nat} {ans : List RemoteAnswer} {s0 : State} (hk : Keeps z s0) : Keeps z
    (commitChunk id n ans s0) := by
  unfold commitChunk
  dsimp only
  split
  · exact keeps_meetRun hk
  · split
    · exact keeps_meetRun hk
    · exact keeps_ite (keeps_meetRun hk) (keeps_ite (keeps_commitRoot (keeps_meetRun hk))
        (keeps_commitInterior (keeps_meetRun hk)))

theorem keeps_failHeld {id : BitVec 48} {n child : Nat} (hk : Keeps z s) : Keeps z (failHeld id n child s) := by
  unfold failHeld
  split
  · exact hk
  · exact keeps_ite (keeps_detectAbort hk) hk

theorem keeps_serveResult {tx : Tx} (hk : Keeps z s) : Keeps z (serveResult tx s) := by
  unfold serveResult
  split
  · exact hk
  · split
    · exact hk
    · exact keeps_ite (keeps_deliver hk) hk

theorem keeps_serveStatus {tx : Tx} (hk : Keeps z s) : Keeps z (serveStatus tx s) := by
  unfold serveStatus
  split
  · exact hk
  · split
    · exact hk
    · exact keeps_ite hk (keeps_ite (keeps_ite (keeps_setCg (keeps_statusDown (keeps_dropFolds hk))) hk)
        (keeps_ite (keeps_abortGen hk) hk))

theorem keeps_fromWork {g : CGroup} {d : BitVec 512} {a : Actor} {n : Nat} : KeepsIo z (fromWork g d a n) :=
  keepsIo_bind keeps_ioReads fun _ => keepsIo_ite (keepsIo_bind keeps_ioBytes fun _ => keepsIo_bind keepsIo_pure fun _ =>
    keepsIo_pure) (keepsIo_bind keepsIo_pure fun _ => keepsIo_pure)

theorem keeps_fromItem {x : CtxId} {it : Item} {q : Queue} {cmd : Cmd} {ans : List RemoteAnswer} (hk : Keeps z s) : Keeps z
    (fromItem x it q cmd ans s) := by
  unfold fromItem
  dsimp only
  split
  · exact keeps_endItemAt hk
  · split
    next e2 => exact keeps_abortGen (keeps_endItemAt (keeps_snd (keeps_runIo keeps_fromWork hk) e2))
    next e2 => exact keeps_snd (keeps_runIo keeps_fromWork hk) e2
    next e2 => exact keeps_hold (keeps_freeCtx (keeps_dropItemBusy (keeps_snd (keeps_runIo keeps_fromWork hk) e2)))

theorem keeps_registerGroup {e : GroupEntry} {cs : List Child} (hk : Keeps z s) : Keeps z (registerGroup e cs s).2 :=
  keeps_ite_snd hk (keeps_ite_snd hk (keeps_setCg hk))

theorem keeps_releaseGroup {id : BitVec 48} (hk : Keeps z s) : Keeps z (releaseGroup id s).2 := by
  unfold releaseGroup
  split
  · exact hk
  · exact keeps_ite_snd hk (keeps_mk hk)

/-! ### Reading a descriptor -/

theorem keeps_ioMeets {a : Actor} {d : BitVec 512} {r : Rng} : KeepsIo z (ioMeets a d r) :=
  keepsIo_get_bind fun _ _ => keepsIo_pure

theorem keeps_joinGroup {q : Nat} {seq : Word32} {d : BitVec 512} (hk : Keeps z s) : Keeps z (joinGroup q seq d s) := by
  unfold joinGroup
  split
  · exact hk
  · dsimp only
    split
    · exact keeps_foldl (keeps_setCg hk) (fun _ _ => keeps_meetRun)
    · exact keeps_setCg hk

theorem keeps_tagQueued {qn : Nat} {q : Queue} {c : Cmd} (hk : Keeps z s) : Keeps z (tagQueued qn q c s) :=
  keeps_ite hk (keeps_foldl hk (fun _ _ => keeps_tagStage))

theorem keeps_acceptCmd {qn : Nat} {q : Queue} {seq : Word32} {d : BitVec 512} (hk : Keeps z s) : Keeps z
    (acceptCmd qn q seq d s) :=
  keeps_ite (keeps_ite (keeps_detectAbort (keeps_endCmd (keeps_tagQueued (keeps_modQueue hk))))
    (keeps_endCmd (keeps_tagQueued (keeps_modQueue hk)))) (keeps_ite (keeps_joinGroup (keeps_tagQueued (keeps_modQueue hk)))
    (keeps_tagQueued (keeps_modQueue hk)))

theorem keeps_wildCmd {qn : Nat} {q : Queue} {seq : Word32} {d : BitVec 512} (hk : Keeps z s) : Keeps z
    (wildCmd qn q seq d s) :=
  keeps_finishCmd (keeps_unpredictable (keeps_mk hk))

theorem keeps_readCmd {engine op qn : Nat} (hk : Keeps z s) : Runs z (readCmd engine op qn s) := by
  unfold readCmd
  split
  · exact hk
  · split
    · exact hk
    · split
      · exact hk
      · dsimp only
        split
        · exact keeps_refuseCmd (keeps_bump (keeps_readSlot hk))
        · exact keeps_ite (keeps_acceptCmd (keeps_bump (keeps_readSlot hk))) (keeps_wildCmd (keeps_bump (keeps_readSlot hk)))

theorem keeps_readReserved {qn : Nat} (hk : Keeps z s) : Keeps z (readReserved qn s) := by
  unfold readReserved
  split
  · exact hk
  · split
    · exact hk
    · exact keeps_ite hk (keeps_refuseCmd (keeps_bump (keeps_readSlot hk)))

theorem keeps_execReduceRun {queue : Nat} (hk : Keeps z s) : Runs z (execReduceRun queue s) := keeps_readCmd hk

theorem keeps_execReduceFrom {queue : Nat} (hk : Keeps z s) : Runs z (execReduceFrom queue s) := keeps_readCmd hk

theorem keeps_execReduceAbort {queue : Nat} (hk : Keeps z s) : Runs z (execReduceAbort queue s) := keeps_readCmd hk

theorem keeps_execRows {queue : Nat} (hk : Keeps z s) : Runs z (execRows queue s) := keeps_readCmd hk

theorem keeps_execKv {queue : Nat} (hk : Keeps z s) : Runs z (execKv queue s) := keeps_readCmd hk

theorem keeps_execDispatch {queue : Nat} (hk : Keeps z s) : Runs z (execDispatch queue s) := keeps_readCmd hk

theorem keeps_execCombine {queue : Nat} (hk : Keeps z s) : Runs z (execCombine queue s) := keeps_readCmd hk

theorem keeps_execCopy {queue : Nat} (hk : Keeps z s) : Runs z (execCopy queue s) := keeps_readCmd hk

theorem keeps_execFill {queue : Nat} (hk : Keeps z s) : Runs z (execFill queue s) := keeps_readCmd hk

theorem keeps_execConvert {queue : Nat} (hk : Keeps z s) : Runs z (execConvert queue s) := keeps_readCmd hk

theorem keeps_execPublishCopy {queue : Nat} (hk : Keeps z s) : Runs z (execPublishCopy queue s) := keeps_readCmd hk

theorem keeps_execRebuild {queue : Nat} (hk : Keeps z s) : Runs z (execRebuild queue s) := keeps_readCmd hk

theorem keeps_execScan {queue : Nat} (hk : Keeps z s) : Runs z (execScan queue s) := keeps_readCmd hk

theorem keeps_execTopk {queue : Nat} (hk : Keeps z s) : Runs z (execTopk queue s) := keeps_readCmd hk

theorem keeps_execScore {queue : Nat} (hk : Keeps z s) : Runs z (execScore queue s) := keeps_readCmd hk

theorem keeps_execAttend {queue : Nat} (hk : Keeps z s) : Runs z (execAttend queue s) := keeps_readCmd hk

theorem keeps_execApplyRun {queue : Nat} (hk : Keeps z s) : Runs z (execApplyRun queue s) := keeps_readCmd hk

theorem keeps_execReservedOpcodeCommand {queue : Nat} (hk : Keeps z s) : Runs z (execReservedOpcodeCommand queue s) :=
  keeps_readReserved hk

/-! ### The work of GATHER -/

theorem keeps_readIndexed {a : Actor} {r : RowsArgs} {j : Nat} : KeepsIo z (readIndexed a r j) :=
  keepsIo_bind keeps_ioBytes fun _ => keepsIo_ite keeps_ioFail (keepsIo_bind keeps_ioBytes fun _ =>
    keepsIo_ite (keepsIo_bind keeps_ioBytes fun _ => keepsIo_pure) (keepsIo_bind keepsIo_pure fun _ => keepsIo_pure))

theorem keeps_rowsUnit {a : Actor} {r : RowsArgs} {n : Nat} : KeepsIo z (rowsUnit a r n) := by
  unfold rowsUnit
  dsimp only
  split
  · refine keepsIo_bind keepsIo_pure fun x2 => ?_
    split
    · exact keeps_ioWild
    · exact keepsIo_bind (keepsIo_mapM (fun _ => keeps_readIndexed)) fun x4 => keepsIo_pure
  · refine keepsIo_bind keeps_ioBytes fun x2 => keepsIo_bind keeps_ioBytes fun x3 => keepsIo_bind keepsIo_pure fun x4 => ?_
    split
    · exact keeps_ioWild
    · exact keepsIo_bind (keepsIo_mapM (fun _ => keeps_readIndexed)) fun x4 => keepsIo_pure

theorem keeps_rowsWork {a : Actor} {d : BitVec 512} {i : Nat} : KeepsIo z (rowsWork a d i) :=
  keepsIo_ite (keeps_ioUnits (fun _ => keeps_rowsUnit)) (keeps_ioUnits (fun _ => keeps_rowsUnit))

theorem keeps_kvUnit {a : Actor} {d : BitVec 512} {j : Nat} : KeepsIo z (kvUnit a d j) :=
  keepsIo_bind keeps_ioBytes fun _ => keepsIo_ite keepsIo_pure
    (keepsIo_ite (keepsIo_bind (keepsIo_mapM (fun _ => keeps_ioFree)) fun _ => keepsIo_pure)
    (keepsIo_ite keeps_ioFail (keepsIo_bind keeps_ioReads fun _ => keepsIo_bind keeps_ioMeets fun _ => keeps_ioWild)))

theorem keeps_kvWork {a : Actor} {d : BitVec 512} {i : Nat} : KeepsIo z (kvWork a d i) := keeps_ioUnits (fun _ => keeps_kvUnit)

theorem keeps_readRoute {a : Actor} {r : RouteArgs} {i : Nat} : KeepsIo z (readRoute a r i) :=
  keepsIo_bind keeps_ioBytes fun _ => keepsIo_pure

theorem keeps_dispatchUnit {a : Actor} {d : BitVec 512} {i : Nat} : KeepsIo z (dispatchUnit a d i) := by
  unfold dispatchUnit
  refine keepsIo_bind keeps_readRoute fun x0 => ?_
  split
  · exact keepsIo_pure
  · exact keepsIo_bind keeps_ioBytes fun x2 => keepsIo_ite keeps_ioFail (keepsIo_bind keeps_ioMeets fun x3 => keeps_ioWild)

theorem keeps_dispatchWork {a : Actor} {d : BitVec 512} {i : Nat} : KeepsIo z (dispatchWork a d i) := by
  unfold dispatchWork
  refine keeps_ioUnits (fun x0 => keepsIo_bind (keeps_gatherUnits (fun _ => keeps_dispatchUnit)) fun x1 => ?_)
  split
  · refine keepsIo_bind keeps_ioWild fun x2 => ?_
    split
    · exact keepsIo_pure
    · exact keepsIo_ite (keepsIo_bind keeps_ioPerform fun x4 => keeps_ioFail) (keepsIo_bind keeps_ioKeep fun x4 => keeps_ioFail)

theorem keeps_combineUnit {a : Actor} {d : BitVec 512} {t : Nat} : KeepsIo z (combineUnit a d t) := by
  unfold combineUnit
  refine keepsIo_bind (keepsIo_foldlM (fun x0 x01 => ?_)) fun x0 => ?_
  · split
    · refine keepsIo_bind keeps_readRoute fun x2 => ?_
      split
      · split
        · exact keepsIo_pure
        · exact keepsIo_bind keeps_ioBytes fun x5 => keepsIo_bind keeps_ioMeets fun x6 => keepsIo_pure
  · split
    · exact keeps_ioWild

theorem keeps_combineWork {a : Actor} {d : BitVec 512} {i : Nat} : KeepsIo z (combineWork a d i) :=
  keeps_ioUnits (fun _ => keeps_combineUnit)

/-! ### The work of MOVE -/

theorem keeps_copyWork {a : Actor} {d : BitVec 512} {i : Nat} : KeepsIo z (copyWork a d i) :=
  keeps_ioUnits (fun _ => keepsIo_bind keeps_ioGet fun _ => keepsIo_pure)

theorem keeps_fillWork {a : Actor} {d : BitVec 512} {i : Nat} : KeepsIo z (fillWork a d i) := keeps_ioWrites

theorem keeps_convRead {a : Actor} {res : Bool} {base : Word64} {f : Byte} {count lo hi : Nat} : KeepsIo z
    (convRead a res base f count lo hi) :=
  keepsIo_bind (keepsIo_mapM (fun _ => keeps_ioGet)) fun _ => keepsIo_ite (keepsIo_bind (keepsIo_mapM (fun _ => keeps_ioGet))
    fun _ => keepsIo_pure) keepsIo_pure

theorem keeps_padTile {fmt n : Nat} {b : Block} : KeepsIo z (padTile fmt n b) :=
  keepsIo_ite keepsIo_pure (keepsIo_bind keeps_ioFree fun _ => keepsIo_pure)

theorem keeps_convertWork {a : Actor} {d : BitVec 512} {i : Nat} : KeepsIo z (convertWork a d i) :=
  keepsIo_bind keeps_convRead fun _ => keepsIo_bind (keepsIo_mapM (fun _ => keepsIo_bind keeps_padTile fun _ => keepsIo_pure))
    fun _ => keepsIo_ite (keepsIo_bind keeps_padTile fun _ => keepsIo_bind keepsIo_pure fun _ => keeps_ioWrites)
    (keepsIo_bind keepsIo_pure fun _ => keeps_ioWrites)

theorem keeps_ioSkips {p : PubArgs} {a : Actor} {k : Nat} : KeepsIo z (ioSkips p a k) := by
  unfold ioSkips
  refine keepsIo_get_bind fun v0 hv0 => ?_
  split
  · exact keepsIo_ite (keepsIo_ite (keepsIo_bind keeps_ioPull fun x2 => keepsIo_get_bind fun v3 hv3 => keepsIo_pure)
      (keepsIo_get_bind fun v2 hv2 => keepsIo_pure)) keepsIo_pure
  · exact keepsIo_pure

theorem keeps_publishCopyWork {a : Actor} {d : BitVec 512} {i : Nat} : KeepsIo z (publishCopyWork a d i) :=
  keeps_ioUnits (fun _ => keepsIo_bind keeps_ioSkips fun _ => keepsIo_ite keepsIo_pure (keepsIo_bind keeps_ioRead fun _ =>
    keepsIo_pure))

theorem keeps_rebuildOne {gi row : Nat} (hk : Keeps z s) : Keeps z (rebuildOne gi row s).2 := by
  unfold rebuildOne
  split
  · exact hk
  · exact keeps_ite_snd hk (keeps_ite_snd hk (keeps_markRepaired (keeps_rebuildUnit (keeps_askHelpers hk))))

theorem keeps_rebuildRows {gi first : Nat} {l : List Nat} {f : Option (St × Nat)} (hk : Keeps z s) : Keeps z
    (rebuildRows gi first l f s).2 := by
  induction l generalizing s f with
  | nil => exact hk
  | cons k ks ih => exact ih (keeps_rebuildOne hk)

theorem keeps_rebuildWork {d : BitVec 512} {i : Nat} : KeepsIo z (rebuildWork d i) := by
  unfold rebuildWork
  refine fun v0 hv0 => ?_
  dsimp only
  split
  next e2 => exact keeps_snd (keeps_rebuildRows hv0) e2
  next e2 => exact keeps_snd (keeps_rebuildRows hv0) e2

/-! ### The work of FILTER -/

theorem keeps_scanItem {a : Actor} {r : ScanArgs} {i : Nat} : KeepsIo z (scanItem a r i) :=
  keepsIo_bind keeps_ioRead fun _ => keepsIo_ite keeps_ioUnpredictable (keepsIo_bind keeps_ioBytes fun _ => keepsIo_pure)

theorem keeps_scanWork {a : Actor} {c : Cmd} {i : Nat} : KeepsIo z (scanWork a c i) := by
  unfold scanWork
  refine keepsIo_bind keeps_scanItem fun x0 => ?_
  split
  · dsimp only
    split
    · exact keepsIo_bind keeps_ioWrites fun x4 => keepsIo_pure
    · exact keepsIo_ite (fun v4 hv4 => hv4) (keepsIo_ite (keepsIo_bind keeps_ioWrites fun x4 => keepsIo_pure)
        (keepsIo_bind keeps_ioWrites fun x4 => keepsIo_pure))

theorem keeps_topkWork {a : Actor} {d : BitVec 512} {i : Nat} : KeepsIo z (topkWork a d i) :=
  keepsIo_bind keeps_ioBytes fun _ => keepsIo_ite keeps_ioWrites (keepsIo_bind (keepsIo_mapM (fun _ => keeps_ioBytes))
    fun _ => keeps_ioWrites)

theorem keeps_readEntry {a : Actor} {r : AttnArgs} {j : Nat} : KeepsIo z (readEntry a r j) :=
  keepsIo_bind keeps_ioBytes fun _ => keepsIo_ite keeps_ioUnpredictable (keepsIo_ite keepsIo_pure keepsIo_pure)

theorem keeps_readPart {a : Actor} {r : AttnArgs} {j : Nat} {b : Word64} {first : Nat} : KeepsIo z (readPart a r j b first) :=
  keeps_ioDetail (keepsIo_ite keeps_ioFail (keepsIo_bind (keepsIo_mapM (fun _ => keeps_ioGet)) fun _ => keepsIo_pure))

theorem keeps_readQ {a : Actor} {r : AttnArgs} : KeepsIo z (readQ a r) := by
  unfold readQ
  refine keepsIo_bind (keepsIo_mapM (fun x0 => ?_)) fun x0 => keepsIo_pure
  dsimp only
  exact keepsIo_bind keeps_ioReads fun x2 => keepsIo_bind keeps_ioReads fun x3 => keepsIo_pure

theorem keeps_blockMeets {d : BitVec 512} {r : AttnArgs} {a : Actor} {e : BlockEntry} : KeepsIo z (blockMeets d r a e) := by
  unfold blockMeets
  split
  · exact keepsIo_pure
  · exact keeps_ioMeets

theorem keeps_entryScores {a : Actor} {r : AttnArgs} {q : List (List FVal × List Nat)} {j : Nat} {e : BlockEntry} : KeepsIo z
    (entryScores a r q j e) := by
  unfold entryScores
  split
  · exact keepsIo_pure
  · exact keepsIo_bind keeps_readPart fun x1 => keepsIo_pure

theorem keeps_ioSpent {a : Actor} {steps sfu : Nat} : KeepsIo z (ioSpent a steps sfu) :=
  fun _ hv0 => keeps_ite hv0 (keeps_countFirm (keeps_countFirm hv0))

theorem keeps_scoreWork {a : Actor} {d : BitVec 512} {i : Nat} : KeepsIo z (scoreWork a d i) :=
  keepsIo_bind keeps_readQ fun _ => keepsIo_bind (keepsIo_mapM (fun _ => keeps_readEntry)) fun _ =>
    keepsIo_bind (keepsIo_mapM (fun _ => keeps_entryScores)) fun _ =>
    keepsIo_bind (keepsIo_foldlM (fun _ _ => keeps_blockMeets)) fun _ => keepsIo_bind keeps_ioWritesAll fun _ => keeps_ioSpent

theorem keeps_chunkData {a w : Actor} {d : BitVec 512} {q : List (List FVal × List Nat)} {js : List Nat} : KeepsIo z
    (chunkData a w d q js) := by
  unfold chunkData
  refine keepsIo_bind (keepsIo_mapM (fun x0 => keepsIo_bind keeps_readEntry fun x1 => keepsIo_bind keeps_entryScores fun x2 =>
    ?_)) fun x0 => keepsIo_bind (keepsIo_foldlM (fun _ _ => keeps_blockMeets)) fun x1 => keepsIo_pure
  dsimp only
  split
  · exact keepsIo_bind keepsIo_pure fun x3 => keepsIo_pure
  · exact keepsIo_bind keeps_readPart fun x3 => keepsIo_pure

theorem keeps_attendWork {a : Actor} {d : BitVec 512} {i : Nat} : KeepsIo z (attendWork a d i) := by
  unfold attendWork
  refine keepsIo_bind keeps_readQ fun x0 => keepsIo_bind (keepsIo_foldlM (fun x1 x11 => ?_)) fun x1 => ?_
  · split
    · refine keepsIo_bind keeps_chunkData fun x2 => ?_
      split
      · exact keepsIo_pure
  · split
    · exact keepsIo_bind keeps_ioWritesAll fun x2 => keeps_ioSpent

/-! ### Answers to management requests -/

theorem keeps_reply {h : Mgmt} {code : Nat} {st : St} {body : List Nat} {seq : Nat} (hk : Keeps z s) : Keeps z
    (reply h code st body seq s) := by
  unfold reply
  split
  · exact hk
  · exact keeps_mk hk

theorem keeps_answered {h : Mgmt} {code q0 : Nat} {st : St} {body : List Nat} {change : Bool} (hk : Keeps z s) : Keeps z
    (answered h code q0 st body change s) := by
  unfold answered
  split
  · exact keeps_reply hk
  · split
    · exact keeps_reply hk
    · next _ hq => exact keeps_reply (hk.step ⟨rfl, rfl, Nat.le_succ_of_le (Nat.le_of_not_lt hq), rfl, id, id, fun _ => id⟩)

theorem keeps_dropCounters {type block : Nat} (hk : Keeps z s) : Keeps z (dropCounters type block s) := keeps_mk hk

theorem keeps_leaveCore {c p : Nat} {k : Core} (hk : Keeps z s) : Keeps z (leaveCore c p k s) := by
  unfold leaveCore
  refine keeps_modPart (keeps_mk ?_)
  split
  · exact keeps_dropCounters hk
  · exact hk

theorem keeps_leaveChannel {c p : Nat} {x : Part} (hk : Keeps z s) : Keeps z (leaveChannel c p x s) :=
  keeps_modPart (keeps_mk (keeps_dropCounters hk))

theorem keeps_leavePart {p : Nat} (hk : Keeps z s) : Keeps z (leavePart p s) := by
  unfold leavePart
  refine keeps_foldl (keeps_foldl hk (fun _ _ => keeps_leaveCore)) fun t x k => ?_
  split
  · exact keeps_ite k (keeps_leaveChannel k)
  · exact k

theorem keeps_leaveOne {w : MgmtWait} (hk : Keeps z s) : Keeps z (leaveOne w s) := by
  unfold leaveOne
  split
  · exact keeps_ite (keeps_answered (keeps_mk (keeps_leavePart hk))) (keeps_leavePart hk)
  · exact hk

theorem keeps_leave (hk : Keeps z s) : Keeps z (leave s) := keeps_foldl hk (fun _ _ => keeps_leaveOne)

/-! ### The device's own atomic sources -/

theorem keeps_setSource {p : Nat} {home : Node} {e : EngineSource} (hk : Keeps z s) : Keeps z (setSource p home e s) :=
  keeps_mk hk

theorem keeps_takeAtomic {a : Actor} {home : Node} {it : Item} {idx : Nat} {op : BitVec 16 → Word32 → AsyncOp}
    (hk : Keeps z s) : Keeps z (takeAtomic a home it idx op s).2 :=
  keeps_setSource hk

theorem keeps_ackSource {p : Nat} {home : Node} (hk : Keeps z s) : Keeps z (ackSource p home s) :=
  keeps_ite hk (keeps_ite (keeps_processAck (keeps_setSource hk)) (keeps_sendEngine (keeps_setSource hk)))

theorem keeps_resolveAtomic {p : Nat} {home : Node} {aseq : Word32} (hk : Keeps z s) : Keeps z (resolveAtomic p home aseq s) :=
  keeps_ackSource (keeps_setSource hk)

theorem keeps_resolveFor {it : Item} {idx : Nat} (hk : Keeps z s) : Keeps z (resolveFor it idx s) := by
  unfold resolveFor
  split
  · exact keeps_resolveAtomic hk
  · exact hk

theorem keeps_addRec {it : Item} {r : TatomRec} (hk : Keeps z s) : Keeps z (addRec it r s) := keeps_modCmd hk

theorem keeps_noteRec {queue : Nat} {cmdSeq : Word32} {item idx : Nat} {st : St} {r : BitVec 128} (hk : Keeps z s) : Keeps z
    (noteRec queue cmdSeq item idx st r s) :=
  keeps_modCmd hk

theorem keeps_orphanAnswer {tx : Tx} (hk : Keeps z s) : Keeps z (orphanAnswer tx s) := by
  unfold orphanAnswer
  dsimp only
  split
  · exact hk
  · exact keeps_ite hk (keeps_resolveAtomic (keeps_noteRec hk))

/-! ### Arrivals on a fabric port -/

theorem keeps_reject {port : Nat} {tx : Tx} {st : St} {s0 : State} (hk : Keeps z s0) : Keeps z (reject port tx st s0) :=
  keeps_ite (keeps_refuse (keeps_ite (keeps_post hk) hk)) (keeps_occur (keeps_modPort (keeps_ite (keeps_post hk) hk)))

theorem keeps_serveOp {fresh : Bool} {rid port : Nat} {tx : Tx} (hk : Keeps z s) : Keeps z (serveOp fresh rid port tx s) := by
  unfold serveOp
  split
  · exact keeps_park hk
  · split
    · exact keeps_serveRead hk
    · exact keeps_serveWrite hk
    · exact keeps_serveWrite hk
    · exact keeps_serveAtomic hk
    · exact keeps_serveAck hk
    · exact keeps_serveFence hk
    · exact keeps_serveCache hk
    · exact keeps_serveCache hk
    · exact keeps_serveCache hk
    · exact keeps_serveNote (fun _ _ => keeps_markDirty) hk
    · exact keeps_serveWb hk
    · exact keeps_serveNote (fun _ _ => keeps_evictClean) hk
    · exact keeps_serveRecallAnswer hk
    · exact keeps_serveRecallAnswer hk
    · exact keeps_ite (keeps_serveGeyser hk) (keeps_serveInval hk)
    · exact keeps_serveOpen hk
    · exact keeps_serveClose hk
    · exact keeps_servePublish hk
    · exact keeps_servePush hk
    · exact keeps_serveDoorbell hk
    · exact keeps_serveWindow hk
    · exact keeps_serveContribute hk
    · exact keeps_serveResult hk
    · exact keeps_serveStatus hk
    · exact keeps_answer hk
    · exact keeps_ite (keeps_loseModule hk) hk
    · exact keeps_servePull hk
    · exact keeps_serveYield hk
    · exact hk

theorem keeps_serveParked {p : Parked} (hk : Keeps z s) : Keeps z (serveParked p s) := keeps_serveOp (keeps_unpark hk)

theorem keeps_serveModuleAnswer {tx : Tx} (hk : Keeps z s) : Keeps z (serveModuleAnswer tx s) := by
  unfold serveModuleAnswer
  split
  · exact hk
  · dsimp only
    split
    · exact keeps_ite (keeps_commitFree (keeps_mk hk)) (keeps_mk hk)
    · split
      · exact keeps_mk hk
      · split
        · exact keeps_mk hk
        · split
          · exact keeps_rewriteUnit (keeps_askHelpers (keeps_mk hk))
          · exact keeps_post (keeps_mk hk)
          · exact keeps_mk hk
    · split
      · exact keeps_mk hk
      · split
        · exact keeps_loseModule (keeps_post (keeps_mk hk))
        · split
          · exact keeps_ite (keeps_post (keeps_modGroup (keeps_mk hk))) (keeps_mk hk)
          · exact keeps_mk hk
    · exact keeps_mk hk

theorem keeps_serveResponse {tx : Tx} (hk : Keeps z s) : Keeps z (serveResponse tx s) := by
  unfold serveResponse
  split
  · cases e : endAnswer tx s with
    | none => exact keeps_serveModuleAnswer hk
    | some t => exact (keeps_endAnswer hk).some e
  · exact keeps_orphanAnswer hk
  · exact keeps_serveInvalAnswer hk
  · exact keeps_serveContributeAnswer hk
  · exact keeps_foldl (keeps_servePullAnswer hk) fun _ _ => keeps_serveParked
  · exact keeps_serveModuleAnswer hk

theorem keeps_serveNew {port : Nat} {tx : Tx} (hk : Keeps z s) : Keeps z (serveNew port tx s) :=
  keeps_ite (keeps_serveResponse (keeps_hearMark (keeps_mk hk))) (keeps_serveOp (keeps_hearMark (keeps_mk hk)))

theorem keeps_settleN {n : Nat} (hk : Keeps z s) : Keeps z (settleN n s) := by
  induction n generalizing s with
  | zero => exact hk
  | succ n ih =>
    unfold settleN
    split
    · exact hk
    · exact ih (keeps_serveParked hk)

theorem keeps_sweepDead (hk : Keeps z s) : Keeps z (sweepDead s) := keeps_foldl hk (fun _ _ => keeps_dropDead)

theorem keeps_releasePulls (hk : Keeps z s) : Keeps z (releasePulls s) := keeps_sendHeld hk

theorem keeps_settle (hk : Keeps z s) : Keeps z (settle s) :=
  keeps_startRecs (keeps_releasePulls (keeps_leave
    (keeps_retireOlder (keeps_freeDead (keeps_sweepDead (keeps_endAll (keeps_settleN hk)))))))

theorem keeps_setFlow {f : Flow} (hk : Keeps z s) : Keeps z (setFlow f s) := keeps_mk hk

theorem keeps_deliver1 {gap : Bool} {port : Nat} {tx : Tx} (hk : Keeps z s) : Keeps z (deliver1 gap port tx s) :=
  keeps_ite (keeps_refuse hk) (keeps_serveNew hk)

theorem keeps_resequence {port : Nat} {tx : Tx} (hk : Keeps z s) : Keeps z (resequence port tx s) := by
  unfold resequence
  dsimp only
  split
  · exact keeps_serveNew hk
  · split
    · exact keeps_foldl (keeps_setFlow hk) (fun _ _ => keeps_deliver1)
    · exact keeps_ite (keeps_foldl (keeps_setFlow hk) (fun _ _ => keeps_deliver1))
        (keeps_ite (keeps_foldl (keeps_setFlow hk) (fun _ _ => keeps_deliver1))
        (keeps_ite (keeps_ite (keeps_occur (keeps_modPort hk)) (keeps_setFlow hk)) (keeps_ite (keeps_occur (keeps_modPort hk))
        (keeps_modPort hk))))

theorem keeps_gapLoss {src : Node} {cls : Nat} (hk : Keeps z s) : Keeps z (gapLoss src cls s) := by
  unfold gapLoss
  split
  · exact hk
  · exact keeps_ite hk (keeps_foldl (keeps_setFlow hk) (fun _ _ => keeps_deliver1))

theorem keeps_recv {port0 : Nat} {tx0 : Tx} (hk : Keeps z s) : Keeps z (recv port0 tx0 s) := by
  unfold recv
  dsimp only
  split
  · exact hk
  · split
    · exact keeps_settle (keeps_reject (keeps_ite (keeps_post hk) hk))
    · exact keeps_ite (keeps_settle (keeps_resequence (keeps_ite (keeps_post hk) hk))) (keeps_mk (keeps_ite (keeps_post hk) hk))

/-! ### The dispatcher -/

theorem keeps_putCtx {x : CtxId} {k : Ctx} (hk : Keeps z s) : Keeps z (putCtx x k s) := keeps_modCore hk

theorem keeps_loadFirmware {core : Nat} {code : Nat × Nat} (hk : Keeps z s) : Keeps z (loadFirmware core code s) := by
  unfold loadFirmware
  split
  · exact hk
  · exact keeps_modCore hk

theorem keeps_countDispatched {part engine core phys : Nat} (hk : Keeps z s) : Keeps z (countDispatched part engine core phys
    s) :=
  keeps_occur (keeps_occur (keeps_bump hk))

theorem keeps_dispatchItem {qn : Nat} {q : Queue} {c : Cmd} {i core : Nat} {k : Core} (hk : Keeps z s) : Keeps z
    (dispatchItem qn q c i core k s) :=
  keeps_tagStage (keeps_tagStage (keeps_countDispatched
    (keeps_mk (keeps_modCmd (keeps_putCtx (keeps_ite (keeps_loadFirmware hk) hk))))))

theorem keeps_dispatchFold {g : CGroup} {n core : Nat} {k : Core} (hk : Keeps z s) : Keeps z (dispatchFold g n core k s) :=
  keeps_meetRun (keeps_setCg (keeps_putCtx (keeps_countDispatched (keeps_loadFirmware hk))))

theorem keeps_failAtDispatch {qn : Nat} {q : Queue} {c : Cmd} {i : Nat} {st : St} (hk : Keeps z s) : Keeps z
    (failAtDispatch qn q c i st s) :=
  keeps_ite (keeps_abortGen (keeps_failItems (keeps_mk hk))) (keeps_failItems (keeps_mk hk))

theorem keeps_dispatchOne {p : Nat} (hk : Keeps z s) : Keeps z (dispatchOne p s) := by
  unfold dispatchOne
  split
  · exact hk
  · dsimp only
    split
    · exact keeps_dispatchFold hk
    · split
      · exact hk
      · split
        · exact keeps_failAtDispatch hk
        · exact keeps_dispatchItem hk

theorem keeps_execItemDispatch {part : Nat} (hk : Keeps z s) : Runs z (execItemDispatch part s) :=
  keeps_settle (keeps_dispatchOne hk)

theorem keeps_itemWork {a : Actor} {c : Cmd} {i : Nat} : KeepsIo z (itemWork a c i) := by
  unfold itemWork
  dsimp only
  split
  · exact keepsIo_bind keeps_rowsWork fun x2 => keepsIo_pure
  · exact keepsIo_bind keeps_kvWork fun x2 => keepsIo_pure
  · exact keepsIo_bind keeps_dispatchWork fun x2 => keepsIo_pure
  · exact keepsIo_bind keeps_combineWork fun x2 => keepsIo_pure
  · exact keeps_scanWork
  · exact keepsIo_bind keeps_topkWork fun x2 => keepsIo_pure
  · exact keepsIo_bind keeps_scoreWork fun x2 => keepsIo_pure
  · exact keepsIo_bind keeps_attendWork fun x2 => keepsIo_pure
  · exact keepsIo_bind keeps_copyWork fun x2 => keepsIo_pure
  · exact keepsIo_bind keeps_fillWork fun x2 => keepsIo_pure
  · exact keepsIo_bind keeps_convertWork fun x2 => keepsIo_pure
  · exact keepsIo_bind keeps_publishCopyWork fun x2 => keepsIo_pure
  · exact keepsIo_bind keeps_rebuildWork fun x2 => keepsIo_pure
  · exact keepsIo_pure

theorem keeps_completeItem {x : CtxId} {k : Ctx} {q : Queue} {c : Cmd} {ans : List RemoteAnswer} (hk : Keeps z s) : Keeps z
    (completeItem x k q c ans s) := by
  unfold completeItem
  dsimp only
  split
  next e1 => exact keeps_settle (keeps_endItemAt (keeps_modCmd (keeps_snd (keeps_runIo keeps_itemWork hk) e1)))
  next e1 =>
    exact keeps_settle (keeps_ite (keeps_endItemAt (keeps_snd (keeps_runIo keeps_itemWork hk) e1))
      (keeps_snd (keeps_runIo keeps_itemWork hk) e1))
  next e1 => exact keeps_snd (keeps_runIo keeps_itemWork hk) e1

theorem keeps_stopRebuild {d : BitVec 512} {i : Nat} (hk : Keeps z s) : Keeps z (stopRebuild d i s) :=
  keeps_rebuildRows (keeps_mk hk)

theorem keeps_stopStores {a : Actor} {k : Ctx} : KeepsIo z (stopStores a k) := by
  unfold stopStores
  refine keepsIo_forM (fun x0 => ?_)
  split
  · refine keepsIo_bind (keepsIo_mapM (fun x2 => ?_)) fun x2 => keeps_ioWrites
    split
    · exact keepsIo_ite keeps_ioFree keepsIo_pure
    · exact keeps_ioFree
  · exact keepsIo_pure

theorem keeps_stopWork {x : CtxId} (hk : Keeps z s) : Keeps z (stopWork x s) := by
  unfold stopWork
  split
  · exact hk
  · split
    · exact hk
    · split
      · exact hk
      · exact keeps_ite hk (keeps_ite (keeps_runIo keeps_stopStores hk) (keeps_ite (keeps_stopRebuild hk)
          (keeps_runIo keeps_itemWork hk)))

theorem keeps_execItemComplete {x : CtxId} {ans : List RemoteAnswer} (hk : Keeps z s) : Runs z (execItemComplete x ans s) := by
  unfold execItemComplete
  split
  · exact hk
  · split
    · exact hk
    · split
      · exact hk
      · exact keeps_ite (keeps_settle (keeps_fromItem hk)) (keeps_completeItem hk)

theorem keeps_sealAway {qn : Nat} {q : Queue} {c : Cmd} {n : Node} {slot : Nat} {via : Option Word32} {ans : List RemoteAnswer}
    (hk : Keeps z s) : Keeps z (sealAway qn q c n slot via ans s) := by
  unfold sealAway
  split
  · exact hk
  · split
    · exact hk
    · split
      next e2 =>
        exact keeps_ite (keeps_endSeal (keeps_sendEngine (keeps_snd (keeps_viaTx hk) e2)))
          (keeps_endSeal (keeps_sendEngine (keeps_snd (keeps_viaTx hk) e2)))

theorem keeps_sealHere {qn : Nat} {q : Queue} {c : Cmd} {slot : Nat} {e : Extent} (hk : Keeps z s) : Keeps z
    (sealHere qn q c slot e s) :=
  keeps_ite (keeps_setExt (keeps_modCmd hk)) (keeps_endSeal hk)

theorem keeps_runSeal {qn : Nat} {q : Queue} {c : Cmd} {ans : List RemoteAnswer} (hk : Keeps z s) : Keeps z
    (runSeal qn q c ans s) := by
  unfold runSeal
  split
  · exact hk
  · split
    · exact keeps_endSeal hk
    · split
      · exact keeps_endSeal hk
      · split
        · exact keeps_sealHere hk
        · exact keeps_sealAway hk
        · exact keeps_endSeal hk

theorem keeps_execPublishCopySeal {queue : Nat} {cmdSeq : Word32} {ans : List RemoteAnswer} (hk : Keeps z s) : Runs z
    (execPublishCopySeal queue cmdSeq ans s) := by
  unfold execPublishCopySeal
  split
  · exact hk
  · split
    · exact hk
    · exact keeps_settle (keeps_runSeal hk)

theorem keeps_sealNow {slot : Nat} (hk : Keeps z s) : Keeps z (sealNow slot s) := by
  unfold sealNow
  split
  · exact hk
  · split
    · exact hk
    · split
      · exact hk
      · dsimp only
        split
        · exact keeps_sealStep hk
        · split
          · exact keeps_sealStep hk
          · split
            · exact keeps_sealStep hk
            · exact keeps_endSeal (keeps_sealStep hk)

theorem keeps_execPublishSeal {slot : Nat} (hk : Keeps z s) : Runs z (execPublishSeal slot s) := keeps_settle (keeps_sealNow hk)

/-! ### Management operations on extents -/

theorem keeps_freeSlot {slot : Nat} (hk : Keeps z s) : Keeps z (freeSlot slot s) := keeps_mk (keeps_dropVersions hk)

theorem keeps_refusedOp {st : St} (hk : Keeps z s) : Keeps z (refusedOp st s).s := hk

theorem keeps_doneOp {slot : Nat} {installs : Bool} (hk : Keeps z s) : Keeps z (doneOp slot installs s).s := keeps_modExt hk

theorem keeps_opAttach {slot mode owner group base : Nat} {hs : List HolderSpec} (hk : Keeps z s) : Keeps z
    (opAttach slot mode owner group base hs s).s := by
  unfold opAttach
  dsimp only
  split
  · exact keeps_refusedOp hk
  · split
    · exact keeps_refusedOp hk
    · split
      · exact keeps_refusedOp hk
      · split
        · exact keeps_refusedOp hk
        · exact keeps_doneOp (keeps_setExt hk)

theorem keeps_opGrow {slot : Nat} {hs : List HolderSpec} (hk : Keeps z s) : Keeps z (opGrow slot hs s).s := by
  unfold opGrow
  split
  · exact keeps_refusedOp hk
  · split
    · exact keeps_refusedOp hk
    · split
      · exact keeps_refusedOp hk
      · exact keeps_doneOp (keeps_setExt hk)

theorem keeps_opNotice {slot : Nat} {ns : List Node} {deadline : Word32} (hk : Keeps z s) : Keeps z
    (opNotice slot ns deadline s).s := by
  unfold opNotice
  split
  · exact keeps_refusedOp hk
  · dsimp only
    split
    · exact keeps_refusedOp hk
    · exact keeps_doneOp (keeps_postHosts (keeps_setExt hk))

theorem keeps_opCancel {slot : Nat} {ns : List Node} (hk : Keeps z s) : Keeps z (opCancel slot ns s).s := by
  unfold opCancel
  split
  · exact keeps_refusedOp hk
  · split
    · exact keeps_refusedOp hk
    · exact keeps_doneOp (keeps_setExt hk)

theorem keeps_postLease {n : Ev} {code slot : Nat} {e : Extent} (hk : Keeps z s) : Keeps z (postLease n code slot e s) :=
  keeps_postAll hk

theorem keeps_forceItems {slot : Nat} {ns : List Node} (hk : Keeps z s) : Keeps z (forceItems slot ns s) :=
  keeps_foldl hk (fun _ _ k0 => keeps_ite k0
    (keeps_foldl k0 (fun _ _ k1 => keeps_ite k1 (keeps_ite (keeps_modCmd k1)
    (keeps_ite (keeps_abortGen (keeps_failItems (keeps_modCmd k1))) (keeps_failItems (keeps_modCmd k1)))))))

theorem keeps_forceRecalls {id slot : Nat} {e : Extent} {ns : List Node} (hk : Keeps z s) : Keeps z
    (forceRecalls id slot e ns s) :=
  keeps_foldl hk (fun _ _ k0 => keeps_ite k0 (keeps_tryFinish (keeps_startRecalls k0)))

theorem keeps_forcePoint {slot : Nat} {e : Extent} {ns : List Node} {toFree : Bool} (hk : Keeps z s) : Keeps z
    (forcePoint slot e ns toFree s) := by
  unfold forcePoint
  dsimp only
  split
  · exact keeps_forceRecalls (keeps_ite (keeps_postLease
      (keeps_modExt (keeps_forceItems (keeps_postAll (keeps_mk (keeps_setExt hk))))))
      (keeps_forceItems (keeps_postAll (keeps_mk (keeps_setExt hk)))))
  · exact keeps_ite (keeps_ite (keeps_postLease (keeps_modExt (keeps_forceItems (keeps_postAll (keeps_mk (keeps_setExt hk))))))
      (keeps_forceItems (keeps_postAll (keeps_mk (keeps_setExt hk)))))
      (keeps_startInval (keeps_ite (keeps_postLease
      (keeps_modExt (keeps_forceItems (keeps_postAll (keeps_mk (keeps_setExt hk))))))
      (keeps_forceItems (keeps_postAll (keeps_mk (keeps_setExt hk))))))
  · exact keeps_ite (keeps_postLease (keeps_modExt (keeps_forceItems (keeps_postAll (keeps_mk (keeps_setExt hk))))))
      (keeps_forceItems (keeps_postAll (keeps_mk (keeps_setExt hk))))

theorem keeps_opForce {slot : Nat} {ns : List Node} {toFree : Bool} (hk : Keeps z s) : Keeps z (opForce slot ns toFree s).s :=
    by
  unfold opForce
  split
  · exact keeps_refusedOp hk
  · split
    · exact keeps_refusedOp hk
    · exact keeps_doneOp (keeps_forcePoint hk)

theorem keeps_revokeDone {f : Force} {e : Extent} (hk : Keeps z s) : Keeps z (revokeDone f e s) :=
  keeps_ite (keeps_freeSlot (keeps_modExt (keeps_mk (keeps_postAll hk))))
    (keeps_dropDead (keeps_modExt (keeps_mk (keeps_postAll hk))))

theorem keeps_quiesce {id : Nat} (hk : Keeps z s) : Keeps z (quiesce id s) := by
  unfold quiesce
  split
  · exact hk
  · split
    · exact keeps_mk hk
    · exact keeps_ite (keeps_revokeDone hk) (keeps_ite (keeps_forceRecalls hk) hk)

theorem keeps_drainReq {id : Nat} (hk : Keeps z s) : Keeps z (drainReq id s) :=
  keeps_foldl (keeps_mk hk) (fun _ _ => keeps_tryFinish)

theorem keeps_dropBusyReqs {st : St} {hit : Tx → Bool} (hk : Keeps z s) : Keeps z (dropBusyReqs st hit s) :=
  keeps_foldl hk (fun _ _ k0 => keeps_drainReq (keeps_failReq k0))

theorem keeps_dropHeld {st : St} {hit : Tx → Bool} (hk : Keeps z s) : Keeps z (dropHeld st hit s) :=
  keeps_foldl (keeps_mk hk) (fun _ _ => keeps_answer)

theorem keeps_dropSeals {st : St} {detail : Word32} {hit : Nat → Queue → Bool} (hk : Keeps z s) : Keeps z
    (dropSeals st detail hit s) := by
  unfold dropSeals
  refine keeps_foldl hk fun t x k => ?_
  split
  · split
    · split
      · exact k
      · dsimp only
        split
        · exact keeps_endSeal (keeps_modExt k)
        · exact keeps_modExt k
    · exact k
  · exact k

theorem keeps_stopItems {qn : Nat} {q : Queue} {c : Cmd} (hk : Keeps z s) : Keeps z (stopItems qn q c s) :=
  keeps_foldl hk (fun _ _ k0 => keeps_ite (keeps_stopWork k0) (keeps_ite (keeps_stopRun k0) k0))

theorem keeps_forceStop {id : Nat} (hk : Keeps z s) : Keeps z (forceStop id s) := by
  unfold forceStop
  split
  · exact hk
  · exact keeps_ite hk (keeps_dropSeals (keeps_dropHeld
      (keeps_dropBusyReqs (keeps_foldl (keeps_foldl (keeps_mk hk) (fun _ _ k1 =>
      keeps_ite k1 (keeps_foldl k1 (fun _ _ k2 =>
      keeps_ite k2 (keeps_ite k2 (keeps_ite (keeps_abortGen (keeps_failItems (keeps_modCmd (keeps_stopItems k2))))
      (keeps_failItems (keeps_modCmd (keeps_stopItems k2))))))))) (fun _ _ k1 => keeps_failWait (keeps_unpark k1))))))

theorem keeps_opRelease {slot : Nat} (hk : Keeps z s) : Keeps z (opRelease slot s).s := by
  unfold opRelease
  split
  · exact keeps_refusedOp hk
  · split
    · exact keeps_freeSlot hk
    · exact keeps_refusedOp hk

theorem keeps_readopt {slot group base srcSlot : Nat} {h : Word32} {m : MetaRec} (hk : Keeps z s) : Keeps z
    (readopt slot group base srcSlot h m s) :=
  keeps_setExt (keeps_mk hk)

theorem keeps_opRehomeIn {slot : Nat} {n : Node} {srcSlot : Nat} {h : Word32} {group base : Nat} (hk : Keeps z s) : Keeps z
    (opRehomeIn slot n srcSlot h group base s).s := by
  unfold opRehomeIn
  split
  · exact keeps_refusedOp hk
  · split
    · split
      · exact keeps_refusedOp hk
      · exact keeps_doneOp (keeps_readopt hk)
    · split
      · exact keeps_doneOp (keeps_setExt (keeps_mk hk))
      · exact keeps_doneOp (keeps_askPull (keeps_setExt hk))

theorem keeps_opRehomeOut {slot : Nat} {n : Node} {dst : Nat} {h : Word32} (hk : Keeps z s) : Keeps z
    (opRehomeOut slot n dst h s).s := by
  unfold opRehomeOut
  split
  · split
    · exact keeps_doneOp (keeps_setExt hk)
    · exact keeps_refusedOp hk
  · exact keeps_refusedOp hk

theorem keeps_opRehomeFinish {slot : Nat} (hk : Keeps z s) : Keeps z (opRehomeFinish slot s).s := by
  unfold opRehomeFinish
  split
  · split
    · exact keeps_freeSlot hk
    · exact keeps_refusedOp hk
  · exact keeps_refusedOp hk

theorem keeps_opGrantLease {slot part : Nat} (hk : Keeps z s) : Keeps z (opGrantLease slot part s).s := by
  unfold opGrantLease
  split
  · exact keeps_refusedOp hk
  · split
    · exact keeps_refusedOp hk
    · split
      · exact keeps_doneOp (keeps_postLease (keeps_setExt hk))
      · exact keeps_refusedOp hk

theorem keeps_opRevokeLease {slot : Nat} (hk : Keeps z s) : Keeps z (opRevokeLease slot s).s := by
  unfold opRevokeLease
  split
  · exact keeps_refusedOp hk
  · split
    · exact keeps_doneOp (keeps_postLease (keeps_setExt hk))
    · exact keeps_refusedOp hk

theorem keeps_opDiscard {slot : Nat} (hk : Keeps z s) : Keeps z (opDiscard slot s).s := by
  unfold opDiscard
  split
  · exact keeps_refusedOp hk
  · split
    · exact keeps_doneOp (keeps_startDiscard hk)
    · exact keeps_refusedOp hk

theorem keeps_opRecallTimeout {ms : Nat} (hk : Keeps z s) : Keeps z (opRecallTimeout ms s).s := by
  unfold opRecallTimeout
  dsimp only
  split
  · split
    · exact keeps_mk hk
    · exact keeps_refusedOp hk
  · split
    · exact keeps_mk hk
    · exact keeps_refusedOp hk

theorem keeps_runOp {o : ExtentOp} (hk : Keeps z s) : Keeps z (runOp o s).s := by
  unfold runOp
  split
  · exact keeps_opAttach hk
  · exact keeps_opGrow hk
  · exact keeps_opNotice hk
  · exact keeps_opCancel hk
  · exact keeps_opForce hk
  · exact keeps_opRelease hk
  · exact keeps_opRehomeIn hk
  · exact keeps_opRehomeOut hk
  · exact keeps_opRehomeFinish hk
  · exact hk
  · exact keeps_opGrantLease hk
  · exact keeps_opRevokeLease hk
  · exact keeps_opDiscard hk
  · exact keeps_opRecallTimeout hk

theorem keeps_runOps {l : List ExtentOp} (hk : Keeps z s) : Keeps z (runOps l s).2.2 := by
  induction l generalizing s with
  | nil => exact hk
  | cons o l ih => exact ih (keeps_runOp hk)

theorem keeps_nextEpoch (hk : Keeps z s) : Keeps z (nextEpoch s) := keeps_mk hk

theorem keeps_installed {r q : List (St × List Nat) × Bool × State} {c : Prop} [Decidable c] (hr : Keeps z r.2.2)
    (hq : Keeps z q.2.2) : Keeps z (if c then (if r.2.1 then (r.1, settle r.2.2) else (q.1, settle q.2.2)) else
    (q.1, settle q.2.2)).2 := by
  have h1 := keeps_settle hr
  have h2 := keeps_settle hq
  generalize settle r.2.2 = t at h1
  generalize settle q.2.2 = u at h2
  exact keeps_ite_snd (keeps_ite_snd h1 h2) h2

theorem keeps_applyBatch {ops : List ExtentOp} (hk : Keeps z s) : Keeps z (applyBatch ops s).2 :=
  keeps_installed (keeps_runOps (keeps_nextEpoch hk)) (keeps_runOps hk)

theorem keeps_forceRetire (hk : Keeps z s) : Keeps z (forceRetire s) := by
  unfold forceRetire
  split
  · exact hk
  · exact keeps_settle (keeps_mk (keeps_dropBusyReqs
      (keeps_foldl (keeps_foldl hk (fun _ _ k1 => keeps_failWait (keeps_unpark k1))) (fun _ _ k1 => keeps_foldl k1
      (fun _ _ => keeps_recallExpired)))))

/-! ### The switch core -/

theorem keeps_modSp {f : SpindleSt → SpindleSt} (hk : Keeps z s) : Keeps z (modSp f s) := keeps_mk hk

theorem keeps_allocSlot {cls part : Nat} {shared : Bool} (hk : Keeps z s) : Keeps z (allocSlot cls part shared s).2 :=
  keeps_occur (keeps_occur (keeps_bump (keeps_modSp hk)))

theorem keeps_charge {lane cls part : Nat} {shared : Bool} (hk : Keeps z s) : Keeps z (charge lane cls part shared s) :=
  keeps_modSp hk

theorem keeps_freeCell {c : Cell} (hk : Keeps z s) : Keeps z (freeCell c s) := keeps_ite (keeps_modSp hk) (keeps_modSp hk)

theorem keeps_meterPacket {port part : Nat} {tx : Tx} {n : Nat} (hk : Keeps z s) : Keeps z (meterPacket port part tx n s).2 :=
    by
  unfold meterPacket
  split
  · exact hk
  · exact keeps_ite_snd hk (keeps_ite (keeps_modSp hk) (keeps_occur (keeps_modSp hk)))

theorem keeps_returnHeld (hk : Keeps z s) : Keeps z (returnHeld s) := by
  unfold returnHeld
  refine keeps_foldl hk fun t x k => ?_
  dsimp only
  split
  · exact k
  · exact keeps_ite (keeps_modSp k) k

theorem keepsOptSnd_map {α β : Type} {o : Option (α × State)} {f : α × State → β × State} (ho : KeepsOptSnd z o)
    (hf : ∀ x, (f x).2 = x.2) : KeepsOptSnd z (o.map f) := by
  cases o with
  | none => trivial
  | some x =>
    show Keeps z (f x).2
    rw [hf x]
    exact ho

theorem keeps_takeSlots {lane cls part : Nat} {promised : Option Nat} {n : Nat} (hk : Keeps z s) : KeepsOptSnd z
    (takeSlots lane cls part promised n s) := by
  induction n generalizing s with
  | zero => exact hk
  | succ n ih =>
    unfold takeSlots
    dsimp only
    cases promised with
    | some link => exact keepsOptSnd_map (ih (keeps_allocSlot (keeps_charge (keeps_modSp hk)))) fun _ => rfl
    | none =>
      cases setAside s lane cls (some part) with
      | none => trivial
      | some sh => exact keepsOptSnd_map (ih (keeps_allocSlot (keeps_charge hk))) fun _ => rfl

theorem keeps_putPacket {lane part colour : Nat} {retain : Option Nat} {txs : List (Nat × Tx)} {slots : List (Bool × Nat × Nat)}
    (hk : Keeps z s) : Keeps z (putPacket lane part colour retain txs slots s) := by
  unfold putPacket
  split
  · exact hk
  · exact keeps_modSp hk

theorem keeps_admitArrival {link port part : Nat} {tx : Tx} (hk : Keeps z s) : Keeps z (admitArrival link port part tx s) := by
  unfold admitArrival
  split
  · exact hk
  · dsimp only
    split
    · split
      · exact keeps_occur (keeps_modSp (keeps_takeFree (keeps_meterPacket hk)))
      · split
        next e4 => exact keeps_ite (keeps_occur (keeps_takeFree (keeps_meterPacket hk))) (keeps_takeFree (keeps_meterPacket hk))
        next e4 =>
          exact keeps_putPacket (keeps_modSp
            ((keeps_takeSlots (keeps_ite (keeps_occur (keeps_takeFree (keeps_meterPacket hk)))
            (keeps_takeFree (keeps_meterPacket hk)))).some e4))
    · split
      · exact keeps_occur (keeps_modSp (keeps_takeFree (keeps_meterPacket hk)))
      · split
        next e4 => exact keeps_ite (keeps_occur (keeps_takeFree (keeps_meterPacket hk))) (keeps_takeFree (keeps_meterPacket hk))
        next e4 =>
          exact keeps_putPacket (keeps_modSp
            ((keeps_takeSlots (keeps_ite (keeps_occur (keeps_takeFree (keeps_meterPacket hk)))
            (keeps_takeFree (keeps_meterPacket hk)))).some e4))

theorem keeps_unreachableOut {tx : Tx} (hk : Keeps z s) : Keeps z (unreachableOut tx s) := keeps_ite (keeps_refuse hk) hk

theorem keeps_admitOne {tx : Tx} {copies : List Tx} {out : Nat} (hk : Keeps z s) : Keeps z (admitOne tx copies out s).2 := by
  unfold admitOne
  dsimp only
  split
  · split
    · split
      · exact hk
      · split
        next e4 => exact hk
        next e4 => exact keeps_putPacket (keeps_modSp ((keeps_takeSlots (keeps_takeFree hk)).some e4))
    · split
      · exact keeps_modSp (keeps_takeFree hk)
      · split
        next e4 => exact hk
        next e4 => exact keeps_putPacket ((keeps_takeSlots (keeps_takeFree hk)).some e4)
  · split
    · exact keeps_ite hk (keeps_modSp (keeps_takeFree hk))
    · split
      next e3 => exact hk
      next e3 =>
        exact keeps_putPacket (keeps_ite (keeps_modSp ((keeps_takeSlots (keeps_takeFree hk)).some e3))
          ((keeps_takeSlots (keeps_takeFree hk)).some e3))

theorem keeps_admitOutN {n : Nat} {rest kept : List Tx} (hk : Keeps z s) : Keeps z (admitOutN n rest kept s) := by
  induction n generalizing s rest kept with
  | zero => exact keeps_mk hk
  | succ n ih =>
    cases rest with
    | nil => exact keeps_mk hk
    | cons tx rest =>
      unfold admitOutN
      split
      · exact ih hk
      · split
        · exact keeps_ite (ih hk) (ih (keeps_unreachableOut hk))
        · dsimp only
          split
          · next e => exact ih (keeps_snd (keeps_admitOne hk) e)
          · next e => exact ih (keeps_snd (keeps_admitOne hk) e)

theorem keeps_admitOut (hk : Keeps z s) : Keeps z (admitOut s) := keeps_admitOutN (keeps_mk hk)

theorem keeps_stage1 {i : Nat} (hk : Keeps z s) : Keeps z (stage1 i s) := by
  unfold stage1
  dsimp only
  split
  · exact hk
  · split
    · exact hk
    · exact keeps_foldl (keeps_ite (keeps_occur (keeps_modSp hk)) (keeps_modSp hk)) (fun _ _ => keeps_modSp)

theorem keeps_passed {c : Cell} (hk : Keeps z s) : Keeps z (passed c s) := by
  unfold passed
  split
  · exact hk
  · exact keeps_ite (keeps_modSp hk) (keeps_modSp hk)

theorem keeps_fumCell {out : Nat} {c : Cell} (hk : Keeps z s) : Keeps z (fumCell out c s) :=
  keeps_ite hk (keeps_modSp (keeps_mk hk))

theorem keeps_resendCell {c : Cell} (hk : Keeps z s) : Keeps z (resendCell c s) :=
  keeps_modSp (keeps_allocSlot (keeps_charge
    (keeps_freeCell (keeps_ite (keeps_bump hk) (keeps_post (keeps_modSp (keeps_bump hk)))))))

theorem keeps_stage2 {bad : List Nat} {k : Nat} (hk : Keeps z s) : Keeps z (stage2 bad k s) := by
  unfold stage2
  dsimp only
  split
  · exact hk
  · split
    · exact hk
    · split
      · exact hk
      · exact keeps_ite hk (keeps_ite (keeps_resendCell (keeps_modSp hk))
          (keeps_fumCell (keeps_ite (keeps_occur (keeps_modSp (keeps_passed (keeps_freeCell (keeps_modSp hk)))))
          (keeps_modSp (keeps_passed (keeps_freeCell (keeps_modSp hk)))))))

theorem keeps_turn {bad : List Nat} (hk : Keeps z s) : Keeps z (turn bad s) := by
  unfold turn
  split
  · exact hk
  · refine keeps_foldl (keeps_modSp (keeps_foldl (keeps_foldl (keeps_admitOut hk) (fun _ _ => keeps_stage2))
      (fun _ _ => keeps_stage1))) fun t x k => ?_
    split
    · exact keeps_occur k
    · exact k

theorem keeps_takePacket {out : Nat} {cells : List Cell} (hk : Keeps z s) : Keeps z (takePacket out cells s) := by
  unfold takePacket
  split
  · exact hk
  · exact keeps_modSp hk

theorem keeps_sendPort {out : Nat} {p : Port} {cells : List Cell} (hk : Keeps z s) : Keeps z (sendPort out p cells s) := by
  unfold sendPort
  split
  · exact hk
  · split
    · exact hk
    · split
      · exact hk
      · exact keeps_ite hk (keeps_occur (keeps_ite (keeps_modSp (keeps_modPort (keeps_takePacket hk)))
          (keeps_modPort (keeps_takePacket hk))))

theorem keeps_sendHome {out : Nat} {cells : List Cell} (hk : Keeps z s) : Keeps z (sendHome out cells s) := by
  unfold sendHome
  split
  · exact hk
  · split
    · exact hk
    · split
      · exact hk
      · exact keeps_settle (keeps_resequence (keeps_takePacket hk))

theorem keeps_holdStep {k : Nat} {m : Meter} (hk : Keeps z s) : Keeps z (holdStep k m s) :=
  keeps_ite (keeps_post (keeps_ite (keeps_bump (keeps_modSp hk)) (keeps_modSp hk)))
    (keeps_ite (keeps_post (keeps_ite (keeps_bump (keeps_modSp hk)) (keeps_modSp hk))) (keeps_ite (keeps_bump (keeps_modSp hk))
    (keeps_modSp hk)))

theorem keeps_holdWindow (hk : Keeps z s) : Keeps z (holdWindow s) := keeps_modSp (keeps_foldl hk (fun _ _ => keeps_holdStep))

theorem keeps_sampleQueue {k : Nat} (hk : Keeps z s) : Keeps z (sampleQueue k s) := keeps_modSp hk

theorem keeps_sampleAll (hk : Keeps z s) : Keeps z (sampleAll s) := keeps_foldl hk (fun _ _ => keeps_sampleQueue)

/-! ### The link layer of a fabric port -/

theorem keeps_promise {lane cls : Nat} {part : Option Nat} {n : Nat} (hk : Keeps z s) : KeepsOpt z
    (promise lane cls part n s) := by
  induction n generalizing s with
  | zero => exact hk
  | succ n ih =>
    unfold promise
    split
    · trivial
    · exact ih (keeps_modSp hk)

theorem keeps_grantUnits {n port cls k : Nat} (hk : Keeps z s) : Keeps z (grantUnits n port cls k s) := by
  induction k generalizing s with
  | zero => exact hk
  | succ k ih =>
    unfold grantUnits
    split
    · exact hk
    · refine keeps_ite hk ?_
      split
      · exact keeps_occur hk
      · next e => exact ih (keeps_modPort ((keeps_promise hk).some e))

theorem keeps_dropWithheld (hk : Keeps z s) : Keeps z (dropWithheld s) := keeps_modSp hk

theorem keeps_countBytes {port dir n : Nat} {tx : Option Tx} (hk : Keeps z s) : Keeps z (countBytes port dir n tx s) := by
  unfold countBytes
  dsimp only
  split
  · exact keeps_occur (keeps_mk hk)
  · exact keeps_mk hk

theorem keeps_transmit {n : Nat} {s0 : State} (hk : Keeps z s0) : Keeps z (transmit n s0) := by
  unfold transmit
  split
  · exact hk
  · split
    · exact hk
    · dsimp only
      split
      · exact keeps_modPort (keeps_ite (keeps_bump (keeps_ite (keeps_grantUnits (keeps_dropWithheld hk)) hk))
          (keeps_ite (keeps_grantUnits (keeps_dropWithheld hk)) hk))
      · split
        · split
          · exact keeps_modPort (keeps_ite (keeps_bump (keeps_grantUnits (keeps_dropWithheld hk)))
              (keeps_grantUnits (keeps_dropWithheld hk)))
          · split
            · exact keeps_modPort (keeps_ite (keeps_bump (keeps_grantUnits (keeps_dropWithheld hk)))
                (keeps_grantUnits (keeps_dropWithheld hk)))
            · exact keeps_ite (keeps_modPort (keeps_ite (keeps_bump (keeps_grantUnits (keeps_dropWithheld hk)))
                (keeps_grantUnits (keeps_dropWithheld hk))))
                (keeps_countBytes (keeps_modPort (keeps_ite (keeps_bump (keeps_grantUnits (keeps_dropWithheld hk)))
                (keeps_grantUnits (keeps_dropWithheld hk)))))
        · split
          · exact keeps_modPort (keeps_ite (keeps_bump hk) hk)
          · split
            · exact keeps_modPort (keeps_ite (keeps_bump hk) hk)
            · exact keeps_ite (keeps_modPort (keeps_ite (keeps_bump hk) hk))
                (keeps_countBytes (keeps_modPort (keeps_ite (keeps_bump hk) hk)))

theorem keeps_train {n : Nat} (hk : Keeps z s) : Keeps z (train n s) := keeps_ite hk (keeps_modPort hk)

theorem keeps_helloArrives {n : Nat} {node : Node} {kind peerPort : Nat} (hk : Keeps z s) : Keeps z
    (helloArrives n node kind peerPort s) := by
  unfold helloArrives
  split
  · exact hk
  · exact keeps_ite hk (keeps_ite (keeps_post (keeps_modPort hk)) (keeps_post (keeps_modPort hk)))

theorem keeps_flushOut {out : Nat} (hk : Keeps z s) : Keeps z (flushOut out s) :=
  keeps_ite hk (keeps_modSp (keeps_foldl hk (fun _ _ k0 => keeps_passed (keeps_freeCell k0))))

theorem keeps_pathLosses {s0 : State} (_ : Keeps z s0) (hs : Keeps z s) : Keeps z (pathLosses s0 s) := by
  unfold pathLosses
  refine keeps_foldl (keeps_foldl hs (fun _ _ => keeps_loseModule)) fun t x k => ?_
  split
  · exact keeps_detectAbort k
  · exact keeps_detectAbort k
  · exact k

theorem keeps_faultPort {n : Nat} (hk : Keeps z s) : Keeps z (faultPort n s) := by
  unfold faultPort
  split
  · exact hk
  · exact keeps_ite hk (keeps_settle (keeps_pathLosses hk
      (keeps_ite (keeps_bump (keeps_post (keeps_mk (keeps_modPort (keeps_modSp (keeps_flushOut hk))))))
      (keeps_modPort (keeps_modSp (keeps_flushOut hk))))))

theorem keeps_shedLane {n lane : Nat} (hk : Keeps z s) : Keeps z (shedLane n lane s) := by
  unfold shedLane
  split
  · exact hk
  · exact keeps_ite hk (keeps_ite (keeps_faultPort hk) (keeps_bump (keeps_post (keeps_modPort hk))))

theorem keeps_widthArrives {n : Nat} {mask : BitVec 4} {fromSeq : BitVec 12} (hk : Keeps z s) : Keeps z
    (widthArrives n mask fromSeq s) := by
  unfold widthArrives
  split
  · exact hk
  · exact keeps_ite hk (keeps_ite (keeps_faultPort hk) (keeps_bump (keeps_post (keeps_modPort hk))))

theorem keeps_ingress {n : Nat} {tx0 : Tx} (hk : Keeps z s) : Keeps z (ingress n tx0 s) := by
  unfold ingress
  dsimp only
  split
  · exact keeps_settle (keeps_reject (keeps_modSp (keeps_ite (keeps_post (keeps_countBytes (keeps_occur (keeps_modPort hk))))
      (keeps_countBytes (keeps_occur (keeps_modPort hk))))))
  · exact keeps_admitArrival (keeps_ite (keeps_post (keeps_countBytes (keeps_occur (keeps_modPort hk))))
      (keeps_countBytes (keeps_occur (keeps_modPort hk))))

theorem keeps_linkArrives {n : Nat} {m : LinkMsg} (hk : Keeps z s) : Keeps z (linkArrives n m s) := by
  unfold linkArrives
  split
  · exact keeps_helloArrives hk
  · exact keeps_widthArrives hk
  · exact keeps_faultPort hk
  · exact hk

theorem keeps_receiveFrame {n : Nat} {f : Frame} (hk : Keeps z s) : Keeps z (receiveFrame n f s) := by
  unfold receiveFrame
  split
  · exact hk
  · split
    · exact hk
    · split
      · exact keeps_modPort hk
      · dsimp only
        split
        · exact keeps_ite (keeps_modPort (keeps_modPort hk)) (keeps_modPort hk)
        · exact keeps_ite (keeps_linkArrives (keeps_modPort (keeps_modPort hk))) (keeps_modPort (keeps_modPort hk))
        · exact keeps_ite (keeps_foldl (keeps_modPort (keeps_modPort hk)) (fun _ _ => keeps_ingress))
            (keeps_modPort (keeps_modPort hk))

theorem keeps_deliverEvent {h : Node} (hk : Keeps z s) : Keeps z (deliverEvent h s) := by
  unfold deliverEvent
  split
  · exact hk
  · exact keeps_ite hk (keeps_send (keeps_mk hk))

theorem keeps_execFrameReceive {port : Nat} {fr : Frame} (hk : Keeps z s) : Runs z (execFrameReceive port fr s) :=
  keeps_receiveFrame hk

theorem keeps_execFrameTransmit {port : Nat} (hk : Keeps z s) : Runs z (execFrameTransmit port s) := keeps_transmit hk

theorem keeps_execReplayTimeout {port : Nat} (hk : Keeps z s) : Runs z (execReplayTimeout port s) := keeps_modPort hk

theorem keeps_execHello {port : Nat} {node : Node} {kind : Nat} (hk : Keeps z s) : Runs z (execHello port node kind s) :=
  keeps_helloArrives hk

theorem keeps_execSetWidth {port : Nat} {mask : BitVec 4} {fromSeq : BitVec 12} (hk : Keeps z s) : Runs z
    (execSetWidth port mask fromSeq s) :=
  keeps_widthArrives hk

theorem keeps_execLinkDown {port reason : Nat} (hk : Keeps z s) : Runs z (execLinkDown port reason s) := keeps_faultPort hk

theorem keeps_execLaneFault {port lane : Nat} (hk : Keeps z s) : Runs z (execLaneFault port lane s) := keeps_shedLane hk

theorem keeps_execPortFault {port : Nat} (hk : Keeps z s) : Runs z (execPortFault port s) := keeps_faultPort hk

theorem keeps_execPortRetrain {port : Nat} (hk : Keeps z s) : Runs z (execPortRetrain port s) :=
  keeps_ite hk (keeps_train (keeps_mk hk))

theorem keeps_execEgressSend {lane : Nat} (hk : Keeps z s) : Runs z (execEgressSend lane s) := by
  unfold execEgressSend
  split
  · exact hk
  · split
    · exact keeps_sendHome hk
    · split
      · exact keeps_sendPort hk
      · exact hk

theorem keeps_execSpindleTurn {bad : List Nat} (hk : Keeps z s) : Runs z (execSpindleTurn bad s) := keeps_ite (keeps_turn hk) hk

theorem keeps_execMeterRefill (hk : Keeps z s) : Runs z (execMeterRefill s) := keeps_returnHeld (keeps_modSp hk)

theorem keeps_execHoldWindowEnd (hk : Keeps z s) : Runs z (execHoldWindowEnd s) := keeps_holdWindow hk

theorem keeps_execQueueSample (hk : Keeps z s) : Runs z (execQueueSample s) := keeps_sampleAll hk

theorem keeps_execEventDeliver {host : Node} (hk : Keeps z s) : Runs z (execEventDeliver host s) := keeps_deliverEvent hk

/-! ### Management requests -/

theorem keeps_request {code : Nat} {own : Bool} {h : Mgmt} {go : SessKind → State → MRes} (hgo : ∀ x t, Keeps z t → KeepsM z
    (go x t)) (hk : Keeps z s) : Runs z (request code own h go s) := by
  unfold request
  split
  · exact hk
  · split
    · exact keeps_mk hk
    · split
      · exact hk
      · split
        · exact keeps_reply hk
        · split
          · exact keeps_reply hk
          · split
            next e5 => exact keeps_answered ((hgo _ _ hk).done e5)
            next e5 => exact (hgo _ _ hk).wait e5

theorem keeps_no {st : St} (hk : Keeps z s) : KeepsM z (no st s) := hk

theorem keeps_yes (hk : Keeps z s) : KeepsM z (yes s) := hk

theorem keeps_runBatch {h : Mgmt} {code : Nat} {ops : List ExtentOp} (hk : Keeps z s) : Keeps z (runBatch h code ops s) := by
  unfold runBatch
  dsimp only
  split
  · exact keeps_answered (keeps_applyBatch hk)
  · split
    · exact keeps_answered (keeps_applyBatch hk)
    · exact keeps_answered (keeps_applyBatch hk)

theorem keeps_extentReq {h : Mgmt} {code : Nat} {ops : List ExtentOp} (hk : Keeps z s) : Runs z (extentReq h code ops s) := by
  unfold extentReq
  refine keeps_request (fun x0 t0 k0 => ?_) hk
  split
  · exact keeps_no k0
  · split
    · exact keeps_mk k0
    · exact keeps_runBatch k0

theorem keeps_execAttach {h : Mgmt} {slot mode owner group base : Nat} {holders : List HolderSpec} (hk : Keeps z s) : Runs z
    (execAttach h slot mode owner group base holders s) :=
  keeps_extentReq hk

theorem keeps_execGrow {h : Mgmt} {slot : Nat} {holders : List HolderSpec} (hk : Keeps z s) : Runs z
    (execGrow h slot holders s) :=
  keeps_extentReq hk

theorem keeps_execRevokeNotice {h : Mgmt} {slot : Nat} {holders : List Node} {deadline : Word32} (hk : Keeps z s) : Runs z
    (execRevokeNotice h slot holders deadline s) :=
  keeps_extentReq hk

theorem keeps_execRevokeCancel {h : Mgmt} {slot : Nat} {holders : List Node} (hk : Keeps z s) : Runs z
    (execRevokeCancel h slot holders s) :=
  keeps_extentReq hk

theorem keeps_execRevokeForce {h : Mgmt} {slot : Nat} {holders : List Node} {toFree : Bool} (hk : Keeps z s) : Runs z
    (execRevokeForce h slot holders toFree s) :=
  keeps_extentReq hk

theorem keeps_execReleaseExt {h : Mgmt} {slot : Nat} (hk : Keeps z s) : Runs z (execReleaseExt h slot s) := keeps_extentReq hk

theorem keeps_execRehomeIn {h : Mgmt} {slot : Nat} {srcNode : Node} {srcSlot : Nat} {homeEpoch : Word32} {group base : Nat}
    (hk : Keeps z s) : Runs z (execRehomeIn h slot srcNode srcSlot homeEpoch group base s) :=
  keeps_extentReq hk

theorem keeps_execRehomeOut {h : Mgmt} {slot : Nat} {dstNode : Node} {dstSlot : Nat} {homeEpoch : Word32} (hk : Keeps z s) :
    Runs z (execRehomeOut h slot dstNode dstSlot homeEpoch s) :=
  keeps_extentReq hk

theorem keeps_execRehomeFinish {h : Mgmt} {slot : Nat} (hk : Keeps z s) : Runs z (execRehomeFinish h slot s) :=
  keeps_extentReq hk

theorem keeps_execReadExtent {h : Mgmt} {slot : Nat} (hk : Keeps z s) : Runs z (execReadExtent h slot s) := keeps_extentReq hk

theorem keeps_execBatch {h : Mgmt} {ops : List ExtentOp} (hk : Keeps z s) : Runs z (execBatch h ops s) := keeps_extentReq hk

theorem keeps_execGrantLease {h : Mgmt} {slot part : Nat} (hk : Keeps z s) : Runs z (execGrantLease h slot part s) :=
  keeps_extentReq hk

theorem keeps_execRevokeLease {h : Mgmt} {slot : Nat} (hk : Keeps z s) : Runs z (execRevokeLease h slot s) := keeps_extentReq hk

theorem keeps_execDiscardOpen {h : Mgmt} {slot : Nat} (hk : Keeps z s) : Runs z (execDiscardOpen h slot s) := keeps_extentReq hk

theorem keeps_execSetRecallTimeout {h : Mgmt} {ms : Nat} (hk : Keeps z s) : Runs z (execSetRecallTimeout h ms s) :=
  keeps_extentReq hk

theorem keeps_resumeBatch (hk : Keeps z s) : Keeps z (resumeBatch s) := by
  unfold resumeBatch
  split
  · exact hk
  · exact keeps_ite hk (keeps_runBatch (keeps_mk hk))

theorem keeps_execBatchInstallResume (hk : Keeps z s) : Runs z (execBatchInstallResume s) := keeps_resumeBatch hk

theorem keeps_execEpochRetireTimeout (hk : Keeps z s) : Runs z (execEpochRetireTimeout s) := by
  unfold execEpochRetireTimeout
  split
  · exact keeps_ite (keeps_resumeBatch (keeps_forceRetire hk)) hk
  · exact hk

theorem keeps_execResetSource {h : Mgmt} {src : Node} (hk : Keeps z s) : Runs z (execResetSource h src s) :=
  keeps_request (fun _ _ k0 => keeps_yes (keeps_settle (keeps_resetLedger k0))) hk

theorem keeps_execReadGroup {h : Mgmt} {group : Nat} (hk : Keeps z s) : Runs z (execReadGroup h group s) := by
  unfold execReadGroup
  refine keeps_request (fun x0 t0 k0 => ?_) hk
  split
  · exact keeps_no k0
  · exact k0

theorem keeps_failBroken {gi : Nat} {g : Group} (hk : Keeps z s) : Keeps z (failBroken gi g s) :=
  keeps_ite hk (keeps_foldl hk (fun _ _ k0 => keeps_foldl k0 (fun _ _ k1 => keeps_ite (keeps_failItems k1) k1)))

theorem keeps_execReplaceModule {h : Mgmt} {group pos : Nat} {node : Node} (hk : Keeps z s) : Runs z
    (execReplaceModule h group pos node s) := by
  unfold execReplaceModule
  refine keeps_request (fun x0 t0 k0 => ?_) hk
  split
  · exact keeps_no k0
  · split
    · exact keeps_no k0
    · exact keeps_yes (keeps_settle (keeps_modGroup (keeps_failBroken k0)))

theorem keeps_execGroupRegister {h : Mgmt} {e : GroupEntry} {children : List Child} (hk : Keeps z s) : Runs z
    (execGroupRegister h e children s) :=
  keeps_request (fun _ _ => keeps_registerGroup) hk

theorem keeps_execGroupRelease {h : Mgmt} {collId : BitVec 48} (hk : Keeps z s) : Runs z (execGroupRelease h collId s) :=
  keeps_request (fun _ _ => keeps_releaseGroup) hk

theorem keeps_execGroupRead {h : Mgmt} {collId : BitVec 48} (hk : Keeps z s) : Runs z (execGroupRead h collId s) := by
  unfold execGroupRead
  refine keeps_request (fun x0 t0 k0 => ?_) hk
  split
  · exact keeps_no k0
  · exact k0

theorem keeps_setRoute {x : Node × Route} (hk : Keeps z s) : Keeps z (setRoute x s).2 :=
  keeps_ite_snd hk (keeps_ite_snd hk (keeps_mk hk))

theorem keeps_setRoutes {l : List (Node × Route)} (hk : Keeps z s) : Keeps z (setRoutes l s).2 := by
  induction l generalizing s with
  | nil => exact hk
  | cons x l ih => exact ih (keeps_setRoute hk)

theorem keeps_execRouteSet {h : Mgmt} {routes : List (Node × Route)} (hk : Keeps z s) : Runs z (execRouteSet h routes s) := by
  unfold execRouteSet
  refine keeps_request (fun x0 t0 k0 => ?_) hk
  split
  · exact keeps_no k0
  · exact keeps_setRoutes k0

theorem keeps_execRouteRead {h : Mgmt} {nodes : List Node} (hk : Keeps z s) : Runs z (execRouteRead h nodes s) :=
  keeps_request (fun _ _ k0 => k0) hk

theorem keeps_execPortReset {h : Mgmt} {port : Nat} (hk : Keeps z s) : Runs z (execPortReset h port s) := by
  unfold execPortReset
  refine keeps_request (fun x0 t0 k0 => ?_) hk
  split
  · exact keeps_no k0
  · exact keeps_yes (keeps_foldl k0 (fun _ _ k2 => keeps_train (keeps_faultPort k2)))

theorem keeps_execEventSubscribe {h : Mgmt} (hk : Keeps z s) : Runs z (execEventSubscribe h s) :=
  keeps_request (fun _ _ k0 => keeps_yes (keeps_mk k0)) hk

theorem keeps_execEventRead {h : Mgmt} {start : Nat} (hk : Keeps z s) : Runs z (execEventRead h start s) :=
  keeps_request (fun _ _ => keeps_mk) hk

theorem keeps_execSessionClose {sess : Nat} (hk : Keeps z s) : Runs z (execSessionClose sess s) := keeps_mk hk

theorem keeps_execMgmtReservedCode {h : Mgmt} {code : Nat} (hk : Keeps z s) : Runs z (execMgmtReservedCode h code s) := by
  unfold execMgmtReservedCode
  split
  · exact hk
  · exact keeps_request (fun _ _ => keeps_no) hk

/-! ### Queues and kernels -/

theorem keeps_execQueueCreate {h : Mgmt} {queue engine depth : Nat} {submitter : Node} {prio : Nat} (hk : Keeps z s) : Runs z
    (execQueueCreate h queue engine depth submitter prio s) := by
  unfold execQueueCreate
  refine keeps_request (fun x0 t0 k0 => ?_) hk
  split
  · exact keeps_no k0
  · split
    · exact keeps_no k0
    · exact keeps_yes (keeps_mk k0)

theorem keeps_execQueueDestroy {h : Mgmt} {queue : Nat} (hk : Keeps z s) : Runs z (execQueueDestroy h queue s) := by
  unfold execQueueDestroy
  refine keeps_request (fun x0 t0 k0 => ?_) hk
  split
  · exact keeps_no k0
  · split
    · exact keeps_no k0
    · split
      · exact keeps_no k0
      · exact keeps_yes (keeps_mk k0)

theorem keeps_freeImages {p : Nat} (hk : Keeps z s) : Keeps z (freeImages p s) := keeps_mk hk

theorem keeps_setKernel {p handle : Nat} {k : Kernel} (hk : Keeps z s) : Keeps z (setKernel p handle k s) := keeps_mk hk

theorem keeps_execKernelLoad {h : Mgmt} {handle : Nat} {image : KernelImage} (hk : Keeps z s) : Runs z
    (execKernelLoad h handle image s) := by
  unfold execKernelLoad
  refine keeps_request (fun x0 t0 k0 => ?_) hk
  split
  · exact keeps_no k0
  · split
    · exact keeps_no k0
    · split
      · exact keeps_no k0
      · split
        · exact keeps_no k0
        · dsimp only
          split
          · exact keeps_no k0
          · exact keeps_yes (keeps_freeImages (keeps_setKernel (keeps_freeImages k0)))

theorem keeps_execKernelUnload {h : Mgmt} {handle : Nat} (hk : Keeps z s) : Runs z (execKernelUnload h handle s) := by
  unfold execKernelUnload
  refine keeps_request (fun x0 t0 k0 => ?_) hk
  dsimp only
  split
  · exact keeps_no k0
  · exact keeps_yes (keeps_freeImages (keeps_setKernel k0))

theorem keeps_execKernelList {h : Mgmt} (hk : Keeps z s) : Runs z (execKernelList h s) := keeps_request (fun _ _ k0 => k0) hk

/-! ### What a partition is made of -/

theorem keeps_setChannel {c : Nat} {x : Channel} (hk : Keeps z s) : Keeps z (setChannel c x s) := keeps_mk hk

theorem keeps_setSegments {p : Nat} {segs : List (Nat × Segment)} (hk : Keeps z s) : Keeps z (setSegments p segs s) :=
  keeps_mk hk

/-! ### Dead hosts, the fence and certificates -/

theorem keeps_dropParked {st : St} {hit : Parked → Bool} (hk : Keeps z s) : Keeps z (dropParked st hit s) :=
  keeps_foldl hk (fun _ _ k0 => keeps_failWait (keeps_unpark k0))

theorem keeps_disableQueue {qn : Nat} (hk : Keeps z s) : Keeps z (disableQueue qn s) := by
  unfold disableQueue
  split
  · exact hk
  · exact keeps_ite hk (keeps_foldl (keeps_postAll (keeps_modQueue hk)) (fun _ _ k1 =>
      keeps_ite k1 (keeps_ite (keeps_abortGen (keeps_failItems k1)) (keeps_failItems k1))))

theorem keeps_disableQueues {hit : Queue → Bool} (hk : Keeps z s) : Keeps z (disableQueues hit s) :=
  keeps_foldl hk (fun _ _ => keeps_disableQueue)

theorem keeps_expelSharers {slot tile : Nat} (hk : Keeps z s) : Keeps z (expelSharers slot tile s) := by
  unfold expelSharers
  split
  · dsimp only
    split
    · exact keeps_foldl (keeps_modBusy hk) (fun _ _ => keeps_sendRecall)
    · exact keeps_ite hk (keeps_tryFinish (keeps_startRecalls hk))
  · exact hk

theorem keeps_ackFor {n : Node} {slot tile : Nat} (hk : Keeps z s) : Keeps z (ackFor n slot tile s) := by
  unfold ackFor
  split
  · exact keeps_tryFinish (keeps_foldl hk (fun _ _ => keeps_recallAnswered))
  · exact hk

theorem keeps_expelDirty {n : Node} {key : Nat} (hk : Keeps z s) : Keeps z (expelDirty n key s) := by
  unfold expelDirty
  refine keeps_ackFor (keeps_expelSharers ?_)
  split
  · exact keeps_removeAgent (keeps_delLog (keeps_setPoison hk))
  · exact keeps_delLog (keeps_setPoison hk)

theorem keeps_expelAgent {n : Node} {slot : Nat} (hk : Keeps z s) : Keeps z (expelAgent n slot s) := by
  unfold expelAgent
  split
  · exact hk
  · split
    · exact hk
    · exact keeps_modExt (keeps_foldl hk (fun _ _ => keeps_ackFor))

theorem keeps_hostDead {n : Node} (hk : Keeps z s) : Keeps z (hostDead n s) := by
  unfold hostDead
  extract_lets b s1 s2 s3 s4 s5 s6 m
  have h1 : Keeps z s1 := keeps_mk hk
  have h2 : Keeps z s2 := keeps_foldl h1 fun _ _ => keeps_expelDirty
  have h3 : Keeps z s3 := keeps_foldl h2 fun _ _ => keeps_expelAgent
  have h4 : Keeps z s4 := keeps_dropSeals (keeps_dropHeld (keeps_dropBusyReqs (keeps_dropParked h3)))
  have h6 : Keeps z s6 := keeps_disableQueues (keeps_abortWhere (keeps_resetLedger h4))
  clear_value s6
  exact keeps_settle (keeps_mk h6)

theorem keeps_fenceDevice (hk : Keeps z s) : Keeps z (fenceDevice s) :=
  keeps_ite hk (keeps_settle (keeps_disableQueues
    (keeps_dropSeals (keeps_dropHeld (keeps_dropBusyReqs (keeps_dropParked (keeps_abortWhere (keeps_post (keeps_mk hk)))))))))

theorem keeps_execLeaseExpiry (hk : Keeps z s) : Runs z (execLeaseExpiry s) := keeps_ite (keeps_fenceDevice hk) hk

theorem keeps_acceptCert {c : Cert} (hk : Keeps z s) : Keeps z (acceptCert c s) := keeps_post (keeps_mk hk)

theorem keeps_submitCert {kind : Nat} {h : Mgmt} {c : Cert} {effect : State → State} (heffect : ∀ t, Keeps z t → Keeps z
    (effect t)) (hk : Keeps z s) : Runs z (submitCert kind h c effect s) := by
  unfold submitCert
  split
  · exact hk
  · refine keeps_request (fun x1 t1 k1 => ?_) hk
    split
    · exact keeps_no k1
    · exact keeps_yes (heffect _ (keeps_acceptCert k1))

theorem keeps_execExpelNode {h : Mgmt} {cert : Cert} (hk : Keeps z s) : Runs z (execExpelNode h cert s) :=
  keeps_submitCert (fun _ => keeps_hostDead) hk

theorem keeps_execReadmitNode {h : Mgmt} {cert : Cert} (hk : Keeps z s) : Runs z (execReadmitNode h cert s) :=
  keeps_submitCert (fun _ => keeps_mk) hk

theorem keeps_execFenceDevice {h : Mgmt} {cert : Cert} (hk : Keeps z s) : Runs z (execFenceDevice h cert s) :=
  keeps_submitCert (fun _ => keeps_fenceDevice) hk

theorem keeps_execRenewLease {h : Mgmt} {cert : Cert} (hk : Keeps z s) : Runs z (execRenewLease h cert s) :=
  keeps_submitCert (fun _ => keeps_mk) hk

theorem keeps_execCertSubmitReservedKind {h : Mgmt} {cert : Cert} (hk : Keeps z s) : Runs z (execCertSubmitReservedKind h cert
    s) := by
  unfold execCertSubmitReservedKind
  split
  · exact hk
  · refine keeps_request (fun x1 t1 k1 => ?_) hk
    split
    · exact keeps_no k1
    · exact keeps_no k1

/-! ### Core faults and hangs -/

theorem keeps_sampleCtxs {seq phys core cause : Nat} {lost : Bool} {l : List (Nat × Ctx)} (hk : Keeps z s) : Keeps z
    (sampleCtxs seq phys core cause lost l s) := by
  induction l generalizing s with
  | nil => exact hk
  | cons x l ih => exact ih (keeps_mk hk)

theorem keeps_takeTephra {field cause : Nat} {lost : Bool} {cores : List (Nat × Core)} (hk : Keeps z s) : Keeps z
    (takeTephra field cause lost cores s) :=
  keeps_ite hk (keeps_post (keeps_foldl hk (fun _ _ => keeps_sampleCtxs)))

theorem keeps_tagFaulted {x : CtxId} {k : Ctx} (hk : Keeps z s) : Keeps z (tagFaulted x k s) := keeps_ite hk (keeps_tagStage hk)

theorem keeps_cutWork {x : CtxId} {k : Ctx} (hk : Keeps z s) : Keeps z (cutWork x k s) := keeps_ite hk (keeps_stopWork hk)

theorem keeps_killItem {x : CtxId} {k : Ctx} {cause : Nat} (hk : Keeps z s) : Keeps z (killItem x k cause s) :=
  keeps_bump (keeps_endItemAt (keeps_cutWork hk))

theorem keeps_replayItem {x : CtxId} {k : Ctx} (hk : Keeps z s) : Keeps z (replayItem x k s) := by
  unfold replayItem
  dsimp only
  split
  · exact keeps_bump (keeps_modCmd (keeps_freeCtx (keeps_dropItemBusy (keeps_cutWork hk))))
  · exact keeps_ite (keeps_bump (keeps_modCmd (keeps_freeCtx (keeps_dropItemBusy (keeps_cutWork hk)))))
      (keeps_ite (keeps_abortGen (keeps_failItems
      (keeps_bump (keeps_modCmd (keeps_freeCtx (keeps_dropItemBusy (keeps_cutWork hk)))))))
      (keeps_failItems (keeps_bump (keeps_modCmd (keeps_freeCtx (keeps_dropItemBusy (keeps_cutWork hk)))))))

theorem keeps_dropRun {g : CGroup} {n : Nat} (hk : Keeps z s) : Keeps z (dropRun g n s) := by
  unfold dropRun
  split
  · exact hk
  · exact keeps_modCmd hk

theorem keeps_faultFold {x : CtxId} {id : BitVec 48} (hk : Keeps z s) : Keeps z (faultFold x id s) := by
  unfold faultFold
  split
  · exact keeps_freeCtx hk
  · split
    · exact keeps_freeCtx hk
    · exact keeps_ite (keeps_detectAbort hk) (keeps_dropRun (keeps_bump (keeps_setCg (keeps_freeCtx (keeps_dropItemBusy hk)))))

theorem keeps_faultItem {x : CtxId} (hk : Keeps z s) : Keeps z (faultItem x s) := by
  unfold faultItem
  split
  · exact hk
  · split
    · exact keeps_faultFold hk
    · split
      · exact keeps_freeCtx hk
      · exact keeps_ite (keeps_ite (keeps_detectAbort hk) (keeps_replayItem hk)) (keeps_ite (keeps_killItem hk)
          (keeps_ite (keeps_killItem hk) (keeps_replayItem hk)))

theorem keeps_hangItem {cause : Nat} {x : CtxId} (hk : Keeps z s) : Keeps z (hangItem cause x s) := by
  unfold hangItem
  split
  · exact hk
  · split
    · exact keeps_detectAbort hk
    · split
      · exact keeps_freeCtx hk
      · exact keeps_ite (keeps_detectAbort hk) (keeps_killItem hk)

theorem keeps_eachCtx {core : Nat} {f : CtxId → State → State} (hf : ∀ x t, Keeps z t → Keeps z (f x t)) (hk : Keeps z s) :
    Keeps z (eachCtx core f s) :=
  keeps_foldl hk (fun _ _ => hf _ _)

theorem keeps_modPhys {phys : Nat} {f : Phys → Phys} (hk : Keeps z s) : Keeps z (modPhys phys f s) := keeps_mk hk

theorem keeps_markBurl {phys band : Nat} (hk : Keeps z s) : Keeps z (markBurl phys band s) := by
  unfold markBurl
  split
  · exact hk
  · exact keeps_ite (keeps_modPhys hk) (keeps_post (keeps_modPhys hk))

theorem keeps_markStrip {strip band : Nat} (hk : Keeps z s) : Keeps z (markStrip strip band s) :=
  keeps_ite (keeps_post (keeps_mk hk)) (keeps_mk hk)

theorem keeps_retireCore {phys : Nat} (hk : Keeps z s) : Keeps z (retireCore phys s) := by
  unfold retireCore
  dsimp only
  split
  · exact keeps_post (keeps_modPhys hk)
  · split
    · exact keeps_post (keeps_modCore (keeps_modPhys hk))
    · exact keeps_post (keeps_post (keeps_modCore (keeps_modPhys hk)))

theorem keeps_resetCore {core : Nat} {recovering : Bool} (hk : Keeps z s) : Keeps z (resetCore core recovering s) :=
  keeps_modCore hk

theorem keeps_thirdBand {phys : Nat} (hk : Keeps z s) : Keeps z (thirdBand phys s) := by
  unfold thirdBand
  split
  · exact keeps_ite (keeps_retireCore hk) hk
  · exact hk

theorem keeps_stopCore {phys : Nat} {n : Ev} {args : List Nat} {counter cause : Nat} {items : CtxId → State → State}
    (hitems : ∀ x t, Keeps z t → Keeps z (items x t)) (hk : Keeps z s) : Keeps z (stopCore phys n args counter cause items s) :=
    by
  unfold stopCore
  split
  · exact hk
  · split
    · exact hk
    · dsimp only
      split
      · exact keeps_thirdBand (keeps_markBurl (keeps_post (keeps_bump hk)))
      · split
        · split
          · exact hk
          · refine keeps_settle (keeps_thirdBand
              (keeps_markBurl (keeps_resetCore
              (keeps_eachCtx hitems (keeps_takeTephra (keeps_post (keeps_bump (keeps_eachCtx (fun x6 t6 k6 => ?_) hk))))))))
            split
            · exact keeps_tagFaulted k6
            · exact k6
        · split
          · exact hk
          · refine keeps_settle (keeps_thirdBand
              (keeps_markBurl (keeps_resetCore
              (keeps_eachCtx hitems (keeps_takeTephra (keeps_post (keeps_bump (keeps_eachCtx (fun x6 t6 k6 => ?_) hk))))))))
            split
            · exact keeps_tagFaulted k6
            · exact k6

theorem keeps_execCoreFault {phys check : Nat} (hk : Keeps z s) : Runs z (execCoreFault phys check s) :=
  keeps_stopCore (fun _ _ => keeps_faultItem) hk

theorem keeps_execCoreHang {phys : Nat} (hk : Keeps z s) : Runs z (execCoreHang phys s) :=
  keeps_stopCore (fun _ _ => keeps_hangItem) hk

theorem keeps_execCoreReturnToService {phys : Nat} {ok : Bool} (hk : Keeps z s) : Runs z (execCoreReturnToService phys ok s) :=
    by
  unfold execCoreReturnToService
  split
  · exact hk
  · exact keeps_ite hk (keeps_ite (keeps_modCore hk) (keeps_retireCore hk))

theorem keeps_execPatternSweep {phys : Nat} {ok : Bool} (hk : Keeps z s) : Runs z (execPatternSweep phys ok s) := by
  unfold execPatternSweep
  split
  · exact hk
  · split
    · split
      next e2 =>
        exact keeps_ite hk (keeps_retireCore (keeps_markBurl (keeps_post (keeps_snd (keeps_takeFree (keeps_bump hk)) e2))))
    · split
      next e2 =>
        exact keeps_ite hk (keeps_retireCore (keeps_markBurl (keeps_post (keeps_snd (keeps_takeFree (keeps_bump hk)) e2))))

theorem keeps_endWaits {p : Nat} (hk : Keeps z s) : Keeps z (endWaits p s) := keeps_foldl (keeps_mk hk) (fun _ _ => keeps_reply)

theorem keeps_dropBusyOf {p : Nat} (hk : Keeps z s) : Keeps z (dropBusyOf p s) :=
  keeps_foldl (keeps_mk hk) (fun _ _ => keeps_setPoison)

theorem keeps_resetRequests {p : Nat} (hk : Keeps z s) : Keeps z (resetRequests p s) :=
  keeps_dropBusyOf (keeps_dropSeals (keeps_dropHeld (keeps_foldl (keeps_dropParked hk) (fun _ _ => keeps_failReq))))

theorem keeps_dropContexts {p : Nat} (hk : Keeps z s) : Keeps z (dropContexts p s) :=
  keeps_mk (keeps_foldl hk (fun _ _ k0 => keeps_resetCore (keeps_eachCtx (fun _ _ => keeps_dropItemBusy) k0)))

theorem keeps_beginReset {p : Nat} {unit ring : Bool} (hk : Keeps z s) : Keeps z (beginReset p unit ring s) :=
  keeps_ite hk (keeps_settle (keeps_dropContexts
    (keeps_foldl (keeps_endWaits (keeps_resetRequests (keeps_abortWhere (keeps_postAll (keeps_modPart hk)))))
    (fun _ _ => keeps_takeTephra))))

theorem keeps_poisonLog {p : Nat} (hk : Keeps z s) : Keeps z (poisonLog p s) :=
  keeps_mk (keeps_foldl hk (fun _ _ => keeps_setPoison))

theorem keeps_dropClean {p : Nat} (hk : Keeps z s) : Keeps z (dropClean p s) := keeps_mk hk

theorem keeps_testKeeper {p : Nat} {ok : Bool} (hk : Keeps z s) : Keeps z (testKeeper p ok s) := by
  unfold testKeeper
  split
  · exact hk
  · exact keeps_ite hk (keeps_ite (keeps_mk hk) (keeps_modPart hk))

theorem keeps_applyRecord {p : Nat} (hk : Keeps z s) : Keeps z (applyRecord p s) := by
  unfold applyRecord
  split
  · exact keeps_ite (keeps_modPart hk) (keeps_ite (keeps_foldl (keeps_modPart hk) (fun _ _ k1 => keeps_ite (keeps_modPort k1)
      k1)) (keeps_post (keeps_modPart hk)))
  · exact hk

theorem keeps_placeAgain {p : Nat} (hk : Keeps z s) : Keeps z (placeAgain p s) := by
  unfold placeAgain
  split
  · exact keeps_foldl (keeps_modPart (keeps_setSegments (keeps_mk hk))) (fun _ _ => keeps_post)
  · exact hk

theorem keeps_emptyPart {p : Nat} (hk : Keeps z s) : Keeps z (emptyPart p s) :=
  keeps_modPart (keeps_mk (keeps_foldl hk (fun _ _ => keeps_resetCore)))

theorem keeps_reportQueue {qn : Nat} {ring : Bool} (hk : Keeps z s) : Keeps z (reportQueue qn ring s) := by
  unfold reportQueue
  split
  · exact hk
  · exact keeps_foldl (keeps_modQueue hk) (fun _ _ k1 => keeps_ite (keeps_notify k1) k1)

theorem keeps_endReset {p : Nat} (hk : Keeps z s) : Keeps z (endReset p s) :=
  keeps_foldl (keeps_postAll (keeps_modPart hk)) (fun _ _ => keeps_reportQueue)

theorem keeps_stall {p : Nat} (hk : Keeps z s) : Keeps z (stall p s) := keeps_post (keeps_modPart hk)

theorem keeps_execPartitionResetComplete {part : Nat} {unitOk : Bool} (hk : Keeps z s) : Runs z (execPartitionResetComplete part
    unitOk s) := by
  unfold execPartitionResetComplete
  split
  · exact hk
  · exact keeps_ite hk (keeps_ite (keeps_stall (keeps_applyRecord (keeps_testKeeper hk)))
      (keeps_settle (keeps_endReset (keeps_placeAgain
      (keeps_emptyPart (keeps_dropClean (keeps_poisonLog (keeps_applyRecord (keeps_testKeeper hk)))))))))

theorem keeps_execPartitionUnitFault {part : Nat} {unit : PartUnit} (hk : Keeps z s) : Runs z (execPartitionUnitFault part unit
    s) :=
  keeps_beginReset hk

theorem keeps_execPartReset {h : Mgmt} {part : Nat} (hk : Keeps z s) : Runs z (execPartReset h part s) := by
  unfold execPartReset
  refine keeps_request (fun x0 t0 k0 => ?_) hk
  split
  · exact keeps_yes (keeps_beginReset k0)
  · exact keeps_no k0

/-! ### Faults of channels, fields and lanes, drag mode and the power cap -/

theorem keeps_dropLines {p : Nat} {x : Part} {c : Nat} (hk : Keeps z s) : Keeps z (dropLines p x c s) := keeps_mk hk

theorem keeps_degrade {p : Nat} {ms : List Mirror} (hk : Keeps z s) : Keeps z (degrade p ms s) :=
  keeps_foldl (keeps_mk hk) (fun _ _ => keeps_post)

theorem keeps_retireChannel {c : Nat} (hk : Keeps z s) : Keeps z (retireChannel c s) := keeps_post (keeps_setChannel hk)

theorem keeps_faultChannel {c : Nat} (hk : Keeps z s) : Keeps z (faultChannel c s) := by
  unfold faultChannel
  dsimp only
  split
  · exact hk
  · split
    · exact keeps_retireChannel hk
    · split
      · exact keeps_retireChannel hk
      · exact keeps_ite (keeps_ite (keeps_modPart (keeps_retireChannel hk)) (keeps_retireChannel hk))
          (keeps_ite (keeps_beginReset (keeps_ite (keeps_degrade (keeps_retireChannel hk)) (keeps_retireChannel hk)))
          (keeps_dropLines (keeps_ite (keeps_degrade (keeps_retireChannel hk)) (keeps_retireChannel hk))))

theorem keeps_execChannelFault {channel : Nat} (hk : Keeps z s) : Runs z (execChannelFault channel s) :=
  keeps_ite (keeps_faultChannel hk) hk

theorem keeps_execHbmScrub {channel : Nat} {ok : Bool} (hk : Keeps z s) : Runs z (execHbmScrub channel ok s) :=
  keeps_ite hk (keeps_ite (keeps_bump hk) (keeps_faultChannel hk))

theorem keeps_failCopy {m : Mirror} {copy : Nat} (hk : Keeps z s) : Keeps z (failCopy m copy s) := by
  unfold failCopy
  split
  · exact keeps_ite hk (keeps_post (keeps_mk hk))
  · exact keeps_ite hk (keeps_post (keeps_mk hk))
  · exact keeps_ite hk (keeps_post (keeps_mk hk))
  · exact keeps_ite hk (keeps_ite (keeps_beginReset hk) (keeps_degrade hk))
  · exact hk

theorem keeps_resilver {m : Mirror} (hk : Keeps z s) : Keeps z (resilver m s) := by
  unfold resilver
  split
  · exact hk
  · split
    · exact hk
    · split
      · exact hk
      · exact keeps_ite hk (keeps_post (keeps_modPart (keeps_mk hk)))

theorem keeps_execMirrorResilver {news : MirrorNews} (hk : Keeps z s) : Runs z (execMirrorResilver news s) := by
  unfold execMirrorResilver
  split
  · exact hk
  · split
    · exact keeps_failCopy hk
    · exact keeps_resilver hk

theorem keeps_loseCore {c : Nat} (hk : Keeps z s) : Keeps z (loseCore c s) := by
  unfold loseCore
  split
  · exact hk
  · dsimp only
    split
    · exact keeps_eachCtx (fun _ _ => keeps_hangItem) hk
    · exact keeps_post (keeps_modCore (keeps_eachCtx (fun _ _ => keeps_hangItem) hk))

theorem keeps_isolatePart {f p : Nat} (hk : Keeps z s) : Keeps z (isolatePart f p s) := by
  unfold isolatePart
  split
  · exact hk
  · exact keeps_ite hk (keeps_ite (keeps_ite (keeps_beginReset hk) (keeps_modPart hk))
      (keeps_stall (keeps_ite (keeps_beginReset hk) (keeps_modPart hk))))

theorem keeps_isolateField {f : Nat} (hk : Keeps z s) : Keeps z (isolateField f s) :=
  keeps_ite hk (keeps_settle (keeps_foldl
    (keeps_foldl (keeps_foldl (keeps_mk (keeps_foldl (keeps_takeTephra (keeps_post (keeps_mk hk))) (fun _ _ => keeps_loseCore)))
    (fun _ _ k0 => keeps_ite k0 (keeps_retireChannel k0))) (fun _ _ => keeps_isolatePart)) (fun _ _ => keeps_faultPort)))

theorem keeps_execFieldIsolated {field : Nat} (hk : Keeps z s) : Runs z (execFieldIsolated field s) :=
  keeps_ite (keeps_isolateField hk) hk

theorem keeps_loseMiddle {j : Nat} (hk : Keeps z s) : Keeps z (loseMiddle j s) :=
  keeps_ite hk (keeps_ite (keeps_fenceDevice (keeps_post (keeps_modSp (keeps_modSp hk)))) (keeps_modSp hk))

theorem keeps_loseUnitLane {lane : Nat} (hk : Keeps z s) : Keeps z (loseUnitLane lane s) :=
  keeps_ite hk (keeps_ite (keeps_ite (keeps_foldl (keeps_modSp hk) (fun _ _ k0 =>
    keeps_ite (keeps_stopCore (fun _ _ => keeps_faultItem) k0) k0)) (keeps_modSp hk))
    (keeps_ite (keeps_foldl (keeps_modSp hk) (fun _ _ => keeps_faultChannel)) (keeps_modSp hk)))

theorem keeps_loseLane {lane : Nat} (hk : Keeps z s) : Keeps z (loseLane lane s) :=
  keeps_ite (keeps_faultPort hk) (keeps_ite (keeps_loseUnitLane hk) hk)

theorem keeps_losePart {p : LanePart} (hk : Keeps z s) : Keeps z (losePart p s) := by
  unfold losePart
  split
  · exact keeps_loseMiddle hk
  · exact keeps_loseLane hk
  · exact keeps_loseLane hk

theorem keeps_execSpindleTurnTimeout {parts : List LanePart} (hk : Keeps z s) : Runs z (execSpindleTurnTimeout parts s) :=
  keeps_ite (keeps_foldl hk (fun _ _ => keeps_losePart)) hk

theorem keeps_setStrip {n : Nat} {d : Drag} (hk : Keeps z s) : Keeps z (setStrip n d s) :=
  keeps_ite (keeps_post (keeps_mk hk)) (keeps_ite (keeps_post (keeps_bump (keeps_mk hk))) (keeps_mk hk))

theorem keeps_execSentinelTrip {strip : Nat} (hk : Keeps z s) : Runs z (execSentinelTrip strip s) :=
  keeps_ite hk (keeps_setStrip (keeps_ite (keeps_markStrip (keeps_bump hk)) (keeps_bump hk)))

theorem keeps_execJunctionDrag {strip mC : Nat} (hk : Keeps z s) : Runs z (execJunctionDrag strip mC s) :=
  keeps_ite hk (keeps_setStrip (keeps_reading hk))

theorem keeps_execDragExit {strip mC : Nat} (hk : Keeps z s) : Runs z (execDragExit strip mC s) :=
  keeps_ite hk (keeps_setStrip (keeps_reading hk))

theorem keeps_execPowerEstimate {watts : Nat} (hk : Keeps z s) : Runs z (execPowerEstimate watts s) :=
  keeps_ite hk (keeps_mk hk)

theorem keeps_dragField {f : Nat} (hk : Keeps z s) : Keeps z (dragField f s) := keeps_foldl hk (fun _ _ => keeps_setStrip)

theorem keeps_liftField {f : Nat} (hk : Keeps z s) : Keeps z (liftField f s) :=
  keeps_foldl hk (fun _ _ k0 => keeps_ite (keeps_setStrip k0) k0)

theorem keeps_execPowerLimited (hk : Keeps z s) : Runs z (execPowerLimited s) := by
  unfold execPowerLimited
  split
  · exact hk
  · split
    · dsimp only
      split
      · exact keeps_dragField hk
      · exact keeps_mk hk
    · dsimp only
      split
      · exact keeps_dragField (keeps_post (keeps_mk hk))
      · exact keeps_mk (keeps_post (keeps_mk hk))

theorem keeps_execPowerReleased (hk : Keeps z s) : Runs z (execPowerReleased s) :=
  keeps_ite hk (keeps_settle (keeps_post (keeps_foldl (keeps_mk hk) (fun _ _ => keeps_liftField))))

theorem keeps_execRtpSwitchover (hk : Keeps z s) : Runs z (execRtpSwitchover s) :=
  keeps_ite hk (keeps_ite (keeps_post (keeps_mk (keeps_mk hk))) (keeps_mk (keeps_mk hk)))

/-! ### Operands of core instructions -/

theorem keeps_vtRead {r : Nat} {k : Ctx} (hk : Keeps z s) : Keeps z (vtRead r k s).2.2 := by
  unfold vtRead
  split
  · exact hk
  · exact keeps_mk hk

theorem keeps_pairRead {r : Nat} {k : Ctx} (hk : Keeps z s) : Keeps z (pairRead r k s).2.2 := by
  unfold pairRead
  split
  next e0 =>
    split
    next e1 => exact keeps_snd2 (keeps_vtRead (keeps_snd2 (keeps_vtRead hk) e0)) e1

theorem keeps_slotRead {n : Nat} {k : Ctx} (hk : Keeps z s) : Keeps z (slotRead n k s).2.2 := by
  unfold slotRead
  split
  · exact hk
  · exact keeps_mk hk

theorem keeps_slotReads {c n : Nat} {k : Ctx} (hk : Keeps z s) : Keeps z (slotReads c n k s).2.2 := by
  induction c generalizing s n k with
  | zero => exact hk
  | succ c ih => exact ih (keeps_slotRead hk)

theorem keeps_freeTiles {c : Nat} (hk : Keeps z s) : Keeps z (freeTiles c s).2 := keeps_mk hk

theorem keeps_markWild {ws : List Span} {x : CtxId} {k : Ctx} (hk : Keeps z s) : Keeps z (markWild ws x k s).2 :=
  keeps_modCore hk

theorem keeps_insnReads {first c : Nat} {x : CtxId} {k : Ctx} (hk : Keeps z s) : Keeps z (insnReads first c x k s).2.2 := by
  unfold insnReads
  split
  · split
    next e1 => exact keeps_snd (keeps_freeTiles hk) e1
  · exact keeps_slotReads hk

theorem keeps_insnWrites {first : Nat} {ts : List Tile} {x : CtxId} {k : Ctx} (hk : Keeps z s) : Keeps z
    (insnWrites first ts x k s).2 := by
  unfold insnWrites
  split
  · split
    next e1 =>
      split
      next e2 => exact keeps_snd (keeps_markWild (keeps_snd (keeps_freeTiles hk) e1)) e2
  · exact hk

/-! ### Issue, waits and the end of an APPLY item -/

theorem keeps_countCore {x : CtxId} {part event n : Nat} {cls slot : Option Nat} (hk : Keeps z s) : Keeps z
    (countCore x part event n cls slot s) := by
  unfold countCore
  split
  · exact keeps_occur hk
  · exact hk

theorem keeps_failCtx {x : CtxId} {st : St} {d : Word32} (hk : Keeps z s) : Keeps z (failCtx x st d s) := keeps_modCore hk

theorem keeps_endIf {x : CtxId} {k : Ctx} (hk : Keeps z s) : Keeps z (endIf x k s) := by
  unfold endIf
  split
  · exact hk
  · split
    · exact keeps_settle (keeps_endItemAt hk)
    · exact keeps_ite (keeps_settle (keeps_endItemAt hk)) hk

theorem keeps_setPc {x : CtxId} {n : Nat} {k : Ctx} (hk : Keeps z s) : Keeps z (setPc x n k s) :=
  keeps_ite (keeps_putCtx hk) (keeps_failCtx (keeps_putCtx hk))

theorem keeps_doLwr {x : CtxId} {o : Ops} {k : Ctx} (hk : Keeps z s) : Keeps z (doLwr x o k s).2 := by
  unfold doLwr
  dsimp only
  exact keeps_modCore (keeps_vtRead (keeps_vtRead hk))

theorem keeps_goOn {x : CtxId} {k : Ctx} (hk : Keeps z s) : Keeps z (goOn x k s) := by
  unfold goOn
  split
  · exact keeps_endIf hk
  · split
    · exact hk
    · exact hk
    · exact hk
    · exact keeps_endIf hk
    · exact keeps_setPc hk
    · exact keeps_setPc hk
    · exact keeps_setPc hk
    · exact keeps_setPc hk
    · exact keeps_setPc hk
    · exact keeps_setPc (keeps_doLwr hk)
    · exact keeps_setPc hk
    · exact keeps_putCtx hk
    · exact keeps_putCtx hk
    · exact keeps_putCtx hk

theorem keeps_wakeCtx {x : CtxId} (hk : Keeps z s) : Keeps z (wakeCtx s x) := by
  unfold wakeCtx
  split
  · exact hk
  · exact keeps_ite (keeps_goOn hk) hk

theorem keeps_wakeCore {c : Nat} (hk : Keeps z s) : Keeps z (wakeCore c s) := keeps_foldl hk (fun _ _ => keeps_wakeCtx)

theorem keeps_failPc {k : Ctx} {st : St} : KeepsI z (failPc k st) := trivial

theorem keeps_badInsn {k : Ctx} : KeepsI z (badInsn k) := keeps_failPc

theorem keeps_didIssue {x : CtxId} {part : Nat} (hk : Keeps z s) : Keeps z (didIssue x part s) :=
  keeps_countCore (keeps_modCore hk)

theorem keeps_conclude {x : CtxId} {k0 k : Ctx} {r : IOut} (hk : Keeps z s) (hr : KeepsI z r) : Keeps z (conclude x k0 k s r) :=
    by
  cases r with
  | go k1 t => exact keeps_didIssue (keeps_setPc hr)
  | jump n k1 t => exact keeps_didIssue (keeps_setPc hr)
  | stay w k1 t => exact keeps_didIssue (keeps_putCtx hr)
  | hold w => exact keeps_putCtx hk
  | fail st d => exact keeps_didIssue (keeps_failCtx (keeps_putCtx hk))

theorem keeps_issueOne {c : Instr} {x : CtxId} {o : Ops} {body : Ctx → State → IOut} (hbody : ∀ x t, Keeps z t → KeepsI z
    (body x t)) (hk : Keeps z s) : Keeps z (issueOne c x o body s) := by
  unfold issueOne
  split
  · exact hk
  · split
    · exact hk
    · split
      · exact keeps_failCtx hk
      · refine keeps_conclude hk ?_
        split
        · exact hbody _ _ hk
        · exact hk

theorem keeps_insn {c : Instr} {x : CtxId} {o : Ops} {body : Ctx → State → IOut} (hbody : ∀ x t, Keeps z t → KeepsI z
    (body x t)) (hk : Keeps z s) : Runs z (insn c x o body s) :=
  keeps_wakeCore (keeps_wakeCtx (keeps_issueOne hbody (keeps_wakeCore hk)))

theorem keeps_execItemBudgetExceeded {x : CtxId} (hk : Keeps z s) : Runs z (execItemBudgetExceeded x s) := by
  unfold execItemBudgetExceeded
  split
  · exact hk
  · exact keeps_wakeCore (keeps_ite (keeps_failCtx hk) hk)

/-! ### The lathe -/

theorem keeps_latheInsn {c : Instr} {x : CtxId} {o : Ops} {body : Ctx → State → IOut} (hbody : ∀ x t, Keeps z t → KeepsI z
    (body x t)) (hk : Keeps z s) : Runs z (latheInsn c x o body s) := by
  unfold latheInsn
  refine keeps_insn (fun x0 t0 k0 => ?_) hk
  split
  · exact hbody _ _ k0
  · exact keeps_failPc

theorem keeps_execLacq {x : CtxId} {o : Ops} (hk : Keeps z s) : Runs z (execLacq x o s) := by
  unfold execLacq
  refine keeps_insn (fun x0 t0 k0 => ?_) hk
  split
  · exact k0
  · exact keeps_modCore k0

theorem keeps_execLrel {x : CtxId} {o : Ops} (hk : Keeps z s) : Runs z (execLrel x o s) :=
  keeps_latheInsn (fun _ _ => keeps_modCore) hk

theorem keeps_enqueue {x : CtxId} {op : LatheOp} {k : Ctx} (hk : Keeps z s) : Keeps z (enqueue x op k s).2 := by
  unfold enqueue
  split
  · dsimp only
    exact keeps_modCore (keeps_ite (keeps_markWild hk) (keeps_countCore (keeps_markWild hk)))

theorem keeps_queueLathe {x : CtxId} {op : LatheOp} {k : Ctx} (hk : Keeps z s) : KeepsI z (queueLathe x op k s) := by
  unfold queueLathe
  split
  · exact trivial
  · split
    next e1 => exact keeps_snd (keeps_enqueue hk) e1

theorem keeps_execLzero {x : CtxId} {o : Ops} (hk : Keeps z s) : Runs z (execLzero x o s) :=
  keeps_latheInsn (fun _ _ => keeps_queueLathe) hk

theorem keeps_execLpass {x : CtxId} {o : Ops} (hk : Keeps z s) : Runs z (execLpass x o s) := by
  unfold execLpass
  refine keeps_latheInsn (fun x0 t0 k0 => ?_) hk
  dsimp only
  split
  · exact keeps_badInsn
  · split
    · exact keeps_failPc
    · exact keeps_queueLathe k0

theorem keeps_execLrd {x : CtxId} {o : Ops} (hk : Keeps z s) : Runs z (execLrd x o s) := by
  unfold execLrd
  refine keeps_latheInsn (fun x0 t0 k0 => ?_) hk
  split
  · exact keeps_badInsn
  · split
    · exact k0
    · exact k0

theorem keeps_execLwr {x : CtxId} {o : Ops} (hk : Keeps z s) : Runs z (execLwr x o s) := by
  unfold execLwr
  refine keeps_latheInsn (fun x0 t0 k0 => ?_) hk
  split
  · exact keeps_badInsn
  · split
    · split
      next e3 => exact keeps_snd (keeps_doLwr k0) e3
    · exact k0

theorem keeps_execLst {x : CtxId} {o : Ops} (hk : Keeps z s) : Runs z (execLst x o s) := by
  unfold execLst
  refine keeps_latheInsn (fun x0 t0 k0 => ?_) hk
  dsimp only
  split
  · exact keeps_badInsn
  · split
    · exact keeps_failPc
    · split
      · exact trivial
      · split
        · split
          · exact keeps_failPc
          · exact trivial
        · exact keeps_enqueue k0

theorem keeps_execLld {x : CtxId} {o : Ops} (hk : Keeps z s) : Runs z (execLld x o s) := by
  unfold execLld
  refine keeps_latheInsn (fun x0 t0 k0 => ?_) hk
  dsimp only
  split
  · exact keeps_failPc
  · exact keeps_queueLathe k0

theorem keeps_execLsync {x : CtxId} {o : Ops} (hk : Keeps z s) : Runs z (execLsync x o s) := by
  unfold execLsync
  refine keeps_latheInsn (fun x0 t0 k0 => ?_) hk
  split
  · exact k0
  · exact k0

theorem keeps_readOperand {f : Byte} {n slot scale : Nat} {k : Ctx} (hk : Keeps z s) : Keeps z (readOperand f n slot scale k
    s).2.2.2 := by
  unfold readOperand
  split
  next e0 =>
    split
    next e1 => exact keeps_snd2 (keeps_slotReads (keeps_snd2 (keeps_slotReads hk) e0)) e1

theorem keeps_freeRows {m : Nat} {c : Core} (hk : Keeps z s) : Keeps z (freeRows m c s).2 := keeps_mk hk

theorem keeps_runPass {kk a b sa sb m : Nat} {fa fb : Byte} {wild : Bool} {k : Ctx} {c : Core} (hk : Keeps z s) : Keeps z
    (runPass kk a b sa sb m fa fb wild k c s).2.2 := by
  unfold runPass
  split
  · split
    next e1 => exact keeps_snd (keeps_freeRows hk) e1
  · split
    next e1 =>
      split
      next e2 =>
        dsimp only
        exact keeps_snd3 (keeps_readOperand (keeps_snd3 (keeps_readOperand hk) e1)) e2

theorem keeps_runStore {rows slot scale : Nat} {f : Byte} {entry : Nat} {seed : Word64} {wild : Bool} {k : Ctx} {c : Core}
    (hk : Keeps z s) : Keeps z (runStore rows slot scale f entry seed wild k c s).2 := by
  unfold runStore
  split
  · exact keeps_freeTiles (keeps_freeTiles hk)
  · exact keeps_mk (keeps_mk hk)

theorem keeps_runLoad {rows slot : Nat} {wild : Bool} {k : Ctx} {c : Core} (hk : Keeps z s) : Keeps z
    (runLoad rows slot wild k c s).2.2 := by
  unfold runLoad
  split
  · split
    next e1 => exact keeps_snd (keeps_freeRows hk) e1
  · split
    next e1 => exact keeps_snd2 (keeps_slotReads hk) e1

theorem keeps_latheDone {n : Nat} (hk : Keeps z s) : Keeps z (latheDone n s) := by
  unfold latheDone
  split
  · exact hk
  · split
    · dsimp only
      split
      · exact keeps_modCore hk
      · split
        · exact hk
        · refine keeps_putCtx (keeps_modCore ?_)
          split
          · exact hk
          · exact keeps_runPass hk
          · exact keeps_runStore hk
          · exact keeps_runLoad hk
    · exact hk

theorem keeps_execLatheOpComplete {core : Nat} (hk : Keeps z s) : Runs z (execLatheOpComplete core s) :=
  keeps_ite hk (keeps_wakeCore (keeps_latheDone hk))

/-! ### Partitions -/

theorem keeps_join {p : Nat} {c : PartCfg} {r : Resources} (hk : Keeps z s) : Keeps z (join p c r s) :=
  keeps_foldl (keeps_foldl (keeps_foldl (keeps_foldl hk (fun _ _ => keeps_modCore)) (fun _ _ => keeps_setChannel))
    (fun _ _ => keeps_modPort)) (fun _ _ => keeps_modPort)

theorem keeps_composed {p : Nat} {c : PartCfg} {t : Template} {r : Resources} (hk : Keeps z s) : Keeps z (composed p c t r s) :=
  keeps_post (keeps_setSegments (keeps_join (keeps_mk hk)))

theorem keeps_compose {h : Mgmt} {p : Nat} {r : Resources} (hk : Keeps z s) : KeepsM z (compose h p r s) := by
  unfold compose
  split
  · exact keeps_no hk
  · split
    · exact keeps_mk hk
    · exact keeps_yes (keeps_composed hk)

theorem keeps_grown {p : Nat} {c : PartCfg} {r : Resources} (hk : Keeps z s) : Keeps z (grown p c r s) :=
  keeps_join (keeps_modPart hk)

theorem keeps_grow {h : Mgmt} {p : Nat} {r : Resources} (hk : Keeps z s) : KeepsM z (grow h p r s) := by
  unfold grow
  split
  · exact keeps_no hk
  · split
    · exact keeps_mk hk
    · exact keeps_yes (keeps_grown hk)

theorem keeps_execPartCompose {h : Mgmt} {part : Nat} {r : Resources} (hk : Keeps z s) : Runs z (execPartCompose h part r s) :=
    by
  unfold execPartCompose
  refine keeps_request (fun x0 t0 k0 => ?_) hk
  split
  · exact keeps_no k0
  · exact keeps_compose k0

theorem keeps_execPartGrow {h : Mgmt} {part : Nat} {r : Resources} (hk : Keeps z s) : Runs z (execPartGrow h part r s) :=
  keeps_request (fun _ _ => keeps_grow) hk

theorem keeps_dropPorts {p : Nat} {ports shares : List Nat} (hk : Keeps z s) : Keeps z (dropPorts p ports shares s) := by
  unfold dropPorts
  refine keeps_foldl (keeps_modPart (keeps_foldl (keeps_foldl hk (fun _ _ k0 => keeps_foldl (keeps_mk k0)
    (fun _ _ => keeps_modPort))) (fun _ _ => keeps_modPort))) fun t x k => ?_
  split
  · exact keeps_detectAbort k
  · exact k

theorem keeps_startShrink {h : Mgmt} {p : Nat} {r : Resources} (hk : Keeps z s) : Keeps z (startShrink h p r s) :=
  keeps_settle (keeps_mk (keeps_dropPorts (keeps_foldl (keeps_foldl hk (fun _ _ => keeps_modCore))
    (fun _ _ => keeps_setChannel))))

theorem keeps_execPartShrink {h : Mgmt} {part : Nat} {r : Resources} (hk : Keeps z s) : Runs z (execPartShrink h part r s) := by
  unfold execPartShrink
  refine keeps_request (fun x0 t0 k0 => ?_) hk
  split
  · exact keeps_startShrink k0
  · exact keeps_no k0

theorem keeps_execRemovalTimeout {part : Nat} (hk : Keeps z s) : Runs z (execRemovalTimeout part s) :=
  keeps_settle (keeps_foldl hk (fun _ _ => keeps_eachCtx (fun _ _ => keeps_hangItem)))

theorem keeps_clearStalled {p : Nat} (hk : Keeps z s) : Keeps z (clearStalled p s) :=
  keeps_mk (keeps_foldl hk (fun _ _ => keeps_freeSlot))

theorem keeps_dissolve {p : Nat} (hk : Keeps z s) : Keeps z (dissolve p s) := by
  unfold dissolve
  split
  · exact hk
  · exact keeps_settle (keeps_post (keeps_mk
      (keeps_setSegments (keeps_foldl (keeps_foldl (keeps_dropPorts (keeps_clearStalled hk)) (fun _ _ => keeps_leaveCore))
      (fun _ _ k1 => keeps_dropCounters (keeps_setChannel k1))))))

theorem keeps_execPartDissolve {h : Mgmt} {part : Nat} (hk : Keeps z s) : Runs z (execPartDissolve h part s) := by
  unfold execPartDissolve
  refine keeps_request (fun x0 t0 k0 => ?_) hk
  split
  · exact keeps_yes (keeps_dissolve k0)
  · exact keeps_no k0

theorem keeps_scrubbed {r : Resource} (hk : Keeps z s) : Keeps z (scrubbed r s) := by
  unfold scrubbed
  split
  · exact keeps_modCore hk
  · exact keeps_ite (keeps_setChannel hk) hk
  · exact keeps_ite hk (keeps_mk hk)

theorem keeps_resumeWait {w : MgmtWait} (hk : Keeps z s) : Keeps z (resumeWait w s) := by
  unfold resumeWait
  dsimp only
  split
  · split
    · exact hk
    · split
      next e3 => exact keeps_answered ((keeps_compose (keeps_mk hk)).done e3)
      next e3 => exact (keeps_compose (keeps_mk hk)).wait e3
  · split
    · exact hk
    · split
      next e3 => exact keeps_answered ((keeps_grow (keeps_mk hk)).done e3)
      next e3 => exact (keeps_grow (keeps_mk hk)).wait e3
  · exact hk

theorem keeps_execResourceScrubDone {r : Resource} (hk : Keeps z s) : Runs z (execResourceScrubDone r s) :=
  keeps_settle (keeps_foldl (keeps_scrubbed hk) (fun _ _ => keeps_resumeWait))

theorem keeps_execPartRead {h : Mgmt} {part : Nat} (hk : Keeps z s) : Runs z (execPartRead h part s) := by
  unfold execPartRead
  refine keeps_request (fun x0 t0 k0 => ?_) hk
  split
  · exact keeps_no k0
  · exact k0

/-! ### The root of trust -/

theorem keeps_execSessionOpen {key : BitVec 256} (hk : Keeps z s) : Runs z (execSessionOpen key s) := by
  unfold execSessionOpen
  split
  · exact hk
  · exact keeps_ite hk (keeps_mk hk)

theorem keeps_execIdentityCert {h : Mgmt} (hk : Keeps z s) : Runs z (execIdentityCert h s) :=
  keeps_request (fun _ _ k0 => k0) hk

theorem keeps_execLeaseChallenge {h : Mgmt} (hk : Keeps z s) : Runs z (execLeaseChallenge h s) :=
  keeps_request (fun _ _ k0 => k0) hk

theorem keeps_execAttest {h : Mgmt} {nonce : BitVec 256} (hk : Keeps z s) : Runs z (execAttest h nonce s) := by
  unfold execAttest
  refine keeps_request (fun x0 t0 k0 => ?_) hk
  split
  · exact keeps_no k0
  · exact keeps_mk k0

theorem blow_lasts {l : List Nat} {f : BitVec 4096} {i : Nat} (h : f.getLsbD i = true) : (blow l f).getLsbD i = true := by
  unfold blow
  induction l generalizing f with
  | nil => exact h
  | cons x xs ih => exact ih (by rw [BitVec.getLsbD_or, h, Bool.true_or])

theorem keeps_execCommitSvn {h : Mgmt} {type : Nat} {blows : Bool} (hk : Keeps z s) : Runs z (execCommitSvn h type blows s) :=
    by
  unfold execCommitSvn
  refine keeps_request (fun _ t k => ?_) hk
  extract_lets f rev all n
  split
  · exact keeps_no k
  · split
    · exact keeps_no k
    · split
      · exact keeps_yes (k.step ⟨rfl, rfl, le_rfl, rfl, id, id, fun _ => blow_lasts⟩)
      · exact keeps_post (k.step ⟨rfl, rfl, le_rfl, rfl, id, id, fun _ => blow_lasts⟩)

theorem keeps_flashed {l : FlashSlot} {d : FlashData} (hk : Keeps z s) : Keeps z (flashed l d s) := by
  unfold flashed
  split
  · exact keeps_mk hk
  · exact hk
  · exact keeps_mk hk
  · exact keeps_ite hk (keeps_mk hk)

theorem keeps_execFlashWrite {h : Mgmt} {slot : FlashSlot} {data : FlashData} (hk : Keeps z s) : Runs z
    (execFlashWrite h slot data s) := by
  unfold execFlashWrite
  refine keeps_request (fun x0 t0 k0 => ?_) hk
  dsimp only
  split
  · exact keeps_no k0
  · split
    · exact keeps_no k0
    · exact keeps_yes (keeps_flashed k0)

theorem keeps_activateCharter {i : Image} (hk : Keeps z s) : Keeps z (activateCharter i s) := by
  unfold activateCharter
  split
  · exact keeps_ite (keeps_post (keeps_mk hk)) (keeps_post (keeps_mk hk))
  · exact hk

theorem keeps_execFlashActivate {h : Mgmt} {kind : Nat} {slotB : Bool} (hk : Keeps z s) : Runs z (execFlashActivate h kind slotB
    s) := by
  unfold execFlashActivate
  refine keeps_request (fun x0 t0 k0 => ?_) hk
  split
  · exact keeps_no k0
  · split
    · exact keeps_no k0
    · exact keeps_yes (keeps_ite (keeps_activateCharter k0) k0)

theorem keeps_updateFw {e : Nat} {i : Image} {p : Nat} (hk : Keeps z s) : Keeps z (updateFw e i p s) := keeps_modPart hk

theorem keeps_execEngineFwUpdate {h : Mgmt} {engine : Nat} {slotB : Bool} {parts : BitVec 16} {all : Bool} (hk : Keeps z s) :
    Runs z (execEngineFwUpdate h engine slotB parts all s) := by
  unfold execEngineFwUpdate
  refine keeps_request (fun x0 t0 k0 => ?_) hk
  dsimp only
  split
  · exact keeps_no k0
  · split
    · exact keeps_no k0
    · split
      · exact keeps_no k0
      · exact keeps_yes (keeps_ite (keeps_mk (keeps_foldl k0 (fun _ _ => keeps_updateFw)))
          (keeps_foldl k0 (fun _ _ => keeps_updateFw)))

/-! ### From power-good to ready -/

theorem keeps_slotBit {n : Nat} {b : Bool} (hk : Keeps z s) : Keeps z (slotBit n b s) := keeps_ite (keeps_mk hk) hk

theorem keeps_loadEngine {e : Nat} (hk : Keeps z s) : Keeps z (loadEngine e s) := by
  unfold loadEngine
  split
  · exact keeps_slotBit (keeps_mk hk)
  · exact keeps_post hk

theorem keeps_startCharter (hk : Keeps z s) (hz : z.boot.phase ≠ .tripped) : Keeps z (startCharter s) := by
  unfold startCharter
  split
  · exact keeps_phase hk hz rfl
  · split
    · exact keeps_mk (keeps_foldl (keeps_slotBit (keeps_phase hk hz rfl)) fun _ _ => keeps_loadEngine)
    · exact keeps_phase hk hz rfl

theorem keeps_startRtp (hk : Keeps z s) (hz : z.boot.phase ≠ .tripped) : Keeps z (startRtp s) := by
  unfold startRtp
  split
  · exact keeps_startCharter (keeps_slotBit (keeps_mk hk)) hz
  · exact keeps_phase hk hz rfl

theorem keeps_mapCores {t : StartTests} (hk : Keeps z s) : Keeps z (mapCores t s) :=
  keeps_foldl (keeps_mk hk) (fun _ _ => keeps_post)

theorem keeps_testBanks {bad : List Nat} (hk : Keeps z s) : Keeps z (testBanks bad s) :=
  keeps_foldl (keeps_modSp hk) (fun _ _ => keeps_post)

theorem keeps_testChannels {bad : List Nat} (hk : Keeps z s) : Keeps z (testChannels bad s) :=
  keeps_foldl hk (fun _ _ => keeps_retireChannel)

theorem keeps_trainPorts {peers : List (Nat × Node × Nat)} (hk : Keeps z s) : Keeps z (trainPorts peers s) :=
  keeps_foldl hk (fun _ _ k0 => keeps_helloArrives (keeps_train k0))

theorem keeps_claimGroup {t : StartTests} {g : GroupCfg} (hk : Keeps z s) : Keeps z (claimGroup t g s) :=
  keeps_claimModules (keeps_ite (keeps_post (keeps_mk hk)) (keeps_mk hk))

theorem keeps_claimGroups {t : StartTests} {c : Charter} (hk : Keeps z s) : Keeps z (claimGroups t c s) :=
  keeps_foldl (keeps_foldl hk (fun _ _ => keeps_claimGroup)) (fun _ _ => keeps_loseModule)

theorem keeps_autoStart {p : Nat} (hk : Keeps z s) : Keeps z (autoStart p s) := by
  unfold autoStart
  split
  · split
    · exact hk
    · dsimp only
      split
      · exact keeps_composed hk
      · exact keeps_post hk
  · exact hk

theorem keeps_bringUp {t : StartTests} {c : Charter} (hk : Keeps z s) (hz : z.boot.phase ≠ .tripped) : Keeps z
    (bringUp t c s) :=
  keeps_post (keeps_mk (keeps_foldl (keeps_claimGroups (keeps_trainPorts (keeps_phase hk hz rfl))) fun _ _ => keeps_autoStart))

theorem keeps_spindleFails {j : Nat} (hk : Keeps z s) (hz : z.boot.phase ≠ .tripped) : Keeps z (spindleFails j s) :=
  keeps_fenceDevice (keeps_phase (keeps_post (keeps_modSp hk)) hz rfl)

theorem keeps_continueStart {t : StartTests} (hk : Keeps z s) (hz : z.boot.phase ≠ .tripped) : Keeps z (continueStart t s) := by
  have h1 : Keeps z (mapCores t (testChannels t.badChannels { s with boot := { s.boot with tests := none } })) :=
    keeps_mapCores (keeps_testChannels (keeps_mk hk))
  unfold continueStart
  split
  · exact hk
  · exact keeps_ite (keeps_spindleFails (keeps_testBanks (keeps_modSp h1)) hz) (keeps_bringUp (keeps_testBanks (keeps_modSp h1))
      hz)

theorem not_tripped_of_waits6 (hk : Keeps z s) (hw : ¬ (!waits6 s) = true) : z.boot.phase ≠ .tripped := by
  intro h
  have ht : s.boot.phase = .tripped := hk.phase h
  simp [waits6, ht] at hw

theorem keeps_execCoolantOkAssert {t : StartTests} (hk : Keeps z s) : Runs z (execCoolantOkAssert t s) := by
  unfold execCoolantOkAssert
  dsimp only [Runs]
  split
  · exact hk
  · next hw => exact keeps_ite (keeps_continueStart (keeps_mk hk) (not_tripped_of_waits6 hk hw)) (keeps_mk hk)

theorem keeps_execCoolantOkFallBeforeReady (hk : Keeps z s) : Runs z (execCoolantOkFallBeforeReady s) :=
  keeps_ite hk (keeps_mk hk)

theorem keeps_execRailInRange (hk : Keeps z s) : Runs z (execRailInRange s) := by
  unfold execRailInRange
  dsimp only [Runs]
  split
  · exact hk
  · next hw =>
    split
    · exact keeps_continueStart (keeps_mk hk) (not_tripped_of_waits6 hk hw)
    · exact keeps_mk hk

theorem keeps_execStartWait (hk : Keeps z s) : Runs z (execStartWait s) := keeps_ite (keeps_post hk) hk

theorem keeps_failRail {rail : Nat} (hk : Keeps z s) : Keeps z (failRail rail s) := by
  unfold failRail
  split
  · exact keeps_fenceDevice (keeps_post (keeps_mk hk))
  · exact keeps_mk hk
  · exact hk

theorem keeps_execRailFault {rail : Nat} (hk : Keeps z s) : Runs z (execRailFault rail s) := keeps_failRail hk

theorem keeps_execVrAlert (hk : Keeps z s) : Runs z (execVrAlert s) := keeps_failRail hk

theorem keeps_execRefclkSysLoss (hk : Keeps z s) : Runs z (execRefclkSysLoss s) :=
  keeps_ite hk (keeps_fenceDevice (keeps_ite (keeps_post (keeps_mk hk)) (keeps_mk hk)))

theorem keeps_execRefclkFieldLoss {field : Nat} (hk : Keeps z s) : Runs z (execRefclkFieldLoss field s) :=
  keeps_ite hk (keeps_foldl (keeps_mk hk) (fun _ _ => keeps_faultPort))

theorem keeps_execRefclkMgmtLoss (hk : Keeps z s) : Runs z (execRefclkMgmtLoss s) := keeps_ite (keeps_mk hk) hk

theorem keeps_execCoolantLost (hk : Keeps z s) : Runs z (execCoolantLost s) := keeps_ite hk (keeps_post (keeps_mk hk))

theorem keeps_execCoolantRestored (hk : Keeps z s) : Runs z (execCoolantRestored s) := by
  unfold execCoolantRestored
  split
  · exact hk
  · exact keeps_ite hk (keeps_post (keeps_mk hk))

theorem keeps_execCoolantFence (hk : Keeps z s) : Runs z (execCoolantFence s) := keeps_ite hk (keeps_fenceDevice (keeps_mk hk))

theorem keeps_execThermalTrip (hk : Keeps z s) : Runs z (execThermalTrip s) := by
  exact keeps_ite hk (hk.step ⟨rfl, rfl, le_rfl, rfl, fun _ => rfl, fun _ => rfl, fun _ => id⟩)

theorem keeps_execStackHot {stack : Nat} (hk : Keeps z s) : Runs z (execStackHot stack s) := keeps_ite hk (keeps_mk hk)

theorem keeps_takeGroup {target : Node} {epoch gi : Nat} (hk : Keeps z s) : Keeps z (takeGroup target epoch gi s) := keeps_mk hk

theorem keeps_adoptArriving {target : Node} {slot : Nat} (hk : Keeps z s) : Keeps z (adoptArriving target slot s) := by
  unfold adoptArriving
  split
  · exact hk
  · exact keeps_ite hk (keeps_foldl (keeps_setExt (keeps_mk hk)) (fun _ _ => keeps_serveParked))

theorem keeps_takeOver {target : Node} {epoch : Nat} {silent refusing : List Node} (hk : Keeps z s) : Keeps z
    (takeOver target epoch silent refusing s) :=
  keeps_settle (keeps_post (keeps_foldl (keeps_mk
    (keeps_foldl (keeps_foldl (keeps_foldl hk (fun _ _ k0 => keeps_claimModules (keeps_takeGroup k0)))
    (fun _ _ => keeps_loseModule)) (fun _ _ => keeps_post))) (fun _ _ => keeps_adoptArriving)))

theorem keeps_execTakeover {h : Mgmt} {cert : Cert} {silent refusing : List Node} (hk : Keeps z s) : Runs z
    (execTakeover h cert silent refusing s) :=
  keeps_submitCert (fun _ => keeps_takeOver) hk

/-! ### Observation -/

theorem keeps_program {type lo hi idx : Nat} {c : Control} (hk : Keeps z s) : Keeps z (program type lo hi idx c s) :=
  keeps_mk hk

theorem keeps_execCounterConfig {h : Mgmt} {cfg : CounterCfg} (hk : Keeps z s) : Runs z (execCounterConfig h cfg s) := by
  unfold execCounterConfig
  refine keeps_request (fun x0 t0 k0 => ?_) hk
  split
  · split
    · exact keeps_yes (keeps_program k0)
    · exact keeps_no k0
  · split
    · exact keeps_yes (keeps_mk k0)
    · exact keeps_no k0
  · split
    · exact keeps_yes (keeps_mk k0)
    · exact keeps_no k0

theorem keeps_clearRead {silent : List (Nat × Nat)} {x : Nat × Nat × Nat} (hk : Keeps z s) : Keeps z (clearRead silent s x) :=
  keeps_ite hk (keeps_ite (keeps_mk hk) (keeps_ite (keeps_modSp hk) (keeps_ite (keeps_mk hk) (keeps_mk hk))))

theorem keeps_snapshot {scope : List (Nat × Nat × Nat)} {silent : List (Nat × Nat)} (hk : Keeps z s) : Keeps z
    (snapshot scope silent s).2.2 :=
  keeps_mk (keeps_foldl hk (fun _ _ => keeps_clearRead))

theorem keeps_supSnapshot {p : Nat} {scope : List (Nat × Nat × Nat)} {silent : List (Nat × Nat)} (hk : Keeps z s) : Keeps z
    (supSnapshot p scope silent s).2.2 :=
  keeps_mk hk

theorem keeps_execCounterRead {h : Mgmt} {scope : List (Nat × Nat × Nat)} {silent : List (Nat × Nat)} (hk : Keeps z s) : Runs z
    (execCounterRead h scope silent s) := by
  unfold execCounterRead
  refine keeps_request (fun x0 t0 k0 => ?_) hk
  split
  · exact keeps_no k0
  · dsimp only
    split
    · exact keeps_supSnapshot k0
    · exact keeps_snapshot k0

theorem keeps_portWindow {n : Nat} (hk : Keeps z s) : Keeps z (portWindow n s) :=
  keeps_reading (keeps_reading (keeps_reading (keeps_reading hk)))

theorem keeps_execPortWindowEnd (hk : Keeps z s) : Runs z (execPortWindowEnd s) :=
  keeps_ite hk (keeps_mk (keeps_foldl hk (fun _ _ => keeps_portWindow)))

theorem keeps_execSupervisorWindowEnd (hk : Keeps z s) : Runs z (execSupervisorWindowEnd s) := keeps_ite (keeps_mk hk) hk

theorem keeps_execSampleConfig {h : Mgmt} {engine part n : Nat} {seed : Word32} {enable : Bool} (hk : Keeps z s) : Runs z
    (execSampleConfig h engine part n seed enable s) := by
  unfold execSampleConfig
  refine keeps_request (fun x0 t0 k0 => ?_) hk
  split
  · exact keeps_no k0
  · exact keeps_yes (keeps_mk k0)

theorem keeps_execTraceConfig {h : Mgmt} {cfg : TraceCfg} (hk : Keeps z s) : Runs z (execTraceConfig h cfg s) := by
  unfold execTraceConfig
  refine keeps_request (fun x0 t0 k0 => ?_) hk
  dsimp only
  split
  · split
    · exact keeps_no k0
    · exact keeps_yes (keeps_mk k0)
  · split
    · exact keeps_no k0
    · exact keeps_yes (keeps_mk k0)

theorem keeps_sinkOf {r : Nat × List Nat × State} {sess : Nat} (hk : Keeps z s) (hr : Keeps z r.2.2) : Runs z (.next
    (match tget s.mgmt.sessions sess with
    | some { sink := some k, .. } =>
      if !k.cfg.types.contains 4 then s
      else
        { r.2.2 with mgmt := { r.2.2.mgmt with sessions := tmod r.2.2.mgmt.sessions sess (fun x =>
          { x with sink := some (putParts s.timer.toNat (snapParts r.1 r.2.1) false k) }) } }
    | _ => s)) := by
  show Keeps z _
  split
  · exact keeps_ite hk (keeps_mk hr)
  · exact hk

theorem keeps_execTraceSnapshot {sess : Nat} (hk : Keeps z s) : Runs z (execTraceSnapshot sess s) :=
  keeps_sinkOf hk (keeps_snapshot hk)

theorem keeps_pruneTephra (hk : Keeps z s) : Keeps z (pruneTephra s) := keeps_ite hk (keeps_mk hk)

theorem keeps_setSinkOf {sess : Nat} {k : Sink} (hk : Keeps z s) : Keeps z (setSinkOf sess k s) := keeps_mk hk

theorem keeps_export1 {sess : Nat} {k : Sink} (hk : Keeps z s) : Keeps z (export1 sess k s) := by
  unfold export1
  split
  · exact keeps_setSinkOf (keeps_mk hk)
  · split
    · exact keeps_setSinkOf hk
    · exact keeps_pruneTephra (keeps_setSinkOf (keeps_mk hk))

theorem keeps_execFumaroleExport {sess : Nat} (hk : Keeps z s) : Runs z (execFumaroleExport sess s) := by
  unfold execFumaroleExport
  split
  · exact keeps_export1 hk
  · exact hk

/-! ### Commands that are transactions -/

theorem keeps_recvOp {op : Byte} {resp : Bool} {port : Nat} {tx : Tx} (hk : Keeps z s) : Runs z (recvOp op resp port tx s) :=
  keeps_recv hk

theorem keeps_execRdTile {port : Nat} {tx : Tx} (hk : Keeps z s) : Runs z (execRdTile port tx s) := keeps_recvOp hk

theorem keeps_execWrTile {port : Nat} {tx : Tx} (hk : Keeps z s) : Runs z (execWrTile port tx s) := keeps_recvOp hk

theorem keeps_execWrPartial {port : Nat} {tx : Tx} (hk : Keeps z s) : Runs z (execWrPartial port tx s) := keeps_recvOp hk

theorem keeps_execAtomic {port : Nat} {tx : Tx} (hk : Keeps z s) : Runs z (execAtomic port tx s) := keeps_recvOp hk

theorem keeps_execAtomicAck {port : Nat} {tx : Tx} (hk : Keeps z s) : Runs z (execAtomicAck port tx s) := keeps_recvOp hk

theorem keeps_execFence {port : Nat} {tx : Tx} (hk : Keeps z s) : Runs z (execFence port tx s) := keeps_recvOp hk

theorem keeps_execRdShared {port : Nat} {tx : Tx} (hk : Keeps z s) : Runs z (execRdShared port tx s) := keeps_recvOp hk

theorem keeps_execRdOwn {port : Nat} {tx : Tx} (hk : Keeps z s) : Runs z (execRdOwn port tx s) := keeps_recvOp hk

theorem keeps_execUpgrade {port : Nat} {tx : Tx} (hk : Keeps z s) : Runs z (execUpgrade port tx s) := keeps_recvOp hk

theorem keeps_execMarkDirty {port : Nat} {tx : Tx} (hk : Keeps z s) : Runs z (execMarkDirty port tx s) := keeps_recvOp hk

theorem keeps_execWbDirty {port : Nat} {tx : Tx} (hk : Keeps z s) : Runs z (execWbDirty port tx s) := keeps_recvOp hk

theorem keeps_execEvictClean {port : Nat} {tx : Tx} (hk : Keeps z s) : Runs z (execEvictClean port tx s) := keeps_recvOp hk

theorem keeps_execRecallAck {port : Nat} {tx : Tx} (hk : Keeps z s) : Runs z (execRecallAck port tx s) := keeps_recvOp hk

theorem keeps_execRecallData {port : Nat} {tx : Tx} (hk : Keeps z s) : Runs z (execRecallData port tx s) := keeps_recvOp hk

theorem keeps_execInvalidate {port : Nat} {tx : Tx} (hk : Keeps z s) : Runs z (execInvalidate port tx s) := keeps_recvOp hk

theorem keeps_execInvalidateResponse {port : Nat} {tx : Tx} (hk : Keeps z s) : Runs z (execInvalidateResponse port tx s) :=
  keeps_recvOp hk

theorem keeps_execSnapOpen {port : Nat} {tx : Tx} (hk : Keeps z s) : Runs z (execSnapOpen port tx s) := keeps_recvOp hk

theorem keeps_execSnapClose {port : Nat} {tx : Tx} (hk : Keeps z s) : Runs z (execSnapClose port tx s) := keeps_recvOp hk

theorem keeps_execPublish {port : Nat} {tx : Tx} (hk : Keeps z s) : Runs z (execPublish port tx s) := keeps_recvOp hk

theorem keeps_execCmdPush {port : Nat} {tx : Tx} (hk : Keeps z s) : Runs z (execCmdPush port tx s) := keeps_recvOp hk

theorem keeps_execDoorbell {port : Nat} {tx : Tx} (hk : Keeps z s) : Runs z (execDoorbell port tx s) := keeps_recvOp hk

theorem keeps_execRdWindow {port : Nat} {tx : Tx} (hk : Keeps z s) : Runs z (execRdWindow port tx s) := keeps_recvOp hk

theorem keeps_execContribute {port : Nat} {tx : Tx} (hk : Keeps z s) : Runs z (execContribute port tx s) := keeps_recvOp hk

theorem keeps_execContributeResponse {port : Nat} {tx : Tx} (hk : Keeps z s) : Runs z (execContributeResponse port tx s) :=
  keeps_recvOp hk

theorem keeps_execCollResult {port : Nat} {tx : Tx} (hk : Keeps z s) : Runs z (execCollResult port tx s) := keeps_recvOp hk

theorem keeps_execCollStatus {port : Nat} {tx : Tx} (hk : Keeps z s) : Runs z (execCollStatus port tx s) := keeps_recvOp hk

theorem keeps_execModuleStatus {port : Nat} {tx : Tx} (hk : Keeps z s) : Runs z (execModuleStatus port tx s) := keeps_recvOp hk

theorem keeps_execPullState {port : Nat} {tx : Tx} (hk : Keeps z s) : Runs z (execPullState port tx s) := keeps_recvOp hk

theorem keeps_execPullStateResponse {port : Nat} {tx : Tx} (hk : Keeps z s) : Runs z (execPullStateResponse port tx s) :=
  keeps_recvOp hk

theorem keeps_execYieldMsg {port : Nat} {tx : Tx} (hk : Keeps z s) : Runs z (execYieldMsg port tx s) := keeps_recvOp hk

theorem keeps_execModuleResponse {port : Nat} {tx : Tx} (hk : Keeps z s) : Runs z (execModuleResponse port tx s) :=
  keeps_recv hk

theorem keeps_execTransitForward {port : Nat} {tx : Tx} (hk : Keeps z s) : Runs z (execTransitForward port tx s) :=
  keeps_ite hk (keeps_recv hk)

theorem keeps_execUndefinedOp {port : Nat} {tx : Tx} (hk : Keeps z s) : Runs z (execUndefinedOp port tx s) :=
  keeps_ite hk (keeps_recv hk)

theorem keeps_execFlowGapLoss {src : Node} {cls : Nat} (hk : Keeps z s) : Runs z (execFlowGapLoss src cls s) :=
  keeps_settle (keeps_gapLoss hk)

theorem keeps_execRecallTimeout {slot tile : Nat} (hk : Keeps z s) : Runs z (execRecallTimeout slot tile s) := by
  unfold execRecallTimeout
  split
  · exact hk
  · exact keeps_settle (keeps_tryFinish (keeps_foldl hk (fun _ _ => keeps_recallExpired)))

theorem keeps_execInvalidateTimeout {id : Nat} (hk : Keeps z s) : Runs z (execInvalidateTimeout id s) := by
  unfold execInvalidateTimeout
  split
  · exact hk
  · exact keeps_settle (keeps_endInval hk)

theorem keeps_serveFirst {p : Parked → Bool} (hk : Keeps z s) : Keeps z (serveFirst p s) := by
  unfold serveFirst
  split
  · exact hk
  · exact keeps_serveParked hk

theorem keeps_execWaitingRequestServe {slot tile : Nat} (hk : Keeps z s) : Runs z (execWaitingRequestServe slot tile s) :=
  keeps_ite hk (keeps_settle (keeps_serveFirst hk))

theorem keeps_execLedgerSpaceResume {part : Nat} (hk : Keeps z s) : Runs z (execLedgerSpaceResume part s) :=
  keeps_ite hk (keeps_settle (keeps_serveFirst hk))

theorem keeps_retryBusy {part : Nat} (hk : Keeps z s) : Keeps z (retryBusy part s) :=
  keeps_foldl hk (fun _ _ => keeps_tryFinish)

theorem keeps_retryHeld (hk : Keeps z s) : Keeps z (retryHeld s) :=
  keeps_foldl (keeps_foldl (keeps_mk hk) (fun _ _ => keeps_takeTile)) (fun _ _ k0 => keeps_foldl (keeps_rehomeCheck k0)
    (fun _ _ => keeps_serveParked))

theorem keeps_execJournalSpaceResume {part : Nat} (hk : Keeps z s) : Runs z (execJournalSpaceResume part s) :=
  keeps_ite hk (keeps_settle (keeps_serveFirst (keeps_retryHeld (keeps_retryBusy hk))))

theorem keeps_execSinterSpaceResume {part : Nat} (hk : Keeps z s) : Runs z (execSinterSpaceResume part s) :=
  keeps_settle (keeps_serveFirst (keeps_retryBusy hk))

theorem keeps_execRevokeStopTimer {id : Nat} (hk : Keeps z s) : Runs z (execRevokeStopTimer id s) :=
  keeps_settle (keeps_forceStop hk)

theorem keeps_execRevokeQuiescent {id : Nat} (hk : Keeps z s) : Runs z (execRevokeQuiescent id s) :=
  keeps_settle (keeps_quiesce hk)

theorem keeps_endDiscard {slot : Nat} {e : Extent} (hk : Keeps z s) : Keeps z (endDiscard slot e s) :=
  keeps_postAll (keeps_modExt hk)

theorem keeps_execDiscardRestore {slot : Nat} (hk : Keeps z s) : Runs z (execDiscardRestore slot s) := by
  unfold execDiscardRestore
  split
  · exact hk
  · split
    · split
      next e2 =>
        refine keeps_settle ?_
        split
        · exact keeps_endDiscard (keeps_snd (keeps_restoreAll hk) e2)
        · exact keeps_snd (keeps_restoreAll hk) e2
      next e2 => exact keeps_settle (keeps_snd (keeps_restoreAll hk) e2)
    · exact hk

theorem keeps_execVersionSweep {slot : Nat} (hk : Keeps z s) : Runs z (execVersionSweep slot s) :=
  keeps_settle (keeps_sweepSlot hk)

theorem keeps_execRehomePull {slot : Nat} (hk : Keeps z s) : Runs z (execRehomePull slot s) := by
  unfold execRehomePull
  split
  · exact hk
  · split
    · exact hk
    · split
      · exact keeps_askPull hk
      · dsimp only
        split
        · exact keeps_settle (keeps_rehomeCheck hk)
        · split
          · exact keeps_settle (keeps_rehomeCheck (keeps_adoptTile hk))
          · exact keeps_ite hk (keeps_ite (keeps_sendPull hk) (keeps_askTile hk))

theorem keeps_execIntentClear {group region : Nat} (hk : Keeps z s) : Runs z (execIntentClear group region s) :=
  keeps_ite hk (keeps_mk hk)

theorem keeps_execOwnershipBitmapClear {slot region : Nat} (hk : Keeps z s) : Runs z (execOwnershipBitmapClear slot region s) :=
  keeps_ite hk (keeps_mk hk)

theorem keeps_execModuleLost {node : Node} (hk : Keeps z s) : Runs z (execModuleLost node s) :=
  keeps_settle (keeps_loseModule hk)

theorem keeps_reparity {gi : Nat} {g : Group} {row : Nat} (hk : Keeps z s) : Keeps z (reparity gi g row s) := by
  unfold reparity
  split
  · exact hk
  · exact keeps_foldl hk (fun _ _ k1 => keeps_ite k1 (keeps_rewriteUnit k1))

theorem keeps_repairRow {gi : Nat} {g : Group} {row : Nat} (hk : Keeps z s) : Keeps z (repairRow gi g row s) := by
  unfold repairRow
  refine keeps_foldl (keeps_foldl hk (fun _ _ => keeps_askCol)) fun t x k => ?_
  split
  · exact keeps_rewriteUnit k
  · exact k

theorem keeps_execPatrolScrub {group row : Nat} (hk : Keeps z s) : Runs z (execPatrolScrub group row s) := by
  unfold execPatrolScrub
  split
  · exact hk
  · split
    · exact keeps_reparity (keeps_repairRow hk)
    · exact hk

theorem keeps_execRebuildRow {group : Nat} (hk : Keeps z s) : Runs z (execRebuildRow group s) := by
  unfold execRebuildRow
  split
  · exact hk
  · split
    · exact hk
    · split
      · exact keeps_endPass (keeps_modGroup (keeps_formRow hk))
      · split
        · exact hk
        · exact keeps_endRebuild (keeps_modGroup (keeps_rebuildUnit (keeps_askHelpers hk)))

theorem keeps_execMarkedRegionResync {group region : Nat} (hk : Keeps z s) : Runs z (execMarkedRegionResync group region s) :=
    by
  unfold execMarkedRegionResync
  split
  · exact hk
  · split
    · exact hk
    · exact keeps_settle (keeps_foldl (keeps_retryHeld
        (keeps_foldl (keeps_mk (keeps_foldl hk (fun _ _ k2 => keeps_reparity (keeps_repairRow k2))))
        (fun _ _ => keeps_tryFinish))) (fun _ _ => keeps_serveParked))

theorem keeps_execChunkCommit {collId : BitVec 48} {chunk : Nat} {news : ChunkNews} (hk : Keeps z s) : Runs z
    (execChunkCommit collId chunk news s) := by
  unfold execChunkCommit
  refine keeps_settle ?_
  split
  · exact keeps_commitChunk hk
  · exact keeps_failHeld hk

theorem keeps_execGenerationTimeout {collId : BitVec 48} (hk : Keeps z s) : Runs z (execGenerationTimeout collId s) := by
  unfold execGenerationTimeout
  split
  · exact hk
  · exact keeps_ite (keeps_settle (keeps_detectAbort hk)) hk

/-! ### The scalar and branch classes -/

theorem keeps_regOp {c : Instr} {x : CtxId} {o : Ops} {f : Word64 → Word64 → Word64} (hk : Keeps z s) : Runs z
    (regOp c x o f s) :=
  keeps_insn (fun _ _ k0 => k0) hk

theorem keeps_immOp {c : Instr} {x : CtxId} {o : Ops} {f : Word64 → Word64} (hk : Keeps z s) : Runs z (immOp c x o f s) :=
  keeps_insn (fun _ _ k0 => k0) hk

theorem keeps_cmpOp {c : Instr} {x : CtxId} {o : Ops} {f : Word64 → Word64 → Bool} (hk : Keeps z s) : Runs z
    (cmpOp c x o f s) := by
  unfold cmpOp
  refine keeps_insn (fun x0 t0 k0 => ?_) hk
  split
  · exact k0
  · exact keeps_badInsn

theorem keeps_cmpImm {c : Instr} {x : CtxId} {o : Ops} {f : Word64 → Bool} (hk : Keeps z s) : Runs z (cmpImm c x o f s) := by
  unfold cmpImm
  refine keeps_insn (fun x0 t0 k0 => ?_) hk
  split
  · exact k0
  · exact keeps_badInsn

theorem keeps_execAdd {x : CtxId} {o : Ops} (hk : Keeps z s) : Runs z (execAdd x o s) := keeps_regOp hk

theorem keeps_execSub {x : CtxId} {o : Ops} (hk : Keeps z s) : Runs z (execSub x o s) := keeps_regOp hk

theorem keeps_execMul {x : CtxId} {o : Ops} (hk : Keeps z s) : Runs z (execMul x o s) := keeps_regOp hk

theorem keeps_execMulhu {x : CtxId} {o : Ops} (hk : Keeps z s) : Runs z (execMulhu x o s) := keeps_regOp hk

theorem keeps_execDivu {x : CtxId} {o : Ops} (hk : Keeps z s) : Runs z (execDivu x o s) := keeps_regOp hk

theorem keeps_execRemu {x : CtxId} {o : Ops} (hk : Keeps z s) : Runs z (execRemu x o s) := keeps_regOp hk

theorem keeps_execAndR {x : CtxId} {o : Ops} (hk : Keeps z s) : Runs z (execAndR x o s) := keeps_regOp hk

theorem keeps_execOrR {x : CtxId} {o : Ops} (hk : Keeps z s) : Runs z (execOrR x o s) := keeps_regOp hk

theorem keeps_execXor {x : CtxId} {o : Ops} (hk : Keeps z s) : Runs z (execXor x o s) := keeps_regOp hk

theorem keeps_execShl {x : CtxId} {o : Ops} (hk : Keeps z s) : Runs z (execShl x o s) := keeps_regOp hk

theorem keeps_execShr {x : CtxId} {o : Ops} (hk : Keeps z s) : Runs z (execShr x o s) := keeps_regOp hk

theorem keeps_execSar {x : CtxId} {o : Ops} (hk : Keeps z s) : Runs z (execSar x o s) := keeps_regOp hk

theorem keeps_execMinS {x : CtxId} {o : Ops} (hk : Keeps z s) : Runs z (execMinS x o s) := keeps_regOp hk

theorem keeps_execMaxS {x : CtxId} {o : Ops} (hk : Keeps z s) : Runs z (execMaxS x o s) := keeps_regOp hk

theorem keeps_execAddi {x : CtxId} {o : Ops} (hk : Keeps z s) : Runs z (execAddi x o s) := keeps_immOp hk

theorem keeps_execAndi {x : CtxId} {o : Ops} (hk : Keeps z s) : Runs z (execAndi x o s) := keeps_immOp hk

theorem keeps_execOri {x : CtxId} {o : Ops} (hk : Keeps z s) : Runs z (execOri x o s) := keeps_immOp hk

theorem keeps_execXori {x : CtxId} {o : Ops} (hk : Keeps z s) : Runs z (execXori x o s) := keeps_immOp hk

theorem keeps_execShli {x : CtxId} {o : Ops} (hk : Keeps z s) : Runs z (execShli x o s) := keeps_immOp hk

theorem keeps_execShri {x : CtxId} {o : Ops} (hk : Keeps z s) : Runs z (execShri x o s) := keeps_immOp hk

theorem keeps_execMovi {x : CtxId} {o : Ops} (hk : Keeps z s) : Runs z (execMovi x o s) := keeps_immOp hk

theorem keeps_execSetpEq {x : CtxId} {o : Ops} (hk : Keeps z s) : Runs z (execSetpEq x o s) := keeps_cmpOp hk

theorem keeps_execSetpNe {x : CtxId} {o : Ops} (hk : Keeps z s) : Runs z (execSetpNe x o s) := keeps_cmpOp hk

theorem keeps_execSetpLtS {x : CtxId} {o : Ops} (hk : Keeps z s) : Runs z (execSetpLtS x o s) := keeps_cmpOp hk

theorem keeps_execSetpLtU {x : CtxId} {o : Ops} (hk : Keeps z s) : Runs z (execSetpLtU x o s) := keeps_cmpOp hk

theorem keeps_execSetpGeS {x : CtxId} {o : Ops} (hk : Keeps z s) : Runs z (execSetpGeS x o s) := keeps_cmpOp hk

theorem keeps_execSetpGeU {x : CtxId} {o : Ops} (hk : Keeps z s) : Runs z (execSetpGeU x o s) := keeps_cmpOp hk

theorem keeps_execSetpiEq {x : CtxId} {o : Ops} (hk : Keeps z s) : Runs z (execSetpiEq x o s) := keeps_cmpImm hk

theorem keeps_execSetpiLtS {x : CtxId} {o : Ops} (hk : Keeps z s) : Runs z (execSetpiLtS x o s) := keeps_cmpImm hk

theorem keeps_predOp {c : Instr} {x : CtxId} {o : Ops} {two : Bool} {f : Bool → Bool → Bool} (hk : Keeps z s) : Runs z
    (predOp c x o two f s) := by
  unfold predOp
  refine keeps_insn (fun x0 t0 k0 => ?_) hk
  split
  · exact k0
  · exact keeps_badInsn

theorem keeps_execPand {x : CtxId} {o : Ops} (hk : Keeps z s) : Runs z (execPand x o s) := keeps_predOp hk

theorem keeps_execPor {x : CtxId} {o : Ops} (hk : Keeps z s) : Runs z (execPor x o s) := keeps_predOp hk

theorem keeps_execPnot {x : CtxId} {o : Ops} (hk : Keeps z s) : Runs z (execPnot x o s) := keeps_predOp hk

theorem keeps_branchTo {k k1 : Ctx} {o : Ops} (hk : Keeps z s) : KeepsI z (branchTo k k1 o s) := by
  unfold branchTo
  split
  · exact hk
  · exact keeps_badInsn

theorem keeps_jumpTo {k : Ctx} {v : Word64} (hk : Keeps z s) : KeepsI z (jumpTo k v s) := by
  unfold jumpTo
  split
  · exact hk
  · exact keeps_badInsn

theorem keeps_execBranch {x : CtxId} {o : Ops} (hk : Keeps z s) : Runs z (execBranch x o s) :=
  keeps_insn (fun _ _ => keeps_branchTo) hk

theorem keeps_execLoop {x : CtxId} {o : Ops} (hk : Keeps z s) : Runs z (execLoop x o s) := by
  unfold execLoop
  refine keeps_insn (fun x0 t0 k0 => ?_) hk
  dsimp only
  split
  · exact k0
  · exact keeps_branchTo k0

theorem keeps_execCallR {x : CtxId} {o : Ops} (hk : Keeps z s) : Runs z (execCallR x o s) :=
  keeps_insn (fun _ _ => keeps_branchTo) hk

theorem keeps_execRet {x : CtxId} {o : Ops} (hk : Keeps z s) : Runs z (execRet x o s) := keeps_insn (fun _ _ => keeps_jumpTo) hk

theorem keeps_execJr {x : CtxId} {o : Ops} (hk : Keeps z s) : Runs z (execJr x o s) := keeps_insn (fun _ _ => keeps_jumpTo) hk

/-! ### The sync and system classes -/

theorem keeps_execWait {x : CtxId} {o : Ops} (hk : Keeps z s) : Runs z (execWait x o s) := by
  unfold execWait
  refine keeps_insn (fun x0 t0 k0 => ?_) hk
  split
  · exact k0
  · exact k0

theorem keeps_execWaitall {x : CtxId} {o : Ops} (hk : Keeps z s) : Runs z (execWaitall x o s) := by
  unfold execWaitall
  refine keeps_insn (fun x0 t0 k0 => ?_) hk
  split
  · exact k0
  · exact k0

theorem keeps_execSyncFence {x : CtxId} {o : Ops} (hk : Keeps z s) : Runs z (execSyncFence x o s) := by
  unfold execSyncFence
  refine keeps_insn (fun x0 t0 k0 => ?_) hk
  dsimp only
  split
  · exact k0
  · exact k0

theorem keeps_execSyncYield {x : CtxId} {o : Ops} (hk : Keeps z s) : Runs z (execSyncYield x o s) :=
  keeps_insn (fun _ _ k0 => k0) hk

theorem keeps_execSys {x : CtxId} {o : Ops} (hk : Keeps z s) : Runs z (execSys x o s) := by
  unfold execSys
  refine keeps_insn (fun x0 t0 k0 => ?_) hk
  split
  · exact k0
  · exact keeps_badInsn

theorem keeps_execSeed {x : CtxId} {o : Ops} (hk : Keeps z s) : Runs z (execSeed x o s) := keeps_insn (fun _ _ k0 => k0) hk

theorem keeps_execFclr {x : CtxId} {o : Ops} (hk : Keeps z s) : Runs z (execFclr x o s) := keeps_insn (fun _ _ k0 => k0) hk

theorem keeps_execFailItem {x : CtxId} {o : Ops} (hk : Keeps z s) : Runs z (execFailItem x o s) :=
  keeps_insn (fun _ _ _ => trivial) hk

theorem keeps_execEndItem {x : CtxId} {o : Ops} (hk : Keeps z s) : Runs z (execEndItem x o s) :=
  keeps_insn (fun _ _ k0 => k0) hk

theorem keeps_codeArrives {core part handle : Nat} (hk : Keeps z s) : Keeps z (codeArrives core part handle s) := by
  unfold codeArrives
  split
  · exact hk
  · exact keeps_foldl hk (fun _ _ => keeps_modCore)

theorem keeps_execCodeFetchComplete {core part handle : Nat} (hk : Keeps z s) : Runs z (execCodeFetchComplete core part handle
    s) :=
  keeps_codeArrives hk

/-! ### The tile memory class -/

theorem keeps_sendOp {x : CtxId} {k : Ctx} {op : AsyncOp} {ad : Word64} {ts : List Tile} (hk : Keeps z s) : Keeps z
    (sendOp x k op ad ts s).2 := by
  unfold sendOp
  split
  · dsimp only
    exact keeps_ite_snd hk (keeps_sendEngine (keeps_viaTx hk))
  · exact hk

theorem keeps_takeToken {o : Ops} {k : Ctx} {go : Nat → Ctx → State → IOut} (hk : Keeps z s) (hgo : ∀ x x1 t, Keeps z t → KeepsI
    z (go x x1 t)) : KeepsI z (takeToken o k s go) := by
  unfold takeToken
  split
  · split
    · exact keeps_failPc
    · exact trivial
  · exact hgo _ _ _ hk

theorem keeps_startOp {x : CtxId} {o : Ops} {op : AsyncOp} {send : Ctx → State → Option Node × State} {k : Ctx} (hsend : ∀ x t,
    Keeps z t → Keeps z (send x t).2) (hk : Keeps z s) : KeepsI z (startOp x o op send k s) := by
  unfold startOp
  refine keeps_takeToken hk (fun x0 x01 t0 k0 => ?_)
  split
  · dsimp only
    exact hsend _ _ (keeps_markWild k0)

theorem keeps_execTld {x : CtxId} {o : Ops} (hk : Keeps z s) : Runs z (execTld x o s) := by
  unfold execTld
  refine keeps_insn (fun x0 t0 k0 => ?_) hk
  dsimp only
  split
  · exact keeps_badInsn
  · split
    · exact keeps_failPc
    · refine keeps_startOp (fun x4 t4 k4 => ?_) k0
      exact keeps_ite_snd (keeps_sendOp k4) k4

theorem keeps_execTst {x : CtxId} {o : Ops} (hk : Keeps z s) : Runs z (execTst x o s) := by
  unfold execTst
  refine keeps_insn (fun x0 t0 k0 => ?_) hk
  dsimp only
  split
  · exact keeps_badInsn
  · split
    · exact keeps_failPc
    · split
      · exact keeps_startOp (fun _ _ => keeps_sendOp) (keeps_insnReads k0)
      · exact keeps_startOp (fun _ _ k5 => k5) k0

theorem keeps_execTcpy {x : CtxId} {o : Ops} (hk : Keeps z s) : Runs z (execTcpy x o s) := by
  unfold execTcpy
  refine keeps_insn (fun x0 t0 k0 => ?_) hk
  dsimp only
  split
  · exact keeps_failPc
  · exact keeps_startOp (fun _ _ k3 => k3) k0

theorem keeps_execTzero {x : CtxId} {o : Ops} (hk : Keeps z s) : Runs z (execTzero x o s) := by
  unfold execTzero
  refine keeps_insn (fun x0 t0 k0 => ?_) hk
  dsimp only
  split
  · exact keeps_failPc
  · exact keeps_startOp (fun _ _ k3 => k3) k0

theorem keeps_newAtomic {x : CtxId} {o : Ops} {aop size : Nat} {k : Ctx} (hk : Keeps z s) : KeepsI z
    (newAtomic x o aop size k s) := by
  unfold newAtomic
  dsimp only
  split
  · exact trivial
  · split
    · exact trivial
    · exact keeps_takeToken hk (fun _ _ _ k3 => keeps_sendOp (keeps_ite (keeps_takeAtomic k3)
        (keeps_addRec (keeps_takeAtomic k3))))

theorem keeps_againAtomic {x : CtxId} {o : Ops} {aop size : Nat} {r : TatomRec} {k : Ctx} (hk : Keeps z s) : KeepsI z
    (againAtomic x o aop size r k s) := by
  unfold againAtomic
  dsimp only
  split
  · exact keeps_failPc
  · split
    · exact keeps_newAtomic hk
    · exact keeps_takeToken hk (fun _ _ _ k3 => k3)

theorem keeps_execTatom {x : CtxId} {o : Ops} (hk : Keeps z s) : Runs z (execTatom x o s) := by
  unfold execTatom
  refine keeps_insn (fun x0 t0 k0 => ?_) hk
  dsimp only
  split
  · exact keeps_badInsn
  · split
    · exact keeps_againAtomic k0
    · exact keeps_newAtomic k0

theorem keeps_execLds {x : CtxId} {o : Ops} (hk : Keeps z s) : Runs z (execLds x o s) := by
  unfold execLds
  refine keeps_insn (fun x0 t0 k0 => ?_) hk
  split
  · exact keeps_badInsn
  · split
    · exact keeps_failPc
    · split
      next e3 => exact keeps_snd2 (keeps_insnReads k0) e3

theorem keeps_execSts {x : CtxId} {o : Ops} (hk : Keeps z s) : Runs z (execSts x o s) := by
  unfold execSts
  refine keeps_insn (fun x0 t0 k0 => ?_) hk
  split
  · exact keeps_badInsn
  · split
    · exact keeps_failPc
    · dsimp only
      exact keeps_insnWrites (keeps_insnReads k0)

theorem keeps_execVld {x : CtxId} {o : Ops} (hk : Keeps z s) : Runs z (execVld x o s) := by
  unfold execVld
  refine keeps_insn (fun x0 t0 k0 => ?_) hk
  split
  · exact keeps_badInsn
  · split
    · exact keeps_failPc
    · split
      next e3 => exact keeps_snd2 (keeps_insnReads k0) e3

theorem keeps_execVst {x : CtxId} {o : Ops} (hk : Keeps z s) : Runs z (execVst x o s) := by
  unfold execVst
  refine keeps_insn (fun x0 t0 k0 => ?_) hk
  split
  · exact keeps_badInsn
  · split
    · exact keeps_failPc
    · split
      next e3 =>
        split
        next e4 =>
          split
          next e5 => exact keeps_snd (keeps_insnWrites (keeps_snd2 (keeps_vtRead (keeps_snd2 (keeps_vtRead k0) e3)) e4)) e5

theorem keeps_modToken {x : CtxId} {e : Nat} {f : Token → Token} (hk : Keeps z s) : Keeps z (modToken x e f s) :=
  keeps_modCtx hk

theorem keeps_dropToken {x : CtxId} {e : Nat} (hk : Keeps z s) : Keeps z (dropToken x e s) := keeps_modCtx hk

theorem keeps_opFails {x : CtxId} {e : Nat} {st : St} {d : Word32} (hk : Keeps z s) : Keeps z (opFails x e st d s) :=
  keeps_failCtx (keeps_dropToken hk)

theorem keeps_loadEnds {x : CtxId} {e slot : Nat} {wild : Bool} {ts : List Tile} (hk : Keeps z s) : Keeps z
    (loadEnds x e slot wild ts s) := by
  unfold loadEnds
  split
  next e0 => exact keeps_modCtx (keeps_dropToken (keeps_snd (keeps_ite_snd (keeps_freeTiles hk) hk) e0))

theorem keeps_loadHere {x : CtxId} {e : Nat} {t : Token} {res : Bool} {ad : Word64} {slot c : Nat} {a : Actor}
    (hk : Keeps z s) : Keeps z (loadHere x e t res ad slot c a s) := by
  unfold loadHere
  dsimp only
  split
  · exact keeps_opFails hk
  · split
    next e2 =>
      exact keeps_dropBusyWhere (keeps_loadEnds
        (keeps_countCore (keeps_snd (keeps_runIo (keepsIo_mapM (fun _ => keeps_ioGet)) hk) e2)))
    next e2 => exact keeps_opFails (keeps_snd (keeps_runIo (keepsIo_mapM (fun _ => keeps_ioGet)) hk) e2)
    next e2 => exact keeps_snd (keeps_runIo (keepsIo_mapM (fun _ => keeps_ioGet)) hk) e2

/-- What a store takes from its slots. -/
theorem keeps_wildOr {wild : Bool} {n b : Nat} {k : Ctx} (hk : Keeps z s) : Keeps z
    (if wild then (match freeTiles n s with | (f, u) => (f, k, u)) else slotReads n b k s).2.2 := by
  split
  · exact keeps_freeTiles hk
  · exact keeps_slotReads hk

theorem keeps_storeHere {x : CtxId} {e : Nat} {t : Token} {res : Bool} {ad : Word64} {slot c : Nat} {a : Actor} {k : Ctx}
    (hk : Keeps z s) : Keeps z (storeHere x e t res ad slot c a k s) := by
  unfold storeHere
  refine keeps_ite (keeps_opFails hk) ?_
  split
  next k1 s1 e1 =>
    have h1 := keeps_putCtx (x := x) (k := k1) (keeps_snd2 (keeps_wildOr hk) e1)
    dsimp only
    split
    · next e => exact keeps_dropBusyWhere (keeps_dropToken (keeps_countCore (keeps_snd (keeps_runIo keeps_ioWrites h1) e)))
    · next e => exact keeps_opFails (keeps_snd (keeps_runIo keeps_ioWrites h1) e)
    · next e => exact keeps_snd (keeps_runIo keeps_ioWrites h1) e

theorem keeps_atomEnds {x : CtxId} {e : Nat} {k : Ctx} {ad : Word64} {idx : Nat} {st : St} {r : BitVec 128} (hk : Keeps z s) :
    Keeps z (atomEnds x e k ad idx st r s) :=
  keeps_ite (keeps_modToken (keeps_countCore (keeps_resolveFor (keeps_noteRec hk))))
    (keeps_opFails (keeps_countCore (keeps_resolveFor (keeps_noteRec hk))))

theorem keeps_selfEntry {tag : BitVec 16} {aseq : Word32} {aop size slot area p : Nat} {st : St} {r : BitVec 128}
    (hk : Keeps z s) : Keeps z (selfEntry tag aseq aop size slot area p st r s) :=
  keeps_mk hk

theorem keeps_atomApply {tag : BitVec 16} {aseq : Word32} {ad : Word64} {aop size : Nat} {v cmp : Word64} {a : Actor}
    {slot : Nat} {ext : Extent} (hk : Keeps z s) : KeepsA z (atomApply tag aseq ad aop size v cmp a slot ext s) := by
  unfold atomApply
  dsimp only
  split
  next e1 =>
    exact keeps_snd (keeps_runIo (keepsIo_bind keeps_ioDoor fun x0 => keepsIo_bind keeps_ioPull fun x1 => keeps_ioClaim) hk) e1
  next e1 =>
    exact keeps_snd (keeps_runIo (keepsIo_bind keeps_ioDoor fun x0 => keepsIo_bind keeps_ioPull fun x1 => keeps_ioClaim) hk) e1
  next e1 =>
    split
    next e2 =>
      exact keeps_selfEntry (keeps_snd (keeps_engRead
        (keeps_snd (keeps_runIo (keepsIo_bind keeps_ioDoor fun x0 => keepsIo_bind keeps_ioPull fun x1 => keeps_ioClaim) hk) e1))
        e2)
    next e2 =>
      split
      next e3 =>
        exact (keeps_engWrite (keeps_snd
          (keeps_engRead (keeps_snd (keeps_runIo (keepsIo_bind keeps_ioDoor fun x0 => keepsIo_bind keeps_ioPull fun x1 =>
          keeps_ioClaim) hk) e1)) e2)).wait e3
      next e3 =>
        exact keeps_selfEntry ((keeps_engWrite
          (keeps_snd (keeps_engRead (keeps_snd (keeps_runIo (keepsIo_bind keeps_ioDoor fun x0 => keepsIo_bind keeps_ioPull
          fun x1 => keeps_ioClaim) hk) e1)) e2)).fail e3)
      next e3 =>
        exact keeps_selfEntry ((keeps_engWrite
          (keeps_snd (keeps_engRead (keeps_snd (keeps_runIo (keepsIo_bind keeps_ioDoor fun x0 => keepsIo_bind keeps_ioPull
          fun x1 => keeps_ioClaim) hk) e1)) e2)).done e3)

theorem keeps_atomHere {since : Option Nat} {tag : BitVec 16} {aseq : Word32} {ad : Word64} {aop size : Nat} {v cmp : Word64}
    {a : Actor} (hk : Keeps z s) : KeepsA z (atomHere since tag aseq ad aop size v cmp a s) := by
  unfold atomHere
  split
  · exact hk
  · split
    · split
      · exact hk
      · exact hk
    · split
      · exact hk
      · split
        · exact hk
        · exact keeps_askLedger hk
        · split
          · exact hk
          · exact keeps_atomApply hk
      · exact hk

theorem keeps_atomStep {x : CtxId} {e : Nat} {t : Token} {k : Ctx} {ad : Word64} {aop size : Nat} {v cmp : Word64}
    {tag : BitVec 16} {aseq : Word32} {idx : Nat} {a : Actor} {ans : Option RemoteAnswer} (hk : Keeps z s) : Keeps z
    (atomStep x e t k ad aop size v cmp tag aseq idx a ans s) := by
  unfold atomStep
  split
  · exact keeps_ite (keeps_modToken hk) (keeps_opFails hk)
  · split
    · exact keeps_atomEnds hk
    · exact hk
    · split
      · split
        · exact hk
        · split
          next e4 => exact keeps_modToken (keeps_sendEngine (keeps_snd (keeps_viaTx hk) e4))
      · split
        next e3 => exact keeps_dropBusyWhere (keeps_atomEnds ((keeps_atomHere hk).done e3))
        next e3 => exact (keeps_atomHere hk).wait e3
        next e3 => exact keeps_ite ((keeps_atomHere hk).space e3) (keeps_modToken (keeps_mk ((keeps_atomHere hk).space e3)))

theorem keeps_answerEnds {x : CtxId} {e : Nat} {t : Token} {ad : Word64} {a : Actor} {h : Node} {r : RemoteAnswer}
    (hk : Keeps z s) : Keeps z (answerEnds x e t ad a h r s) := by
  unfold answerEnds
  split
  · exact keeps_opFails hk
  · split
    · dsimp only
      split
      · exact keeps_ite (keeps_opFails hk) (keeps_modToken (keeps_sendEngine hk))
      · exact keeps_loadEnds (keeps_countCore hk)
    · exact keeps_dropToken (keeps_countCore hk)
    · exact hk

theorem keeps_globalStep {x : CtxId} {e : Nat} {t : Token} {k : Ctx} {ad : Word64} {a : Actor} {ans : Option RemoteAnswer}
    (hk : Keeps z s) : Keeps z (globalStep x e t k ad a ans s) := by
  unfold globalStep
  split
  · exact keeps_answerEnds hk
  · exact hk
  · split
    · exact keeps_opFails hk
    · split
      · exact keeps_opFails hk
      · exact keeps_loadHere hk
      · exact keeps_storeHere hk
      · exact keeps_ite hk (keeps_modToken (keeps_sendEngine (keeps_putCtx (keeps_viaTx (keeps_wildOr hk)))))
      · exact keeps_ite hk (keeps_modToken (keeps_sendEngine (keeps_viaTx hk)))
      · exact hk

theorem keeps_tileOp {x : CtxId} {e : Nat} {ans : Option RemoteAnswer} (hk : Keeps z s) : Keeps z (tileOp x e ans s) := by
  unfold tileOp
  split
  · split
    · refine keeps_ite hk ?_
      split
      · exact hk
      · exact keeps_modCtx (keeps_dropToken (keeps_ite_snd (keeps_freeTiles hk) hk))
      · exact keeps_dropToken (keeps_putCtx (keeps_wildOr hk))
      · exact keeps_loadHere hk
      · exact keeps_storeHere hk
      · exact keeps_globalStep hk
      · exact keeps_globalStep hk
      · exact keeps_atomStep hk
    · exact hk
  · exact hk

theorem keeps_execTileOpComplete {x : CtxId} {entry : Nat} {ans : Option RemoteAnswer} (hk : Keeps z s) : Runs z
    (execTileOpComplete x entry ans s) :=
  keeps_settle (keeps_wakeCore (keeps_tileOp hk))

theorem keeps_homeToken {y : SentAtomic} (hk : Keeps z s) : Keeps z (homeToken y s) := keeps_mk hk

theorem keeps_sourceEnds {p : Nat} {home : Node} {y : SentAtomic} {st : St} {r : BitVec 128} (hk : Keeps z s) : Keeps z
    (sourceEnds p home y st r s) :=
  keeps_dropItemBusy (keeps_resolveAtomic (keeps_noteRec hk))

theorem keeps_resendAtom {p : Nat} {home : Node} {y : SentAtomic} (hk : Keeps z s) : Keeps z (resendAtom p home y s) := by
  unfold resendAtom
  split
  · dsimp only
    split
    · exact keeps_sendEngine (keeps_viaTx hk)
    · split
      · exact keeps_homeToken hk
      · split
        next e4 => exact keeps_sourceEnds ((keeps_atomHere hk).done e4)
        next e4 => exact (keeps_atomHere hk).wait e4
        next e4 => exact (keeps_atomHere hk).space e4
  · exact hk

theorem keeps_execTatomResend {home : Node} {tag : BitVec 16} (hk : Keeps z s) : Runs z (execTatomResend home tag s) := by
  unfold execTatomResend
  dsimp only
  split
  · exact hk
  · exact keeps_settle (keeps_resendAtom hk)

/-! ### The vector class -/

theorem keeps_vecDone {x : CtxId} {k : Ctx} (hk : Keeps z s) : Keeps z (vecDone x k s) := keeps_countCore hk

theorem keeps_bLanes {o : Ops} {k : Ctx} (hk : Keeps z s) : Keeps z (bLanes o k s).2.2 := by
  unfold bLanes
  extract_lets fmt
  split
  · exact hk
  · split
    next e => exact keeps_snd2 (keeps_pairRead hk) e

theorem keeps_vecOp {c : Instr} {x : CtxId} {o : Ops} {acc : Bool} {lane : Nat → Nat → Nat → Conv} (hk : Keeps z s) : Runs z
    (vecOp c x o acc lane s) := by
  unfold vecOp
  refine keeps_insn (fun x0 t0 k0 => ?_) hk
  split
  · exact keeps_badInsn
  · dsimp only
    refine keeps_vecDone ?_
    split
    · exact keeps_pairRead (keeps_bLanes (keeps_pairRead k0))
    · exact keeps_bLanes (keeps_pairRead k0)

theorem keeps_execVadd {x : CtxId} {o : Ops} (hk : Keeps z s) : Runs z (execVadd x o s) := keeps_vecOp hk

theorem keeps_execVsub {x : CtxId} {o : Ops} (hk : Keeps z s) : Runs z (execVsub x o s) := keeps_vecOp hk

theorem keeps_execVmul {x : CtxId} {o : Ops} (hk : Keeps z s) : Runs z (execVmul x o s) := keeps_vecOp hk

theorem keeps_execVfma {x : CtxId} {o : Ops} (hk : Keeps z s) : Runs z (execVfma x o s) := keeps_vecOp hk

theorem keeps_execVmin {x : CtxId} {o : Ops} (hk : Keeps z s) : Runs z (execVmin x o s) := keeps_vecOp hk

theorem keeps_execVmax {x : CtxId} {o : Ops} (hk : Keeps z s) : Runs z (execVmax x o s) := keeps_vecOp hk

theorem keeps_execVsfu {x : CtxId} {o : Ops} (hk : Keeps z s) : Runs z (execVsfu x o s) := by
  unfold execVsfu
  refine keeps_insn (fun x0 t0 k0 => ?_) hk
  dsimp only
  split
  · exact keeps_badInsn
  · exact keeps_countCore (keeps_pairRead k0)

theorem keeps_execVcvt {x : CtxId} {o : Ops} (hk : Keeps z s) : Runs z (execVcvt x o s) := by
  unfold execVcvt
  refine keeps_insn (fun x0 t0 k0 => ?_) hk
  dsimp only
  split
  · exact keeps_badInsn
  · refine keeps_vecDone ?_
    split
    · exact keeps_vtRead k0
    · exact keeps_pairRead k0

theorem keeps_vecReduce {c : Instr} {x : CtxId} {o : Ops} {f : Word32 → Word32 → Conv} (hk : Keeps z s) : Runs z
    (vecReduce c x o f s) := by
  unfold vecReduce
  refine keeps_insn (fun x0 t0 k0 => ?_) hk
  split
  · exact keeps_badInsn
  · split
    next e2 =>
      split
      · exact keeps_vecDone (keeps_snd2 (keeps_pairRead k0) e2)

theorem keeps_execVrsum {x : CtxId} {o : Ops} (hk : Keeps z s) : Runs z (execVrsum x o s) := keeps_vecReduce hk

theorem keeps_execVrmax {x : CtxId} {o : Ops} (hk : Keeps z s) : Runs z (execVrmax x o s) := keeps_vecReduce hk

theorem keeps_execVbcast {x : CtxId} {o : Ops} (hk : Keeps z s) : Runs z (execVbcast x o s) := by
  unfold execVbcast
  refine keeps_insn (fun x0 t0 k0 => ?_) hk
  split
  · exact keeps_badInsn
  · exact keeps_vecDone k0

/-! ## Power comes and goes -/

/-- Blown fuses stay blown. -/
def FusesLast (s : State) : Out → Prop
  | .next t => ∀ i, s.boot.fuses.getLsbD i = true → t.boot.fuses.getLsbD i = true
  | _ => False

theorem Runs.fusesLast {s : State} {o : Out} (h : Runs s o) : FusesLast s o := by
  cases o with
  | next t => exact View.Lasts.fuses h
  | fault | refused => exact h

theorem provision_fuses {b : Option Board} {s : State} {i : Nat} (h : s.boot.fuses.getLsbD i = true) :
    (provision b s).boot.fuses.getLsbD i = true := by
  cases b with
  | none => exact h
  | some x =>
    show (s.boot.fuses ||| x.fuses).getLsbD i = true
    rw [BitVec.getLsbD_or, h, Bool.true_or]

theorem execPowerGood_fusesLast {board : Option Board} {ok0 ok1 : Bool} {s : State} :
    FusesLast s (execPowerGood board ok0 ok1 s) := by
  intro i hi
  have hp : (provision board (wiped s)).boot.fuses.getLsbD i = true := provision_fuses hi
  split
  · exact hi
  · dsimp only
    split
    · exact (keeps_startRtp (keeps_refl _) (show Phase.dark ≠ .tripped by decide)).fuses i hp
    · exact hp

theorem execPowerDown_fusesLast {s : State} : FusesLast s (execPowerDown s) := by
  intro i hi
  split
  · exact hi
  · exact hi

/-! ## Every command -/

/-- The two commands that bring power and remove it. -/
def movesPower : Instr → Bool
  | .powerGood _ _ _ => true
  | .powerDown => true
  | _ => false

theorem movesPower_cases {c : Instr} (h : movesPower c = true) : (∃ b p q, c = .powerGood b p q) ∨ c = .powerDown := by
  unfold movesPower at h
  split at h
  · exact .inl ⟨_, _, _, rfl⟩
  · exact .inr rfl
  · cases h

/-- Every command but these two, powered or not. -/
theorem keeps_exec {c : Instr} (hc : movesPower c = false) (hk : Keeps z s) : Runs z (exec c s) := by
  cases c with
  | rdTile => exact keeps_execRdTile hk
  | wrTile => exact keeps_execWrTile hk
  | wrPartial => exact keeps_execWrPartial hk
  | atomic => exact keeps_execAtomic hk
  | atomicAck => exact keeps_execAtomicAck hk
  | fence => exact keeps_execFence hk
  | rdShared => exact keeps_execRdShared hk
  | rdOwn => exact keeps_execRdOwn hk
  | upgrade => exact keeps_execUpgrade hk
  | markDirty => exact keeps_execMarkDirty hk
  | wbDirty => exact keeps_execWbDirty hk
  | evictClean => exact keeps_execEvictClean hk
  | recallAck => exact keeps_execRecallAck hk
  | recallData => exact keeps_execRecallData hk
  | invalidate => exact keeps_execInvalidate hk
  | invalidateResponse => exact keeps_execInvalidateResponse hk
  | snapOpen => exact keeps_execSnapOpen hk
  | snapClose => exact keeps_execSnapClose hk
  | publish => exact keeps_execPublish hk
  | publishSeal => exact keeps_execPublishSeal hk
  | cmdPush => exact keeps_execCmdPush hk
  | doorbell => exact keeps_execDoorbell hk
  | rdWindow => exact keeps_execRdWindow hk
  | contribute => exact keeps_execContribute hk
  | contributeResponse => exact keeps_execContributeResponse hk
  | collResult => exact keeps_execCollResult hk
  | collStatus => exact keeps_execCollStatus hk
  | moduleStatus => exact keeps_execModuleStatus hk
  | moduleResponse => exact keeps_execModuleResponse hk
  | pullState => exact keeps_execPullState hk
  | pullStateResponse => exact keeps_execPullStateResponse hk
  | yieldMsg => exact keeps_execYieldMsg hk
  | transitForward => exact keeps_execTransitForward hk
  | undefinedOp => exact keeps_execUndefinedOp hk
  | flowGapLoss => exact keeps_execFlowGapLoss hk
  | frameReceive => exact keeps_execFrameReceive hk
  | frameTransmit => exact keeps_execFrameTransmit hk
  | replayTimeout => exact keeps_execReplayTimeout hk
  | hello => exact keeps_execHello hk
  | setWidth => exact keeps_execSetWidth hk
  | linkDown _ reason => exact keeps_execLinkDown (reason := reason) hk
  | laneFault => exact keeps_execLaneFault hk
  | portFault => exact keeps_execPortFault hk
  | portRetrain => exact keeps_execPortRetrain hk
  | egressSend => exact keeps_execEgressSend hk
  | spindleTurn => exact keeps_execSpindleTurn hk
  | spindleTurnTimeout => exact keeps_execSpindleTurnTimeout hk
  | meterRefill => exact keeps_execMeterRefill hk
  | holdWindowEnd => exact keeps_execHoldWindowEnd hk
  | queueSample => exact keeps_execQueueSample hk
  | recallTimeout => exact keeps_execRecallTimeout hk
  | invalidateTimeout => exact keeps_execInvalidateTimeout hk
  | waitingRequestServe => exact keeps_execWaitingRequestServe hk
  | ledgerSpaceResume => exact keeps_execLedgerSpaceResume hk
  | journalSpaceResume => exact keeps_execJournalSpaceResume hk
  | sinterSpaceResume => exact keeps_execSinterSpaceResume hk
  | epochRetireTimeout => exact keeps_execEpochRetireTimeout hk
  | batchInstallResume => exact keeps_execBatchInstallResume hk
  | revokeStopTimer => exact keeps_execRevokeStopTimer hk
  | revokeQuiescent => exact keeps_execRevokeQuiescent hk
  | discardRestore => exact keeps_execDiscardRestore hk
  | versionSweep => exact keeps_execVersionSweep hk
  | rehomePull => exact keeps_execRehomePull hk
  | intentClear => exact keeps_execIntentClear hk
  | ownershipBitmapClear => exact keeps_execOwnershipBitmapClear hk
  | moduleLost => exact keeps_execModuleLost hk
  | rebuildRow => exact keeps_execRebuildRow hk
  | patrolScrub => exact keeps_execPatrolScrub hk
  | mirrorResilver => exact keeps_execMirrorResilver hk
  | hbmScrub => exact keeps_execHbmScrub hk
  | itemDispatch => exact keeps_execItemDispatch hk
  | itemComplete => exact keeps_execItemComplete hk
  | eventDeliver => exact keeps_execEventDeliver hk
  | reduceRun => exact keeps_execReduceRun hk
  | reduceFrom => exact keeps_execReduceFrom hk
  | reduceAbort => exact keeps_execReduceAbort hk
  | chunkCommit => exact keeps_execChunkCommit hk
  | generationTimeout => exact keeps_execGenerationTimeout hk
  | rows => exact keeps_execRows hk
  | kv => exact keeps_execKv hk
  | dispatch => exact keeps_execDispatch hk
  | combine => exact keeps_execCombine hk
  | copy => exact keeps_execCopy hk
  | fill => exact keeps_execFill hk
  | convert => exact keeps_execConvert hk
  | publishCopy => exact keeps_execPublishCopy hk
  | publishCopySeal => exact keeps_execPublishCopySeal hk
  | rebuild => exact keeps_execRebuild hk
  | scan => exact keeps_execScan hk
  | topk => exact keeps_execTopk hk
  | score => exact keeps_execScore hk
  | attend => exact keeps_execAttend hk
  | applyRun => exact keeps_execApplyRun hk
  | add => exact keeps_execAdd hk
  | sub => exact keeps_execSub hk
  | mul => exact keeps_execMul hk
  | mulhu => exact keeps_execMulhu hk
  | divu => exact keeps_execDivu hk
  | remu => exact keeps_execRemu hk
  | andR => exact keeps_execAndR hk
  | orR => exact keeps_execOrR hk
  | xor => exact keeps_execXor hk
  | shl => exact keeps_execShl hk
  | shr => exact keeps_execShr hk
  | sar => exact keeps_execSar hk
  | minS => exact keeps_execMinS hk
  | maxS => exact keeps_execMaxS hk
  | addi => exact keeps_execAddi hk
  | andi => exact keeps_execAndi hk
  | ori => exact keeps_execOri hk
  | xori => exact keeps_execXori hk
  | shli => exact keeps_execShli hk
  | shri => exact keeps_execShri hk
  | movi => exact keeps_execMovi hk
  | setpEq => exact keeps_execSetpEq hk
  | setpNe => exact keeps_execSetpNe hk
  | setpLtS => exact keeps_execSetpLtS hk
  | setpLtU => exact keeps_execSetpLtU hk
  | setpGeS => exact keeps_execSetpGeS hk
  | setpGeU => exact keeps_execSetpGeU hk
  | setpiEq => exact keeps_execSetpiEq hk
  | setpiLtS => exact keeps_execSetpiLtS hk
  | pand => exact keeps_execPand hk
  | por => exact keeps_execPor hk
  | pnot => exact keeps_execPnot hk
  | branch => exact keeps_execBranch hk
  | loop => exact keeps_execLoop hk
  | callR => exact keeps_execCallR hk
  | ret => exact keeps_execRet hk
  | jr => exact keeps_execJr hk
  | tld => exact keeps_execTld hk
  | tst => exact keeps_execTst hk
  | tatom => exact keeps_execTatom hk
  | tcpy => exact keeps_execTcpy hk
  | tzero => exact keeps_execTzero hk
  | lds => exact keeps_execLds hk
  | sts => exact keeps_execSts hk
  | vld => exact keeps_execVld hk
  | vst => exact keeps_execVst hk
  | tileOpComplete => exact keeps_execTileOpComplete hk
  | tatomResend => exact keeps_execTatomResend hk
  | lacq => exact keeps_execLacq hk
  | lrel => exact keeps_execLrel hk
  | lzero => exact keeps_execLzero hk
  | lpass => exact keeps_execLpass hk
  | lrd => exact keeps_execLrd hk
  | lwr => exact keeps_execLwr hk
  | lst => exact keeps_execLst hk
  | lld => exact keeps_execLld hk
  | lsync => exact keeps_execLsync hk
  | latheOpComplete => exact keeps_execLatheOpComplete hk
  | vadd => exact keeps_execVadd hk
  | vsub => exact keeps_execVsub hk
  | vmul => exact keeps_execVmul hk
  | vfma => exact keeps_execVfma hk
  | vmin => exact keeps_execVmin hk
  | vmax => exact keeps_execVmax hk
  | vsfu => exact keeps_execVsfu hk
  | vcvt => exact keeps_execVcvt hk
  | vrsum => exact keeps_execVrsum hk
  | vrmax => exact keeps_execVrmax hk
  | vbcast => exact keeps_execVbcast hk
  | wait => exact keeps_execWait hk
  | waitall => exact keeps_execWaitall hk
  | syncFence => exact keeps_execSyncFence hk
  | syncYield => exact keeps_execSyncYield hk
  | sys => exact keeps_execSys hk
  | seed => exact keeps_execSeed hk
  | fclr => exact keeps_execFclr hk
  | failItem => exact keeps_execFailItem hk
  | endItem => exact keeps_execEndItem hk
  | itemBudgetExceeded => exact keeps_execItemBudgetExceeded hk
  | coreFault => exact keeps_execCoreFault hk
  | coreHang => exact keeps_execCoreHang hk
  | patternSweep => exact keeps_execPatternSweep hk
  | sentinelTrip => exact keeps_execSentinelTrip hk
  | junctionDrag => exact keeps_execJunctionDrag hk
  | dragExit => exact keeps_execDragExit hk
  | powerEstimate => exact keeps_execPowerEstimate hk
  | powerLimited => exact keeps_execPowerLimited hk
  | powerReleased => exact keeps_execPowerReleased hk
  | partitionUnitFault _ unit => exact keeps_execPartitionUnitFault (unit := unit) hk
  | channelFault => exact keeps_execChannelFault hk
  | fieldIsolated => exact keeps_execFieldIsolated hk
  | rtpSwitchover => exact keeps_execRtpSwitchover hk
  | resourceScrubDone => exact keeps_execResourceScrubDone hk
  | removalTimeout => exact keeps_execRemovalTimeout hk
  | leaseExpiry => exact keeps_execLeaseExpiry hk
  | powerGood => cases hc
  | coolantOkAssert => exact keeps_execCoolantOkAssert hk
  | startWait => exact keeps_execStartWait hk
  | powerDown => cases hc
  | railFault => exact keeps_execRailFault hk
  | vrAlert => exact keeps_execVrAlert hk
  | coolantLost => exact keeps_execCoolantLost hk
  | coolantRestored => exact keeps_execCoolantRestored hk
  | coolantFence => exact keeps_execCoolantFence hk
  | thermalTrip => exact keeps_execThermalTrip hk
  | stackHot => exact keeps_execStackHot hk
  | refclkSysLoss => exact keeps_execRefclkSysLoss hk
  | refclkFieldLoss => exact keeps_execRefclkFieldLoss hk
  | refclkMgmtLoss => exact keeps_execRefclkMgmtLoss hk
  | sessionOpen => exact keeps_execSessionOpen hk
  | sessionClose => exact keeps_execSessionClose hk
  | mgmtReservedCode => exact keeps_execMgmtReservedCode hk
  | attest => exact keeps_execAttest hk
  | identityCert => exact keeps_execIdentityCert hk
  | leaseChallenge => exact keeps_execLeaseChallenge hk
  | commitSvn => exact keeps_execCommitSvn hk
  | expelNode => exact keeps_execExpelNode hk
  | readmitNode => exact keeps_execReadmitNode hk
  | fenceDevice => exact keeps_execFenceDevice hk
  | renewLease => exact keeps_execRenewLease hk
  | takeover => exact keeps_execTakeover hk
  | flashWrite => exact keeps_execFlashWrite hk
  | flashActivate => exact keeps_execFlashActivate hk
  | engineFwUpdate => exact keeps_execEngineFwUpdate hk
  | partCompose => exact keeps_execPartCompose hk
  | partGrow => exact keeps_execPartGrow hk
  | partShrink => exact keeps_execPartShrink hk
  | partReset => exact keeps_execPartReset hk
  | partDissolve => exact keeps_execPartDissolve hk
  | partRead => exact keeps_execPartRead hk
  | attach => exact keeps_execAttach hk
  | grow => exact keeps_execGrow hk
  | revokeNotice => exact keeps_execRevokeNotice hk
  | revokeCancel => exact keeps_execRevokeCancel hk
  | revokeForce => exact keeps_execRevokeForce hk
  | releaseExt => exact keeps_execReleaseExt hk
  | rehomeIn => exact keeps_execRehomeIn hk
  | rehomeOut => exact keeps_execRehomeOut hk
  | rehomeFinish => exact keeps_execRehomeFinish hk
  | readExtent => exact keeps_execReadExtent hk
  | batch => exact keeps_execBatch hk
  | grantLease => exact keeps_execGrantLease hk
  | revokeLease => exact keeps_execRevokeLease hk
  | discardOpen => exact keeps_execDiscardOpen hk
  | resetSource => exact keeps_execResetSource hk
  | setRecallTimeout => exact keeps_execSetRecallTimeout hk
  | readGroup => exact keeps_execReadGroup hk
  | replaceModule => exact keeps_execReplaceModule hk
  | queueCreate => exact keeps_execQueueCreate hk
  | queueDestroy => exact keeps_execQueueDestroy hk
  | kernelLoad => exact keeps_execKernelLoad hk
  | kernelUnload => exact keeps_execKernelUnload hk
  | kernelList => exact keeps_execKernelList hk
  | groupRegister => exact keeps_execGroupRegister hk
  | groupRelease => exact keeps_execGroupRelease hk
  | groupRead => exact keeps_execGroupRead hk
  | routeSet => exact keeps_execRouteSet hk
  | routeRead => exact keeps_execRouteRead hk
  | portReset => exact keeps_execPortReset hk
  | counterConfig => exact keeps_execCounterConfig hk
  | counterRead => exact keeps_execCounterRead hk
  | traceConfig => exact keeps_execTraceConfig hk
  | sampleConfig => exact keeps_execSampleConfig hk
  | eventSubscribe => exact keeps_execEventSubscribe hk
  | eventRead => exact keeps_execEventRead hk
  | portWindowEnd => exact keeps_execPortWindowEnd hk
  | supervisorWindowEnd => exact keeps_execSupervisorWindowEnd hk
  | traceSnapshot => exact keeps_execTraceSnapshot hk
  | fumaroleExport => exact keeps_execFumaroleExport hk
  | partitionResetComplete => exact keeps_execPartitionResetComplete hk
  | coreReturnToService => exact keeps_execCoreReturnToService hk
  | markedRegionResync => exact keeps_execMarkedRegionResync hk
  | reservedOpcodeCommand => exact keeps_execReservedOpcodeCommand hk
  | certSubmitReservedKind => exact keeps_execCertSubmitReservedKind hk
  | coolantOkFallBeforeReady => exact keeps_execCoolantOkFallBeforeReady hk
  | railInRange => exact keeps_execRailInRange hk
  | codeFetchComplete => exact keeps_execCodeFetchComplete hk

theorem exec_fusesLast (c : Instr) (s : State) : FusesLast s (exec c s) := by
  cases hc : movesPower c with
  | false => exact (keeps_exec hc (keeps_refl s)).fusesLast
  | true =>
    obtain ⟨b, p, q, rfl⟩ | rfl := movesPower_cases hc
    · exact execPowerGood_fusesLast
    · exact execPowerDown_fusesLast

theorem exec_next (c : Instr) (s : State) : ∃ t, exec c s = .next t := by
  have h := exec_fusesLast c s
  cases e : exec c s with
  | next t => exact ⟨t, rfl⟩
  | fault | refused => rw [e] at h; exact h.elim

/-- While power is good, every command but POWER_DOWN. -/
theorem keeps_powered {c : Instr} {s : State} (hp : s.phys.pwrgd = true) (hd : c ≠ .powerDown) : Runs s (exec c s) := by
  cases hc : movesPower c with
  | false => exact keeps_exec hc (keeps_refl s)
  | true =>
    obtain ⟨b, p, q, rfl⟩ | rfl := movesPower_cases hc
    · show Keeps s (if s.phys.pwrgd then s else _)
      rw [if_pos hp]
      exact keeps_refl s
    · exact absurd rfl hd

/-! ## Every step -/

theorem tick_boot (s : State) : (tick s).boot = s.boot := by
  unfold tick
  split
  · rfl
  · rfl

theorem tick_mgmt (s : State) : (tick s).mgmt = s.mgmt := by
  unfold tick
  split
  · rfl
  · rfl

theorem tick_phys (s : State) : (tick s).phys = s.phys := by
  unfold tick
  split
  · rfl
  · rfl

theorem tick_pending (s : State) : (tick s).pending = s.pending := by
  unfold tick
  split
  · rfl
  · rfl

/-- A step runs the timer, or carries out the command at the front. -/
theorem step_cases {s t : State} (h : step s = .next t) :
    (s.pending = [] ∧ t = tick s) ∨
    ∃ c rest, s.pending = c :: rest ∧ exec c { s with pending := rest } = .next t := by
  unfold step at h
  split at h
  · next e => exact .inl ⟨e, (Host.Outcome.next.inj h).symm⟩
  · next c rest e => exact .inr ⟨c, rest, e, h⟩

/-- A step of a device with power, whose front is not POWER_DOWN, runs the timer or keeps what every command keeps. -/
theorem step_powered {s t : State} (hp : s.phys.pwrgd = true) (hd : s.pending.head? ≠ some .powerDown)
    (h : step s = .next t) :
    (s.pending = [] ∧ t = tick s) ∨ (s.pending ≠ [] ∧ Keeps { s with pending := s.pending.tail } t) := by
  obtain h | ⟨c, rest, e, h⟩ := step_cases h
  · exact .inl h
  · rw [e] at hd
    have hr := keeps_powered (c := c) (s := { s with pending := rest }) hp fun hc => hd (congrArg some hc)
    rw [h] at hr
    rw [e]
    exact .inr ⟨List.cons_ne_nil _ _, hr⟩

/-- Settles O57: no command clears a fuse. A start at power-good takes the board's fuses in beside the blown ones. -/
theorem fusesStayBlown : Obligations.FusesStayBlown := by
  unfold Obligations.FusesStayBlown
  intro i s t hi h
  obtain ⟨-, rfl⟩ | ⟨c, rest, -, h⟩ := step_cases h
  · rwa [tick_boot]
  · have hf := exec_fusesLast c { s with pending := rest }
    rw [h] at hf
    exact hf i hi

/-- Settles O58: no command but POWER_DOWN moves a tripped device to another phase, and POWER_GOOD finds power good. -/
theorem tripLasts : Obligations.TripLasts := by
  unfold Obligations.TripLasts
  intro s t hp hb hn hd h
  obtain ⟨-, rfl⟩ | ⟨-, hk⟩ := step_powered hp hd h
  · rw [tick_phys, tick_boot]
    exact ⟨hp, hb, hn⟩
  · exact ⟨hk.pwrgd.trans hp, hk.phase hb, hk.thermtripN hn⟩

/-- Settles O59: every command answers a next state, which keeps the queue behind it, the timer and the power, with an
event sequence not lower. -/
theorem sequencesRise : Obligations.SequencesRise := by
  unfold Obligations.SequencesRise
  refine ⟨exec_next, fun s t hp hd h => ?_⟩
  obtain ⟨e, rfl⟩ | ⟨-, hk⟩ := step_powered hp hd h
  · rw [tick_pending, tick_mgmt, tick_phys, e]
    exact ⟨rfl, le_rfl, hp, fun hn => absurd rfl hn⟩
  · exact ⟨hk.pending, hk.eventSeq, hk.pwrgd.trans hp, fun _ => hk.timer⟩

end Sys2Proof.Machine

/-! # The front of the queue, reset, and fuses -/

namespace Sys2Proof.Machine

set_option Elab.async false

/-- Settles O54: both by the definition of a step. -/
theorem stepTakesTheFront : Obligations.StepTakesTheFront := by
  unfold Obligations.StepTakesTheFront
  refine ⟨fun _ _ _ => rfl, fun s h => ?_, fun s hp hr => ?_⟩
  · rw [step, h]
  · rw [tick, hp, hr]
    rfl

/-- Settles O55: each by evaluating the reset state. -/
theorem resetIsEmpty : Obligations.ResetIsEmpty := by
  unfold Obligations.ResetIsEmpty
  exact ⟨rfl, rfl, rfl, rfl, rfl, rfl, rfl, rfl, rfl, rfl, rfl, rfl, rfl, rfl, rfl, rfl, rfl, rfl, rfl, rfl,
    rfl, rfl, rfl, rfl, rfl, rfl, rfl, rfl, rfl, rfl, rfl⟩

/-! ## Fuses (R371, R376) -/

/-- The fuses named are blown, and every other stays as it was. -/
theorem getLsbD_blow {l : List Nat} {f : BitVec 4096} {i : Nat} (hi : i < 4096) :
    (blow l f).getLsbD i = (f.getLsbD i || l.contains i) := by
  unfold blow
  induction l generalizing f with
  | nil => rw [List.contains_nil, Bool.or_false, List.foldl_nil]
  | cons x xs ih =>
    have hx : (BitVec.ofNat 4096 (2 ^ x)).getLsbD i = (i == x) := by
      rw [BitVec.getLsbD_ofNat, Nat.testBit_two_pow, decide_eq_true hi, Bool.true_and, beq_eq_decide]
      exact decide_eq_decide.2 eq_comm
    rw [List.foldl_cons, ih, BitVec.getLsbD_or, hx, List.contains_cons, Bool.or_assoc]

/-- Elements that fail a test, marked beside those that pass it, add their number. -/
theorem length_filter_or_contains {R t : List Nat} {p : Nat → Bool} (hR : R.Nodup) (ht : t.Sublist (R.filter fun i => !p i)) :
    (R.filter fun i => p i || t.contains i).length = (R.filter p).length + t.length := by
  have hmem : ∀ i ∈ t, i ∈ R ∧ p i = false := fun i hi => by simpa using ht.subset hi
  have hnodup : (R.filter p ++ t).Nodup :=
    List.nodup_append.2 ⟨hR.filter p, (hR.filter _).sublist ht, fun a ha b hb hab => by
      have hpa := (List.mem_filter.1 ha).2
      rw [hab, (hmem b hb).2] at hpa
      cases hpa⟩
  have hperm : (R.filter fun i => p i || t.contains i).Perm (R.filter p ++ t) :=
    (List.perm_ext_iff_of_nodup (hR.filter _) hnodup).2 fun i => by
      have := hmem i
      simp only [List.mem_filter, List.mem_append, Bool.or_eq_true, List.contains_iff_mem]
      tauto
  rw [hperm.length_eq, List.length_append]

/-- The fuses of an SVN field. -/
def svnField (type : Nat) : List Nat := (List.range 64).map (fun i => svnBase type + i)

theorem mem_svnField {type i : Nat} : i ∈ svnField type ↔ svnBase type ≤ i ∧ i < svnBase type + 64 := by
  simp only [svnField, List.mem_map, List.mem_range]
  exact ⟨fun ⟨j, hj, e⟩ => by omega, fun ⟨hl, hh⟩ => ⟨i - svnBase type, by omega, by omega⟩⟩

theorem svnField_nodup (type : Nat) : (svnField type).Nodup := List.nodup_range.map fun _ _ h => Nat.add_left_cancel h

theorem svnField_below {type i : Nat} (h : i ∈ svnField type) : i < 4096 := by
  have hb : svnBase type ≤ 1664 := by
    unfold svnBase
    split
    · exact le_rfl
    · split
      · decide
      · decide
  have := (mem_svnField.1 h).2
  omega

/-- The count of an SVN field is that of its blown fuses. -/
theorem svnCount_eq (f : BitVec 4096) (type : Nat) : svnCount f type = ((svnField type).filter f.getLsbD).length := by
  rw [svnCount, blown, svnField, List.filter_map, List.length_map]
  rfl

theorem svnFuses_sublist (f : BitVec 4096) (type n : Nat) :
    (svnFuses f type n).Sublist ((svnField type).filter fun i => !f.getLsbD i) := List.take_sublist _ _

/-- COMMIT_SVN blows as many fuses as the count lacks, and no more than the field has. -/
theorem length_svnFuses (f : BitVec 4096) (type n : Nat) : (svnFuses f type n).length = min n 64 - svnCount f type := by
  have hfield := List.length_eq_length_filter_add (l := svnField type) f.getLsbD
  rw [← svnCount_eq, svnField, List.length_map, List.length_range, ← svnField] at hfield
  have htake : (svnFuses f type n).length =
      min (min n 64 - svnCount f type) ((svnField type).filter fun i => !f.getLsbD i).length := List.length_take
  omega

theorem svnCount_blow (f : BitVec 4096) (type n : Nat) :
    svnCount (blow (svnFuses f type n) f) type = max (svnCount f type) (min n 64) := by
  have hblown : (svnField type).filter (blow (svnFuses f type n) f).getLsbD =
      (svnField type).filter fun i => f.getLsbD i || (svnFuses f type n).contains i :=
    List.filter_congr fun i hi => getLsbD_blow (svnField_below hi)
  rw [svnCount_eq, hblown, length_filter_or_contains (svnField_nodup type) (svnFuses_sublist f type n), ← svnCount_eq,
    length_svnFuses]
  omega

/-- Settles O46: the fuses blown are clear ones of the field, as many as its count lacks. -/
theorem fusesReachTheSvn : Obligations.FusesReachTheSvn := by
  unfold Obligations.FusesReachTheSvn
  exact ⟨fun _ _ _ => getLsbD_blow, fun f type n _ _ => ⟨svnCount_blow f type n, fun i hi =>
    mem_svnField.1 (List.mem_filter.1 ((svnFuses_sublist f type n).subset hi)).1⟩⟩

end Sys2Proof.Machine

/-! # Management requests: what meets each of them -/

namespace Sys2Proof.Machine

set_option Elab.async false

/-- A message of a session that names partition 1. -/
def partOneMessage : Mgmt := { sess := 0, reqId := 0, part := 1, lenOk := true }

/-- The reset state with one session open. -/
def oneSession : State :=
  { State.reset with mgmt := { State.reset.mgmt with sessions := [(0, newSession .fm 0)] } }

/-- The message's answer carries the partition that the message names. -/
theorem answered_part : (answered partOneMessage 0x25 1 .ok [] false oneSession).replies.map (·.part) = [1] := rfl

/-- Refutes O42: an answer carries PART of the request that it answers (R382), and the statement's answer, which does not
name the field, has the field's default, partition 0. A message that names partition 1 is answered with 1. -/
theorem not_requestsAdmitted : ¬ Obligations.RequestsAdmitted := by
  unfold Obligations.RequestsAdmitted
  rintro ⟨-, -, hanswer, -⟩
  have hreplies := (hanswer partOneMessage 0x25 1 .ok [] false oneSession (newSession .fm 0) rfl).1
  have hparts : [1] = [0] := answered_part.symm.trans (congrArg (List.map (·.part)) hreplies)
  exact absurd hparts (by decide)

/-! ## The root of trust (R371, R376 to R378, R386) -/

/-- The partition whose part of the report alone a session's ATTEST shows (R378). -/
def attestOnly : SessKind → Option Nat
  | .supervisor p => some p
  | _ => none

/-- The report that a session's ATTEST returns, and its signature. -/
def attestation (kind : SessKind) (nonce : BitVec 256) (s : State) : List Nat :=
  let r := reportBytes s nonce (attestOnly kind)
  r ++ beBytes 384 (rsaSign (Config.identityKey (deviceSeed s.boot.fuses)) (Config.pssSalt s.free) r)

section
variable {h : Mgmt} {kind : SessKind} (hm : MaySend h kind)
include hm

theorem identityCert_answers : Answers (.identityCert h) h kind 0x11 (fun _ => True) .ok
    (fun s => s.boot.identity.map (·.toNat)) false (fun s => s) :=
  answers_of_maySend (execIdentityCert h) hm (fun _ => rfl) fun _ _ _ => rfl

/-- A device that is not decommissioned signs its report. -/
theorem attest_answers (nonce : BitVec 256) :
    Answers (.attest h nonce) h kind 0x10 (fun s => lifecycle s.boot.fuses ≠ 15) .ok (attestation kind nonce) false
      (fun s => { s with free := s.free + 1 }) :=
  answers_of_maySend (execAttest h nonce) hm (fun _ => rfl) fun _ _ hl => (if_neg hl).trans rfl

theorem attest_refused (nonce : BitVec 256) :
    Refuses (.attest h nonce) h kind 0x10 (fun s => lifecycle s.boot.fuses = 15) .state :=
  answers_of_maySend (execAttest h nonce) hm (fun _ => rfl) fun _ _ hl => if_pos hl
end

theorem leaseChallenge_answers (h : Mgmt) : Answers (.leaseChallenge h) h .fm 0x13 (fun _ => True) .ok
    (fun s => [s.boot.bootNonce.toNat, s.boot.challenge.toNat]) false (fun s => s) :=
  answers_of_rule (execLeaseChallenge h) (fun _ => rfl) fun _ _ => rfl

/-! ### COMMIT_SVN (R376) -/

/-- The revoke fuses that COMMIT_SVN of an image type is to blow. -/
def commitRevokes (type : Nat) (s : State) : List Nat :=
  if type = 3 then (match s.boot.charter with | some c => revokeFuses s.boot.fuses c | none => []) else []

/-- Every fuse that COMMIT_SVN of an image type is to blow. -/
def commitFuses (type : Nat) (s : State) : List Nat := svnFuses s.boot.fuses type (runningSvn s type) ++ commitRevokes type s

/-- No key slot to be revoked signed a running image. -/
def RevokesSpare (type : Nat) (s : State) : Prop := (commitRevokes type s).any (signingFuses s).contains = false

section
variable {h : Mgmt} {type : Nat}

/-- An image type that COMMIT_SVN knows meets the test of the revoked slots first. -/
theorem commitSvn_typed {blows : Bool} {hyp : State → Prop} {st : St} {change : Bool} {eff : State → State} (hlo : 1 ≤ type)
    (hhi : type ≤ 3)
    (hrest : ∀ s, hyp s → (if (commitRevokes type s).any (signingFuses s).contains then no .state s
      else if blows || (commitFuses type s).isEmpty then
        yes { s with boot := { s.boot with fuses := blow (commitFuses type s) s.boot.fuses } }
      else .done .state [] true (post .fuseFault none [type] { s with
        free := s.free + 1,
        boot := { s.boot with fuses := blow ((commitFuses type s).take
          ((Config.freeWord s.free).toNat % (commitFuses type s).length)) s.boot.fuses } })) = .done st [] change (eff s)) :
    Answers (.commitSvn h type blows) h .fm 0x14 hyp st (fun _ => []) change eff :=
  answers_of_rule (execCommitSvn h type blows) (fun _ => rfl) fun s hh =>
    (if_neg (by simp; omega)).trans (hrest s hh)

variable (hlo : 1 ≤ type) (hhi : type ≤ 3)
include hlo hhi

theorem commitSvn_blows : Changes (.commitSvn h type true) h 0x14 (RevokesSpare type)
    (fun s => { s with boot := { s.boot with fuses := blow (commitFuses type s) s.boot.fuses } }) :=
  commitSvn_typed hlo hhi fun _ hr => if_neg (Bool.not_eq_true _ ▸ hr)

theorem commitSvn_nothing : Changes (.commitSvn h type false) h 0x14
    (fun s => RevokesSpare type s ∧ commitFuses type s = []) (fun s => s) :=
  commitSvn_typed hlo hhi fun s ⟨hr, he⟩ => by
    rw [if_neg (Bool.not_eq_true _ ▸ hr), he]
    rfl

theorem commitSvn_barred (blows : Bool) : Refuses (.commitSvn h type blows) h .fm 0x14
    (fun s => (commitRevokes type s).any (signingFuses s).contains = true) .state :=
  commitSvn_typed hlo hhi fun _ hr => if_pos hr

/-- A fuse that fails to blow leaves those before it blown. -/
theorem commitSvn_fails : Answers (.commitSvn h type false) h .fm 0x14
    (fun s => RevokesSpare type s ∧ commitFuses type s ≠ []) .state (fun _ => []) true
    (fun s => post .fuseFault none [type] { s with
      free := s.free + 1,
      boot := { s.boot with fuses := blow ((commitFuses type s).take
        ((Config.freeWord s.free).toNat % (commitFuses type s).length)) s.boot.fuses } }) :=
  commitSvn_typed hlo hhi fun s ⟨hr, he⟩ =>
    (if_neg (Bool.not_eq_true _ ▸ hr)).trans (if_neg (by simp [he]))
end

theorem commitSvn_untyped (h : Mgmt) {type : Nat} (ht : type = 0 ∨ 3 < type) (blows : Bool) :
    Refuses (.commitSvn h type blows) h .fm 0x14 (fun _ => True) .state :=
  answers_of_rule (execCommitSvn h type blows) (fun _ => rfl) fun _ _ => if_pos (by simpa using ht)

/-- Settles O45: each message by its own rule. -/
theorem trustRequests : Obligations.TrustRequests := by
  unfold Obligations.TrustRequests
  intro h
  refine ⟨fun kind nonce hm => ⟨?attest, attest_refused hm nonce, identityCert_answers hm⟩,
    leaseChallenge_answers h, fun type hlo hhi => ⟨?blows, ?nothing, ?barred, ?fails⟩, fun type b ht => commitSvn_untyped h ht b⟩
  case attest => exact attest_answers hm nonce
  case blows => exact commitSvn_blows hlo hhi
  case nothing => exact commitSvn_nothing hlo hhi
  case barred => exact commitSvn_barred hlo hhi
  case fails => exact commitSvn_fails hlo hhi

end Sys2Proof.Machine

/-! # Certificates, images and partitions -/

namespace Sys2Proof.Machine

set_option Elab.async false

/-! ## Certificates (R386 to R389) -/

/-- What a certificate that passes the checks of R387 has met of them. -/
structure Passed (s : State) (c : Cert) : Prop where
  form : certForm s c true = true
  unfenced : s.boot.fenced = false
  later : ∀ q, s.boot.certSeq = some q → q.toNat < c.certSeq.toNat

theorem check_eq_none {p : Prop} [Decidable p] {st : St} {o : Option St} :
    (if p then some st else o) = none ↔ ¬ p ∧ o = none := by
  split
  · next hp => exact iff_of_false nofun fun ⟨hn, _⟩ => hn hp
  · next hp => exact ⟨fun ho => ⟨hp, ho⟩, And.right⟩

theorem passed_of_certCheck {s : State} {c : Cert} (h : certCheck s c true = none) : Passed s c := by
  rw [certCheck, check_eq_none, check_eq_none, check_eq_none, check_eq_none, check_eq_none] at h
  obtain ⟨hform, hfenced, -, -, hseq, -⟩ := h
  refine ⟨by simpa using hform, by simpa using hfenced, fun q hq => ?_⟩
  rw [hq] at hseq
  simpa using hseq

/-- CERT_SUBMIT of the row's kind: the first failing check gives the status, and one that passes has its effect. -/
theorem submitCert_answers {i : Instr} {kind : Nat} {h : Mgmt} {c : Cert} {effect : State → State} {hyp : State → Prop} {st : St}
    {change : Bool} {eff : State → State} (hkind : c.kind.toNat = kind)
    (hrule : ∀ s, hyp s → (match certCheck s c true with
      | some st => no st s
      | none => yes (effect (acceptCert c s))) = .done st [] change (eff s))
    (hexec : ∀ s, exec i s = submitCert kind h c effect s := by exact fun _ => rfl) :
    Answers i h .fm 0x12 hyp st (fun _ => []) change eff := by
  intro s hs hh
  rw [hexec, submitCert, if_neg (not_not_intro hkind)]
  refine request_done hs (hs.fm (by decide)) ?_
  rw [hs.length]
  exact hrule s hh

/-- The row of a kind of certificate. -/
theorem submitCert_row {i : Instr} {kind : Nat} {h : Mgmt} {c : Cert} {effect : State → State} (hkind : c.kind.toNat = kind)
    (hexec : ∀ s, exec i s = submitCert kind h c effect s := by exact fun _ => rfl) :
    Changes i h 0x12 (fun s => certCheck s c true = none) (fun s => effect (acceptCert c s)) ∧
    ∀ st, Refuses i h .fm 0x12 (fun s => certCheck s c true = some st) st :=
  ⟨submitCert_answers hkind (fun s hc => by rw [hc]; rfl) hexec, fun st => submitCert_answers hkind (fun s hc => by rw [hc]; rfl) hexec⟩

/-- A certificate of a reserved KIND fails check 1. -/
theorem reservedKind_refused {h : Mgmt} {c : Cert} (hk : c.kind.toNat = 0 ∨ 5 < c.kind.toNat) :
    Refuses (.certSubmitReservedKind h c) h .fm 0x12 (fun _ => True) .opcode := by
  intro s hs _
  show execCertSubmitReservedKind h c s = _
  rw [execCertSubmitReservedKind, if_neg (by omega)]
  refine request_done hs (hs.fm (by decide)) ?_
  have hform : certForm s c h.lenOk = false := by
    rw [certForm]
    rcases hk with hk | hk <;> simp [hk]
  rw [certCheck, hform]
  rfl

/-- The effect of READMIT_NODE (R388). -/
def readmitted (c : Cert) (t : State) : State :=
  { t with boot := { t.boot with expelled := t.boot.expelled.filter (· ≠ c.target) } }

/-- The effect of RENEW_LEASE (R388). -/
def renewed (c : Cert) (t : State) : State :=
  { t with free := t.free + 1, boot := { t.boot with leaseMs := some (leaseOf t c), challenge := Config.freeWord t.free } }

/-- Settles O48: each kind by the row of its certificate, LEASE_EXPIRY by its own. -/
theorem certificateEffects : Obligations.CertificateEffects := by
  unfold Obligations.CertificateEffects
  intro h c
  refine ⟨fun hk => submitCert_row hk, fun hk => submitCert_row (effect := readmitted c) hk,
    fun hk => submitCert_row hk, fun hk => submitCert_row (effect := renewed c) hk,
    fun silent refusing hk => submitCert_row hk, reservedKind_refused, fun s hr hl => ?_, fun s hl => ?_, fun _ => rfl,
    fun s q hq hc => (passed_of_certCheck hc).later q hq, fun s hf hc => ?_⟩
  · exact congrArg Host.Outcome.next (if_pos ⟨hr, hl⟩)
  · exact congrArg Host.Outcome.next (if_neg (by simp [hl]))
  · rw [(passed_of_certCheck hc).unfenced] at hf
    cases hf

end Sys2Proof.Machine

/-! # Images in service, and partitions -/

namespace Sys2Proof.Machine

set_option Elab.async false

/-! ## Images in service (R442, R443, R445) -/

/-- The identity area is written before deployment only (R442). -/
def FlashBarred (slot : FlashSlot) (s : State) : Prop := slot = .identity ∧ lifecycle s.boot.fuses ≠ 1 ∧ lifecycle s.boot.fuses ≠ 3

/-- The test by which FLASH_WRITE is barred. -/
theorem flashBarred_iff {slot : FlashSlot} {s : State} :
    (decide (slot = .identity) && !(lifecycle s.boot.fuses == 1 || lifecycle s.boot.fuses == 3)) = true ↔ FlashBarred slot s := by
  simp [FlashBarred]

section
variable {h : Mgmt} {slot : FlashSlot} {d : FlashData}

theorem flashWrite_writes : Changes (.flashWrite h slot d) h 0x15 (fun s => ¬ FlashBarred slot s ∧ writeFits slot d = true)
    (flashed slot d) :=
  answers_of_rule (execFlashWrite h slot d) (fun _ => rfl) fun _ ⟨hb, hf⟩ =>
    (if_neg fun hn => hb (flashBarred_iff.1 hn)).trans (if_neg (by simp [hf]))

theorem flashWrite_barred : Refuses (.flashWrite h slot d) h .fm 0x15 (FlashBarred slot) .noAccess :=
  answers_of_rule (execFlashWrite h slot d) (fun _ => rfl) fun _ hb => if_pos (flashBarred_iff.2 hb)

theorem flashWrite_unfit :
    Refuses (.flashWrite h slot d) h .fm 0x15 (fun s => ¬ FlashBarred slot s ∧ writeFits slot d = false) .state :=
  answers_of_rule (execFlashWrite h slot d) (fun _ => rfl) fun _ ⟨hb, hf⟩ =>
    (if_neg fun hn => hb (flashBarred_iff.1 hn)).trans (if_pos (by simp [hf]))
end

/-- A charter with the device sections of the running one takes effect at once, another at the next start (R445). -/
theorem activateCharter_eq {s : State} {i : Image} {c o : Charter} (hi : i.content = .charter c) (ho : s.boot.charter = some o) :
    activateCharter i s = if sameDevice o c then post .charterActivated none [i.block.version.toNat] { s with boot := {
        s.boot with charter := some c, charterImage := some i, fwSlots := s.boot.fwSlots &&& 0x7D } }
    else post .charterStaged none [i.block.version.toNat] { s with boot := { s.boot with staged := some i } } := by
  rw [activateCharter, hi]
  dsimp only
  rw [ho]

section
variable {h : Mgmt} {kind : Nat}

/-- FLASH_ACTIVATE of a kind that R442 knows checks slot A. -/
theorem flashActivate_checked {hyp : State → Prop} {st : St} {change : Bool} {eff : State → State} (hk : kind = 1 ∨ kind = 3)
    (hrest : ∀ s, hyp s → (match slotCheck s (if kind = 1 then .rtp false else .charter false) with
      | .error st => no st s
      | .ok i => yes (if kind = 3 then activateCharter i s else s)) = .done st [] change (eff s)) :
    Answers (.flashActivate h kind false) h .fm 0x16 hyp st (fun _ => []) change eff :=
  answers_of_rule (execFlashActivate h kind false) (fun _ => rfl) fun s hh =>
    (if_neg (by simpa using fun h1 => hk.resolve_left h1)).trans (hrest s hh)

theorem flashActivate_firmware (i : Image) :
    Changes (.flashActivate h 1 false) h 0x16 (fun s => slotCheck s (.rtp false) = .ok i) (fun s => s) :=
  flashActivate_checked (.inl rfl) fun s hi => by
    rw [if_pos rfl, hi]
    rfl

theorem flashActivate_failed (st : St) :
    Refuses (.flashActivate h 1 false) h .fm 0x16 (fun s => slotCheck s (.rtp false) = .error st) st ∧
    Refuses (.flashActivate h 3 false) h .fm 0x16 (fun s => slotCheck s (.charter false) = .error st) st :=
  ⟨flashActivate_checked (.inl rfl) fun s he => by
      rw [if_pos rfl, he]
      rfl,
    flashActivate_checked (.inr rfl) fun s he => by
      rw [if_neg (by decide), he]
      rfl⟩

/-- A charter that passes has the effect that its device sections call for. -/
theorem flashActivate_charter {i : Image} {c : Charter} (hc : i.content = .charter c) (same : Bool) :
    Changes (.flashActivate h 3 false) h 0x16
      (fun s => slotCheck s (.charter false) = .ok i ∧ ∃ o, s.boot.charter = some o ∧ sameDevice o c = same)
      (fun s => if same then post .charterActivated none [i.block.version.toNat] { s with boot := {
          s.boot with charter := some c, charterImage := some i, fwSlots := s.boot.fwSlots &&& 0x7D } }
        else post .charterStaged none [i.block.version.toNat] { s with boot := { s.boot with staged := some i } }) :=
  flashActivate_checked (.inr rfl) fun s ⟨hi, o, ho, hsame⟩ => by
    rw [if_neg (by decide), hi]
    dsimp only
    rw [if_pos rfl, activateCharter_eq hc ho, hsame]
    rfl

theorem flashActivate_unknown {b : Bool} (hb : b = true ∨ (kind ≠ 1 ∧ kind ≠ 3)) :
    Refuses (.flashActivate h kind b) h .fm 0x16 (fun _ => True) .state :=
  answers_of_rule (execFlashActivate h kind b) (fun _ => rfl) fun _ _ => if_pos (by simpa using hb)
end

/-! ### ENGINE_FW_UPDATE (R442, R443) -/

/-- The partitions that a mask names. -/
def namedParts (ps : BitVec 16) : List Nat := (List.range 16).filter fun p => ps.getLsbD p

/-- The state once an image is current in each partition named. -/
def fwUpdated (e : Nat) (i : Image) (ps : BitVec 16) (s : State) : State := (namedParts ps).foldl (fun u p => updateFw e i p u) s

/-- The state once an image is also the device's for partitions to come. -/
def fwMadeCurrent (e : Nat) (i : Image) (b : Bool) (t : State) : State :=
  let bit : BitVec 7 := BitVec.ofNat 7 (2 ^ (e + 1))
  { t with boot := { t.boot with
    engineFw := tset t.boot.engineFw e i, fwSlots := if b then t.boot.fwSlots ||| bit else t.boot.fwSlots &&& ~~~bit } }

theorem fwMadeCurrent_slot {e : Nat} {i : Image} {b : Bool} {t : State} (he : e ≤ 5) :
    (fwMadeCurrent e i b t).boot.fwSlots.getLsbD (e + 1) = b := by
  have hbit : (BitVec.ofNat 7 (2 ^ (e + 1))).getLsbD (e + 1) = true := by
    rw [BitVec.getLsbD_ofNat, Nat.testBit_two_pow_self, decide_eq_true (by omega)]
    rfl
  cases b with
  | true => exact (BitVec.getLsbD_or ..).trans (by rw [hbit, Bool.or_true])
  | false => exact (BitVec.getLsbD_and ..).trans (by rw [BitVec.getLsbD_not, hbit, Bool.not_true, Bool.and_false, Bool.and_false])

section
variable {h : Mgmt} {e : Nat} {b : Bool} {ps : BitVec 16}

theorem engineFwUpdate_noEngine (he : e = 0 ∨ 5 < e) (all : Bool) :
    Refuses (.engineFwUpdate h e b ps all) h .fm 0x17 (fun _ => True) .state :=
  answers_of_rule (execEngineFwUpdate h e b ps all) (fun _ => rfl) fun _ _ => if_pos (by simpa using he)

variable (hlo : 1 ≤ e) (hhi : e ≤ 5)
include hlo hhi

/-- ENGINE_FW_UPDATE of an engine checks its slot, then whether each partition named can take the image. -/
theorem engineFwUpdate_checked {all : Bool} {hyp : State → Prop} {st : St} {change : Bool} {eff : State → State}
    (hrest : ∀ s, hyp s → (match slotCheck s (.engine e b) with
      | .error st => no st s
      | .ok i => if !(namedParts ps).all (fun p => canUpdate s p e) then no .state s
        else yes (if all then fwMadeCurrent e i b (fwUpdated e i ps s) else fwUpdated e i ps s)) = .done st [] change (eff s)) :
    Answers (.engineFwUpdate h e b ps all) h .fm 0x17 hyp st (fun _ => []) change eff :=
  answers_of_rule (execEngineFwUpdate h e b ps all) (fun _ => rfl) fun s hh =>
    (if_neg (by simp; omega)).trans (hrest s hh)

theorem engineFwUpdate_failed (all : Bool) (st : St) :
    Refuses (.engineFwUpdate h e b ps all) h .fm 0x17 (fun s => slotCheck s (.engine e b) = .error st) st :=
  engineFwUpdate_checked hlo hhi fun s he => by
    rw [he]
    rfl

variable {i : Image}

/-- An image that passes, in partitions that can each take it. -/
theorem engineFwUpdate_updates (all : Bool) :
    Changes (.engineFwUpdate h e b ps all) h 0x17
      (fun s => slotCheck s (.engine e b) = .ok i ∧ ∀ p ∈ namedParts ps, canUpdate s p e = true)
      (fun s => if all then fwMadeCurrent e i b (fwUpdated e i ps s) else fwUpdated e i ps s) :=
  engineFwUpdate_checked hlo hhi fun s ⟨hi, hp⟩ => by
    rw [hi]
    exact if_neg (by simpa using hp)

theorem engineFwUpdate_held (all : Bool) : Refuses (.engineFwUpdate h e b ps all) h .fm 0x17
    (fun s => slotCheck s (.engine e b) = .ok i ∧ ∃ p ∈ namedParts ps, canUpdate s p e = false) .state :=
  engineFwUpdate_checked hlo hhi fun s ⟨hi, hp⟩ => by
    rw [hi]
    exact if_pos (by simpa using hp)
end

/-- Settles O47: each message by its own rule. -/
theorem imageRequests : Obligations.ImageRequests := by
  unfold Obligations.ImageRequests
  intro h
  refine ⟨fun slot d => ⟨flashWrite_writes, flashWrite_barred, flashWrite_unfit⟩, flashActivate_firmware,
    fun i c hc => ⟨flashActivate_charter hc true, flashActivate_charter hc false⟩, flashActivate_failed,
    fun kind b hb => flashActivate_unknown hb, fun e b ps i hlo hhi => ⟨?updates, ?all, ?held⟩,
    fun e b ps all st hlo hhi => engineFwUpdate_failed hlo hhi all st, fun e b ps all he => engineFwUpdate_noEngine he all⟩
  case updates => exact engineFwUpdate_updates hlo hhi false
  case all =>
    exact fun s hs hok => ⟨fwMadeCurrent e i b (fwUpdated e i ps s), engineFwUpdate_updates hlo hhi true s hs hok,
      tget_tset_same _ _ _, fwMadeCurrent_slot hhi, rfl⟩
  case held => exact fun all => engineFwUpdate_held hlo hhi all

/-! ## Partitions (R364 to R367, R409) -/

/-- The row of a fabric manager's message whose own rule answers it later. -/
theorem waits_of_rule {c : Instr} {h : Mgmt} {code : Nat} {s t : State} {own : Bool} {go : SessKind → State → MRes}
    (row : State → Out) (hrow : ∀ s, row s = request code own h go s) (hs : Requests h s) (hrule : go .fm s = .wait t)
    (hexec : ∀ s, exec c s = row s := by exact fun _ => rfl) (hd : codeDefined code = true := by decide) :
    exec c s = .next t :=
  ((hexec s).trans (hrow s)).trans (request_wait hs (hs.fm hd) hrule)

/-- What a waiting request leaves (R366). -/
def awaiting (w : MgmtWait) (s : State) : State := { s with mgmt := { s.mgmt with waiting := s.mgmt.waiting ++ [w] } }

section
variable {h : Mgmt} {part : Nat} {r : Resources}

/-- PART_COMPOSE of a partition's number composes. -/
theorem compose_rule {s : State} (hp : part < 16) : (if 16 ≤ part then no .state s else compose h part r s) = compose h part r s :=
  if_neg (Nat.not_le.2 hp)

theorem partCompose_joins {c : PartCfg} {t : Template} (hp : part < 16) : Changes (.partCompose h part r) h 0x20
    (fun s => composeCheck s part r = .ok (c, t) ∧ scrubs s r = false) (composed part c t r) :=
  answers_of_rule (execPartCompose h part r) (fun _ => rfl) fun s ⟨hc, hs⟩ => (compose_rule hp).trans (by
    rw [compose, hc]
    exact if_neg (by simp [hs]))

theorem partCompose_waits {s : State} {c : PartCfg} {t : Template} (hp : part < 16) (hs : Requests h s)
    (hc : composeCheck s part r = .ok (c, t)) (hsc : scrubs s r = true) :
    exec (.partCompose h part r) s = .next (awaiting (.compose h part r) s) :=
  waits_of_rule (execPartCompose h part r) (fun _ => rfl) hs ((compose_rule hp).trans (by
    rw [compose, hc]
    exact if_pos hsc))

theorem partCompose_refused {st : St} (hp : part < 16) :
    Refuses (.partCompose h part r) h .fm 0x20 (fun s => composeCheck s part r = .error st) st :=
  answers_of_rule (execPartCompose h part r) (fun _ => rfl) fun s hc => (compose_rule hp).trans (by
    rw [compose, hc]
    rfl)

theorem partCompose_noPart (hp : 16 ≤ part) : Refuses (.partCompose h part r) h .fm 0x20 (fun _ => True) .state :=
  answers_of_rule (execPartCompose h part r) (fun _ => rfl) fun _ _ => if_pos hp

theorem partGrow_joins {c : PartCfg} : Changes (.partGrow h part r) h 0x21
    (fun s => growCheck s part r = .ok c ∧ scrubs s r = false) (grown part c r) :=
  answers_of_rule (execPartGrow h part r) (fun _ => rfl) fun s ⟨hc, hs⟩ => by
    rw [grow, hc]
    exact if_neg (by simp [hs])

theorem partGrow_waits {s : State} {c : PartCfg} (hs : Requests h s) (hc : growCheck s part r = .ok c) (hsc : scrubs s r = true) :
    exec (.partGrow h part r) s = .next (awaiting (.grow h part r) s) :=
  waits_of_rule (execPartGrow h part r) (fun _ => rfl) hs (by
    rw [grow, hc]
    exact if_pos hsc)

theorem partGrow_refused {st : St} : Refuses (.partGrow h part r) h .fm 0x21 (fun s => growCheck s part r = .error st) st :=
  answers_of_rule (execPartGrow h part r) (fun _ => rfl) fun s hc => by
    rw [grow, hc]
    rfl

theorem partShrink_starts {s : State} (hs : Requests h s) (hok : shrinkOk s part r = true) :
    exec (.partShrink h part r) s = .next (startShrink h part r s) :=
  waits_of_rule (execPartShrink h part r) (fun _ => rfl) hs (if_pos hok)

theorem partShrink_refused : Refuses (.partShrink h part r) h .fm 0x22 (fun s => shrinkOk s part r = false) .state :=
  answers_of_rule (execPartShrink h part r) (fun _ => rfl) fun _ hok => if_neg (by simp [hok])
end

section
variable {h : Mgmt} {part : Nat}

theorem partReset_begins :
    Changes (.partReset h part) h 0x23 (fun s => partState s part = .active) (beginReset part false false) :=
  answers_of_rule (execPartReset h part) (fun _ => rfl) fun _ ha => if_pos ha

theorem partReset_refused : Refuses (.partReset h part) h .fm 0x23 (fun s => partState s part ≠ .active) .state :=
  answers_of_rule (execPartReset h part) (fun _ => rfl) fun _ ha => if_neg ha

theorem partDissolve_frees : Changes (.partDissolve h part) h 0x24 (fun s => dissolveOk s part = true) (dissolve part) :=
  answers_of_rule (execPartDissolve h part) (fun _ => rfl) fun _ hok => if_pos hok

theorem partDissolve_refused : Refuses (.partDissolve h part) h .fm 0x24 (fun s => dissolveOk s part = false) .state :=
  answers_of_rule (execPartDissolve h part) (fun _ => rfl) fun _ hok => if_neg (by simp [hok])

theorem partRead_returns (hp : part < 16) :
    Answers (.partRead h part) h .fm 0x25 (fun _ => True) .ok (fun s => partVals s part) false (fun s => s) :=
  answers_of_rule (execPartRead h part) (fun _ => rfl) fun _ _ => if_neg (Nat.not_le.2 hp)

theorem partRead_noPart (hp : 16 ≤ part) : Refuses (.partRead h part) h .fm 0x25 (fun _ => True) .state :=
  answers_of_rule (execPartRead h part) (fun _ => rfl) fun _ _ => if_pos hp
end

/-- Settles O49: each operation by its own checks. -/
theorem partitionRequests : Obligations.PartitionRequests := by
  unfold Obligations.PartitionRequests
  intro h part r
  exact ⟨fun _ _ hp => ⟨partCompose_joins hp, fun _ hs hc hsc => partCompose_waits hp hs hc hsc⟩, fun _ hp => partCompose_refused hp,
    partCompose_noPart, fun _ => ⟨partGrow_joins, fun _ hs hc hsc => partGrow_waits hs hc hsc⟩, fun _ => partGrow_refused,
    fun _ hs hok => partShrink_starts hs hok, partShrink_refused, partReset_begins, partReset_refused, partDissolve_frees,
    partDissolve_refused, partRead_returns, partRead_noPart⟩

end Sys2Proof.Machine

/-! # Observation -/

namespace Sys2Proof.Machine

set_option Elab.async false

/-! ## Observation (R448, R451, R454, R458 to R460, R463, R465) -/

section
variable {h : Mgmt}

theorem counterConfig_programs {type lo hi idx : Nat} {c : Control} :
    (programOk type lo hi idx c = true → Changes (.counterConfig h (.program type lo hi idx c)) h 0x70 (fun _ => True)
      (program type lo hi idx c)) ∧
    (programOk type lo hi idx c = false → Refuses (.counterConfig h (.program type lo hi idx c)) h .fm 0x70 (fun _ => True) .state) :=
  ⟨fun hok => answers_of_rule (execCounterConfig h (.program type lo hi idx c)) (fun _ => rfl) fun _ _ => if_pos hok,
    fun hok => answers_of_rule (execCounterConfig h (.program type lo hi idx c)) (fun _ => rfl) fun _ _ => if_neg (by simp [hok])⟩

theorem counterConfig_portWindow {n : Nat} :
    (10 ≤ n ∧ n ≤ 30 → Changes (.counterConfig h (.portWindow n)) h 0x70 (fun _ => True)
      (fun s => { s with obs := { s.obs with windowLog2 := n } })) ∧
    (¬ (10 ≤ n ∧ n ≤ 30) → Refuses (.counterConfig h (.portWindow n)) h .fm 0x70 (fun _ => True) .state) :=
  ⟨fun hn => answers_of_rule (execCounterConfig h (.portWindow n)) (fun _ => rfl) fun _ _ => if_pos hn,
    fun hn => answers_of_rule (execCounterConfig h (.portWindow n)) (fun _ => rfl) fun _ _ => if_neg hn⟩

theorem counterConfig_supervisorWindow {n : Nat} :
    (10 ≤ n ∧ n ≤ 10000 → Changes (.counterConfig h (.supervisorWindow n)) h 0x70 (fun _ => True)
      (fun s => { s with obs := { s.obs with supWindowMs := n } })) ∧
    (¬ (10 ≤ n ∧ n ≤ 10000) → Refuses (.counterConfig h (.supervisorWindow n)) h .fm 0x70 (fun _ => True) .state) :=
  ⟨fun hn => answers_of_rule (execCounterConfig h (.supervisorWindow n)) (fun _ => rfl) fun _ _ => if_pos hn,
    fun hn => answers_of_rule (execCounterConfig h (.supervisorWindow n)) (fun _ => rfl) fun _ _ => if_neg hn⟩

section
variable {scope : List (Nat × Nat × Nat)} {silent : List (Nat × Nat)}

/-- What COUNTER_READ takes for a kind of session. -/
def readFor (kind : SessKind) (scope : List (Nat × Nat × Nat)) (silent : List (Nat × Nat)) (s : State) : Nat × List Nat × State :=
  match kind with
  | .supervisor p => supSnapshot p scope silent s
  | _ => snapshot scope silent s

theorem counterRead_takes {kind : SessKind} (hm : MaySend h kind) (hsc : scopeOk scope = true) :
    Answers (.counterRead h scope silent) h kind 0x71 (fun _ => True) .ok
      (fun s => (readFor kind scope silent s).1 :: (readFor kind scope silent s).2.1) false
      (fun s => (readFor kind scope silent s).2.2) :=
  answers_of_maySend (execCounterRead h scope silent) hm (fun _ => rfl) fun _ _ _ => (if_neg (by simp [hsc])).trans rfl

theorem counterRead_refused {kind : SessKind} (hm : MaySend h kind) (hsc : scopeOk scope = false) :
    Refuses (.counterRead h scope silent) h kind 0x71 (fun _ => True) .state :=
  answers_of_maySend (execCounterRead h scope silent) hm (fun _ => rfl) fun _ _ _ => if_pos (by simp [hsc])
end

/-- Whether the request's session is a sink already. -/
def isSink (h : Mgmt) (s : State) : Bool := match tget s.mgmt.sessions h.sess with | some k => k.sink.isSome | none => false

/-- Whether TRACE_CONFIG is accepted: its fields lie in their ranges, and its session is a sink or may become one. -/
def MayTrace (h : Mgmt) (cfg : TraceCfg) (s : State) : Prop := traceOk cfg = true ∧ (isSink h s = true ∨ sinkCount s < 2)

/-- The test by which TRACE_CONFIG is refused. -/
theorem traceBarred_iff {cfg : TraceCfg} {s : State} :
    (!traceOk cfg || (!isSink h s && decide (2 ≤ sinkCount s))) = true ↔ ¬ MayTrace h cfg s := by
  rw [← Bool.not_eq_false]
  refine not_congr ?_
  simp only [MayTrace, Bool.or_eq_false_iff, Bool.not_eq_eq_eq_not, Bool.not_false, Bool.and_eq_false_imp, Bool.not_true,
    decide_eq_false_iff_not, Nat.not_le, or_iff_not_imp_left, Bool.not_eq_true]

theorem traceConfig_sets {cfg : TraceCfg} : Changes (.traceConfig h cfg) h 0x72 (MayTrace h cfg)
    (fun s => { s with mgmt := { s.mgmt with sessions := tmod s.mgmt.sessions h.sess (setSink cfg) } }) :=
  answers_of_rule (execTraceConfig h cfg) (fun _ => rfl) fun _ hok => if_neg fun hb => traceBarred_iff.1 hb hok

theorem traceConfig_refused {cfg : TraceCfg} : Refuses (.traceConfig h cfg) h .fm 0x72 (fun s => ¬ MayTrace h cfg s) .state :=
  answers_of_rule (execTraceConfig h cfg) (fun _ => rfl) fun _ hok => if_pos (traceBarred_iff.2 hok)

section
variable {engine part n : Nat} {seed : Word32} {on : Bool}

theorem sampleConfig_sets (hf : 1 ≤ engine ∧ engine ≤ 5 ∧ part < 16 ∧ n ≤ 20) :
    Changes (.sampleConfig h engine part n seed on) h 0x73 (fun _ => True) (fun s => { s with obs := { s.obs with
      sampling := tset s.obs.sampling (part * 8 + engine) { n := n, seed := seed, enable := on } } }) :=
  answers_of_rule (execSampleConfig h engine part n seed on) (fun _ => rfl) fun _ _ => if_neg (by omega)

theorem sampleConfig_refused (hf : ¬ (1 ≤ engine ∧ engine ≤ 5 ∧ part < 16 ∧ n ≤ 20)) :
    Refuses (.sampleConfig h engine part n seed on) h .fm 0x73 (fun _ => True) .state :=
  answers_of_rule (execSampleConfig h engine part n seed on) (fun _ => rfl) fun _ _ => if_pos (by omega)
end
end

/-- The last end of a supervisor window before a time: windows are aligned on the reference timer (R459). -/
theorem windowEnd_bounds {ms : Nat} (time : Nat) (hm : ms ≠ 0) :
    time < time / max 1 (ms * 1000000) * max 1 (ms * 1000000) + ms * 1000000 ∧
    ms * 1000000 ∣ time / max 1 (ms * 1000000) * max 1 (ms * 1000000) := by
  rw [max_eq_right (show 1 ≤ ms * 1000000 by omega)]
  refine ⟨?_, Nat.dvd_mul_left _ _⟩
  have hmod := Nat.mod_lt time (show 0 < ms * 1000000 by omega)
  have hdiv := Nat.div_add_mod' time (ms * 1000000)
  omega

/-- Settles O52: each request by its own rule, the ends of windows by theirs. -/
theorem observationRequests : Obligations.ObservationRequests := by
  unfold Obligations.ObservationRequests
  refine ⟨fun h => ⟨fun _ _ _ _ _ => counterConfig_programs, fun _ => counterConfig_portWindow, fun _ => counterConfig_supervisorWindow,
    fun _ _ hsc => ⟨?manager, ?supervisor⟩, fun _ _ _ hm hsc => counterRead_refused hm hsc,
    fun _ => ⟨traceConfig_sets, traceConfig_refused⟩, fun _ _ _ _ _ => ⟨sampleConfig_sets, sampleConfig_refused⟩⟩,
    fun s hd => ?window, fun s hd => ?dark, fun s hp => ?supWindow⟩
  case manager => exact counterRead_takes (.inl rfl) hsc
  case supervisor => exact counterRead_takes (.inr rfl) hsc
  case window => exact ⟨_, congrArg Host.Outcome.next (if_neg (by simp [hd])), rfl, rfl⟩
  case dark => exact congrArg Host.Outcome.next (if_pos (by simp [hd]))
  case supWindow =>
    exact ⟨_, congrArg Host.Outcome.next (if_pos hp), Nat.div_mul_le_self _ _, windowEnd_bounds _, rfl, rfl, rfl, rfl, rfl⟩

end Sys2Proof.Machine

/-! # Sessions, events and sinks -/

namespace Sys2Proof.Machine

set_option Elab.async false

/-! ## Sessions (R380, R383) -/

/-- An entry that a table gives stands under its key. -/
theorem key_mem_of_tget {α : Type} {t : Table α} {n : Nat} (h : thas t n = true) : n ∈ t.map (·.1) := by
  obtain ⟨x, hx⟩ := Option.isSome_iff_exists.1 h
  exact List.mem_map_of_mem (f := Prod.fst) (mem_of_tget hx)

/-- With fewer than 32 sessions open, the first free of the 32 numbers is a session's. -/
theorem session_free {t : Table Session} (hl : t.length < 32) :
    ∃ i, (List.range 32).find? (fun i => !thas t i) = some i ∧ i < 32 ∧ thas t i = false := by
  have hfree : ∃ i ∈ List.range 32, thas t i = false := by
    by_contra hall
    push Not at hall
    have hsub : List.range 32 ⊆ t.map (·.1) := fun i hi => key_mem_of_tget (by simpa using hall i hi)
    have hle := (List.nodup_range.subperm hsub).length_le
    rw [List.length_range, List.length_map] at hle
    omega
  obtain ⟨j, hj, hfj⟩ := hfree
  obtain ⟨i, hi⟩ := Option.isSome_iff_exists.1 (List.find?_isSome.2 ⟨j, hj, by simp [hfj]⟩ :
    ((List.range 32).find? fun i => !thas t i).isSome = true)
  exact ⟨i, hi, List.mem_range.1 (List.mem_of_find?_eq_some hi), by simpa using List.find?_some hi⟩

section
variable {key : BitVec 256} {s : State}

theorem sessionOpen_opens {k : SessKind} (hk : sessionFor s key = some k) (hup : mgmtUp s = true)
    (hl : s.mgmt.sessions.length < 32) :
    ∃ id, id < 32 ∧ thas s.mgmt.sessions id = false ∧ exec (.sessionOpen key) s = .next { s with
      phys := { s.phys with refMgmt := true }, mgmt := { s.mgmt with sessions := tset s.mgmt.sessions id (newSession k key) } } := by
  obtain ⟨id, hfind, hid, hfree⟩ := session_free hl
  refine ⟨id, hid, hfree, ?_⟩
  show execSessionOpen key s = _
  rw [execSessionOpen, hk]
  dsimp only
  rw [if_neg (by simp [hup, hl]), hfind]
  rfl

theorem sessionOpen_refused (h : sessionFor s key = none ∨ mgmtUp s = false ∨ 32 ≤ s.mgmt.sessions.length) :
    exec (.sessionOpen key) s = .next s := by
  show execSessionOpen key s = _
  rw [execSessionOpen]
  cases hk : sessionFor s key with
  | none => rfl
  | some k =>
    rw [hk] at h
    exact congrArg Host.Outcome.next (if_pos (by simpa using h))

/-- Outside recovery mode a key of the charter's fabric managers opens a fabric manager's session, another the session of the
first partition that has it as a supervisor's. -/
theorem sessionFor_eq {c : Charter} (hp : s.boot.phase ≠ .recovery) (hc : s.boot.charter = some c) :
    sessionFor s key = if c.keys.fmKeys.contains key then some .fm
      else ((List.range 16).find? (fun p => (supKeysOf s p).contains key)).map .supervisor := by
  rw [sessionFor, if_neg hp, hc]

theorem sessionFor_supervisor {c : Charter} (hp : s.boot.phase ≠ .recovery) (hc : s.boot.charter = some c) {p : Nat}
    (h : sessionFor s key = some (.supervisor p)) : p < 16 ∧ (supKeysOf s p).contains key = true := by
  rw [sessionFor_eq hp hc] at h
  split at h
  · cases h
  · obtain ⟨q, hq, e⟩ := Option.map_eq_some_iff.1 h
    cases e
    exact ⟨List.mem_range.1 (List.mem_of_find?_eq_some hq), List.find?_some (p := fun p => (supKeysOf s p).contains key) hq⟩

theorem sessionFor_none {c : Charter} (hp : s.boot.phase ≠ .recovery) (hc : s.boot.charter = some c)
    (hf : c.keys.fmKeys.contains key = false) (hs : ∀ p < 16, (supKeysOf s p).contains key = false) : sessionFor s key = none := by
  rw [sessionFor_eq hp hc, if_neg (by rw [hf]; decide), Option.map_eq_none_iff, List.find?_eq_none]
  exact fun p hm => by rw [hs p (List.mem_range.1 hm)]; decide
end

section
variable {h : Mgmt} {kind : SessKind} (hm : MaySend h kind)
include hm

theorem eventSubscribe_notes : Answers (.eventSubscribe h) h kind 0x80 (fun _ => True) .ok (fun _ => []) true
    (fun s => { s with mgmt := { s.mgmt with sessions := tmod s.mgmt.sessions h.sess (fun k =>
      { k with subscribed := true, readUpTo := s.mgmt.eventSeq }) } }) :=
  answers_of_maySend (execEventSubscribe h) hm (fun _ => rfl) fun _ _ _ => rfl

theorem eventRead_reads (start : Nat) : Answers (.eventRead h start) h kind 0x81 (fun _ => True) .ok (fun s =>
      s.mgmt.eventsLost :: ((s.mgmt.events.filter (fun e => decide (start ≤ e.seq) && evFor e kind)).map (fun e =>
        e.seq :: e.name.ctorIdx :: e.args.length :: e.args)).flatten) false
    (fun s => { s with mgmt := { s.mgmt with sessions := tmod s.mgmt.sessions h.sess (fun x =>
      { x with readUpTo := if start ≤ x.readUpTo then s.mgmt.eventSeq else x.readUpTo }) } }) :=
  answers_of_maySend (execEventRead h start) hm (fun _ => rfl) fun _ _ _ => rfl
end

/-! ## Sinks (R463 to R465) -/

/-- Reading a counter clears nothing of the sessions. -/
theorem clearRead_mgmt (silent : List (Nat × Nat)) (s : State) (x : Nat × Nat × Nat) : (clearRead silent s x).mgmt = s.mgmt := by
  unfold clearRead
  split
  · rfl
  · split
    · rfl
    · split
      · rfl
      · split
        · rfl
        · rfl

theorem foldl_clearRead_mgmt (silent : List (Nat × Nat)) (l : List (Nat × Nat × Nat)) (s : State) :
    (l.foldl (clearRead silent) s).mgmt = s.mgmt := by
  induction l generalizing s with
  | nil => rfl
  | cons x xs ih => exact (ih _).trans (clearRead_mgmt silent s x)

theorem snapshot_mgmt (scope : List (Nat × Nat × Nat)) (silent : List (Nat × Nat)) (s : State) :
    (snapshot scope silent s).2.2.mgmt = s.mgmt := foldl_clearRead_mgmt silent (readOrder scope) s

theorem snapshot_snapSeq (scope : List (Nat × Nat × Nat)) (silent : List (Nat × Nat)) (s : State) :
    (snapshot scope silent s).2.2.obs.snapSeq = s.obs.snapSeq + 1 := rfl

/-- What TRACE_SNAPSHOT leaves once it has taken a snapshot. -/
def snapTraced (sess : Nat) (x : Sink) (s : State) (r : Nat × List Nat × State) : State :=
  { r.2.2 with mgmt := { r.2.2.mgmt with sessions := tmod r.2.2.mgmt.sessions sess (fun y =>
    { y with sink := some (putParts s.timer.toNat (snapParts r.1 r.2.1) false x) }) } }

section
variable {sess : Nat} {k : Session} {x : Sink} {s : State} (hk : tget s.mgmt.sessions sess = some k) (hx : k.sink = some x)
include hk hx

theorem exec_traceSnapshot : exec (.traceSnapshot sess) s =
    .next (if !x.cfg.types.contains 4 then s else snapTraced sess x s (snapshot fullScope [] s)) := by
  obtain ⟨kind, key, subscribed, readUpTo, log, sink⟩ := k
  subst hx
  show execTraceSnapshot sess s = _
  rw [execTraceSnapshot, hk]
  rfl

theorem exec_fumaroleExport : exec (.fumaroleExport sess) s = .next (export1 sess x s) := by
  obtain ⟨kind, key, subscribed, readUpTo, log, sink⟩ := k
  subst hx
  show execFumaroleExport sess s = _
  rw [execFumaroleExport, hk]

omit hx in
theorem snapTraced_sink {r : Nat × List Nat × State} (hr : r.2.2.mgmt = s.mgmt) :
    ∃ k1, tget (snapTraced sess x s r).mgmt.sessions sess = some k1 ∧
      k1.sink = some (putParts s.timer.toNat (snapParts r.1 r.2.1) false x) := by
  refine ⟨{ k with sink := some (putParts s.timer.toNat (snapParts r.1 r.2.1) false x) }, ?_, rfl⟩
  simp only [snapTraced, tget_tmod_same, hr, hk, Option.map_some]

omit hk hx in
theorem snapTraced_snapSeq (r : Nat × List Nat × State) : (snapTraced sess x s r).obs.snapSeq = r.2.2.obs.snapSeq := rfl
end

/-- A buffered record goes out first. -/
theorem export1_replies {sess : Nat} {x : Sink} {s : State} {q : Word32} {r : FumRec} {l : List (Word32 × FumRec)}
    (hb : x.buffer = (q, r) :: l) : (export1 sess x s).replies = s.replies ++ [fumMsg sess q r] := by
  rw [export1, hb]
  rfl

/-! ## Events to hosts (R177) -/

section
variable {host : Node} {s : State}

theorem eventDeliver_nothing (he : tgetD s.mgmt.hostEvents host.toNat [] = []) : exec (.eventDeliver host) s = .next s := by
  show Host.Outcome.next (deliverEvent host s) = _
  rw [deliverEvent, he]

/-- The oldest event that waits for a host leaves once the host can be reached. -/
theorem exec_eventDeliver {e : HostEvent} {l : List HostEvent} (he : tgetD s.mgmt.hostEvents host.toNat [] = e :: l) :
    let tx := { blankTx s with dst := host, op := 0x34, cls := 5, ptag := e.part, trailer := mkTrailer 32 (eventRecord (myNode s) e) }
    exec (.eventDeliver host) s = .next (if !reachable s tx then s else send tx { s with mgmt := { s.mgmt with hostEvents :=
      (if l.isEmpty then tdel s.mgmt.hostEvents host.toNat else tset s.mgmt.hostEvents host.toNat l) } }) := by
  show Host.Outcome.next (deliverEvent host s) = _
  rw [deliverEvent, he]
end

/-- Settles O53: sessions, events and sinks, each row by its own rule. -/
theorem sessionsEventsAndSinks : Obligations.SessionsEventsAndSinks := by
  unfold Obligations.SessionsEventsAndSinks
  refine ⟨fun _ _ _ => sessionOpen_opens, fun _ _ => sessionOpen_refused, fun _ s c hp hc => ⟨?manager, ?supervisor, ?nobody⟩,
    fun sess s => ⟨_, rfl, tget_tdel_same _ _, fun _ hn => tget_tdel_ne _ hn, rfl⟩,
    fun _ _ hm => ⟨eventSubscribe_notes hm, eventRead_reads hm⟩,
    fun sess k x s hk hx => ⟨?snapshot, ?quiet, exec_fumaroleExport hk hx, fun _ _ _ => export1_replies⟩,
    fun _ _ => eventDeliver_nothing, fun _ _ _ _ he => ⟨fun hr => ?unreachable, fun hr => ?delivered⟩⟩
  case manager => exact fun hf => (sessionFor_eq hp hc).trans (if_pos hf)
  case supervisor => exact fun _ => sessionFor_supervisor hp hc
  case nobody => exact sessionFor_none hp hc
  case snapshot =>
    exact fun ht => ⟨snapTraced sess x s (snapshot fullScope [] s),
      (exec_traceSnapshot hk hx).trans (congrArg Host.Outcome.next (if_neg (by rw [ht]; decide))),
      (snapTraced_snapSeq _).trans (snapshot_snapSeq fullScope [] s), snapTraced_sink hk (snapshot_mgmt fullScope [] s)⟩
  case quiet => exact fun ht => (exec_traceSnapshot hk hx).trans (congrArg Host.Outcome.next (if_pos (by rw [ht]; decide)))
  case unreachable => exact (exec_eventDeliver he).trans (congrArg Host.Outcome.next (if_pos (by rw [hr]; decide)))
  case delivered => exact (exec_eventDeliver he).trans (congrArg Host.Outcome.next (if_neg (by rw [hr]; decide)))

end Sys2Proof.Machine

/-! # Pins and sensors -/

namespace Sys2Proof.Machine

set_option Elab.async false

/-! ## Rails and clocks (R469, R470, R472, R474) -/

section
variable {s : State}

/-- A rail that leaves its range fences a ready device, and holds the start of one that waits. -/
theorem exec_railFault (rail : Nat) :
    (s.boot.phase = .ready → exec (.railFault rail) s =
      .next (fenceDevice (post .railFault none [rail] { s with phys := { s.phys with faultN := true } }))) ∧
    (s.boot.phase = .waitCoolant → exec (.railFault rail) s = .next { s with phys := { s.phys with railsOk := false } }) := by
  show (_ → execRailFault rail s = _) ∧ (_ → execRailFault rail s = _)
  rw [execRailFault, failRail]
  exact ⟨fun hp => by rw [hp], fun hp => by rw [hp]⟩

/-- The reference clock of a ready device is lost once. -/
theorem exec_refclkSysLoss (hp : s.boot.phase = .ready) (hr : s.phys.refSys = true) :
    let a : State := { s with phys := { s.phys with refSys := false, faultN := true } }
    exec .refclkSysLoss s = .next (fenceDevice (if mgmtUp s then post .railFault none [8] a else a)) :=
  congrArg Host.Outcome.next (if_neg (by simp [hp, hr]))

theorem exec_refclkFieldLoss {f : Nat} (hf : f < 8) (hd : dataUp s = true) :
    let a : State := { s with phys := { s.phys with refField := s.phys.refField &&& ~~~ BitVec.ofNat 8 (1 <<< f) } }
    exec (.refclkFieldLoss f) s = .next (((List.range 24).map (fun i => 24 * f + i)).foldl (fun t n => faultPort n t) a) :=
  congrArg Host.Outcome.next (if_neg (by simp [hf, hd]))

/-- A bit of a byte. -/
theorem getLsbD_byteBit {w f : Nat} (hf : f < w) : (BitVec.ofNat w (1 <<< f)).getLsbD f = true := by
  rw [BitVec.getLsbD_ofNat, Nat.one_shiftLeft, Nat.testBit_two_pow_self, decide_eq_true hf]
  rfl

theorem clearBit_getLsbD {w f : Nat} (x : BitVec w) (hf : f < w) : (x &&& ~~~ BitVec.ofNat w (1 <<< f)).getLsbD f = false := by
  rw [BitVec.getLsbD_and, BitVec.getLsbD_not, getLsbD_byteBit hf, Bool.not_true, Bool.and_false, Bool.and_false]

theorem setBit_getLsbD {w f : Nat} (x : BitVec w) (hf : f < w) : (x ||| BitVec.ofNat w (1 <<< f)).getLsbD f = true := by
  rw [BitVec.getLsbD_or, getLsbD_byteBit hf, Bool.or_true]

/-! ## Coolant (R476) -/

section
variable (hp : s.boot.phase = .ready)
include hp

theorem exec_coolantLost (hf : s.phys.coolantFell = none) : exec .coolantLost s =
    .next (post .coolantLost none [] { s with phys := { s.phys with
      coolantOk := false, coolantFell := some s.phys.vddMv, vddMv := 700 } }) :=
  congrArg Host.Outcome.next (if_neg (by simp [hp, hf]))

theorem exec_coolantRestored {mv : Nat} (hf : s.phys.coolantFell = some mv) : exec .coolantRestored s =
    .next (post .coolantRestored none [] { s with phys := { s.phys with coolantOk := true, coolantFell := none, vddMv := mv } }) := by
  show execCoolantRestored s = _
  rw [execCoolantRestored, hf]
  exact congrArg Host.Outcome.next (if_neg (not_not_intro hp))

theorem exec_coolantFence {mv : Nat} (hf : s.phys.coolantFell = some mv) : exec .coolantFence s =
    .next (fenceDevice { s with phys := { s.phys with coolantFell := none, faultN := true } }) :=
  congrArg Host.Outcome.next (if_neg (by simp [hp, hf]))
end

theorem exec_coolantHeld (hf : s.phys.coolantFell = none) : exec .coolantRestored s = .next s ∧ exec .coolantFence s = .next s := by
  refine ⟨?_, congrArg Host.Outcome.next (if_pos (.inr (by rw [hf]; rfl)))⟩
  show execCoolantRestored s = _
  rw [execCoolantRestored, hf]
end

/-! ## The thermal trip (R480) -/

/-- The state of a tripped device: the data hierarchy has stopped. -/
def tripped (s : State) : State :=
  { s with
    out := [],
    boot := { s.boot with phase := .tripped, fenced := true, leaseMs := none },
    phys := { s.phys with faultN := true, thermtripN := true },
    home := HomeSt.reset,
    spindle := { SpindleSt.reset with dead := s.spindle.dead, badBanks := s.spindle.badBanks, stopped := true },
    ports := { s.ports with ports := s.ports.ports.map (fun x => (x.1, { Port.down x.2.cfg with removed := x.2.removed })) },
    groups := s.groups.map (fun x => (x.1, { x.2 with running := false, chunks := [], run := none, froms := [] })),
    queues := { s.queues with queues := s.queues.queues.map (fun x => (x.1, { x.2 with state := .disabled, cmds := [] })) },
    cores := { s.cores with
      cores := s.cores.cores.map (fun x => (x.1, { freshCore x.2.phys x.2.part with scrubbing := x.2.scrubbing })) } }

section
variable {s : State}

theorem exec_thermalTrip (hd : dataUp s = true) : exec .thermalTrip s = .next (tripped s) :=
  congrArg Host.Outcome.next (if_neg (by simp [hd]))

/-- Every lane of a tripped device is dark. -/
theorem linkUp_tripped (n : Nat) : linkUp (tripped s) n = false := by
  have hport : portOf (tripped s) n = (portOf s n).map fun q => { Port.down q.cfg with removed := q.removed } :=
    tget_mapVal (fun q : Port => ({ Port.down q.cfg with removed := q.removed } : Port)) s.ports.ports n
  rw [linkUp, hport]
  cases portOf s n with
  | none => rfl
  | some q => rfl

theorem queues_tripped : ∀ q ∈ (tripped s).queues.queues, q.2.state = .disabled ∧ q.2.cmds = [] := by
  intro q hq
  obtain ⟨x, -, rfl⟩ := List.mem_map.1 hq
  exact ⟨rfl, rfl⟩

theorem cores_tripped : ∀ c ∈ (tripped s).cores.cores, c.2.ctxs = [] := by
  intro c hc
  obtain ⟨x, -, rfl⟩ := List.mem_map.1 hc
  rfl
end

/-- Settles O41: each pin and sensor by its own rule. -/
theorem physicalEvents : Obligations.PhysicalEvents := by
  unfold Obligations.PhysicalEvents
  refine ⟨fun rail s => ⟨(exec_railFault rail).1, (exec_railFault rail).2, rfl⟩, fun s hp hr => ⟨fun hm => ?withEvent, fun hm => ?bare⟩,
    fun f s hf hd => ⟨exec_refclkFieldLoss hf hd, clearBit_getLsbD _ hf⟩, fun s hm => congrArg Host.Outcome.next (if_pos hm),
    fun s hp => ⟨exec_coolantLost hp, fun mv hf => ⟨exec_coolantRestored hp hf, exec_coolantFence hp hf⟩, exec_coolantHeld⟩,
    fun k s hk hd => ?hot, fun s hd => ?trip⟩
  case withEvent => exact (exec_refclkSysLoss hp hr).trans (by rw [if_pos hm])
  case bare => exact (exec_refclkSysLoss hp hr).trans (by rw [if_neg (by simp [hm])])
  case hot => exact ⟨_, congrArg Host.Outcome.next (if_neg (by simp [hk, hd])), setBit_getLsbD _ hk, rfl⟩
  case trip =>
    exact ⟨tripped s, exec_thermalTrip hd, rfl, rfl, rfl, rfl, rfl, rfl, rfl, rfl, linkUp_tripped, queues_tripped, cores_tripped,
      rfl, rfl, rfl⟩

end Sys2Proof.Machine

/-! # Power and start -/

namespace Sys2Proof.Machine

set_option Elab.async false

/-! ## Steps 1 to 6 (R422, R434, R435) -/

/-- What the loading of engine firmware leaves as it was: all of boot but the engine images and the slots that they came from,
and the rest of the device but its events. -/
structure LoadsEngines (s t : State) : Prop where
  boot : t.boot = { s.boot with engineFw := t.boot.engineFw, fwSlots := t.boot.fwSlots }
  phys : t.phys = s.phys
  pool : t.pool = s.pool

theorem LoadsEngines.trans {s t u : State} (h : LoadsEngines s t) (k : LoadsEngines t u) : LoadsEngines s u := by
  refine ⟨?_, k.phys.trans h.phys, k.pool.trans h.pool⟩
  rw [k.boot, h.boot]

theorem slotBit_loads (n : Nat) (b : Bool) (s : State) : LoadsEngines s (slotBit n b s) := by
  cases b with
  | true => exact ⟨rfl, rfl, rfl⟩
  | false => exact ⟨rfl, rfl, rfl⟩

theorem loadEngine_loads (e : Nat) (s : State) : LoadsEngines s (loadEngine e s) := by
  unfold loadEngine
  split
  · next i b _ =>
    have himage : LoadsEngines s { s with boot := { s.boot with engineFw := tset s.boot.engineFw e i } } := ⟨rfl, rfl, rfl⟩
    exact himage.trans (slotBit_loads _ _ _)
  · exact ⟨rfl, rfl, rfl⟩

theorem loadEngines_loads (l : List Nat) (s : State) : LoadsEngines s (l.foldl (fun t e => loadEngine e t) s) := by
  induction l generalizing s with
  | nil => exact ⟨rfl, rfl, rfl⟩
  | cons e l ih => exact (loadEngine_loads e s).trans (ih _)

/-- The image of a slot is that of flash and fuses alone. -/
theorem bootImage_congr {s t : State} (hf : s.boot.flash = t.boot.flash) (hu : s.boot.fuses = t.boot.fuses) (l : Bool → FlashSlot) :
    bootImage s l = bootImage t l := by
  simp only [bootImage, slotCheck, slotImage, hf, hu]

/-- What the steps from the firmware to the charter leave as it was. -/
structure StartKeeps (s t : State) : Prop where
  pwrgd : t.phys.pwrgd = s.phys.pwrgd
  fuses : t.boot.fuses = s.boot.fuses
  flash : t.boot.flash = s.boot.flash
  nonce : t.boot.bootNonce = s.boot.bootNonce
  challenge : t.boot.challenge = s.boot.challenge
  pairOk : t.boot.pairOk = s.boot.pairOk
  units : t.pool.units = s.pool.units

theorem LoadsEngines.startKeeps {s t : State} (h : LoadsEngines s t) : StartKeeps s t := by
  exact ⟨congrArg (·.pwrgd) h.phys, congrArg (·.fuses) h.boot, congrArg (·.flash) h.boot, congrArg (·.bootNonce) h.boot,
    congrArg (·.challenge) h.boot, congrArg (·.pairOk) h.boot, congrArg (·.units) h.pool⟩

theorem StartKeeps.trans {s t u : State} (h : StartKeeps s t) (k : StartKeeps t u) : StartKeeps s u :=
  ⟨k.pwrgd.trans h.pwrgd, k.fuses.trans h.fuses, k.flash.trans h.flash, k.nonce.trans h.nonce, k.challenge.trans h.challenge,
    k.pairOk.trans h.pairOk, k.units.trans h.units⟩

/-- The device once a charter has been verified, with its engine firmware, at its VDD_CORE (steps 4 to 6). -/
def chartered (i : Image) (b : Bool) (c : Charter) (s : State) : State :=
  let t := [1, 2, 3, 4, 5].foldl (fun t e => loadEngine e t)
    (slotBit 1 b { s with boot := { s.boot with charter := some c, charterImage := some i, phase := .waitCoolant } })
  { t with phys := { t.phys with vddMv := c.device.vddMv } }

theorem startCharter_chartered {s : State} {i : Image} {b : Bool} {c : Charter} (hl : lifecycle s.boot.fuses ≠ 15)
    (hi : bootImage s .charter = some (i, b)) (hc : i.content = .charter c) : startCharter s = chartered i b c s := by
  obtain ⟨content, count, digest, block⟩ := i
  subst hc
  rw [startCharter, if_neg hl, hi]
  rfl

theorem startCharter_recovery {s : State} (hi : bootImage s .charter = none) :
    startCharter s = { s with boot := { s.boot with phase := .recovery } } := by
  rw [startCharter, hi]
  exact ite_id ..

theorem LoadsEngines.withVdd {s t : State} (h : LoadsEngines s t) (mv : Nat) :
    LoadsEngines { s with phys := { s.phys with vddMv := mv } } { t with phys := { t.phys with vddMv := mv } } :=
  ⟨h.boot, congrArg (fun p : PhysSt => { p with vddMv := mv }) h.phys, h.pool⟩

/-- The state in which the engine firmware of a verified charter is loaded. -/
def charterHeld (i : Image) (c : Charter) (s : State) : State :=
  { s with boot := { s.boot with charter := some c, charterImage := some i, phase := .waitCoolant } }

theorem chartered_loads (i : Image) (b : Bool) (c : Charter) (s : State) :
    LoadsEngines { charterHeld i c s with phys := { s.phys with vddMv := c.device.vddMv } } (chartered i b c s) :=
  ((slotBit_loads 1 b (charterHeld i c s)).trans (loadEngines_loads [1, 2, 3, 4, 5] _)).withVdd _

theorem startCharter_keeps (s : State) : StartKeeps s (startCharter s) := by
  have hrecovery : StartKeeps s { s with boot := { s.boot with phase := .recovery } } := ⟨rfl, rfl, rfl, rfl, rfl, rfl, rfl⟩
  by_cases hl : lifecycle s.boot.fuses = 15
  · rw [startCharter, if_pos hl]
    exact hrecovery
  · rw [startCharter, if_neg hl]
    split
    · next n d c k b _ =>
      have hheld : StartKeeps s { charterHeld ⟨n, d, .charter c, k⟩ c s with phys := { s.phys with vddMv := c.device.vddMv } } :=
        ⟨rfl, rfl, rfl, rfl, rfl, rfl, rfl⟩
      exact hheld.trans (chartered_loads _ b c s).startKeeps
    · exact hrecovery

theorem startRtp_image {s : State} {i : Image} {b : Bool} (hi : bootImage s .rtp = some (i, b)) :
    startRtp s = startCharter (slotBit 0 b { s with boot := { s.boot with rtpFw := some i } }) := by
  rw [startRtp, hi]

theorem startRtp_recovery {s : State} (hi : bootImage s .rtp = none) :
    startRtp s = { s with boot := { s.boot with phase := .recovery } } := by
  rw [startRtp, hi]

/-- The state in which a verified firmware looks for the charter. -/
def firmwareHeld (i : Image) (b : Bool) (s : State) : State := slotBit 0 b { s with boot := { s.boot with rtpFw := some i } }

theorem firmwareHeld_loads (i : Image) (b : Bool) (s : State) :
    LoadsEngines { s with boot := { s.boot with rtpFw := some i } } (firmwareHeld i b s) := slotBit_loads 0 b _

theorem startRtp_keeps (s : State) : StartKeeps s (startRtp s) := by
  cases hi : bootImage s .rtp with
  | none =>
    rw [startRtp_recovery hi]
    exact ⟨rfl, rfl, rfl, rfl, rfl, rfl, rfl⟩
  | some x =>
    obtain ⟨i, b⟩ := x
    have himage : StartKeeps s { s with boot := { s.boot with rtpFw := some i } } := ⟨rfl, rfl, rfl, rfl, rfl, rfl, rfl⟩
    rw [startRtp_image hi]
    exact (himage.trans (firmwareHeld_loads i b s).startKeeps).trans (startCharter_keeps _)

/-! ## POWER_GOOD and POWER_DOWN (R422, R434, R435, R471) -/

/-- The device at power-good, before it looks for its firmware. -/
def powered (board : Option Board) (ok0 ok1 : Bool) (s : State) : State :=
  let a := provision board (wiped s)
  { a with
    free := a.free + 2, phys := { a.phys with pwrgd := true },
    boot := { a.boot with
      phase := .dark, pairOk := (ok0, ok1), activePair := if ok0 then 0 else 1,
      bootNonce := Config.freeWord a.free, challenge := Config.freeWord (a.free + 1) } }

section
variable {b : Option Board} {ok0 ok1 : Bool} {s : State}

theorem provision_wiped_free : (provision b (wiped s)).free = s.free := by
  cases b with
  | none => rfl
  | some x => rfl

theorem provision_wiped_units : (provision b (wiped s)).pool.units = s.pool.units := by
  cases b with
  | none => rfl
  | some x => rfl

theorem provision_wiped_rtpFw : (provision b (wiped s)).boot.rtpFw = none := by
  cases b with
  | none => rfl
  | some x => rfl

theorem provision_wiped_charter : (provision b (wiped s)).boot.charter = none := by
  cases b with
  | none => rfl
  | some x => rfl

theorem exec_powerGood (hp : s.phys.pwrgd = false) : exec (.powerGood b ok0 ok1) s =
    .next (if ok0 || ok1 then startRtp (powered b ok0 ok1 s)
      else { powered b ok0 ok1 s with phys := { (powered b ok0 ok1 s).phys with faultN := true } }) :=
  congrArg Host.Outcome.next (if_neg (by rw [hp]; decide))

/-- With a working pair the device looks for its firmware. -/
theorem exec_powerGood_pair (hp : s.phys.pwrgd = false) (hok : ok0 = true ∨ ok1 = true) :
    exec (.powerGood b ok0 ok1) s = .next (startRtp (powered b ok0 ok1 s)) :=
  (exec_powerGood hp).trans (congrArg Host.Outcome.next (if_pos (by simpa using hok)))

theorem bootImage_powered (l : Bool → FlashSlot) :
    bootImage (powered b ok0 ok1 s) l = bootImage (provision b (wiped s)) l := bootImage_congr rfl rfl l

theorem powerGood_draws (hp : s.phys.pwrgd = false) :
    ∃ t, exec (.powerGood b ok0 ok1) s = .next t ∧ t.phys.pwrgd = true ∧ t.boot.fuses = (provision b (wiped s)).boot.fuses ∧
      t.boot.flash = (provision b (wiped s)).boot.flash ∧ t.boot.bootNonce = Config.freeWord s.free ∧
      t.boot.challenge = Config.freeWord (s.free + 1) ∧ t.boot.pairOk = (ok0, ok1) ∧ t.pool.units = s.pool.units := by
  have hkeeps : StartKeeps (powered b ok0 ok1 s) (if ok0 || ok1 then startRtp (powered b ok0 ok1 s)
      else { powered b ok0 ok1 s with phys := { (powered b ok0 ok1 s).phys with faultN := true } }) := by
    split
    · exact startRtp_keeps _
    · exact ⟨rfl, rfl, rfl, rfl, rfl, rfl, rfl⟩
  have hfree := provision_wiped_free (b := b) (s := s)
  exact ⟨_, exec_powerGood hp, hkeeps.pwrgd, hkeeps.fuses, hkeeps.flash, hkeeps.nonce.trans (congrArg Config.freeWord hfree),
    hkeeps.challenge.trans (congrArg (fun n => Config.freeWord (n + 1)) hfree), hkeeps.pairOk,
    hkeeps.units.trans provision_wiped_units⟩

theorem powerGood_dark (hp : s.phys.pwrgd = false) (h0 : ok0 = false) (h1 : ok1 = false) :
    ∃ t, exec (.powerGood b ok0 ok1) s = .next t ∧ t.boot.phase = .dark ∧ t.phys.faultN = true ∧ t.boot.rtpFw = none ∧
      t.boot.charter = none := by
  subst h0 h1
  exact ⟨_, exec_powerGood hp, rfl, rfl, provision_wiped_rtpFw, provision_wiped_charter⟩

section
variable (hp : s.phys.pwrgd = false) (hok : ok0 = true ∨ ok1 = true)
include hp hok

theorem powerGood_noFirmware (hi : bootImage (provision b (wiped s)) .rtp = none) :
    ∃ t, exec (.powerGood b ok0 ok1) s = .next t ∧ t.boot.phase = .recovery ∧ t.boot.rtpFw = none ∧ t.boot.charter = none :=
  ⟨_, (exec_powerGood_pair hp hok).trans (congrArg Host.Outcome.next (startRtp_recovery ((bootImage_powered _).trans hi))), rfl,
    provision_wiped_rtpFw, provision_wiped_charter⟩

variable {i : Image} {bi : Bool} (hi : bootImage (provision b (wiped s)) .rtp = some (i, bi))
include hi

theorem exec_powerGood_firmware : exec (.powerGood b ok0 ok1) s =
    .next (startCharter (firmwareHeld i bi (powered b ok0 ok1 s))) :=
  (exec_powerGood_pair hp hok).trans (congrArg Host.Outcome.next (startRtp_image ((bootImage_powered _).trans hi)))

omit hp hok hi in
theorem bootImage_firmwareHeld (l : Bool → FlashSlot) :
    bootImage (firmwareHeld i bi (powered b ok0 ok1 s)) l = bootImage (provision b (wiped s)) l :=
  have h := (firmwareHeld_loads i bi (powered b ok0 ok1 s)).startKeeps
  bootImage_congr h.flash h.fuses l

theorem powerGood_noCharter (hc : bootImage (provision b (wiped s)) .charter = none) :
    ∃ t, exec (.powerGood b ok0 ok1) s = .next t ∧ t.boot.phase = .recovery ∧ t.boot.rtpFw = some i ∧ t.boot.charter = none := by
  have hboot := (firmwareHeld_loads i bi (powered b ok0 ok1 s)).boot
  refine ⟨_, (exec_powerGood_firmware hp hok hi).trans (congrArg Host.Outcome.next
    (startCharter_recovery ((bootImage_firmwareHeld _).trans hc))), rfl, congrArg (·.rtpFw) hboot,
    (congrArg (·.charter) hboot).trans provision_wiped_charter⟩

theorem powerGood_charter {k : Image} {bk : Bool} {c : Charter} (hl : lifecycle (provision b (wiped s)).boot.fuses ≠ 15)
    (hk : bootImage (provision b (wiped s)) .charter = some (k, bk)) (hc : k.content = .charter c) :
    ∃ t, exec (.powerGood b ok0 ok1) s = .next t ∧ t.boot.phase = .waitCoolant ∧ t.boot.rtpFw = some i ∧ t.boot.charter = some c ∧
      t.boot.charterImage = some k ∧ t.phys.vddMv = c.device.vddMv := by
  have hfirm := firmwareHeld_loads i bi (powered b ok0 ok1 s)
  have hfuses : (firmwareHeld i bi (powered b ok0 ok1 s)).boot.fuses = (provision b (wiped s)).boot.fuses := hfirm.startKeeps.fuses
  have hstart := startCharter_chartered (hfuses ▸ hl) ((bootImage_firmwareHeld _).trans hk) hc
  have hheld := chartered_loads k bk c (firmwareHeld i bi (powered b ok0 ok1 s))
  exact ⟨_, (exec_powerGood_firmware hp hok hi).trans (congrArg Host.Outcome.next hstart), congrArg (·.phase) hheld.boot,
    (congrArg (·.rtpFw) hheld.boot).trans (congrArg (·.rtpFw) hfirm.boot), congrArg (·.charter) hheld.boot,
    congrArg (·.charterImage) hheld.boot, congrArg (·.vddMv) hheld.phys⟩
end
end

/-! ## The wait for coolant (R434, R435, R472, R481) -/

section
variable {s : State} {t : StartTests}

section
variable (hw : waits6 s = true)
include hw

theorem exec_coolantOkAssert : exec (.coolantOkAssert t) s =
    .next (if s.phys.railsOk then continueStart t { s with phys := { s.phys with coolantOk := true } }
      else { s with phys := { s.phys with coolantOk := true }, boot := { s.boot with tests := some t } }) :=
  congrArg Host.Outcome.next (if_neg (by rw [hw]; decide))

theorem exec_railInRange_tested (ht : s.boot.tests = some t) :
    exec .railInRange s = .next (continueStart t { s with phys := { s.phys with railsOk := true } }) := by
  show execRailInRange s = _
  rw [execRailInRange, if_neg (by rw [hw]; decide), ht]

theorem exec_railInRange_untested (ht : s.boot.tests = none) :
    exec .railInRange s = .next { s with phys := { s.phys with railsOk := true } } := by
  show execRailInRange s = _
  rw [execRailInRange, if_neg (by rw [hw]; decide), ht]

theorem exec_coolantOkFallBeforeReady : exec .coolantOkFallBeforeReady s =
    .next { s with phys := { s.phys with coolantOk := false }, boot := { s.boot with tests := none } } :=
  congrArg Host.Outcome.next (if_neg (by rw [hw]; decide))
end

/-- A device that does not wait at step 6 takes none of these. -/
theorem exec_notWaiting (hw : waits6 s = false) : exec (.coolantOkAssert t) s = .next s ∧ exec .railInRange s = .next s ∧
    exec .coolantOkFallBeforeReady s = .next s ∧ exec .startWait s = .next s := by
  have hn : (!waits6 s) = true := by rw [hw]; rfl
  exact ⟨congrArg Host.Outcome.next (if_pos hn), congrArg Host.Outcome.next (if_pos hn), congrArg Host.Outcome.next (if_pos hn),
    congrArg Host.Outcome.next (if_neg (by rw [hw]; decide))⟩

/-! ### Steps 7 to 11 (R435) -/

/-- The dead middles that the tests find. -/
def deadFound (t : StartTests) : List Nat := (t.deadMiddles.filter (decide <| · < 384)).eraseDups

/-- The state once the tests' results have been taken (R435). -/
def testsTaken (t : StartTests) (s : State) : State :=
  testBanks t.badBanks (modSp (fun p => { p with dead := deadFound t }) (mapCores t (testChannels t.badChannels
    { s with boot := { s.boot with tests := none } })))

variable {c : Charter} (hc : s.boot.charter = some c)
include hc

theorem continueStart_eq : continueStart t s =
    if 8 < (deadFound t).length then spindleFails ((deadFound t).getD 8 0) (testsTaken t s) else bringUp t c (testsTaken t s) := by
  rw [continueStart, hc]
  rfl

theorem continueStart_fails (hd : 8 < (deadFound t).length) :
    ∃ u, continueStart t s = fenceDevice u ∧ u.boot.phase = .failed ∧ u.spindle.stopped = true :=
  ⟨_, (continueStart_eq hc).trans (if_pos hd), rfl, rfl⟩

theorem continueStart_ready (hd : (deadFound t).length ≤ 8) : continueStart t s = bringUp t c (testsTaken t s) ∧
    ∃ u, continueStart t s = post .deviceReady none [] u ∧ u.boot.leaseMs = some c.device.leaseMs := by
  have h : continueStart t s = bringUp t c (testsTaken t s) := (continueStart_eq hc).trans (if_neg (Nat.not_lt.2 hd))
  exact ⟨h, _, h, rfl⟩
end

/-- Settles O40: the start at power-good by what flash and fuses hold, and the wait for coolant by the tests' results. -/
theorem powerAndStart : Obligations.PowerAndStart := by
  unfold Obligations.PowerAndStart
  refine ⟨⟨fun b ok0 ok1 s hp => ⟨powerGood_draws hp, powerGood_dark hp, powerGood_noFirmware hp, ?noCharter, ?charter⟩,
    fun s hp => ?down, fun s hp => ?off, fun b o0 o1 s hp => congrArg Host.Outcome.next (if_pos hp)⟩,
    fun t s hw => ⟨?inRange, ?outOfRange, exec_railInRange_tested hw, exec_railInRange_untested hw,
      exec_coolantOkFallBeforeReady hw, congrArg Host.Outcome.next (if_pos hw)⟩,
    fun t s => exec_notWaiting, fun t s c hc => ⟨continueStart_fails hc, continueStart_ready hc⟩⟩
  case noCharter => exact fun i bi hok hi _ hn => powerGood_noCharter hp hok hi hn
  case charter => exact fun i bi k bk c hok hi hl hk hc => powerGood_charter hp hok hi hl hk hc
  case down => exact ⟨_, congrArg Host.Outcome.next (if_pos hp), rfl, rfl, rfl, rfl, rfl, rfl, rfl, rfl, rfl, rfl, rfl⟩
  case off => exact congrArg Host.Outcome.next (if_neg (by rw [hp]; decide))
  case inRange => exact fun hr => (exec_coolantOkAssert hw).trans (congrArg Host.Outcome.next (if_pos hr))
  case outOfRange => exact fun hr => (exec_coolantOkAssert hw).trans (congrArg Host.Outcome.next (if_neg (by rw [hr]; decide)))

end Sys2Proof.Machine

/-! # Core faults and drag -/

namespace Sys2Proof.Machine

set_option Elab.async false

/-! ## Core faults and hangs (R401, R403, R405, R411) -/

section
variable {phys : Nat} {s : State}

/-- A core of no concern: it is not listed, does not work or is retired. -/
theorem stopCore_passes (n : Ev) (args : List Nat) (counter cause : Nat) (items : CtxId → State → State)
    (hp : ∀ p, tget s.cores.phys phys = some p → p.working = false ∨ p.retired = true) :
    stopCore phys n args counter cause items s = s := by
  rw [stopCore]
  split
  · rfl
  · next p e => exact if_pos (by simpa using hp p e)

/-- A working core of a partition that serves stops, its items meeting their outcome. -/
theorem stopCore_stops {p : Phys} {c : Nat} {k : Core} (n : Ev) (args : List Nat) (counter cause : Nat) (items : CtxId → State → State)
    (hp : tget s.cores.phys phys = some p) (hw : p.working = true) (hr : p.retired = false) (hl : logicalOf s phys = some (c, k))
    (hk : k.recovering = false) (hq : ∀ q, k.part = some q → partState s q ≠ .resetting) :
    let band := bandOf s (physStrip phys)
    let a := eachCtx c (fun x t => match ctxOf t x with | some y => tagFaulted x y t | none => t) s
    let b := post n k.part (args ++ [band]) (bump 0 phys counter 1 a)
    stopCore phys n args counter cause items s = settle (thirdBand phys (markBurl phys band (resetCore c true (eachCtx c items
      (takeTephra (physField phys) cause false [(c, k)] b))))) := by
  have hserves : ¬ (k.recovering || (match k.part with | some q => partState s q == .resetting | none => false)) = true := by
    rw [hk, Bool.false_or]
    split
    · next q e => simpa using hq q e
    · decide
  intro band a b
  rw [stopCore, hp]
  dsimp only
  rw [if_neg (by simp [hw, hr]), hl]
  exact if_neg hserves
end

/-! ### The outcome for an item (R403 to R405) -/

section
variable {x : CtxId} {s : State} {k : Ctx} {q : Queue} {c : Cmd} (hk : ctxOf s x = some k) (hcoll : k.item.coll = none)
  (hcmd : cmdOfItem s k.item = some (q, c)) (he : k.item.engine ≠ 1)
include hk hcoll hcmd he

/-- A fault sends back an item that may be replayed, until its third. -/
theorem faultItem_eq : faultItem x s = if !replayable c k then killItem x k 2 s
    else if decide (2 ≤ tgetD c.faults k.item.index 0) then killItem x k 3 s else replayItem x k s := by
  rw [faultItem, hk]
  dsimp only
  rw [hcoll]
  dsimp only
  rw [hcmd]
  exact if_neg he

theorem hangItem_kills (cause : Nat) : hangItem cause x s = killItem x k cause s := by
  rw [hangItem, hk]
  dsimp only
  rw [hcoll]
  dsimp only
  rw [hcmd]
  exact if_neg he
end

/-! ## Drag mode (R181, R182, R410, R412) -/

section
variable {strip mC : Nat} {s : State} (hs : strip < 64) (hd : dataUp s = true)
include hs hd

theorem exec_sentinelTrip : exec (.sentinelTrip strip) s = .next (setStrip strip { stripAt s strip with own := true }
    (if inDrag (stripAt s strip) then markStrip strip (bandOf s strip) (bump 1 strip 10 1 s) else bump 1 strip 10 1 s)) :=
  congrArg Host.Outcome.next (if_neg (by simp [hs, hd]))

theorem exec_junctionDrag : exec (.junctionDrag strip mC) s = .next (setStrip strip { stripAt s strip with
    junction := mC, own := (stripAt s strip).own || decide (100000 ≤ mC) } (reading 1 strip 11 mC s)) :=
  congrArg Host.Outcome.next (if_neg (by simp [hs, hd]))

theorem exec_dragExit : exec (.dragExit strip mC) s = .next (setStrip strip { stripAt s strip with
    junction := mC, own := (stripAt s strip).own && decide (97000 < mC) } (reading 1 strip 11 mC s)) :=
  congrArg Host.Outcome.next (if_neg (by simp [hs, hd]))
end

section
variable (n : Nat) (d : Drag) (s : State)

/-- A strip's entry as it is written: one that enters drag mode notes the time. -/
def stripWritten : Drag := if inDrag d = true ∧ inDrag (stripAt s n) = false then { d with since := s.timer.toNat } else d

/-- What is posted and counted beside it leaves a strip's entry as it was written. -/
theorem setStrip_strips : (setStrip n d s).phys.strips = tset s.phys.strips n (stripWritten n d s) := by
  have henter : (inDrag d && !inDrag (stripAt s n)) = true ↔ inDrag d = true ∧ inDrag (stripAt s n) = false := by simp
  by_cases h : (inDrag d && !inDrag (stripAt s n)) = true
  · simp only [setStrip, stripWritten, if_pos h, if_pos (henter.1 h)]
    rfl
  · simp only [setStrip, stripWritten, if_neg h, if_neg (mt henter.2 h)]
    split
    · rfl
    · rfl

theorem stripAt_setStrip_same : stripAt (setStrip n d s) n = stripWritten n d s := by
  rw [stripAt, setStrip_strips, tgetD, tget_tset_same]
  rfl

theorem stripAt_setStrip_ne {m : Nat} (hm : m ≠ n) : stripAt (setStrip n d s) m = stripAt s m := by
  rw [stripAt, setStrip_strips, tgetD, tget_tset_ne _ _ hm]
  rfl

/-- A strip that neither enters drag mode nor leaves it posts nothing. -/
theorem setStrip_mgmt (h : inDrag d = inDrag (stripAt s n)) : (setStrip n d s).mgmt = s.mgmt := by
  simp [setStrip, h]
end

/-! ## The power cap (R469) -/

/-- A value drawn between two bounds. -/
theorem between_bounds {lo hi : Nat} (h : lo ≤ hi) (f : Nat) : lo ≤ between lo hi f ∧ between lo hi f ≤ hi := by
  have hmod := Nat.mod_lt (Config.freeWord f).toNat (show 0 < hi - lo + 1 by omega)
  rw [between]
  omega

/-- VDD_CORE after an estimate. -/
def vddEstimated (watts : Nat) (s : State) : Nat :=
  if s.phys.coolantFell.isSome then s.phys.vddMv
  else if powerCap s < watts then between 700 s.phys.vddMv s.free
  else between s.phys.vddMv (max s.phys.vddMv (vddTarget s)) s.free

section
variable {watts : Nat} {s : State}

theorem exec_powerEstimate (hd : dataUp s = true) : exec (.powerEstimate watts) s =
    .next { s with free := s.free + 1, phys := { s.phys with watts := watts, vddMv := vddEstimated watts s } } :=
  congrArg Host.Outcome.next (if_neg (by simp [hd]))

theorem vddEstimated_low (hf : s.phys.coolantFell ≠ none) : vddEstimated watts s = s.phys.vddMv :=
  if_pos (Option.isSome_iff_ne_none.2 hf)

theorem vddEstimated_above (hf : s.phys.coolantFell = none) (hc : powerCap s < watts) (hv : 700 ≤ s.phys.vddMv) :
    700 ≤ vddEstimated watts s ∧ vddEstimated watts s ≤ s.phys.vddMv := by
  rw [vddEstimated, if_neg (by rw [hf]; decide), if_pos hc]
  exact between_bounds hv _

theorem vddEstimated_below (hf : s.phys.coolantFell = none) (hc : watts ≤ powerCap s) :
    s.phys.vddMv ≤ vddEstimated watts s ∧ vddEstimated watts s ≤ max s.phys.vddMv (vddTarget s) := by
  rw [vddEstimated, if_neg (by rw [hf]; decide), if_neg (Nat.not_lt.2 hc)]
  exact between_bounds (le_max_left _ _) _
end

section
variable {s : State}

/-- The first field of which some strip is not yet dragged by the cap. -/
def fieldToDrag (s : State) : Option Nat := (List.range 8).find? fun f => (List.range 8).any fun i => !(stripAt s (8 * f + i)).rtp

theorem fieldToDrag_none (h : ∀ n < 64, (stripAt s n).rtp = true) : fieldToDrag s = none := by
  rw [fieldToDrag, List.find?_eq_none]
  intro f hf hany
  obtain ⟨i, hi, hn⟩ := List.any_eq_true.1 hany
  rw [List.mem_range] at hf hi
  rw [h (8 * f + i) (by omega)] at hn
  cases hn

/-- A device already limiting, at 0.70 V and above the cap, drags the next field, or holds dispatch where none is left. -/
theorem exec_powerLimited (hw : powerCap s < s.phys.watts) (hv : s.phys.vddMv = 700) (hp : s.boot.phase = .ready)
    (hl : s.phys.limiting = true) : exec .powerLimited s = .next (match fieldToDrag s with
      | some f => dragField f s
      | none => { s with phys := { s.phys with hold := true } }) := by
  have hon : ¬ (s.phys.watts ≤ powerCap s ∨ s.phys.vddMv ≠ 700 ∨ s.boot.phase ≠ .ready) := by
    simpa [hv, hp] using hw
  show execPowerLimited s = _
  rw [execPowerLimited, if_neg hon, if_pos hl]
  rfl

theorem exec_powerReleased (hl : s.phys.limiting = true) : exec .powerReleased s =
    .next (if powerCap s * 95 ≤ s.phys.watts * 100 then s
      else settle (post .powerReleased none [s.phys.watts] ([7, 6, 5, 4, 3, 2, 1, 0].foldl (fun t f => liftField f t)
        { s with phys := { s.phys with hold := false, limiting := false } }))) := by
  show execPowerReleased s = _
  rw [execPowerReleased]
  by_cases hc : powerCap s * 95 ≤ s.phys.watts * 100
  · rw [if_pos (.inr hc), if_pos hc]
  · rw [if_neg (by simp [hl, hc]), if_neg hc]
    rfl
end

/-- Settles O38: a core that faults or hangs by `stopCore`, an item's outcome by its replays, drag mode by a strip's entry, and
the cap by what is drawn between the bounds. -/
theorem coreFaultsAndDrag : Obligations.CoreFaultsAndDrag := by
  unfold Obligations.CoreFaultsAndDrag
  refine ⟨⟨fun phys check s p c k hp hw hr hl hk hq => ⟨?fault, ?hang⟩, fun phys check s hp => ⟨?passFault, ?passHang⟩,
    fun x s k q c hk hcoll hcmd he => ⟨?replays, ?third, ?kept, hangItem_kills hk hcoll hcmd he 1⟩,
    fun core on s k hk => ⟨?reset, fun d hd => coreOf_modCore_ne _ _ hd⟩⟩,
    fun strip mC s hs hd => ⟨?trip, ?tripDragged, ?hot, ?warm, ?leaves, ?stays⟩,
    fun n d s => ⟨stripAt_setStrip_same n d s, fun _ hm => stripAt_setStrip_ne n d s hm, setStrip_mgmt n d s⟩,
    fun watts s hd => ⟨_, exec_powerEstimate hd, rfl, vddEstimated_low, vddEstimated_above, vddEstimated_below, rfl, rfl, rfl, rfl⟩,
    fun s hw hv hp hl => ⟨fun f hf => ?drags, fun hall => ?holds⟩, fun s hl => ⟨fun hc => ?lifts, fun hc => ?keeps⟩⟩
  case fault => exact congrArg Host.Outcome.next (stopCore_stops _ [phys, check] 9 1 faultItem hp hw hr hl hk hq)
  case hang => exact congrArg Host.Outcome.next (stopCore_stops _ [phys] 10 2 (hangItem 1) hp hw hr hl hk hq)
  case passFault => exact congrArg Host.Outcome.next (stopCore_passes _ [phys, check] 9 1 faultItem hp)
  case passHang => exact congrArg Host.Outcome.next (stopCore_passes _ [phys] 10 2 (hangItem 1) hp)
  case replays =>
    intro hr hn
    rw [faultItem_eq hk hcoll hcmd he, if_neg (by simp [hr]), if_neg (by simpa using hn)]
  case third =>
    intro hr hn
    rw [faultItem_eq hk hcoll hcmd he, if_neg (by simp [hr]), if_pos (by simpa using hn)]
  case kept =>
    intro hr
    rw [faultItem_eq hk hcoll hcmd he, if_pos (by simp [hr])]
  case reset => exact (coreOf_modCore_same ..).trans (by rw [hk]; rfl)
  case trip =>
    intro hn
    rw [exec_sentinelTrip hs hd, if_neg (by simp [hn])]
  case tripDragged =>
    intro hn
    rw [exec_sentinelTrip hs hd, if_pos hn]
  case hot =>
    intro hm
    rw [exec_junctionDrag hs hd, decide_eq_true hm, Bool.or_true]
  case warm =>
    intro hm
    rw [exec_junctionDrag hs hd, decide_eq_false (Nat.not_le.2 hm), Bool.or_false]
  case leaves =>
    intro hm
    rw [exec_dragExit hs hd, decide_eq_false (Nat.not_lt.2 hm), Bool.and_false]
  case stays =>
    intro hm
    rw [exec_dragExit hs hd, decide_eq_true hm, Bool.and_true]
  case drags =>
    have hfield : fieldToDrag s = some f := hf
    rw [exec_powerLimited hw hv hp hl, hfield]
  case holds => rw [exec_powerLimited hw hv hp hl, fieldToDrag_none hall]
  case lifts => exact (exec_powerReleased hl).trans (congrArg Host.Outcome.next (if_neg (Nat.not_le.2 hc)))
  case keeps => exact (exec_powerReleased hl).trans (congrArg Host.Outcome.next (if_pos hc))

end Sys2Proof.Machine

/-! # FENCE and ATOMIC_ACK, and the rows of the requests that the home serves -/

namespace Sys2Proof.Machine

/-! ## Rows of what the home serves -/

section
variable (port : Nat) (tx : Tx) (s : State)

@[simp] theorem taken_dir : (taken port tx s).dir = s.dir := by obtain ⟨fl, w, h⟩ := taken_home port tx s; rw [h]
@[simp] theorem taken_nextId : (taken port tx s).home.nextId = s.home.nextId + 1 := by
  obtain ⟨fl, w, h⟩ := taken_home port tx s
  rw [h]

@[simp] theorem busyOf_taken (n t : Nat) : busyOf (taken port tx s) n t = busyOf s n t := by simp [busyOf]
@[simp] theorem dirOf_taken (n t : Nat) : dirOf (taken port tx s) n t = dirOf s n t := by simp [dirOf]
@[simp] theorem bindPart_taken (n : Nat) (tx' : Tx) : bindPart (taken port tx s) n tx' = bindPart s n tx' := by
  simp [bindPart, portOf]
end

/-- Taking a transaction frees its tiles no less and no more. -/
theorem tilesFree_taken {port : Nat} {tx tx' : Tx} {s : State} : TilesFree tx' (taken port tx s) ↔ TilesFree tx' s := by
  simp [TilesFree]

/-- The row of a transaction that is no response serves it by its op. -/
theorem row_request {c : Instr} {op : Byte} {port : Nat} {tx0 : Tx} {s : State} (hrow : exec c s = recvOp op false port tx0 s)
    (h : Arrives s port (arriving s port op false tx0)) :
    exec c s = .next (settle (serveOp true s.home.nextId (canonPort s port) (arriving s port op false tx0)
      (taken port (arriving s port op false tx0) s))) :=
  hrow.trans (congrArg Host.Outcome.next (recv_request h))

/-! ### Requests, which an earlier FENCE of their source would hold (R82) -/

section
variable {rid port : Nat} {tx : Tx} {s : State} (hf : fenceHeld s tx.src rid = false)
include hf

theorem serveOp_write (hop : tx.op = 0x02) : serveOp true rid port tx s = serveWrite true rid port tx s := by
  simp [serveOp, hop, hf]

theorem serveOp_partial (hop : tx.op = 0x03) : serveOp true rid port tx s = serveWrite true rid port tx s := by
  simp [serveOp, hop, hf]

theorem serveOp_shared (hop : tx.op = 0x10) :
    serveOp true rid port tx s = serveCache true rid port tx false sharedRecalls s := by simp [serveOp, hop, hf]

theorem serveOp_own (hop : tx.op = 0x11) :
    serveOp true rid port tx s = serveCache true rid port tx true ownRecalls s := by simp [serveOp, hop, hf]

theorem serveOp_upgrade (hop : tx.op = 0x12) :
    serveOp true rid port tx s = serveCache true rid port tx true ownRecalls s := by simp [serveOp, hop, hf]

theorem serveOp_wb (hop : tx.op = 0x14) : serveOp true rid port tx s = serveWb true rid port tx s := by
  simp [serveOp, hop, hf]

theorem serveOp_inval (hop : tx.op = 0x20) (hc : tx.cls ≠ 4) : serveOp true rid port tx s = serveInval true rid port tx s := by
  simp [serveOp, hop, hf, hc]

theorem serveOp_geyser (hop : tx.op = 0x20) (hc : tx.cls = 4) : serveOp true rid port tx s = serveGeyser tx s := by
  simp [serveOp, hop, hf, hc]
end

/-! ### A FENCE itself, and messages that are not answered, which no FENCE holds -/

section
variable {rid port : Nat} {tx : Tx} {s : State}

theorem serveOp_ack (hop : tx.op = 0x05) : serveOp true rid port tx s = serveAck tx s := by
  simp [serveOp, isRequest, opAnswered, opDefined, hop]

theorem serveOp_fence (hop : tx.op = 0x06) : serveOp true rid port tx s = serveFence true rid port tx s := by
  simp [serveOp, hop]

theorem serveOp_markDirty (hop : tx.op = 0x13) : serveOp true rid port tx s = serveNote markDirty rid port tx s := by
  simp [serveOp, isRequest, opAnswered, opDefined, hop]

theorem serveOp_evictClean (hop : tx.op = 0x15) : serveOp true rid port tx s = serveNote evictClean rid port tx s := by
  simp [serveOp, isRequest, opAnswered, opDefined, hop]

theorem serveOp_recallAck (hop : tx.op = 0x16) : serveOp true rid port tx s = serveRecallAnswer tx none s := by
  simp [serveOp, isRequest, opAnswered, opDefined, hop]

theorem serveOp_recallData (hop : tx.op = 0x17) : serveOp true rid port tx s = serveRecallAnswer tx tx.tiles.head? s := by
  simp [serveOp, isRequest, opAnswered, opDefined, hop]

/-- A request that an earlier FENCE of its source holds waits for it (R82). -/
theorem serveOp_held (hreq : isRequest tx = true) (hop : tx.op ≠ 0x06) (hf : fenceHeld s tx.src rid = true) :
    serveOp true rid port tx s = park rid port tx (.fence tx.src) s :=
  if_pos (by rw [hreq, hf, decide_eq_true hop]; rfl)
end

/-! ## FENCE and ATOMIC_ACK (R24, R25, R82, R91, R92) -/

section
variable {rid port : Nat} {tx : Tx} {s : State} (h1 : check1 tx s = none)
include h1

theorem serveFence_unbound (hb : bindPart s port tx = none) : serveFence true rid port tx s = answer tx .noAccess s := by
  simp [serveFence, h1, hb]

theorem serveFence_bound (hb : bindPart s port tx ≠ none) : serveFence true rid port tx s =
    if outstanding s tx.src rid then park rid port tx (.fence tx.src) s else answer tx .ok s := by
  simp [serveFence, h1, hb]

theorem serveAck_live : serveAck tx s = processAck (atomSource tx) tx.version s := by simp [serveAck, h1]
end

/-- The rows of requests, but for FENCE, that name a partition of this device, with the op of each. -/
def requestRows (port : Nat) (tx0 : Tx) : List (Byte × Instr) :=
  [(0x01, .rdTile port tx0), (0x02, .wrTile port tx0), (0x03, .wrPartial port tx0), (0x04, .atomic port tx0),
   (0x10, .rdShared port tx0), (0x11, .rdOwn port tx0), (0x12, .upgrade port tx0), (0x14, .wbDirty port tx0),
   (0x20, .invalidate port tx0), (0x28, .snapOpen port tx0), (0x29, .snapClose port tx0), (0x2A, .publish port tx0),
   (0x30, .cmdPush port tx0), (0x31, .doorbell port tx0), (0x32, .rdWindow port tx0), (0x38, .contribute port tx0)]

/-- Each of these rows is the arrival of its op, which is answered. -/
theorem requestRows_arrive (port : Nat) (tx0 : Tx) (s : State) :
    ∀ r ∈ requestRows port tx0, exec r.2 s = recvOp r.1 false port tx0 s ∧ opAnswered r.1 = true ∧ (r.1 == 0x06) = false := by
  simp only [requestRows, List.forall_mem_cons, List.not_mem_nil, false_implies, implies_true, and_true]
  and_intros <;> rfl

/-- Settles O18: FENCE by what is outstanding, what it holds back by `serveOp_held`, ATOMIC_ACK by its own rule. -/
theorem fenceAndAck : Obligations.FenceAndAck := by
  unfold Obligations.FenceAndAck
  refine ⟨?fence, ?held, ?ack⟩
  case fence =>
    intro port tx0 s tx a harr h1
    have hrow : exec (.fence port tx0) s = .next (settle (serveFence true s.home.nextId (canonPort s port) tx a)) :=
      (row_request rfl harr).trans (next_settle (serveOp_fence rfl))
    have hc : check1 tx a = none := (check1_taken port tx tx s).trans h1
    have hbind : bindPart a (canonPort s port) tx = bindPart s (canonPort s port) tx := bindPart_taken port tx s _ tx
    refine ⟨fun hb => hrow.trans (next_settle (serveFence_unbound hc (hbind.trans hb))), fun hb => ?_⟩
    have hbound := serveFence_bound (rid := s.home.nextId) hc (hbind ▸ hb)
    exact ⟨fun ho => hrow.trans (next_settle (hbound.trans (if_neg (by simp [ho])))),
      fun ho => hrow.trans (next_settle (hbound.trans (if_pos ho)))⟩
  case held =>
    intro port tx0 s r hr tx harr hheld
    obtain ⟨hrow, hans, hne⟩ := requestRows_arrive port tx0 s r hr
    have hreq : isRequest tx = true := by
      show (!false && (opAnswered r.1 || !opDefined r.1)) = true
      rw [hans]
      rfl
    exact (row_request hrow harr).trans (next_settle (serveOp_held hreq (beq_eq_false_iff_ne.1 hne) hheld))
  case ack =>
    intro port tx0 s tx harr h1
    have hc : check1 tx (taken port tx s) = none := (check1_taken port tx tx s).trans h1
    exact (row_request rfl harr).trans (next_settle ((serveOp_ack rfl).trans (serveAck_live hc)))

end Sys2Proof.Machine

/-! # Messages of agents and answers to recalls (chapter 3) -/

namespace Sys2Proof.Machine

/-! ## The directory after a change of one entry -/

section
variable (slot tile : Nat) (s : State)

@[simp] theorem dirOf_setDir_same (d : DirEntry) : dirOf (setDir slot tile d s) slot tile = some d := tget_tset_same _ _ _
@[simp] theorem dirOf_delDir_same : dirOf (delDir slot tile s) slot tile = none := tget_tdel_same _ _
@[simp] theorem dirOf_delLog (n t : Nat) : dirOf (delLog slot tile s) n t = dirOf s n t := rfl

@[simp] theorem poisoned_setPoison_same : poisoned (setPoison slot tile s) slot tile = true := by
  simp [poisoned, setPoison, thas]

/-- An agent that leaves an entry leaves the marks of poison. -/
@[simp] theorem removeAgent_poison (a : Nat) : (removeAgent slot tile a s).dir.poison = s.dir.poison := by
  simp only [removeAgent]
  repeat' split
  all_goals rfl

@[simp] theorem poisoned_removeAgent (a n t : Nat) : poisoned (removeAgent slot tile a s) n t = poisoned s n t := by
  simp [poisoned]
end

@[simp] theorem purgeDead_poison (slot tile : Nat) (s : State) : (purgeDead slot tile s).dir.poison = s.dir.poison := by
  unfold purgeDead
  split
  · rfl
  · exact List.foldlRecOn (motive := fun t : State => t.dir.poison = s.dir.poison) _ _ rfl
      fun t ht a _ => (removeAgent_poison slot tile t a).trans ht

@[simp] theorem poisoned_touched (tx : Tx) (s : State) (n t : Nat) : poisoned (touched tx s) n t = poisoned s n t := by
  have h : (touched tx s).dir.poison = s.dir.poison :=
    List.foldlRecOn (motive := fun t : State => t.dir.poison = s.dir.poison) _ _ rfl
      fun t ht a _ => (purgeDead_poison _ a t).trans ht
  simp [poisoned, h]

/-! ## Owners that leave an entry (R64, R70) -/

/-- An agent owns what names it in E, M or O. -/
theorem ownsIt_iff {d : DirEntry} {a : Nat} : ownsIt d a = true ↔ (d.state = .e ∨ d.state = .m ∨ d.state = .o) ∧ d.owner = a := by
  simp [ownsIt, hasOwner, or_assoc]

/-- An owner without sharers leaves nothing behind: neither the entry nor its log record. -/
theorem removeAgent_owner {slot tile a : Nat} {s : State} {d : DirEntry} (hd : dirOf s slot tile = some d) (ho : d.owner = a)
    (hst : d.state = .e ∨ d.state = .m) : removeAgent slot tile a s = delLog slot tile (delDir slot tile s) := by
  have hown : ownsIt d a = true := ownsIt_iff.2 ⟨hst.imp_right .inl, ho⟩
  have hno : d.state ≠ .o := by rcases hst with h | h <;> simp [h]
  simp [removeAgent, hd, hown, hno]

/-! ## Answers to recalls, and recalls that are not answered (R68, R69, R70) -/

section
variable {tx : Tx} {data : Option Tile} {s : State}

theorem serveRecallAnswer_late (h : busyOf s (oSlot tx.offset) (oTile tx.offset) = none) : serveRecallAnswer tx data s = s := by
  simp only [serveRecallAnswer, h]

theorem serveRecallAnswer_named {b : Busy} {r : Recall} (h : busyOf s (oSlot tx.offset) (oTile tx.offset) = some b)
    (hr : b.recalls.find? (fun y => y.tag == tx.tag && y.node == tx.src) = some r) :
    serveRecallAnswer tx data s = tryFinish (oSlot tx.offset) (oTile tx.offset)
      (recallAnswered (oSlot tx.offset) (oTile tx.offset) r data s) := by
  simp only [serveRecallAnswer, h, hr]
end

section
variable {slot tile i : Nat} {s : State} {d : DirEntry} (hd : dirOf s slot tile = some d) (ho : d.owner = i)
include hd ho

/-- RECALL_SHARE of a clean tile: its owner in E is a sharer. -/
theorem answerEntry_clean (he : d.state = .e) : answerEntry slot tile i false false s =
    setDir slot tile { d with state := .s, owner := 0, sharers := .ptrs [i] } s := by
  have hown : ownsIt d i = true := ownsIt_iff.2 ⟨.inl he, ho⟩
  simp [answerEntry, hd, hown, he]

/-- RECALL_SHARE of a dirty tile: its owner in M is the owner in O. -/
theorem answerEntry_dirty (hm : d.state = .m) : answerEntry slot tile i false true s =
    setDir slot tile { d with state := .o, sharers := .ptrs [] } s := by
  have hown : ownsIt d i = true := ownsIt_iff.2 ⟨.inr (.inl hm), ho⟩
  simp [answerEntry, hd, hown, hm]

/-- A recall that times out poisons the tile of an owner in M or O. -/
theorem timeoutEntry_dirty (hst : d.state = .m ∨ d.state = .o) :
    timeoutEntry slot tile i s = removeAgent slot tile i (setPoison slot tile s) := by
  have hown : ownsIt d i = true := ownsIt_iff.2 ⟨.inr hst, ho⟩
  have hne : d.state ≠ .e := by rcases hst with h | h <;> simp [h]
  simp [timeoutEntry, hd, hown, hne]

omit ho in
/-- A holder in E that does not answer is removed. -/
theorem timeoutEntry_clean (he : d.state = .e) : timeoutEntry slot tile i s = removeAgent slot tile i s := by
  simp [timeoutEntry, hd, he]
end

/-- The row of an answer to a recall: it is discarded, or answers the recall that its tag names. -/
theorem recallAnswer_row {c : Instr} {op : Byte} {port : Nat} {tx0 : Tx} {s : State} {b : Busy} {r : Recall}
    {data : Tx → Option Tile} (hrow : exec c s = recvOp op false port tx0 s)
    (hserve : ∀ {rid p : Nat} {tx : Tx} {t : State}, tx.op = op → serveOp true rid p tx t = serveRecallAnswer tx (data tx) t)
    {tx : Tx} (htx : tx = arriving s port op false tx0) (harr : Arrives s port tx) :
    (busyOf s (oSlot tx.offset) (oTile tx.offset) = none → exec c s = .next (settle (taken port tx s))) ∧
    (busyOf s (oSlot tx.offset) (oTile tx.offset) = some b →
      b.recalls.find? (fun y => y.tag == tx.tag && y.node == tx.src) = some r →
      exec c s = .next (settle (tryFinish (oSlot tx.offset) (oTile tx.offset)
        (recallAnswered (oSlot tx.offset) (oTile tx.offset) r (data tx) (taken port tx s))))) := by
  subst htx
  have hexec := (row_request hrow harr).trans (next_settle (hserve rfl))
  have hbusy := busyOf_taken port (arriving s port op false tx0) s (oSlot (arriving s port op false tx0).offset)
    (oTile (arriving s port op false tx0).offset)
  exact ⟨fun hn => hexec.trans (next_settle (serveRecallAnswer_late (hbusy.trans hn))),
    fun hb hr => hexec.trans (next_settle (serveRecallAnswer_named (hbusy.trans hb) hr))⟩

/-- Settles O21: an answer by the BUSY record that it names, a timeout by every recall left; then each entry by its state. -/
theorem recallAnswers : Obligations.RecallAnswers := by
  unfold Obligations.RecallAnswers
  refine ⟨fun port tx0 s b r => ?answers, fun slot tile s b hb => ?expires, fun slot tile i s d hd ho => ?entries⟩
  case answers =>
    exact ⟨recallAnswer_row (c := .recallAck port tx0) rfl serveOp_recallAck rfl,
      recallAnswer_row (c := .recallData port tx0) rfl serveOp_recallData rfl⟩
  case expires =>
    show execRecallTimeout slot tile s = _
    simp only [execRecallTimeout, hb]
  case entries =>
    refine ⟨fun he => ?_, fun hm => ?_, fun hst w => ?_, fun hst => ?_, fun he => ?_⟩
    · rw [answerEntry_clean hd ho he, dirOf_setDir_same]
    · rw [answerEntry_dirty hd ho hm, dirOf_setDir_same]
    · show dirOf (removeAgent slot tile i s) slot tile = none
      rw [removeAgent_owner hd ho hst, dirOf_delLog, dirOf_delDir_same]
    · rw [timeoutEntry_dirty hd ho hst, poisoned_removeAgent, poisoned_setPoison_same]
    · rw [timeoutEntry_clean hd he, poisoned_removeAgent, removeAgent_owner hd ho (.inl he), dirOf_delLog, dirOf_delDir_same]
      exact ⟨rfl, rfl⟩

/-! ## MARK_DIRTY and EVICT_CLEAN (R62, R65, R68, R69) -/

/-- A request names its first tile, whatever its LENGTH. -/
theorem tilesOf_eq_cons (tx : Tx) : ∃ l, tilesOf tx = oTile tx.offset :: l := by
  obtain ⟨n, hn⟩ : ∃ n, max 1 tx.length = n + 1 := ⟨max 1 tx.length - 1, by omega⟩
  exact ⟨_, by rw [tilesOf, hn, List.range_succ_eq_map, List.map_cons, Nat.add_zero]⟩

/-- A request whose first tile is BUSY waits for it. -/
theorem inTurn_busy {rid port : Nat} {tx : Tx} {s : State} (go : State → State)
    (h : isBusy s (oSlot tx.offset) (oTile tx.offset) = true) :
    inTurn rid port tx go s = park rid port tx (.tile (oSlot tx.offset) (oTile tx.offset)) s := by
  obtain ⟨l, hl⟩ := tilesOf_eq_cons tx
  simp [inTurn, hl, h]

/-- A note of an agent to a slot in use has its turn at its tile. -/
theorem serveNote_turn {rid port : Nat} {tx : Tx} {s : State} {e : Extent} (go : Tx → State → State) (h1 : check1 tx s = none)
    (he : extOf s (oSlot tx.offset) = some e) : serveNote go rid port tx s = inTurn rid port tx (go tx) s :=
  if_neg (by simp [h1, he])

/-- The row of a note: it waits while its tile is BUSY, and has its effect at once where the tile is free. -/
theorem note_row {c : Instr} {op : Byte} {port : Nat} {tx0 : Tx} {s : State} {e : Extent} {go : Tx → State → State}
    (hrow : exec c s = recvOp op false port tx0 s)
    (hserve : ∀ {rid p : Nat} {tx : Tx} {t : State}, tx.op = op → serveOp true rid p tx t = serveNote go rid p tx t)
    {tx : Tx} (htx : tx = arriving s port op false tx0) (harr : Arrives s port tx) (h1 : check1 tx s = none)
    (he : extOf s (oSlot tx.offset) = some e) :
    (isBusy s (oSlot tx.offset) (oTile tx.offset) = true → exec c s = .next (settle (park s.home.nextId (canonPort s port) tx
      (.tile (oSlot tx.offset) (oTile tx.offset)) (taken port tx s)))) ∧
    (TilesFree tx s → exec c s = .next (settle (go tx (touched tx (taken port tx s))))) := by
  subst htx
  have hturn := (row_request hrow harr).trans (next_settle ((hserve rfl).trans
    (serveNote_turn go ((check1_taken port _ _ s).trans h1) ((extOf_taken port _ s _).trans he))))
  exact ⟨fun hb => hturn.trans (next_settle (inTurn_busy _ ((isBusy_taken port _ s _ _).trans hb))),
    fun hfree => hturn.trans (next_settle (inTurn_free _ (tilesFree_taken.2 hfree)))⟩

section
variable {tx : Tx} {s : State} {e : Extent} {d : DirEntry} {i : Nat} (he : extOf s (oSlot tx.offset) = some e)
  (hd : dirOf s (oSlot tx.offset) (oTile tx.offset) = some d) (ha : agentOf e tx.src = some i)
include he hd ha

theorem markDirty_owner (hst : d.state = .e) (ho : d.owner = i) : markDirty tx s =
    addLog (oSlot tx.offset) (oTile tx.offset) e tx.src (setDir (oSlot tx.offset) (oTile tx.offset) { d with state := .m } s) := by
  have hown : ownsIt d i = true := ownsIt_iff.2 ⟨.inl hst, ho⟩
  simp [markDirty, he, hd, ha, hown, hst]

theorem markDirty_other (h : d.state ≠ .e ∨ d.owner ≠ i) : markDirty tx s = s := by
  have hno : ¬ (ownsIt d i = true ∧ d.state = .e) := fun ⟨hown, hst⟩ => h.elim (· hst) (· (ownsIt_iff.1 hown).2)
  simp only [markDirty, he, hd, ha, Bool.and_eq_true, beq_iff_eq, if_neg hno]

theorem evictClean_owner (hst : d.state = .e) (ho : d.owner = i) :
    evictClean tx s = removeAgent (oSlot tx.offset) (oTile tx.offset) i s := by
  have hown : ownsIt d i = true := ownsIt_iff.2 ⟨.inl hst, ho⟩
  simp [evictClean, he, hd, ha, hown, hst]

theorem evictClean_sharer (hst : d.state = .s) (hs : isSharer i d.sharers = true) :
    evictClean tx s = removeAgent (oSlot tx.offset) (oTile tx.offset) i s := by
  have hown : ownsIt d i = false := by simp [ownsIt, hasOwner, hst]
  simp [evictClean, he, hd, ha, hown, hs]

theorem evictClean_dirty (hst : d.state = .m) (ho : d.owner = i) : evictClean tx s = s := by
  have hown : ownsIt d i = true := ownsIt_iff.2 ⟨.inr (.inl hst), ho⟩
  simp [evictClean, he, hd, ha, hown, hst]
end

/-! ## WB_DIRTY (R62, R68, R485) -/

section
variable {rid port q : Nat} {tx : Tx} {s : State} {e : Extent} {d : DirEntry} {i : Nat} (h : Admits rid port tx s q e)
  (hc : checkCache s q e tx.src true = .ok) (hd : dirOf s (oSlot tx.offset) (oTile tx.offset) = some d)
  (ha : agentOf e tx.src = some i)
include h hc hd ha

/-- The owner of a dirty tile writes the home's copy at once, and is removed where that is done. -/
theorem serveWb_owner (hst : d.state = .m ∨ d.state = .o) (ho : d.owner = i) : serveWb true rid port tx s =
    match backingWrite {} (oSlot tx.offset) (oTile tx.offset) e (tx.tiles.headD zeroTile) s with
    | .done u => wbAck tx .ok (removeAgent (oSlot tx.offset) (oTile tx.offset) i u)
    | .fail st u => wbAck tx st u
    | .wait w u => park rid port tx w u := by
  have hown : (ownsIt d i && (d.state == .m || d.state == .o)) = true := by
    simp [ownsIt_iff, ho, hst]
  rw [serveWb, meet_admitted h hc]
  simp only [hd, ha, hown, if_true] <;> rfl

/-- Another agent's data is discarded, once it has its turn. -/
theorem serveWb_other (ho : d.owner ≠ i) (hfree : TilesFree tx s) :
    serveWb true rid port tx s = wbAck tx .state (touched tx s) := by
  have hown : ownsIt d i = false := by simp [ownsIt, ho]
  rw [serveWb, meet_admitted h hc]
  simp only [hd, ha, hown, Bool.false_and, Bool.false_eq_true, if_false]
  exact inTurn_free _ hfree
end

/-- Settles O20: a note waits or acts by the entry of its tile; WB_DIRTY by who owns it. -/
theorem agentMessages : Obligations.AgentMessages := by
  unfold Obligations.AgentMessages
  intro port tx0 s e d i
  refine ⟨?mark, ?evict, ?wb⟩
  case mark =>
    intro tx a harr h1 he
    obtain ⟨hbusy, hfree⟩ := note_row (c := .markDirty port tx0) (go := markDirty) rfl serveOp_markDirty rfl harr h1 he
    have he' : extOf a (oSlot tx.offset) = some e := by simpa [a] using he
    exact ⟨hbusy, fun hf hd ha => ⟨fun hst ho => (hfree hf).trans (next_settle (markDirty_owner he' hd ha hst ho)),
      fun hno => (hfree hf).trans (next_settle (markDirty_other he' hd ha hno))⟩⟩
  case evict =>
    intro tx a harr h1 he
    obtain ⟨hbusy, hfree⟩ := note_row (c := .evictClean port tx0) (go := evictClean) rfl serveOp_evictClean rfl harr h1 he
    have he' : extOf a (oSlot tx.offset) = some e := by simpa [a] using he
    refine ⟨hbusy, fun hf hd ha => ⟨fun hhold => (hfree hf).trans (next_settle ?_),
      fun hst ho => (hfree hf).trans (next_settle (evictClean_dirty he' hd ha hst ho))⟩⟩
    rcases hhold with ⟨hst, ho⟩ | ⟨hst, hs⟩
    · exact evictClean_owner he' hd ha hst ho
    · exact evictClean_sharer he' hd ha hst hs
  case wb =>
    intro tx a q harr hadm hc hd ha w
    have hrow : exec (.wbDirty port tx0) s = .next (settle (serveWb true s.home.nextId (canonPort s port) tx a)) :=
      (row_request rfl harr).trans (next_settle (serveOp_wb hadm.fence rfl))
    have hd' : dirOf a (oSlot tx.offset) (oTile tx.offset) = some d := (dirOf_taken port tx s _ _).trans hd
    refine ⟨fun hst ho => ?_, fun ho hfree => hrow.trans (next_settle (serveWb_other hadm hc hd' ha ho hfree))⟩
    have hown := hrow.trans (next_settle (serveWb_owner hadm hc hd' ha hst ho))
    exact ⟨fun u hw => hown.trans (next_settle (by rw [show backingWrite _ _ _ _ _ _ = _ from hw])),
      fun st u hw => hown.trans (next_settle (by rw [show backingWrite _ _ _ _ _ _ = _ from hw]))⟩

end Sys2Proof.Machine

/-! # INVALIDATE, and requests that wait -/

namespace Sys2Proof.Machine

/-! ## INVALIDATE (R58, R76, R77, R78; log entry 36) -/

/-- The INVALIDATE of a transaction as it starts: from a writer, or from the switch above. -/
def invalOf (tx : Tx) (writer : Option (Nat × Tx)) (waiting : List Node) (up : Option Tx) : Inval :=
  { id := 0, slot := oSlot tx.offset, tile := oTile tx.offset, count := tx.length, whole := tx.qual.getLsbD 0,
    writer := writer, force := none, waiting := waiting, answered := 0, up := up }

section
variable {rid port q : Nat} {tx : Tx} {s : State} {e : Extent}

theorem serveGeyser_live (h1 : check1 tx s = none) : serveGeyser tx s = startInval (invalOf tx none tx.targets (some tx)) s := by
  simp only [serveGeyser, h1, invalOf]

variable (h : Admits rid port tx s q e)
include h

/-- The owner's INVALIDATE of a SHARED_READ extent waits for the stores before it on its flow, then goes to every other holder. -/
theorem serveInval_owner (hm : e.mode = .sharedRead) (hq : q = e.owner) : serveInval true rid port tx s =
    if storesBefore s tx.src tx.cls rid then park rid port tx (.stores tx.src tx.cls) s
    else startInval (invalOf tx (some (port, tx)) ((e.holders.map (·.node)).filter (· ≠ tx.src)) none) s := by
  rw [serveInval, meet_admitted h (by simp [hm, hq])]
  rfl

theorem serveInval_mode (hop : tx.op ≠ 0x04) (hm : e.mode ≠ .sharedRead) : serveInval true rid port tx s = answer tx .state s := by
  rw [serveInval, meet_refused h (if_pos hm), refuse_eq_answer _ _ hop]

theorem serveInval_stranger (hop : tx.op ≠ 0x04) (hm : e.mode = .sharedRead) (hq : q ≠ e.owner) :
    serveInval true rid port tx s = answer tx .noAccess s := by
  rw [serveInval, meet_refused h ((if_neg (not_not_intro hm)).trans (if_pos hq)), refuse_eq_answer _ _ hop]
end

/-- A row of INVALIDATE has the effect that its rule gives at the state that serves it. -/
theorem invalidate_serves {port : Nat} {tx0 : Tx} {hyp : State → Tx → State → Prop} {eff : Tx → State → State}
    (hrule : ∀ s tx, tx.op = 0x20 → fenceHeld (taken port tx s) tx.src s.home.nextId = false → hyp s tx (taken port tx s) →
      serveOp true s.home.nextId (canonPort s port) tx (taken port tx s) = eff tx (taken port tx s)) :
    Serves (.invalidate port tx0) 0x20 false port tx0 hyp eff := by
  intro s tx harr hfence hh
  have hf := hfence (show isRequest tx = true from rfl) (show (0x20 : Byte) ≠ 0x06 by decide)
  exact (row_request rfl harr).trans (next_settle (hrule s tx rfl hf hh))

/-- A row of the answer to an INVALIDATE has the effect that its rule gives at the state that serves it. -/
theorem invalAnswer_serves {port : Nat} {tx0 : Tx} {hyp : State → Tx → State → Prop} {eff : Tx → State → State}
    (hrule : ∀ s tx, hyp s tx (taken port tx s) → serveInvalAnswer tx (taken port tx s) = eff tx (taken port tx s)) :
    Serves (.invalidateResponse port tx0) 0x20 true port tx0 hyp eff := by
  intro s tx harr _ hh
  exact congrArg Host.Outcome.next ((recv_response harr).trans (congrArg settle (hrule s tx hh)))

/-- The record that an answer names is the one that it names before the arrival. -/
theorem invals_taken {port : Nat} {tx : Tx} {s : State} {o : Option Inval}
    (h : s.ext.invals.find? (fun y => BitVec.ofNat 16 y.id == tx.tag) = o) :
    (taken port tx s).ext.invals.find? (fun y => BitVec.ofNat 16 y.id == tx.tag) = o := by rwa [taken_ext]

section
variable {tx : Tx} {n : Node} {count : Nat} {i : Inval} {s : State}

theorem serveInvalAnswer_unknown (h : s.ext.invals.find? (fun y => BitVec.ofNat 16 y.id == tx.tag) = none) :
    serveInvalAnswer tx s = s := by
  simp only [serveInvalAnswer, h]

theorem serveInvalAnswer_named (h : s.ext.invals.find? (fun y => BitVec.ofNat 16 y.id == tx.tag) = some i) :
    let r := invalAnswered tx.src tx.version.toNat i s
    let t : State := { r.2 with ext := { r.2.ext with invals := r.2.ext.invals.map (fun y => if y.id = i.id then r.1 else y) } }
    serveInvalAnswer tx s = if r.1.waiting.isEmpty then endInval r.1 t else t := by
  simp only [serveInvalAnswer, h]

theorem invalAnswered_holder (hb : i.branches.find? (fun b => b.1 == n) = none) (hn : n ∈ i.waiting) :
    invalAnswered n count i s = ({ i with waiting := i.waiting.filter (· ≠ n), answered := i.answered + 1 }, s) := by
  simp [invalAnswered, hb, hn]

theorem invalAnswered_switch {b : Node × List Node} (hb : i.branches.find? (fun b => b.1 == n) = some b) :
    let below := i.waiting.filter b.2.contains
    (invalAnswered n count i s).1.answered = i.answered + min count below.length ∧
    (below.length ≤ count → (invalAnswered n count i s).1.waiting = i.waiting.filter (fun x => !below.contains x) ∧
      (invalAnswered n count i s).2 = s) := by
  intro below
  refine ⟨by simp only [invalAnswered, hb]; rfl, fun hall => ?_⟩
  have hk : min count below.length = below.length := Nat.min_eq_right hall
  simp only [invalAnswered, hb]
  rw [if_pos hk, if_pos hk]
  exact ⟨rfl, rfl⟩
end

theorem endInval_complete {s : State} {i : Inval} {p : Nat} {tx : Tx} (hw : i.writer = some (p, tx)) (hu : i.up = none)
    (he : i.waiting = []) : endInval i s = answerVersion tx .ok (BitVec.ofNat 32 i.answered)
      { s with ext := { s.ext with invals := s.ext.invals.filter (fun y => y.id ≠ i.id) } } := by
  simp only [endInval, hu, hw, he, List.isEmpty_nil, if_true]

/-- Settles O23: a writer's INVALIDATE by mode, owner and stores, one from the switch above by `serveGeyser`; an answer by the
record that it names. -/
theorem invalidateMessages : Obligations.InvalidateMessages := by
  unfold Obligations.InvalidateMessages
  refine ⟨fun port tx0 q e => ⟨?waits, ?geyser, ?starts, ?mode, ?stranger⟩,
    fun port tx0 i => ⟨?partly, ?last, fun n count s => invalAnswered_holder, fun n count s b => invalAnswered_switch, ?unknown⟩,
    fun s i hi => ?timeout, fun s i p tx => endInval_complete⟩
  case waits =>
    refine invalidate_serves fun s tx hop hf ⟨hadm, hc, hm, hq, hst⟩ => ?_
    rw [serveOp_inval hf hop hc, serveInval_owner hadm hm hq, if_pos hst, taken_nextId, canonPort_taken]
    rfl
  case geyser =>
    refine invalidate_serves fun s tx hop hf ⟨hc, h1⟩ => ?_
    rw [serveOp_geyser hf hop hc, serveGeyser_live ((check1_taken port tx tx s).trans h1)]
    rfl
  case starts =>
    refine invalidate_serves fun s tx hop hf ⟨hadm, hc, hm, hq, hst⟩ => ?_
    rw [serveOp_inval hf hop hc, serveInval_owner hadm hm hq, if_neg (by simp [hst]), canonPort_taken]
    rfl
  case mode =>
    refine invalidate_serves fun s tx hop hf ⟨hadm, hc, hm⟩ => ?_
    rw [serveOp_inval hf hop hc, serveInval_mode hadm (by rw [hop]; decide) hm]
  case stranger =>
    refine invalidate_serves fun s tx hop hf ⟨hadm, hc, hm, hq⟩ => ?_
    rw [serveOp_inval hf hop hc, serveInval_stranger hadm (by rw [hop]; decide) hm hq]
  case partly =>
    refine invalAnswer_serves fun s tx ⟨hi, hw⟩ => ?_
    rw [serveInvalAnswer_named (invals_taken hi), if_neg (by simpa using hw)]
  case last =>
    refine invalAnswer_serves fun s tx ⟨hi, hw⟩ => ?_
    rw [serveInvalAnswer_named (invals_taken hi), if_pos (by simpa using hw)]
  case unknown =>
    exact invalAnswer_serves fun s tx hi => serveInvalAnswer_unknown (invals_taken hi)
  case timeout =>
    show execInvalidateTimeout i.id s = _
    simp only [execInvalidateTimeout, hi]

/-! ## Requests that wait are served in order (R69, R95, R120, R134, R417) -/

section
variable {test : Parked → Bool} {s : State}

theorem serveFirst_none (h : s.home.parked.find? test = none) : serveFirst test s = s := by simp only [serveFirst, h]

/-- The first request that a test names has been admitted, unless it waits for what the checks look at. -/
theorem serveFirst_admitted {p : Parked} {w : Wait} (hw : ∀ y, test y = true → y.why = w) (hm : meetsChecks w = false)
    (h : s.home.parked.find? test = some p) : serveFirst test s = serveOp false p.id p.port p.tx (unpark p.id s) := by
  simp only [serveFirst, h, serveParked, hw p (List.find?_some h), hm]
end

theorem why_of_beq {w : Wait} (y : Parked) (h : (y.why == w) = true) : y.why = w := beq_iff_eq.1 h

/-- An admitted request that has waited meets the present state alone (R69). -/
theorem meet_again {rid port : Nat} {tx : Tx} {chk : Nat → Extent → State → Chk} {go : Nat → Extent → State → State} {s : State}
    {e : Extent} (h1 : check1 tx s = none) (he : extOf s (oSlot tx.offset) = some e)
    (hd : domainDown s e = false) (ha : e.state ≠ .arriving) : meet false rid port tx chk go s = go 0 e s := by
  simp [meet, h1, he, hd, pullFirst_present _ _ _ ha]

/-- A request has its turn where no tile of it is BUSY and none that came before it waits there. -/
theorem inTurn_first {rid port : Nat} {tx : Tx} {s : State} (go : State → State)
    (h : ∀ t ∈ tilesOf tx, isBusy s (oSlot tx.offset) t = false ∧ waitersBefore s rid (oSlot tx.offset) t = false) :
    inTurn rid port tx go s = go (touched tx s) := by
  have hnone : (tilesOf tx).find? (fun t => isBusy s (oSlot tx.offset) t || waitersBefore s rid (oSlot tx.offset) t) = none :=
    List.find?_eq_none.2 fun t ht => by simp [(h t ht).1, (h t ht).2]
  simp only [inTurn, hnone]
  rfl

/-! ## WR_TILE and WR_PARTIAL at their tiles (R68, R71, R81, R116, R127, R133) -/

/-- What a request with no recall outstanding comes to, by what its row comes to. -/
def rowEnds (rid port : Nat) (tx : Tx) : WOut → State
  | .done t => t
  | .fail st t => failReq tx st t
  | .wait w t => park rid port tx w t

theorem runReq_rowEnds (rid port : Nat) (tx : Tx) (s : State) : runReq rid port tx s = rowEnds rid port tx (finishRow false tx [] s) :=
  rfl

/-- A request that has an answer of its own op fails with its status. -/
theorem failReq_answers {tx : Tx} {st : St} {s : State} (h4 : tx.op ≠ 0x04) (hm : tx.op ≠ 0x13) (he : tx.op ≠ 0x15) :
    failReq tx st s = answer tx st s :=
  (if_neg h4).trans (if_neg (not_or.2 ⟨hm, he⟩))

/-- The answer of a write by what its change comes to, with what it undoes where it does not commit. -/
def changeEnds (rid port : Nat) (tx : Tx) (undo : State → State) : WOut → State
  | .done b => answer tx .ok b
  | .fail st b => answer tx st (undo b)
  | .wait w b => park rid port tx w (undo b)

section
variable {rid port : Nat} {tx : Tx} {s : State} {e : Extent} (he : extOf s (oSlot tx.offset) = some e)
include he

/-- A WR_TILE that needs no recall writes all its tiles, or none (R81; log entry 11). -/
theorem runReq_write (hop : tx.op = 0x02) : runReq rid port tx s = changeEnds rid port tx (undoWrite s)
    (writeTiles (oSlot tx.offset) s.pool.nextRec (fullTiles s e (tilesOf tx)) ((tilesOf tx).zip tx.tiles) s) := by
  have hrow : finishRow false tx [] s = doWrite tx s := by simp [finishRow, he, hop]
  have hfail : ∀ st t, failReq tx st t = answer tx st t := fun st t =>
    failReq_answers (by rw [hop]; decide) (by rw [hop]; decide) (by rw [hop]; decide)
  rw [runReq_rowEnds, hrow]
  simp only [doWrite, he]
  cases writeTiles (oSlot tx.offset) s.pool.nextRec (fullTiles s e (tilesOf tx)) ((tilesOf tx).zip tx.tiles) s with
  | done b => rfl
  | fail st b => exact hfail st _
  | wait y b => rfl

/-- The tile of a WR_PARTIAL with the bytes of its mask written (R127). -/
def maskedChange (tx : Tx) (old : Block) : Block :=
  mergeMask old (tx.tiles.headD zeroTile).data (BitVec.ofNat 256 tx.trailer.val)

/-- A WR_PARTIAL that needs no recall changes its tile. -/
theorem runReq_partial (hop : tx.op = 0x03) : runReq rid port tx s = changeEnds rid port tx id
    (doChange (oSlot tx.offset) (oTile tx.offset) tx.version.toNat [] (maskedChange tx) s).2 := by
  have hrow : finishRow false tx [] s = doPartial tx [] s := by simp [finishRow, he, hop]
  have hfail : ∀ st t, failReq tx st t = answer tx st t := fun st t =>
    failReq_answers (by rw [hop]; decide) (by rw [hop]; decide) (by rw [hop]; decide)
  have hdo : doPartial tx [] s = match (doChange (oSlot tx.offset) (oTile tx.offset) tx.version.toNat [] (maskedChange tx) s).2 with
    | .done b => .done (answer tx .ok b)
    | w => w := rfl
  rw [runReq_rowEnds, hrow, hdo]
  cases (doChange (oSlot tx.offset) (oTile tx.offset) tx.version.toNat [] (maskedChange tx) s).2 with
  | done b => rfl
  | fail st b => exact hfail st b
  | wait y b => rfl
end

/-- Settles O31: each row serves the first request that waits for what it names; a WR_TILE that was admitted then meets its tiles
afresh. -/
theorem waitingRequests : Obligations.WaitingRequests := by
  unfold Obligations.WaitingRequests
  refine ⟨fun slot tile s p => ⟨fun hb => ?busy, fun hb hp => ?tile, fun hb hp => ?noTile⟩,
    fun part s p => ⟨fun hl => ?noLedger, fun hl hp => ?ledger, fun hj => ?noJournal, ?space⟩, ?again⟩
  case busy => exact congrArg Host.Outcome.next (if_pos hb)
  case tile =>
    exact congrArg Host.Outcome.next ((if_neg (by simp [hb])).trans (congrArg settle (serveFirst_admitted why_of_beq rfl hp)))
  case noTile => exact congrArg Host.Outcome.next ((if_neg (by simp [hb])).trans (congrArg settle (serveFirst_none hp)))
  case noLedger => exact congrArg Host.Outcome.next (if_pos hl)
  case ledger =>
    exact congrArg Host.Outcome.next ((if_neg (by simp [hl])).trans (congrArg settle (serveFirst_admitted why_of_beq rfl hp)))
  case noJournal => exact congrArg Host.Outcome.next (if_pos hj)
  case space =>
    intro a b
    refine ⟨fun hj hp => ?_, fun hj hp => ?_, fun hp => ?_, fun hp => ?_⟩
    · exact congrArg Host.Outcome.next ((if_neg (by simp [hj])).trans (congrArg settle (serveFirst_admitted why_of_beq rfl hp)))
    · exact congrArg Host.Outcome.next ((if_neg (by simp [hj])).trans (congrArg settle (serveFirst_none hp)))
    · exact congrArg Host.Outcome.next (congrArg settle (serveFirst_admitted why_of_beq rfl hp))
    · exact congrArg Host.Outcome.next (congrArg settle (serveFirst_none hp))
  case again =>
    intro rid port tx s e hop h1 he hd ha hturn v hnone b hw
    have hserve : serveOp false rid port tx s = serveWrite false rid port tx s := by simp [serveOp, hop]
    have hmeet : serveWrite false rid port tx s = recallFor rid port tx e (fun t => writeRecalls e (dirOf v (oSlot tx.offset) t)) v := by
      rw [serveWrite, meet_again h1 he hd ha, atTiles, inTurn_first _ hturn]
      simp [hop, v]
    have he' : extOf v (oSlot tx.offset) = some e := (extOf_touched tx s _).trans he
    rw [hserve, hmeet, recallFor_none hnone, runReq_write he' hop, hw]
    rfl

end Sys2Proof.Machine

/-! # Grants to caching agents -/

namespace Sys2Proof.Machine

/-! ## Grants to caching agents (R60, R66, R68) -/

/-- A request of one tile names its tile alone. -/
theorem tilesOf_single {tx : Tx} (h : tx.length ≤ 1) : tilesOf tx = [oTile tx.offset] := by
  simp [tilesOf, Nat.max_eq_left h]

/-- A caching request of an agent that needs no recall is carried out at once. -/
theorem serveCache_runs {rid port q i : Nat} {tx : Tx} {s : State} {e e1 : Extent} {writes : Bool}
    {need : Extent → Option DirEntry → Nat → List (Nat × Bool)} (h : Admits rid port tx s q e)
    (hc : checkCache s q e tx.src writes = .ok) (hk : Caches tx (ensureAgent (oSlot tx.offset) tx.src s) e1 i)
    (hn : need e1 (dirOf (touched tx (ensureAgent (oSlot tx.offset) tx.src s)) (oSlot tx.offset) (oTile tx.offset)) i = []) :
    serveCache true rid port tx writes need s = runReq rid port tx (touched tx (ensureAgent (oSlot tx.offset) tx.src s)) := by
  obtain ⟨hext, hagent, hone, hclean, hroom, hfree⟩ := hk
  have hgo : atTiles false rid port tx e1 (fun u j => need e1 (dirOf u (oSlot tx.offset) j) i)
      (ensureAgent (oSlot tx.offset) tx.src s) = runReq rid port tx (touched tx (ensureAgent (oSlot tx.offset) tx.src s)) := by
    rw [atTiles, inTurn_free _ hfree, Bool.false_and, if_neg Bool.false_ne_true]
    refine recallFor_none fun t ht => ?_
    rw [tilesOf_single hone, List.mem_singleton] at ht
    rw [ht, hn]
  rw [serveCache, meet_admitted h hc]
  simp only [hext, hagent, hclean, Bool.false_and, Bool.false_eq_true, if_false, makeRoom]
  split
  · exact hgo
  · rename_i hno
    rw [hroom.resolve_left hno]
    exact hgo

section
variable {tx : Tx} {e : Extent} {i : Nat} {s : State} (ha : agentOf e tx.src = some i)
include ha

/-- A tile that none holds is granted E to RD_SHARED. -/
theorem doShared_absent {t : Tile} {u : State} (hd : dirOf s (oSlot tx.offset) (oTile tx.offset) = none)
    (hr : backingRead (oSlot tx.offset) (oTile tx.offset) e s = (.ok t, u)) :
    doShared false tx e [] s = .done (grant tx 0x19 (some t) (putDir (oSlot tx.offset) (oTile tx.offset) .e i (.ptrs []) u)) := by
  simp [doShared, ha, hd, grantData, recalledAt, hr]

/-- The sharers of a tile are joined. -/
theorem doShared_joined {d : DirEntry} {t : Tile} {u : State} (hd : dirOf s (oSlot tx.offset) (oTile tx.offset) = some d)
    (hs : d.state = .s) (hr : backingRead (oSlot tx.offset) (oTile tx.offset) e s = (.ok t, u)) :
    doShared false tx e [] s =
      .done (grant tx 0x18 (some t) (putDir (oSlot tx.offset) (oTile tx.offset) .s 0 (addSharer i d.sharers) u)) := by
  simp [doShared, ha, hd, hs, ownsIt, hasOwner, grantData, recalledAt, hr]

/-- The owner in M keeps it. -/
theorem doShared_owner {d : DirEntry} (hd : dirOf s (oSlot tx.offset) (oTile tx.offset) = some d) (hm : d.state = .m)
    (ho : d.owner = i) : doShared false tx e [] s = grantMBare tx (oSlot tx.offset) (oTile tx.offset) i e s := by
  simp [doShared, ha, hd, hm, ho, ownsIt, hasOwner]

/-- A tile that none holds is granted M to RD_OWN. -/
theorem doOwn_absent {t : Tile} {u : State} (hd : dirOf s (oSlot tx.offset) (oTile tx.offset) = none)
    (hr : backingRead (oSlot tx.offset) (oTile tx.offset) e s = (.ok t, u)) :
    doOwn false tx e [] s = .done (grant tx 0x1A (some t) (addLog (oSlot tx.offset) (oTile tx.offset) e tx.src
      (putDir (oSlot tx.offset) (oTile tx.offset) .m i (.ptrs []) u))) := by
  simp [doOwn, ha, hd, grantData, recalledAt, hr]

/-- A sharer that upgrades a clean tile is granted M without data. -/
theorem doOwn_upgrade {d : DirEntry} (hd : dirOf s (oSlot tx.offset) (oTile tx.offset) = some d)
    (hs : isSharer i d.sharers = true) (hp : poisoned s (oSlot tx.offset) (oTile tx.offset) = false) :
    doOwn true tx e [] s = grantMBare tx (oSlot tx.offset) (oTile tx.offset) i e s := by
  simp [doOwn, ha, hd, hs, hp]
end

section
variable {tx : Tx} {s : State} {e : Extent} (he : extOf s (oSlot tx.offset) = some e)
include he

theorem finishRow_shared (hop : tx.op = 0x10) : finishRow false tx [] s = doShared false tx e [] s := by
  simp [finishRow, he, hop]

theorem finishRow_own (hop : tx.op = 0x11) : finishRow false tx [] s = doOwn false tx e [] s := by
  simp [finishRow, he, hop]

theorem finishRow_upgrade (hop : tx.op = 0x12) : finishRow false tx [] s = doOwn true tx e [] s := by
  simp [finishRow, he, hop]
end

/-- RD_SHARED needs no recall of a tile in S. -/
theorem sharedRecalls_shared {e : Extent} {d : DirEntry} (i : Nat) (h : d.state = .s) : sharedRecalls e (some d) i = [] := by
  simp [sharedRecalls, ownsIt, hasOwner, h]

/-- RD_SHARED needs no recall of a tile that its agent has in M. -/
theorem sharedRecalls_owner {e : Extent} {d : DirEntry} {i : Nat} (hm : d.state = .m) (ho : d.owner = i) :
    sharedRecalls e (some d) i = [] := by
  simp [sharedRecalls, ownsIt, hasOwner, hm, ho]

/-- The only sharer of a tile recalls none. -/
theorem ownRecalls_alone {e : Extent} {d : DirEntry} {i : Nat} (hs : d.state = .s) (h : d.sharers = .ptrs [i]) :
    ownRecalls e (some d) i = [] := by
  simp [ownRecalls, holdersIn, hasOwner, sharersOf, hs, h]

/-- The row of a caching request that needs no recall grants what its own row of the table gives. -/
theorem grant_row {c : Instr} {op : Byte} {port q i : Nat} {tx0 : Tx} {s : State} {e e1 : Extent} {need : Bool}
    {hyp : State → Option DirEntry → Prop} {grants : Tx → State → State → Tile → State}
    {recalls : Extent → Option DirEntry → Nat → List (Nat × Bool)} (hrow : exec c s = recvOp op false port tx0 s)
    (hserve : ∀ {rid p : Nat} {tx : Tx} {t : State}, fenceHeld t tx.src rid = false → tx.op = op →
      serveOp true rid p tx t = serveCache true rid p tx need recalls t)
    (hnone : ∀ b d, hyp b d → recalls e1 d i = [])
    (hfinish : ∀ (tx : Tx) (b : State), tx.op = op → extOf b (oSlot tx.offset) = some e1 → agentOf e1 tx.src = some i →
      poisoned b (oSlot tx.offset) (oTile tx.offset) = false → hyp b (dirOf b (oSlot tx.offset) (oTile tx.offset)) →
      ∀ t u, backingRead (oSlot tx.offset) (oTile tx.offset) e1 b = (.ok t, u) →
        finishRow false tx [] b = .done (grants tx b u t))
    {tx : Tx} (htx : tx = arriving s port op false tx0) {a b : State} (ha : a = taken port tx s)
    (hb : b = touched tx (ensureAgent (oSlot tx.offset) tx.src a)) (harr : Arrives s port tx)
    (hadm : Admits s.home.nextId (canonPort s port) tx a q e) (hc : checkCache a q e tx.src need = .ok)
    (hk : Caches tx (ensureAgent (oSlot tx.offset) tx.src a) e1 i) (hh : hyp b (dirOf b (oSlot tx.offset) (oTile tx.offset)))
    (t : Tile) (u : State) (hr : backingRead (oSlot tx.offset) (oTile tx.offset) e1 b = (.ok t, u)) :
    exec c s = .next (settle (grants tx b u t)) := by
  subst htx ha hb
  have hext := (extOf_touched (arriving s port op false tx0) _ _).trans hk.ext
  have hclean := (poisoned_touched (arriving s port op false tx0) _ _ _).trans hk.clean
  refine (row_request hrow harr).trans (next_settle ((hserve hadm.fence rfl).trans ?_))
  rw [serveCache_runs hadm hc hk (hnone _ _ hh), runReq_rowEnds, hfinish _ _ rfl hext hk.agent hclean hh t u hr]
  rfl

/-- Settles O19: an agent that needs no recall is granted by the row of its op at the entry of the tile. -/
theorem cachingGrants : Obligations.CachingGrants := by
  unfold Obligations.CachingGrants
  intro port tx0 s q e e1 i
  refine ⟨?exclusive, fun d => ?joined, fun d => ?owner, ?own, fun d => ?upgrade⟩
  case exclusive =>
    exact grant_row (c := .rdShared port tx0) (hyp := fun _ d => d = none) rfl serveOp_shared
      (fun b d hd => by rw [hd]; rfl)
      (fun tx b hop he ha _ hd t u hr => (finishRow_shared he hop).trans (doShared_absent ha hd hr)) rfl rfl rfl
  case joined =>
    exact grant_row (c := .rdShared port tx0) (hyp := fun _ d' => d' = some d ∧ d.state = .s) rfl serveOp_shared
      (fun b d' ⟨hd, hs⟩ => by rw [hd, sharedRecalls_shared i hs])
      (fun tx b hop he ha _ ⟨hd, hs⟩ t u hr => (finishRow_shared he hop).trans (doShared_joined ha hd hs hr)) rfl rfl rfl
  case owner =>
    exact grant_row (c := .rdShared port tx0) (hyp := fun _ d' => d' = some d ∧ d.state = .m ∧ d.owner = i) rfl serveOp_shared
      (fun b d' ⟨hd, hm, ho⟩ => by rw [hd, sharedRecalls_owner hm ho])
      (fun tx b hop he ha _ ⟨hd, hm, ho⟩ _ _ _ => (finishRow_shared he hop).trans (doShared_owner ha hd hm ho)) rfl rfl rfl
  case own =>
    exact grant_row (c := .rdOwn port tx0) (hyp := fun _ d => d = none) rfl serveOp_own
      (fun b d hd => by rw [hd]; rfl)
      (fun tx b hop he ha _ hd t u hr => (finishRow_own he hop).trans (doOwn_absent ha hd hr)) rfl rfl rfl
  case upgrade =>
    exact grant_row (c := .upgrade port tx0) (hyp := fun _ d' => d' = some d ∧ d.state = .s ∧ d.sharers = .ptrs [i]) rfl
      serveOp_upgrade (fun b d' ⟨hd, hs, hsh⟩ => by rw [hd, ownRecalls_alone hs hsh])
      (fun tx b hop he ha hp ⟨hd, _, hsh⟩ _ _ _ =>
        (finishRow_upgrade he hop).trans (doOwn_upgrade ha hd (by simp [hsh, isSharer]) hp)) rfl rfl rfl

end Sys2Proof.Machine

/-! # Writes at the home and the commit of their records -/

namespace Sys2Proof.Machine

/-! ## Writes that are admitted (R68, R71) -/

/-- The state of an extent's write once it has its turn. -/
theorem serveWrite_admitted {rid port q : Nat} {tx : Tx} {s : State} {e : Extent} (h : Admits rid port tx s q e)
    (hfree : TilesFree tx s) (hc : checkWrite s q e tx.version.toNat = .ok) :
    serveWrite true rid port tx s =
      if tx.op == 0x03 && poisoned (touched tx s) (oSlot tx.offset) (oTile tx.offset) then failReq tx .poison (touched tx s)
      else recallFor rid port tx e (fun t => writeRecalls e (dirOf (touched tx s) (oSlot tx.offset) t)) (touched tx s) := by
  rw [serveWrite, meet_admitted h hc]
  exact inTurn_free _ hfree

/-! ## Reads of modules that are sent (R136, R354) -/

/-- Nothing but requests to modules has been sent: what has left the device, the flows of the home and the requests that await
an answer. -/
def AsksOnly (s t : State) : Prop :=
  t = { s with out := t.out, home := t.home, pool := { s.pool with nextTag := t.pool.nextTag, reqs := t.pool.reqs } }

theorem AsksOnly.refl (s : State) : AsksOnly s s := rfl

theorem AsksOnly.trans {s t u : State} (h : AsksOnly s t) (h' : AsksOnly t u) : AsksOnly s u := by
  unfold AsksOnly at *
  rw [h', h]

theorem AsksOnly.foldl {α : Type} {f : State → α → State} (hf : ∀ t x, AsksOnly t (f t x)) (l : List α) (s : State) :
    AsksOnly s (l.foldl f s) :=
  List.foldlRecOn (motive := AsksOnly s) l f (.refl s) fun t ht x _ => ht.trans (hf t x)

theorem asksOnly_askModule (op : Byte) (cls : Nat) (n : Node) (unit : Nat) (ts : List Tile) (kind : ModKind) (s : State) :
    AsksOnly s (askModule op cls n unit ts kind s) := rfl

theorem asksOnly_askCol (own : Option (Nat × Nat)) (part cls gi : Nat) (g : Group) (row col : Nat) (s : State) :
    AsksOnly s (askCol own part cls gi g row col s) := rfl

theorem asksOnly_askHelpers (part cls gi : Nat) (g : Group) (row col : Nat) (s : State) :
    AsksOnly s (askHelpers part cls gi g row col s) := .foldl (fun t c => asksOnly_askCol none part cls gi g row c t) _ s

/-- The old content of a unit is had from the state, or from its modules, which are then read (R135). -/
theorem asksOnly_oldUnit (p : Spot) (g : Group) (s : State) : AsksOnly s (oldUnit p g s).2 := by
  have hcol : AsksOnly s (if isMissing s p.group g (p.row g) (posOf g (p.row g) (p.col g)) then s
      else askCol none p.owner 1 p.group g (p.row g) (p.col g) s) := by
    split
    · exact .refl s
    · exact asksOnly_askCol ..
  unfold oldUnit
  dsimp only
  split
  · exact .refl s
  · split
    · split
      · exact .refl s
      · split
        · exact hcol
        · exact hcol.trans (asksOnly_askHelpers ..)
    · split
      · exact hcol
      · exact hcol.trans (asksOnly_askHelpers ..)

/-! ## A write of the home's copy that is done (R31, R71, R81, R133) -/

section
variable {g : Group} (hl : g.lost = 0)
include hl

/-- No unit of a whole group is missing. -/
theorem isMissing_whole (s : State) (gi row pos : Nat) : isMissing s gi g row pos = false := if_pos hl

theorem touchRow_whole {s : State} {gi : Nat} (hg : groupOf s gi = some g) (part row : Nat) (col : Option Nat) :
    touchRow part gi row col s = s := by
  simp [touchRow, hg, isMissing_whole hl]

/-- A write to a whole group that is done has been journalled. -/
theorem storeAt_done {h : WHow} {p : Spot} {t : Tile} {s u : State} (hg : groupOf s p.group = some g)
    (hu : storeAt h p t s = .done u) : u = journalWrite h p g t s := by
  simp only [storeAt, hg, touchRow_whole hl hg, isMissing_whole hl, Bool.false_and, Bool.false_eq_true, if_false] at hu
  split at hu
  · cases hu
  · split at hu
    · cases hu
    · exact (WOut.done.inj hu).symm
end

/-- The record that a write adds to the journal. -/
structure Journals (p : Spot) (g : Group) (t : Tile) (r : JRec) : Prop where
  tile : r.tile = t
  key : r.key = p.key
  part : r.part = p.owner
  group : r.group = p.group
  row : r.row = p.row g
  col : r.col = p.col g
  waits : r.started = false

/-- A write that is journalled adds its record, and a dirty line to the home cache; reads of modules may have been sent for it. -/
theorem journalWrite_eq (h : WHow) (p : Spot) (g : Group) (t : Tile) (s : State) : ∃ v o r, AsksOnly s v ∧ Journals p g t r ∧
    journalWrite h p g t s = { v with obs := o, pool := { v.pool with
      nextRec := s.pool.nextRec + 1, journal := s.pool.journal ++ [r],
      cache := tset s.pool.cache p.key { tile := t, dirty := true } } } := by
  have hold : AsksOnly s (if h.full.isSome || g.k == 1 then ((none, s) : Option Block × State) else oldUnit p g s).2 := by
    split
    · exact .refl s
    · exact asksOnly_oldUnit p g s
  obtain ⟨o, ho⟩ := spotOcc_obs 0x66 p _
  exact ⟨_, o, _, hold, ⟨rfl, rfl, rfl, rfl, rfl, rfl, rfl⟩, ho⟩

/-- The entry of a slot once a tile of it has been produced (R31). -/
def producedExt (tile : Nat) (e : Extent) : Extent :=
  if e.zeroPending then
    { e with touched := tset e.touched tile (), zeroPending := decide ((tset e.touched tile ()).length < 4194304) }
  else e

theorem stillZero_producedExt (tile : Nat) (e : Extent) : stillZero (producedExt tile e) tile = false := by
  unfold producedExt
  split
  · simp [stillZero, thas]
  · simp_all [stillZero]

/-- A dirty line whose sidecar passes is what its place reads as. -/
theorem storedAt_dirty {p : Spot} {t : Tile} {s : State} (hc : tget s.pool.cache p.key = some { tile := t, dirty := true })
    (ht : tileOk t = true) : (storedAt p s).1 = .ok t := by
  simp [storedAt, hc, ht]

theorem storedTile_dirty {slot tile : Nat} {e : Extent} {t : Tile} {s : State} (hp : poisoned s slot tile = false)
    (hz : stillZero e tile = false) (hc : tget s.pool.cache (tkey slot tile) = some { tile := t, dirty := true })
    (ht : tileOk t = true) : (storedTile slot tile e s).1 = .ok t := by
  simp only [storedTile, hp, hz, Bool.false_eq_true, if_false]
  exact storedAt_dirty hc ht

section
variable {h : WHow} {slot tile : Nat} {e : Extent} {t : Tile} {s u : State} {g : Group}
  (hu : backingWrite h slot tile e t s = .done u) (hg : groupOf s e.group = some g) (hl : g.lost = 0)
include hu hg hl

/-- What a write of the home's copy that is done leaves: its record and its line, the tile produced, and no poison. -/
theorem backingWrite_done : ∃ v o r, AsksOnly s v ∧ Journals (spotOf slot tile e) g t r ∧ u = { v with
    obs := o, ext := { s.ext with entries := tmod s.ext.entries slot (producedExt tile) },
    dir := { s.dir with poison := tdel s.dir.poison (tkey slot tile) },
    pool := { v.pool with nextRec := s.pool.nextRec + 1, journal := s.pool.journal ++ [r],
                          cache := tset s.pool.cache (tkey slot tile) { tile := t, dirty := true } } } := by
  unfold backingWrite at hu
  split at hu
  case h_2 w hw => exact absurd hu (hw u)
  case h_1 s1 hs =>
    obtain ⟨v, o, r, hv, hr, heq⟩ := journalWrite_eq h (spotOf slot tile e) g t s
    have hs1 := (storeAt_done hl hg hs).trans heq
    obtain ⟨o2, ho2⟩ := spotOcc_obs 0x61 (spotOf slot tile e)
      (touchTile slot tile { s1 with dir := { s1.dir with poison := tdel s1.dir.poison (tkey slot tile) } })
    have hext : v.ext = s.ext := by rw [hv]
    have hdir : v.dir = s.dir := by rw [hv]
    refine ⟨v, o2, r, hv, hr, ((WOut.done.inj hu).symm.trans ho2).trans ?_⟩
    rw [hs1, ← hext, ← hdir]
    rfl
end

/-! ## The commit of a record begins (R135, R137, R144) -/

/-- A record is among those that commit with it. -/
theorem mem_matesOf {r : JRec} {s : State} (h : r ∈ s.pool.journal) : r ∈ matesOf s r := by
  unfold matesOf
  split
  · rename_i hf
    simp [h, hf]
  · exact List.mem_singleton.2 rfl

/-- The mark of a record's tile goes; no other mark of the loss map comes. -/
theorem clearLoss_whole {g : Group} (hl : g.lost = 0) (r : JRec) (s : State) : clearLoss g r s =
    { s with pool := { s.pool with loss := tdel s.pool.loss (lossKey r.group (r.row * g.k + r.col)) } } :=
  if_neg (by simp [isMissing_whole hl])

theorem thas_tdel_same {α : Type} (t : Table α) (n : Nat) : thas (tdel t n) n = false := by simp [thas]

theorem thas_tdel_of_not {α : Type} {t : Table α} {n : Nat} (m : Nat) (h : thas t n = false) : thas (tdel t m) n = false := by
  by_cases hm : n = m
  · rw [hm]
    exact thas_tdel_same t m
  · rwa [thas, tget_tdel_ne t hm]

/-- The marks of some records go, and nothing else changes. -/
theorem foldl_clearLoss {g : Group} (hl : g.lost = 0) (rs : List JRec) (s : State) : ∃ l,
    rs.foldl (fun t x => clearLoss g x t) s = { s with pool := { s.pool with loss := l } } ∧
    (∀ n, thas s.pool.loss n = false → thas l n = false) ∧
    ∀ r ∈ rs, thas l (lossKey r.group (r.row * g.k + r.col)) = false := by
  induction rs generalizing s with
  | nil => exact ⟨s.pool.loss, rfl, fun _ => id, fun _ h => nomatch h⟩
  | cons x xs ih =>
    obtain ⟨l, heq, hkeep, hall⟩ := ih (clearLoss g x s)
    rw [clearLoss_whole hl] at hkeep heq
    refine ⟨l, (congrArg (fun t => List.foldl _ t xs) (clearLoss_whole hl x s)).trans heq,
      fun n hn => hkeep n (thas_tdel_of_not _ hn), fun r hr => ?_⟩
    rcases List.mem_cons.1 hr with rfl | hr
    · exact hkeep _ (thas_tdel_same _ _)
    · exact hall r hr

/-- Where the commit of a record of a whole group begins, its region is marked, the lost mark of its tile is gone, and units and
lines are as they were. -/
theorem startRec_whole {r : JRec} {s : State} {g : Group} (hg : groupOf s r.group = some g) (hl : g.lost = 0)
    (hr : r ∈ s.pool.journal) :
    (startRec r s).pool.intent = tset s.pool.intent (regionKey r.group r.row) () ∧
    thas (startRec r s).pool.loss (lossKey r.group (r.row * g.k + r.col)) = false ∧
    (startRec r s).pool.units = s.pool.units ∧ (startRec r s).pool.cache = s.pool.cache := by
  let s1 : State := markRegion r.group r.row { s with pool := { s.pool with
    journal := s.pool.journal.map (fun x => if ((matesOf s r).map (·.id)).contains x.id then { x with started := true } else x) } }
  obtain ⟨s3, hasks, hstart⟩ : ∃ s3, AsksOnly s1 s3 ∧ startRec r s = (matesOf s r).foldl (fun t x => clearLoss g x t) s3 := by
    refine ⟨_, (AsksOnly.foldl ?_ _ s1).trans (AsksOnly.foldl ?_ _ _), by simp only [startRec, hg]; rfl⟩
    · exact fun t c => asksOnly_askCol none r.part r.cls r.group g r.row c t
    · exact fun t x => asksOnly_askModule 0x02 r.cls x.1 r.row [x.2] (.commit ((matesOf s r).map (·.id))) t
  obtain ⟨l, heq, -, hall⟩ := foldl_clearLoss hl (matesOf s r) s3
  rw [hstart, heq]
  exact ⟨by rw [hasks]; rfl, hall r (mem_matesOf hr), by rw [hasks]; rfl, by rw [hasks]; rfl⟩

/-- Settles O16: WR_TILE and WR_PARTIAL by what their change comes to; a write that is done by what it leaves; a commit by what it
begins with. -/
theorem writes : Obligations.Writes := by
  unfold Obligations.Writes
  refine ⟨fun port tx0 s q e => ⟨?whole, ?part⟩, fun h slot tile e t s u g hu ht he hg hl hp => ?done,
    fun r s g hg hl hr => ?begins⟩
  case whole =>
    intro tx a slot harr hadm hfree v w hc hnone
    have he : extOf v slot = some e := (extOf_touched tx a slot).trans (extOf_of_admission_go hadm.home)
    have hrow : exec (.wrTile port tx0) s = .next (settle (runReq s.home.nextId (canonPort s port) tx v)) :=
      (row_request rfl harr).trans (next_settle (((serveOp_write hadm.fence rfl).trans (serveWrite_admitted hadm hfree hc)).trans
        ((if_neg Bool.false_ne_true).trans (recallFor_none hnone))))
    have hrun : ∀ o, w = o → exec (.wrTile port tx0) s = .next (settle
        (changeEnds s.home.nextId (canonPort s port) tx (undoWrite v) o)) :=
      fun o ho => hrow.trans (next_settle ((runReq_write he rfl).trans
        (congrArg (changeEnds s.home.nextId (canonPort s port) tx (undoWrite v)) ho)))
    exact ⟨fun b => hrun (.done b), fun y b => hrun (.wait y b), fun st b => hrun (.fail st b)⟩
  case part =>
    intro tx a slot f harr hadm hfree v w hc
    have he : extOf v slot = some e := (extOf_touched tx a slot).trans (extOf_of_admission_go hadm.home)
    have hrow := (row_request (c := .wrPartial port tx0) rfl harr).trans
      (next_settle ((serveOp_partial hadm.fence rfl).trans (serveWrite_admitted hadm hfree hc)))
    have hpois : poisoned v slot (oTile tx.offset) = poisoned (touched tx a) (oSlot tx.offset) (oTile tx.offset) := rfl
    refine ⟨fun hp => hrow.trans (next_settle ((if_pos (by rw [← hpois, hp]; rfl)).trans
      (failReq_answers (show (0x03 : Byte) ≠ 0x04 by decide) (show (0x03 : Byte) ≠ 0x13 by decide)
        (show (0x03 : Byte) ≠ 0x15 by decide)))), fun hp hnone => ?_⟩
    have hruns := hrow.trans (next_settle ((if_neg (by rw [← hpois, hp]; exact Bool.false_ne_true)).trans (recallFor_none hnone)))
    have hrun : ∀ o, w.2 = o → exec (.wrPartial port tx0) s = .next (settle (changeEnds s.home.nextId (canonPort s port) tx id o)) :=
      fun o ho => hruns.trans (next_settle ((runReq_partial he rfl).trans
        (congrArg (changeEnds s.home.nextId (canonPort s port) tx id) ho)))
    exact ⟨fun b => hrun (.done b), fun y b => hrun (.wait y b), fun st b => hrun (.fail st b)⟩
  case done =>
    intro row
    obtain ⟨v, o, r, hv, hr, rfl⟩ := backingWrite_done hu hg hl
    have hunits : v.pool.units = s.pool.units := by rw [hv]
    refine ⟨tget_tset_same _ _ _, fun e' he' => ?_, ⟨r, rfl, hr.tile, hr.key, hr.part, hr.group, hr.row, hr.col, hr.waits⟩,
      thas_tdel_same _ _, fun key hk => ⟨tget_tset_ne _ _ hk, tget_tdel_ne _ hk⟩, hunits, rfl, rfl,
      fun sl hsl => tget_tmod_ne _ _ hsl⟩
    have hext : tget (tmod s.ext.entries slot (producedExt tile)) slot = some (producedExt tile e) :=
      (tget_tmod_same _ _ _).trans (congrArg (Option.map _) he)
    obtain rfl : producedExt tile e = e' := Option.some.inj (hext.symm.trans he')
    exact storedTile_dirty (thas_tdel_same _ _) (stillZero_producedExt tile e) (tget_tset_same _ _ _) ht
  case begins =>
    obtain ⟨hintent, hloss, hunits, hcache⟩ := startRec_whole hg hl hr
    exact ⟨by rw [hintent]; simp [thas], hloss, hunits, hcache⟩

end Sys2Proof.Machine

/-! # Partition faults and recovery -/

namespace Sys2Proof.Machine

/-! ## Channels and mirrored structures (R146, R147, R399, R437) -/

theorem partState_of {s : State} {p : Nat} {x : Part} (h : tget s.parts.parts p = some x) : partState s p = x.state := by
  simp [partState, h]

@[simp] theorem retireChannel_listed (c : Nat) (s : State) : (retireChannel c s).parts.parts = s.parts.parts := rfl
@[simp] theorem retireChannel_degraded (c : Nat) (s : State) : (retireChannel c s).parts.degraded = s.parts.degraded := rfl

section
variable {c : Nat} {s : State}

theorem faultChannel_retired (h : (channelAt s c).retired = true) : faultChannel c s = s := if_pos (by simp [h])

variable (hr : (channelAt s c).retired = false) (hc : c < 512)
include hr hc

theorem faultChannel_unowned (hp : (channelAt s c).part = none) : faultChannel c s = retireChannel c s := by
  simp [faultChannel, hr, hp, hc]

theorem faultChannel_active {p : Nat} {x : Part} (hp : (channelAt s c).part = some p) (hx : tget s.parts.parts p = some x)
    (hact : x.state = .active) :
    let mirror : Bool := x.mirrors.1 == c || x.mirrors.2 == c
    let again : Bool := mirror && s.parts.degraded.any (fun m => mirrorPart m == some p)
    let b := if mirror then degrade p (mirrorsOf p) (retireChannel c s) else retireChannel c s
    faultChannel c s = if unmirrored (retireChannel c s) p x c || again then beginReset p again (ringOn x c) b else dropLines p x c b := by
  simp [faultChannel, hr, hp, hc, hx, hact]
end

/-- A copy of a partition's structure that fails a check degrades it, or resets the partition that it was degraded in. -/
theorem failCopy_part {m : Mirror} {p : Nat} (copy : Nat) {s : State} (hm : mirrorPart m = some p) (ha : partState s p = .active) :
    failCopy m copy s = if s.parts.degraded.contains m then beginReset p true false s else degrade p [m] s := by
  cases m <;> cases hm <;> exact if_neg (not_not_intro ha)

section
variable {m : Mirror} {s : State}

theorem resilver_whole (h : m ∉ s.parts.degraded) : resilver m s = s := if_pos (by simp [h])

theorem resilver_moves {p : Nat} {x : Part} (hm : mirrorPart m = some p) (hx : tget s.parts.parts p = some x)
    (hd : m ∈ s.parts.degraded) :
    let ms := placeMirrors s x.channels x.mirrors
    (channelAt s ms.1).retired = false → (channelAt s ms.2).retired = false → channelField ms.1 ≠ channelField ms.2 →
    resilver m s = post .mirrorRestored (some p) [m.ctorIdx, p] (modPart p (fun y => { y with mirrors := ms }) { s with
      free := s.free + 1, parts := { s.parts with degraded := s.parts.degraded.filter (· ≠ m) } }) := by
  intro ms h1 h2 hf
  simp [resilver, hd, hm, hx, ms, h1, h2, hf]
end

/-! ## A reset begins, in a device with nothing to end (R73, R409) -/

theorem beginReset_inactive {p : Nat} {unit ring : Bool} {s : State} (h : partState s p ≠ .active) : beginReset p unit ring s = s :=
  if_pos h

/-- Nothing in the device waits, runs or is under way. -/
structure AtRest (s : State) : Prop where
  parked : s.home.parked = []
  busy : s.home.busy = []
  groups : s.groups = []
  waiting : s.mgmt.waiting = []
  cores : s.cores.cores = []
  queues : s.queues.queues = []
  entries : s.ext.entries = []
  invals : s.ext.invals = []
  older : s.ext.older = none
  journal : s.pool.journal = []
  pulls : s.home.heldPulls = []

@[simp] theorem post_waiting (n : Ev) (p : Option Nat) (args : List Nat) (s : State) :
    (post n p args s).mgmt.waiting = s.mgmt.waiting := by
  show (holdEvent _ _).waiting = _
  unfold holdEvent
  dsimp only
  split <;> rfl

section
variable {s : State} (h : AtRest s)
include h

theorem AtRest.post (n : Ev) (p : Option Nat) (args : List Nat) : AtRest (post n p args s) :=
  { h with waiting := (post_waiting n p args s).trans h.waiting }

theorem AtRest.modPart (p : Nat) (f : Part → Part) : AtRest (modPart p f s) := { h with }

/-- Other channels do not disturb it. -/
theorem AtRest.withChannels (ch : Table Channel) : AtRest { s with parts := { s.parts with channels := ch } } := { h with }

/-- Nothing of a partition waits: its channels are no longer to leave. -/
theorem AtRest.endWaits (p : Nat) : ∃ ch, endWaits p s = { s with parts := { s.parts with channels := ch } } := by
  have hw : { s.mgmt with waiting := [] } = s.mgmt := by rw [← h.waiting]
  have hc : { s.cores with cores := [] } = s.cores := by rw [← h.cores]
  simp only [Machine.endWaits, h.waiting, h.cores, List.filterMap_nil, List.filter_nil, List.map_nil, List.foldl_nil, hw, hc]
  exact ⟨_, rfl⟩

theorem AtRest.resetRequests (p : Nat) : resetRequests p s = s := by
  have hpub : ∀ x ∈ s.ext.entries, x.2.publishing = none := by simp [h.entries]
  have hparked : ∀ hit, dropParked .domainReset hit s = s := fun hit => by simp [dropParked, h.parked]
  have hreqs : busyReqs s = [] := by simp [busyReqs, h.busy]
  have hbusy : dropBusyOf p s = s := by
    simp only [dropBusyOf, h.busy, List.filter_nil, List.foldl_nil]
    rw [← h.busy]
  simp only [Machine.resetRequests, hparked, hreqs, List.filter_nil, List.foldl_nil, dropHeld_none h.invals hpub, dropSeals_none hpub,
    hbusy]

theorem AtRest.coresOf (p : Nat) : coresOf s p = [] := by simp [Machine.coresOf, h.cores]

theorem AtRest.takeTephra (p : Nat) (l : List Nat) : l.foldl (fun t f => takeTephra f 3 false ((Machine.coresOf t p).filter
    (fun x => match x.2.phys with | some n => physField n == f | none => false)) t) s = s :=
  foldl_unmoved fun f _ => by simp [Machine.takeTephra, h.coresOf]

theorem AtRest.dropContexts (p : Nat) : dropContexts p s = s := by
  have hq : { s.queues with queues := [] } = s.queues := by rw [← h.queues]
  simp only [Machine.dropContexts, h.coresOf, List.foldl_nil, h.queues, List.map_nil, hq]

theorem AtRest.settle : settle s = s :=
  (settle_quiet h.parked h.pulls (by simp [h.entries]) h.waiting (by simp [h.queues]) (by simp [h.journal])).trans
    (retireOlder_none h.older)
end

/-- A partition whose reset has begun. -/
def resetPart (unit ring : Bool) (x : Part) : Part := { x with state := .resetting, unitFault := unit, ringLost := ring }

/-- The reset of an active partition marks and posts it; with nothing to end, only channels may change with it. -/
theorem AtRest.beginReset {s : State} (h : AtRest s) {p : Nat} {x : Part} (hx : tget s.parts.parts p = some x)
    (ha : x.state = .active) (unit ring : Bool) : ∃ t ch, t = Machine.post .domainReset (some p) [p]
      (Machine.modPart p (resetPart unit ring) s) ∧
      beginReset p unit ring s = { t with parts := { t.parts with channels := ch } } := by
  obtain ⟨t, ht⟩ : ∃ t, t = Machine.post .domainReset (some p) [p] (Machine.modPart p (resetPart unit ring) s) := ⟨_, rfl⟩
  have h2 : AtRest t := ht ▸ (h.modPart p (resetPart unit ring)).post .domainReset (some p) [p]
  obtain ⟨ch, hch⟩ := h2.endWaits p
  refine ⟨t, ch, ht, ?_⟩
  have h4 := h2.withChannels ch
  have hpost : postAll .domainReset p [p] 0x04 0 (holdersOfPart (Machine.modPart p (resetPart unit ring) s) p) (fun _ => 0)
      (Machine.modPart p (resetPart unit ring) s) = t := by
    have hnone : holdersOfPart (Machine.modPart p (resetPart unit ring) s) p = [] := by simp [holdersOfPart, h.entries]
    rw [hnone, ht]
    rfl
  have habort : abortWhere 8 noNode (fun g => g.e.partition == p) t = t := by simp [abortWhere, h2.groups]
  have hrun : Machine.beginReset p unit ring s = Machine.settle (Machine.dropContexts p ((List.range 8).foldl (fun t f =>
      Machine.takeTephra f 3 false ((Machine.coresOf t p).filter
        (fun x => match x.2.phys with | some n => physField n == f | none => false)) t)
      (Machine.endWaits p (Machine.resetRequests p (abortWhere 8 noNode (fun g => g.e.partition == p)
        (postAll .domainReset p [p] 0x04 0 (holdersOfPart (Machine.modPart p (resetPart unit ring) s) p) (fun _ => 0)
          (Machine.modPart p (resetPart unit ring) s))))))) :=
    if_neg (not_not_intro ((partState_of hx).trans ha))
  rw [hrun, hpost, habort, h2.resetRequests, hch, h4.takeTephra, h4.dropContexts, h4.settle]

/-- What the reset of an active partition leaves where nothing is to end. -/
theorem AtRest.beginReset_marks {s : State} (h : AtRest s) {p : Nat} {x : Part} (hx : tget s.parts.parts p = some x)
    (ha : x.state = .active) (unit ring : Bool) : tget (Machine.beginReset p unit ring s).parts.parts p = some (resetPart unit ring x) ∧
      (Machine.beginReset p unit ring s).pool = s.pool ∧ (Machine.beginReset p unit ring s).boot = s.boot := by
  obtain ⟨t, ch, rfl, ht⟩ := h.beginReset hx ha unit ring
  rw [ht]
  exact ⟨(tget_tmod_same s.parts.parts p _).trans (congrArg (Option.map _) hx), rfl, rfl⟩

end Sys2Proof.Machine

namespace Sys2Proof.Machine

/-! ## The reset of a partition ends (R74, R172, R409) -/

/-- PARTITION_RESET_COMPLETE of a listed partition. -/
theorem partitionResetComplete_row {p : Nat} {ok : Bool} {s : State} {x : Part} (hx : tget s.parts.parts p = some x) :
    exec (.partitionResetComplete p ok) s = .next (if x.state ≠ .resetting || x.stalled then s
      else if !stillFits (applyRecord p (testKeeper p ok s)) p then stall p (applyRecord p (testKeeper p ok s))
      else settle (endReset p (placeAgain p (emptyPart p (dropClean p (poisonLog p (applyRecord p (testKeeper p ok s)))))))) := by
  show execPartitionResetComplete p ok s = _
  simp only [execPartitionResetComplete, hx]

/-- A poison mark lasts while others are made. -/
theorem thas_tset {α : Type} {t : Table α} {n : Nat} (m : Nat) (x : α) (h : thas t n = true) : thas (tset t m x) n = true := by
  by_cases hm : n = m
  · simp [hm, thas]
  · rwa [thas, tget_tset_ne t x hm]

theorem poisoned_setPoison_of {n m : Nat} (slot tile : Nat) {s : State} (h : poisoned s n m = true) :
    poisoned (setPoison slot tile s) n m = true := thas_tset _ _ h

/-- What each step of a fold marks for its own element, and no step unmarks, is marked for every element in the end. -/
theorem foldl_marks {α β : Type} {P : β → α → Prop} {f : β → α → β} (hmark : ∀ t x, P (f t x) x)
    (hkeep : ∀ t x y, P t y → P (f t x) y) (l : List α) (s : β) : ∀ x ∈ l, P (l.foldl f s) x := by
  induction l generalizing s with
  | nil => exact fun _ h => nomatch h
  | cons x xs ih =>
    intro y hy
    rcases List.mem_cons.1 hy with rfl | hy
    · exact List.foldlRecOn (motive := (P · y)) xs f (hmark s y) fun t ht z _ => hkeep t z y ht
    · exact ih (f s x) y hy

/-- A key that a table drops is not listed. -/
theorem tget_tdrop_of {α : Type} (t : Table α) {bad : Nat → Bool} {n : Nat} (h : bad n = true) : tget (tdrop t bad) n = none := by
  rcases ho : tget (tdrop t bad) n with _ | x
  · rfl
  · exact absurd (List.mem_filter.1 (mem_of_tget ho)).2 (by simp [h])

/-- The tile that a log record names is poisoned, and the record goes. -/
theorem poisonLog_named {p k : Nat} {n : Node} {s : State} (hk : tget s.dir.log k = some n) (ho : ownerOf s (keySlot k) = p) :
    thas (poisonLog p s).dir.poison (tkey (keySlot k) (keyTile k)) = true ∧ tget (poisonLog p s).dir.log k = none := by
  have hmine : (ownerOf s (keySlot k) == p) = true := beq_iff_eq.2 ho
  have hall := foldl_marks (P := fun t (x : Nat × Node) => poisoned t (keySlot x.1) (keyTile x.1) = true)
    (f := fun t x => setPoison (keySlot x.1) (keyTile x.1) t) (fun t x => poisoned_setPoison_same _ _ t)
    (fun t x y hy => poisoned_setPoison_of _ _ hy) (s.dir.log.filter (fun x => ownerOf s (keySlot x.1) == p)) s
  exact ⟨hall (k, n) (List.mem_filter.2 ⟨mem_of_tget hk, hmine⟩),
    tget_tdrop_of _ (bad := fun k => ownerOf s (keySlot k) == p) hmine⟩

@[simp] theorem postHost_parts (seq code p slot : Nat) (h : Node) (arg : Word32) (s : State) :
    (postHost seq code p slot h arg s).parts = s.parts := by
  unfold postHost
  simp only
  split <;> rfl

@[simp] theorem postHost_queues (seq code p slot : Nat) (h : Node) (arg : Word32) (s : State) :
    (postHost seq code p slot h arg s).queues = s.queues := by
  unfold postHost
  simp only
  split <;> rfl

section
variable (n : Ev) (p : Nat) (args : List Nat) (code slot : Nat) (hosts : List Node) (arg : Node → Word32) (s : State)

@[simp] theorem postAll_parts : (postAll n p args code slot hosts arg s).parts = s.parts :=
  List.foldlRecOn (motive := fun t : State => t.parts = s.parts) _ _ (post_parts n (some p) args s)
    (fun t ht h _ => by rw [postHost_parts, ht])

@[simp] theorem postAll_queues : (postAll n p args code slot hosts arg s).queues = s.queues :=
  List.foldlRecOn (motive := fun t : State => t.queues = s.queues) _ _ (post_queues n (some p) args s)
    (fun t ht h _ => by rw [postHost_queues, ht])
end

/-- A partition without queues serves again once its reset has ended. -/
theorem endReset_listed {p : Nat} {s : State} {x : Part} (hx : tget s.parts.parts p = some x) (hq : s.queues.queues = []) :
    tget (endReset p s).parts.parts p = some { x with state := .active, unitFault := false, ringLost := false } := by
  simp [endReset, hq, modPart, hx]

/-! ## Resources that have been scrubbed (R366, R367) -/

/-- Where nothing waits for it, a scrubbed resource is idle and no more follows. -/
theorem resourceScrubDone_idle {r : Resource} {s t : State} (ht : scrubbed r s = t) (hw : t.mgmt.waiting = []) :
    exec (.resourceScrubDone r) s = .next (settle t) := by
  show Host.Outcome.next _ = _
  simp only [ht, hw, List.foldl_nil]

/-- A port is idle once no request that came by it is left. -/
theorem scrubbed_port {n : Nat} {s : State} (hp : s.home.parked = []) (hb : s.home.busy = []) :
    scrubbed (.port n) s = { s with parts := { s.parts with portScrub := tdel s.parts.portScrub n } } := by
  simp [scrubbed, hp, hb]

/-- A GROW that waits for nothing more, and whose checks pass, is carried out and answered. -/
theorem resumeWait_grow {h : Mgmt} {p : Nat} {r : Resources} {g : PartCfg} {s : State} (hw : s.mgmt.waiting = [.grow h p r])
    (hs : scrubs s r = false) :
    let b : State := { s with mgmt := { s.mgmt with waiting := [] } }
    scrubs b r = false → growCheck b p r = .ok g →
    resumeWait (.grow h p r) s = answered h 0x21 s.mgmt.eventSeq .ok [] true (grown p g r b) := by
  intro b hb hg
  have hb' : ({ s with mgmt := { s.mgmt with waiting := s.mgmt.waiting.filter (· ≠ .grow h p r) } } : State) = b := by
    simp [hw, b]
  have hgrow : grow h p r b = .done .ok [] true (grown p g r b) := by simp [grow, hg, hb, yes]
  simp only [resumeWait, hs, hb', hgrow]
  rfl

/-- Cores that are to leave: none, or the only one. -/
theorem leaving_none {p : Nat} {s : State} (h : ∀ x ∈ s.cores.cores, x.2.part = some p → x.2.removing = false) :
    (coresOf s p).filter (fun x => x.2.removing) = [] := by
  refine List.filter_eq_nil_iff.2 fun x hx => ?_
  obtain ⟨hmem, hpart⟩ := List.mem_filter.1 hx
  simp [h x hmem (beq_iff_eq.1 hpart)]

theorem leaving_only {p c : Nat} {k : Core} {s : State} (h : s.cores.cores = [(c, k)]) (hp : k.part = some p) (hr : k.removing = true) :
    (coresOf s p).filter (fun x => x.2.removing) = [(c, k)] := by
  simp [coresOf, h, hp, hr]

/-! ## The pairs of the RTP (R369, R370) -/

section
variable {s : State} (hph : s.boot.phase = .ready)
include hph

/-- The standby pair takes over from the one that fails. -/
theorem rtpSwitchover_standby {left : Bool × Bool}
    (hl : (if s.boot.activePair = 0 then (false, s.boot.pairOk.2) else (s.boot.pairOk.1, false)) = left)
    (hne : left ≠ s.boot.pairOk) (hup : (left.1 || left.2) = true) : exec .rtpSwitchover s = .next (post .rtpSwitchover
      none [s.boot.activePair]
      { s with boot := { s.boot with pairOk := left, activePair := 1 - s.boot.activePair } }) := by
  show execRtpSwitchover s = _
  simp [execRtpSwitchover, hph, hl, hne, hup]

/-- With both pairs failed, management stops. -/
theorem rtpSwitchover_both {left : Bool × Bool}
    (hl : (if s.boot.activePair = 0 then (false, s.boot.pairOk.2) else (s.boot.pairOk.1, false)) = left)
    (hne : left ≠ s.boot.pairOk) (hup : (left.1 || left.2) = false) : exec .rtpSwitchover s =
      .next { s with boot := { s.boot with pairOk := left }, mgmt := { s.mgmt with sessions := [], waiting := [] } } := by
  show execRtpSwitchover s = _
  simp [execRtpSwitchover, hph, hl, hne, hup]
end

end Sys2Proof.Machine

/-! # What follows a step where no slot is in use -/

namespace Sys2Proof.Machine

/-! ## Channels and fields are left alone (R147, R165, R400) -/

/-- No slot is in use and no management request waits; fields and channels are those of `z`. -/
structure SlotsFree (z s : State) : Prop where
  entries : s.ext.entries = []
  older : s.ext.older = none
  waiting : s.mgmt.waiting = []
  isolated : s.phys.isolated = z.phys.isolated
  channels : s.parts.channels = z.parts.channels

section
variable {z s t : State}

/-- Whatever keeps extents, sensors, partitions and what waits keeps them so. -/
theorem SlotsFree.same (h : SlotsFree z s) (he : t.ext = s.ext := by rfl) (hw : t.mgmt.waiting = s.mgmt.waiting := by rfl)
    (hp : t.phys = s.phys := by rfl) (hc : t.parts = s.parts := by rfl) : SlotsFree z t :=
  ⟨he ▸ h.entries, he ▸ h.older, hw.trans h.waiting, hp ▸ h.isolated, hc ▸ h.channels⟩

theorem SlotsFree.extOf (h : SlotsFree z s) (slot : Nat) : extOf s slot = none := by simp [Machine.extOf, h.entries]

theorem SlotsFree.foldl {α : Type} {f : State → α → State} (h : SlotsFree z s) (hf : ∀ t x, SlotsFree z t → SlotsFree z (f t x))
    (l : List α) :
    SlotsFree z (l.foldl f s) :=
  List.foldlRecOn (motive := SlotsFree z) l f h fun t ht x _ => hf t x ht

theorem SlotsFree.modExt (h : SlotsFree z s) (slot : Nat) (f : Extent → Extent) : SlotsFree z (modExt slot f s) :=
  { h with entries := by simp [Machine.modExt, tmod, h.entries] }

theorem SlotsFree.ite {c : Prop} [Decidable c] (hs : SlotsFree z s) (ht : SlotsFree z t) : SlotsFree z (if c then s else t) := by
  split
  · exact hs
  · exact ht

theorem SlotsFree.bump (h : SlotsFree z s) (type block event n : Nat) : SlotsFree z (bump type block event n s) :=
  h.same (bump_ext ..) (by rw [bump_mgmt]) (bump_phys ..) (bump_parts ..)

theorem SlotsFree.occurIf {c : Prop} [Decidable c] (h : SlotsFree z s) (o : Occ) : SlotsFree z (if c then occur o s else s) :=
  .ite (h.same (occur_ext ..) (by rw [occur_mgmt]) (occur_phys ..) (occur_parts ..)) h

theorem AsksOnly.slotsFree (ha : AsksOnly s t) (h : SlotsFree z s) : SlotsFree z t := by
  rw [ha]
  exact h.same

/-! ### Requests and BUSY tiles -/

theorem SlotsFree.answerHeld (h : SlotsFree z s) (tx : Tx) (st : St) (r : BitVec 128) : SlotsFree z (answerHeld tx st r s) := by
  unfold Machine.answerHeld
  dsimp only
  split
  · exact h
  · exact h.foldl (fun t p ht => ht.same) _

theorem SlotsFree.failReq (h : SlotsFree z s) (tx : Tx) (st : St) : SlotsFree z (failReq tx st s) := by
  unfold Machine.failReq
  split
  · split
    · have hdone : SlotsFree z (answerAtomic tx st 0 (ledgerDone tx st 0 s)) := h.same
      exact (hdone.answerHeld tx st 0).same
    · have hdrop : SlotsFree z (answerAtomic tx st 0 (ledgerDrop tx s)) := h.same
      exact hdrop.answerHeld tx st 0
  · split
    · exact h
    · exact h.same

theorem SlotsFree.forget (h : SlotsFree z s) (tx : Tx) (bs : List Busy) : SlotsFree z (forget tx bs s) := by
  unfold Machine.forget
  split
  · exact h.foldl (fun t b ht => ht.same) _
  · exact h

/-- Data of a slot that is FREE goes nowhere. -/
theorem SlotsFree.writeBack (h : SlotsFree z s) (b : Busy) : writeBack b s = some s := by
  simp only [Machine.writeBack, h.extOf]
  cases b.data <;> rfl

theorem SlotsFree.finishBusy (h : SlotsFree z s) (b : Busy) : SlotsFree z (finishBusy b s) := by
  unfold Machine.finishBusy
  dsimp only
  split
  next rid port tx hwhy =>
    split
    · exact h
    · have hfree : finishRow true tx (dataOf (busyOfReq s rid)) (dropBusyReq rid s) = .fail .noAccess (dropBusyReq rid s) := by
        have hslot : Machine.extOf (dropBusyReq rid s) (oSlot tx.offset) = none := h.extOf _
        simp only [finishRow, hslot]
      rw [hfree]
      have hdrop : SlotsFree z (dropBusyReq rid s) := h.same
      exact (hdrop.forget tx _).failReq tx _
  next => exact h
  next =>
    rw [h.writeBack]
    refine (ite_self (c := _ = true) (delBusy b.slot b.tile s)).symm ▸ ?_
    exact h.same
  next =>
    rw [h.writeBack]
    exact h.same
  next => exact h.same
  next =>
    rw [h.writeBack]
    exact h.same

theorem SlotsFree.tryFinish (h : SlotsFree z s) (slot tile : Nat) : SlotsFree z (tryFinish slot tile s) := by
  unfold Machine.tryFinish
  split
  next b _ =>
    split
    · refine SlotsFree.finishBusy ?_ b
      split
      · exact h.same
      · exact h
    · exact h
  next => exact h

theorem SlotsFree.dropItemBusy (h : SlotsFree z s) (x : CtxId) : SlotsFree z (dropItemBusy x s) := by
  unfold Machine.dropItemBusy dropBusyWhere
  exact SlotsFree.foldl h.same (fun t b ht => ht.tryFinish _ _) _

/-! ### A write at the end of a command -/

/-- No address is at this home. -/
theorem SlotsFree.placeOf (h : SlotsFree z s) (a : Word64) : placeOf s a = .nowhere ∨ ∃ n slot via, placeOf s a = .away n slot via := by
  unfold Machine.placeOf
  rw [h.extOf]
  split
  · split
    · exact .inl rfl
    · exact .inr ⟨_, _, _, rfl⟩
  · exact .inl rfl

/-- A write of a tile halts: nothing lies at this home, and other homes have not answered. -/
theorem SlotsFree.ioWrite {v : IEnv} (h : SlotsFree z v.s) (a : Actor) {w : IWrite} (hr : w.res = false) (hans : v.ans = []) :
    ∃ e u, ioWrite a w v = .error e u ∧ SlotsFree z u.s := by
  have hgate : ioGate a w.base w.tile 1 v = .ok () v ∨ ∃ e, ioGate a w.base w.tile 1 v = .error e v := by
    unfold ioGate
    split
    · exact .inr ⟨_, rfl⟩
    · exact .inl rfl
  unfold Machine.ioWrite
  simp only [bind, EStateM.bind, get, getThe, MonadStateOf.get, EStateM.get, hr, Bool.false_eq_true, if_false]
  rcases hgate with hg | ⟨e, hg⟩
  · simp only [hg]
    split
    · exact ⟨_, v, rfl, h⟩
    · rcases h.placeOf w.base with hp | ⟨n, slot, via, hp⟩
      · simp only [hp]
        exact ⟨_, v, rfl, h⟩
      · simp only [hp, EStateM.bind, ioAsk, nextAnswer, hans]
        refine ⟨_, _, rfl, ?_⟩
        cases via
        · exact h
        · exact h.same
  · simp only [hg]
    exact ⟨e, v, rfl, h⟩

/-- A failing write at the end of a command leaves nothing behind (R164). -/
theorem SlotsFree.keptWrites (h : SlotsFree z s) (a : Actor) {w : IWrite} (hr : w.res = false) (n : Nat) :
    keptWrites a n [w] s = s := by
  obtain ⟨e, u, hu, -⟩ := SlotsFree.ioWrite (v := { s := s, ans := [], asks := [] }) h a hr rfl
  simp only [Machine.keptWrites, hu, ite_self]

/-- A write at the end of a command needs no recall. -/
theorem SlotsFree.ioReady {v : IEnv} (h : SlotsFree z v.s) (a : Actor) {w : IWrite} (hr : w.res = false) :
    ioReady a [w] v = .ok () v := by
  rcases h.placeOf w.base with hp | ⟨n, slot, via, hp⟩ <;>
    simp [Machine.ioReady, bind, EStateM.bind, get, getThe, MonadStateOf.get, EStateM.get, pure, EStateM.pure, hr, hp, ioClaim,
      writeAccs, claimTiles, claimEach]

/-- A write at the end of a command halts. -/
theorem SlotsFree.ioWrites (h : SlotsFree z s) {a : Actor} (hw : a.wild = false) (hs : a.stop = false) {w : IWrite}
    (hr : w.res = false) : ∃ e u, ioWrites a [w] { s := s, ans := [], asks := [] } = .error e u ∧ SlotsFree z u.s := by
  obtain ⟨e, u, hu, hfree⟩ := SlotsFree.ioWrite (v := { s := s, ans := [], asks := [] }) h a hr rfl
  have hready := SlotsFree.ioReady (v := { s := s, ans := [], asks := [] }) h a hr
  have hone : [w].forM (Machine.ioWrite a) { s := s, ans := [], asks := [] } = .error e u := by
    simp [bind, EStateM.bind, hu]
  unfold Machine.ioWrites ioPerform
  simp only [bind, EStateM.bind, ioWild, hw, hs, pure, EStateM.pure, hready, hone, Bool.false_eq_true, if_false]
  cases e with
  | wait => exact ⟨_, _, rfl, hfree⟩
  | fail st d =>
    refine ⟨_, _, rfl, ?_⟩
    have hkept : SlotsFree z { s with free := s.free + 1 } := h.same
    show SlotsFree z (Machine.keptWrites a s.free [w] { s with free := s.free + 1 })
    rw [hkept.keptWrites a hr]
    exact hkept

theorem SlotsFree.runIo_halts {α : Type} {p : Io α} {e : Halt} {u : IEnv} (h : SlotsFree z s)
    (hp : p { s := s, ans := [], asks := [] } = .error e u) (hu : SlotsFree z u.s) :
    SlotsFree z (runIo p [] s).2 := by
  unfold runIo
  simp only [hp]
  cases e with
  | wait => exact hu
  | fail st d =>
    dsimp only
    split
    · exact h
    · exact hu.foldl (fun t tx ht => ht.same) _

/-! ### The end of a command -/

/-- The state of a write at the end of a command. -/
def endOutState : EndOut → State
  | .written t => t
  | .refused t => t
  | .sent _ _ t => t
  | .wait t => t

theorem SlotsFree.endWrite (h : SlotsFree z s) (qn : Nat) (q : Queue) (c : Cmd) (base : Word64) (tile off val : Nat) :
    SlotsFree z (endOutState (endWrite qn q c base tile off val s)) := by
  obtain ⟨e, u, hu, hfree⟩ := h.ioWrites (a := endActor qn q c s) rfl rfl
    (w := { base := base, tile := tile, off := off, n := 8, val := val }) rfl
  have hrun := h.runIo_halts hu hfree
  unfold Machine.endWrite
  dsimp only
  split
  next via _ _ =>
    split
    · exact h
    · cases via <;> exact h.same
  next =>
    split <;> (rename_i heq; rw [heq] at hrun)
    · exact hrun.dropItemBusy _
    · exact hrun
    · exact hrun.dropItemBusy _

theorem SlotsFree.endTurn (h : SlotsFree z s) (qn : Nat) (q : Queue) (c : Cmd) (e : EndSt) (entry : Bool) (base : Word64)
    (tile off val : Nat) : SlotsFree z (endTurn qn q c e entry base tile off val s).2 := by
  have hw := h.endWrite qn q c base tile off val
  unfold Machine.endTurn
  cases hout : Machine.endWrite qn q c base tile off val s <;> rw [hout] at hw <;> exact SlotsFree.same hw

theorem SlotsFree.endStep (h : SlotsFree z s) {qn : Nat} {q : Queue} {c : Cmd} {more : Bool}
    (hs : endStep qn q c s = some (more, t)) : SlotsFree z t := by
  unfold Machine.endStep at hs
  dsimp only at hs
  split at hs
  · exact (Prod.mk.inj (Option.some.inj hs)).2 ▸ h
  · split at hs
    · split at hs
      · exact (Option.some.inj hs ▸ h.endTurn .. : SlotsFree z (more, t).2)
      · exact (Prod.mk.inj (Option.some.inj hs)).2 ▸ h.same
    · split at hs
      · exact (Option.some.inj hs ▸ h.endTurn .. : SlotsFree z (more, t).2)
      · cases hs

theorem SlotsFree.finishCmd (h : SlotsFree z s) (qn : Nat) (c : Word32) (d : BitVec 512) (st : St) (done failed unrec : Nat) :
    SlotsFree z (finishCmd qn c d st done failed unrec s) := by
  unfold Machine.finishCmd
  split
  · exact h
  · dsimp only
    refine SlotsFree.occurIf (SlotsFree.bump (SlotsFree.ite ?_ ?_) ..) _ <;> exact h.same

theorem SlotsFree.tagRecorded (h : SlotsFree z s) (q : Queue) (qn : Nat) (c : Cmd) (st : St) : SlotsFree z (tagRecorded q qn c st s) := by
  unfold Machine.tagRecorded
  split
  · exact h
  · refine h.foldl (fun _ i ht => ?_) _
    unfold tagStage
    split
    · exact ht.same
    · exact ht

theorem SlotsFree.endRecord (h : SlotsFree z s) (qn : Nat) (q : Queue) (c : Cmd) : SlotsFree z (endRecord qn q c s) :=
  ((h.finishCmd ..).foldl (fun _ sl ht => ht.modExt sl _) c.reads).tagRecorded ..

theorem SlotsFree.endLoop (h : SlotsFree z s) (qn : Nat) (c : Word32) (n : Nat) : SlotsFree z (endLoop qn c n s) := by
  induction n generalizing s with
  | zero => exact h
  | succ n ih =>
    unfold Machine.endLoop
    split
    · exact h
    · split
      · exact h
      · split
        · exact h.endRecord ..
        next hs => exact h.endStep hs
        next hs => exact ih (h.endStep hs)

theorem SlotsFree.endAll (h : SlotsFree z s) : SlotsFree z (endAll s) := by
  refine h.foldl (fun t q ht => ht.foldl (fun u c hu => ?_) _) _
  unfold endCmd
  split
  · exact hu
  · split
    · exact hu
    · split
      · exact hu.endLoop ..
      · exact hu

/-! ### Settling -/

theorem SlotsFree.startRec (h : SlotsFree z s) (r : JRec) : SlotsFree z (startRec r s) := by
  unfold Machine.startRec
  split
  · exact h
  next g _ =>
    have hmark : SlotsFree z (markRegion r.group r.row { s with pool := { s.pool with
        journal := s.pool.journal.map (fun x => if ((matesOf s r).map (·.id)).contains x.id then { x with started := true } else x) } }) :=
      h.same
    refine SlotsFree.foldl ?_ (fun t x ht => ?_) _
    · refine (AsksOnly.foldl ?_ _ _).slotsFree ((AsksOnly.foldl ?_ _ _).slotsFree hmark)
      · exact fun t x => asksOnly_askModule 0x02 r.cls x.1 r.row [x.2] (.commit ((matesOf s r).map (·.id))) t
      · exact fun t c => asksOnly_askCol none r.part r.cls r.group g r.row c t
    · unfold clearLoss
      split
      · exact ht
      · exact ht.same

theorem SlotsFree.startRecs (h : SlotsFree z s) : SlotsFree z (startRecs s) := by
  unfold Machine.startRecs
  split
  · exact h
  · refine h.foldl (fun t r ht => ?_) _
    split
    · split
      · exact ht.startRec _
      · exact ht
    · exact ht

theorem SlotsFree.sendHeld (h : SlotsFree z s) (l : List Tx) : SlotsFree z (sendHeld l s) := by
  induction l generalizing s with
  | nil => exact h
  | cons tx rest ih =>
    refine ih ?_
    split
    · exact h
    · exact h.same

/-- What follows a step where no request waits leaves them as they are. -/
theorem SlotsFree.settle (h : SlotsFree z s) (hp : s.home.parked = []) : SlotsFree z (settle s) := by
  have hend := h.endAll
  have hquiet : leave (retireOlder (freeDead (sweepDead (Machine.endAll s)))) = Machine.endAll s := by
    rw [sweepDead_quiet (by simp [hend.entries]), freeDead_quiet (by simp [hend.entries]), retireOlder_none hend.older,
      leave_quiet hend.waiting]
  rw [Machine.settle, settleN_quiet _ hp, hquiet]
  exact (hend.sendHeld _).startRecs
end

end Sys2Proof.Machine

namespace Sys2Proof.Machine

/-! ## A field is isolated (R400) -/

theorem channelAt_retireChannel (c n : Nat) (s : State) : channelAt (retireChannel c s) n =
    if n = c then { channelAt s c with retired := true, scrubbing := false } else channelAt s n := by
  show tgetD (tset s.parts.channels c _) n _ = _
  split
  next h => rw [h, tgetD, tget_tset_same, Option.getD_some]
  next h => rw [tgetD, tget_tset_ne _ _ h]; rfl

/-- Retire a channel that works. -/
def retireWorking (t : State) (c : Nat) : State := if (channelAt t c).retired then t else retireChannel c t

theorem retireWorking_retires (t : State) (c : Nat) : (channelAt (retireWorking t c) c).retired = true := by
  unfold retireWorking
  split
  next h => exact h
  next => simp [channelAt_retireChannel]

theorem retireWorking_keeps (t : State) (c n : Nat) (h : (channelAt t n).retired = true) :
    (channelAt (retireWorking t c) n).retired = true := by
  unfold retireWorking
  split
  · exact h
  · rw [channelAt_retireChannel]
    split
    · rfl
    · exact h

/-- Only channels have been retired, and their events posted. -/
structure RetiresOnly (s t : State) : Prop where
  ext : t.ext = s.ext
  phys : t.phys = s.phys
  home : t.home = s.home
  ports : t.ports = s.ports
  listed : t.parts.parts = s.parts.parts
  waiting : t.mgmt.waiting = s.mgmt.waiting

theorem retiresOnly_foldl (l : List Nat) (s : State) : RetiresOnly s (l.foldl retireWorking s) := by
  refine List.foldlRecOn (motive := RetiresOnly s) l _ ⟨rfl, rfl, rfl, rfl, rfl, rfl⟩ fun t ht c _ => ?_
  unfold retireWorking
  split
  · exact ht
  · exact { ht with waiting := (post_waiting ..).trans ht.waiting }

/-- The channels of a field. -/
def fieldChannels (f : Nat) : List Nat := (List.range 64).map (fun i => 64 * f + i)

theorem mem_fieldChannels {f c : Nat} (h : c / 64 = f) : c ∈ fieldChannels f :=
  List.mem_map.2 ⟨c % 64, List.mem_range.2 (Nat.mod_lt c (by decide)), by rw [← h]; exact Nat.div_add_mod c 64⟩

theorem isolateField_again {f : Nat} {s : State} (h : s.phys.isolated.getLsbD f = true ∨ 8 ≤ f) : isolateField f s = s :=
  if_pos (by rcases h with h | h <;> simp [h])

/-- A field is marked isolated: its lanes are bad and its physical cores retired. -/
def fieldLost (f : Nat) (s : State) : State :=
  let lanes := (List.range 16).map (fun i => 192 + 16 * f + i) ++ (List.range 8).map (fun i => 320 + 8 * f + i)
  let t := post .fieldIsolated none [f] { s with
    phys := { s.phys with isolated := s.phys.isolated ||| BitVec.ofNat 8 (1 <<< f) },
    spindle := { s.spindle with badLanes := (s.spindle.badLanes ++ lanes).eraseDups } }
  { t with cores := { t.cores with
    phys := t.cores.phys.map (fun x => if physField x.1 = f then (x.1, { x.2 with retired := true }) else x) } }

/-- A field with nothing on it is isolated: it is marked, its channels are retired, and what follows settles. -/
theorem isolateField_bare {f : Nat} {s : State} (hi : s.phys.isolated.getLsbD f = false) (hf : f < 8) (hc : s.cores.cores = [])
    (hp : s.parts.parts = []) (hports : s.ports.ports = []) :
    isolateField f s = settle ((fieldChannels f).foldl retireWorking (fieldLost f s)) := by
  obtain ⟨t, ht⟩ : ∃ t, t = (fieldChannels f).foldl retireWorking (fieldLost f s) := ⟨_, rfl⟩
  have honly : RetiresOnly (fieldLost f s) t := ht ▸ retiresOnly_foldl (fieldChannels f) (fieldLost f s)
  have hparts : (List.range 16).foldl (fun t p => isolatePart f p t) t = t := foldl_unmoved fun p _ => by
    simp [isolatePart, honly.listed.trans hp]
  have hfault : ((List.range 24).map (fun i => 24 * f + i)).foldl (fun t n => faultPort n t) t = t := foldl_unmoved fun n _ => by
    simp [faultPort, portOf, (congrArg PortSt.ports honly.ports).trans hports]
  have hrun : isolateField f s = settle (((List.range 24).map (fun i => 24 * f + i)).foldl (fun t n => faultPort n t)
      ((List.range 16).foldl (fun t p => isolatePart f p t) ((fieldChannels f).foldl retireWorking (fieldLost f s)))) := by
    have hnot : ¬ (8 ≤ f ∨ s.phys.isolated.getLsbD f = true) := by
      rw [hi]
      exact fun h => h.elim (Nat.not_le.2 hf) Bool.false_ne_true
    unfold isolateField
    rw [if_neg hnot]
    simp only [post_cores, hc, List.filter_nil, List.map_nil, List.foldl_nil]
    rfl
  rw [hrun, ← ht, hparts, hfault]

/-- Where nothing waits and no slot is in use, the channels of an isolated field stay retired. -/
theorem isolateField_retires {f : Nat} {s : State} (hi : s.phys.isolated.getLsbD f = false) (hf : f < 8) (hc : s.cores.cores = [])
    (hp : s.parts.parts = []) (hports : s.ports.ports = []) (hparked : s.home.parked = []) (hw : s.mgmt.waiting = [])
    (he : s.ext.entries = []) (ho : s.ext.older = none) :
    (isolateField f s).phys.isolated = s.phys.isolated ||| BitVec.ofNat 8 (1 <<< f) ∧
    ∀ c, c / 64 = f → (channelAt (isolateField f s) c).retired = true := by
  obtain ⟨t, ht⟩ : ∃ t, t = (fieldChannels f).foldl retireWorking (fieldLost f s) := ⟨_, rfl⟩
  have honly : RetiresOnly (fieldLost f s) t := ht ▸ retiresOnly_foldl (fieldChannels f) (fieldLost f s)
  have hfree : SlotsFree t t := ⟨(congrArg ExtMap.entries honly.ext).trans he, (congrArg ExtMap.older honly.ext).trans ho,
    honly.waiting.trans ((post_waiting ..).trans hw), rfl, rfl⟩
  have hsettled := hfree.settle ((congrArg HomeSt.parked honly.home).trans hparked)
  rw [isolateField_bare hi hf hc hp hports, ← ht]
  refine ⟨hsettled.isolated.trans (congrArg PhysSt.isolated honly.phys), fun c hcf => ?_⟩
  have hret : (channelAt t c).retired = true := by
    rw [ht]
    exact foldl_marks (P := fun t c => (channelAt t c).retired = true) retireWorking_retires retireWorking_keeps (fieldChannels f)
      (fieldLost f s) c (mem_fieldChannels hcf)
  simpa [channelAt, hsettled.channels] using hret

end Sys2Proof.Machine

namespace Sys2Proof.Machine

/-! ## The rows of faults and recovery -/

/-- CHANNEL_FAULT of a device that carries data faults the channel. -/
theorem channelFault_row {c : Nat} {s : State} (h : dataUp s = true) : exec (.channelFault c) s = .next (faultChannel c s) :=
  congrArg Host.Outcome.next (if_pos h)

theorem mirrorResilver_row {news : MirrorNews} {s : State} (h : dataUp s = true) : exec (.mirrorResilver news) s =
    .next (match news with | .failing m copy => failCopy m copy s | .complete m => resilver m s) := by
  show execMirrorResilver news s = _
  simp only [execMirrorResilver, h]
  rfl

theorem fieldIsolated_row {f : Nat} {s : State} (h : dataUp s = true) : exec (.fieldIsolated f) s = .next (isolateField f s) :=
  congrArg Host.Outcome.next (if_pos h)

/-- Settles O39: each fault by the function that its row calls, on the cases of that function; each recovery likewise. -/
theorem partitionFaultsAndRecovery : Obligations.PartitionFaultsAndRecovery := by
  unfold Obligations.PartitionFaultsAndRecovery
  refine ⟨⟨?unit, ?channel, ?scrub, ?mirror, ?field⟩, ?complete, fun p s k n => poisonLog_named, ?ends, ?scrubbed, ?grows, ?removal,
    ?standby, ?both⟩
  case unit =>
    intro p u s
    have hrow : exec (.partitionUnitFault p u) s = .next (beginReset p true false s) := rfl
    refine ⟨fun h => hrow.trans (congrArg _ (beginReset_inactive h)), fun _ => hrow,
      fun x hx ha h1 h2 h3 h4 h5 h6 h7 h8 h9 h10 h11 => ?_⟩
    obtain ⟨hy, hpool, hboot⟩ := AtRest.beginReset_marks ⟨h1, h2, h3, h4, h5, h6, h7, h8, h9, h10, h11⟩ hx ha true false
    exact ⟨_, _, hrow, hy, rfl, rfl, hpool, hboot⟩
  case channel =>
    intro c s hup hc a
    have hrow := channelFault_row (c := c) hup
    refine ⟨fun hr => hrow.trans (congrArg _ (faultChannel_retired hr)),
      fun hr hp => hrow.trans (congrArg _ (faultChannel_unowned hr hc hp)), ?_⟩
    intro p x hr hp hx hact mirror again b
    have hfault := hrow.trans (congrArg Host.Outcome.next (faultChannel_active hr hc hp hx hact))
    refine ⟨fun h => hfault.trans (congrArg _ (if_pos ?_)), fun hu ha => hfault.trans (congrArg _ (if_neg ?_))⟩
    · exact (Bool.or_eq_true ..).mpr h
    · show ¬ (unmirrored a p x c || again) = true
      rw [hu, ha]
      exact Bool.false_ne_true
  case scrub =>
    intro c s hc hph
    have hup : dataUp s = true := by simp [dataUp, hph]
    have hno : ¬ (512 ≤ c ∨ s.boot.phase ≠ .ready) := by simp [hph, hc]
    have hrow : ∀ ok, exec (.hbmScrub c ok) s = .next (if ok then bump 3 c 10 1 s else faultChannel c s) := fun ok =>
      congrArg Host.Outcome.next (if_neg hno)
    exact ⟨hrow true, (hrow false).trans (channelFault_row hup).symm⟩
  case mirror =>
    intro m s p x hm hx ms
    refine ⟨fun hup hd => (mirrorResilver_row hup).trans (congrArg _ (resilver_whole hd)), fun copy hup ha => ?_,
      fun hup hd h1 h2 hf => (mirrorResilver_row hup).trans (congrArg _ (resilver_moves hm hx hd h1 h2 hf))⟩
    have hrow := (mirrorResilver_row (news := .failing m copy) hup).trans
      (congrArg Host.Outcome.next (failCopy_part copy hm ((partState_of hx).trans ha)))
    exact ⟨fun hd => hrow.trans (congrArg _ (if_neg (by simpa using hd))),
      fun hd => hrow.trans (congrArg _ (if_pos (by simpa using hd)))⟩
  case field =>
    intro f s hup
    exact ⟨fun h => (fieldIsolated_row hup).trans (congrArg _ (isolateField_again h)), fun _ _ => fieldIsolated_row hup,
      fun hi hf hc hp hports hparked hw he ho => isolateField_retires hi hf hc hp hports hparked hw he ho⟩
  case complete =>
    intro p ok s x hx a
    have hrow := partitionResetComplete_row (ok := ok) hx
    refine ⟨fun h => hrow.trans (congrArg _ (if_pos (by simpa using h))), fun hr hs hfit => hrow.trans (congrArg _ ?_),
      fun hr hs hfit => hrow.trans (congrArg _ ?_)⟩
    · exact (if_neg (by simp [hr, hs])).trans (if_neg (by simpa using hfit))
    · exact (if_neg (by simp [hr, hs])).trans (if_pos (by simpa using hfit))
  case ends =>
    intro p s x hx hq
    exact ⟨_, endReset_listed hx hq, rfl, rfl⟩
  case scrubbed =>
    exact fun s hw => ⟨fun c => resourceScrubDone_idle rfl hw, fun c hc => resourceScrubDone_idle (if_pos hc) hw,
      fun n hp hb => resourceScrubDone_idle (scrubbed_port hp hb) hw⟩
  case grows =>
    intro s h p r c g hw a b hs hb hg
    have hgrow : resumeWait (.grow h p r) a = answered h 0x21 s.mgmt.eventSeq .ok [] true (grown p g r b) :=
      resumeWait_grow (s := a) hw hs hb hg
    have hrow : exec (.resourceScrubDone (.core c)) s = .next (settle (a.mgmt.waiting.foldl (fun t w => resumeWait w t) a)) := rfl
    rw [hrow, show a.mgmt.waiting = _ from hw, List.foldl_cons, List.foldl_nil, hgrow]
  case removal =>
    intro p s
    have hrow : exec (.removalTimeout p) s = .next (settle (((coresOf s p).filter (fun x => x.2.removing)).foldl
      (fun t x => eachCtx x.1 (hangItem 4) t) s)) := rfl
    exact ⟨fun h => by rw [hrow, leaving_none h]; rfl, fun c k h hp hr => by rw [hrow, leaving_only h hp hr]; rfl⟩
  case standby =>
    intro s hph hok hact
    rcases hact with h0 | h1
    · rw [rtpSwitchover_standby hph (left := (false, true)) (by simp [h0, hok]) (by simp [hok]) rfl]
      exact ⟨_, rfl, rfl, (if_pos h0).symm, rfl, rfl⟩
    · have h0 : s.boot.activePair ≠ 0 := by omega
      rw [rtpSwitchover_standby hph (left := (true, false)) (by simp [h1, hok]) (by simp [hok]) rfl]
      exact ⟨_, rfl, rfl, (if_neg h0).symm, rfl, rfl⟩
  case both =>
    exact fun s hph h0 hok => rtpSwitchover_both hph (by simp [h0, hok]) (by simp [hok]) rfl

end Sys2Proof.Machine
